-- ==== Sys2Proof/Word.lean ====
section
/-! DEFINITION. The word types of the AK9 and their plainest arithmetic: bytes, saturating counters, little-endian
groups (R520) and bit fields as the register tables write them. -/

namespace Sys2Proof

/-- One byte of storage. -/
abbrev Byte := BitVec 8

/-- A 16-bit counter that stops at 0xFFFF, as the counters of the register tables do. -/
def satInc16 (x : BitVec 16) : BitVec 16 := if x = 0xFFFF#16 then x else x + 1

/-- A 16-bit counter raised by `n` and held at 0xFFFF. -/
def satAdd16 (x : BitVec 16) (n : Nat) : BitVec 16 := BitVec.ofNat 16 (min 0xFFFF (x.toNat + n))

/-- An 8-bit counter that stops at 0xFF (R385). -/
def satInc8 (x : BitVec 8) : BitVec 8 := if x = 0xFF#8 then x else x + 1

/-- The number whose little-endian bytes are given (R520). -/
def leNat : List Byte → Nat
  | [] => 0
  | b :: bs => b.toNat + 256 * leNat bs

/-- The `n` little-endian bytes of a number (R520). -/
def leBytes : Nat → Nat → List Byte
  | 0, _ => []
  | n + 1, v => BitVec.ofNat 8 v :: leBytes n (v / 256)

/-- Bits [hi:lo] of a number, as the tables write bit ranges. -/
def bits (hi lo v : Nat) : Nat := (v / 2 ^ lo) % 2 ^ (hi + 1 - lo)

/-- One bit of a number. -/
def bit (i v : Nat) : Bool := v.testBit i

/-- A flag as a number. -/
def b2n (b : Bool) : Nat := if b then 1 else 0

/-- A number read as two's complement of `w` bits. -/
def sext (w v : Nat) : Int := if v % 2 ^ w < 2 ^ (w - 1) then ((v % 2 ^ w : Nat) : Int) else ((v % 2 ^ w : Nat) : Int) - (2 ^ w : Nat)

end Sys2Proof
end

