-- ==== Sys2Proof/Syntax.lean ====
section
/-! DEFINITION. The syntax of the AK9's commands: the operands, and Instr with one constructor for each row of the table
of operations and events. Index operands are bounded by their types, so that a command never names a unit the device
does not have. -/

namespace Sys2Proof

/-- A cabinet, 0 to 11 (R18). -/
abbrev Cab := Fin 12
/-- A stack, 0 to 23 (R15). -/
abbrev Stk := Fin 24
/-- A Triundoc Link port, 0 to 35 (R17). -/
abbrev Pt := Fin 36

/-- A logical bench (R37). -/
structure BenchId where
  cab : Cab
  bench : Fin 96
deriving DecidableEq, Repr

/-- An operand naming an address register: the step flag S and the register (R84). -/
structure AOp where
  step : Bool
  reg : Fin 64
deriving DecidableEq, Repr

/-- The scope of a FENCE (Table 3-8). -/
inductive FenceScope where
  | bench | device | suite
deriving DecidableEq, Repr

/-- A place that a drain marker reaches (Table 12-1). -/
inductive Place where
  | sideboard (c : Cab)
  | stack (s : Stk)
deriving DecidableEq, Repr

/-- The path of a register write (R472). -/
inductive Path where
  | host | sideband | firmware
deriving DecidableEq, Repr

/-- A unit that a fill writes (R173) and that scrubs itself (R353). -/
inductive FillUnit where
  | stack (s : Stk)
  | sideboard (c : Cab)
deriving DecidableEq, Repr

/-- An error in one symbol of a stored 32-byte word: symbol 0 to 35 and the value XORed into it (R345). Of an SRAM sector, symbols 0
to 31 are its bytes and symbol 32 + j the check bits of its 64-bit word j (R347). -/
structure SymErr where
  sym : Fin 36
  val : Byte
deriving DecidableEq, Repr

/-- The errors that a word shows on its first read and on the retry (R348). -/
structure WordErr where
  first : List SymErr
  again : List SymErr
deriving DecidableEq, Repr

/-- A 32-byte sector of the SRAM of a bench (R347): of its store, its program memory, the payload of a message in its inbox or of one that it
has sent and that is still in its outbox, the tile or the scale bytes of loader A or B, an accumulator, or an item of its shelf. -/
inductive SramPlace where
  | store (sector : Fin 131072)
  | program (sector : Fin 8192)
  | inbox (n sector : Nat)
  | outbox (n sector : Nat)
  | loader (second scales : Bool) (sector : Nat)
  | acc (n : Fin 4) (sector : Fin 512)
  | shelf (n : Nat) (sector : Fin 512)
deriving DecidableEq, Repr

/-- An error of such a sector, met as a bundle reads it (R348). -/
structure SramErr where
  place : SramPlace
  err : WordErr
deriving DecidableEq, Repr

/-- A unit whose checker fails its self-test (R352). -/
inductive TestUnit where
  | bench (c : Cab) (row : Fin 8) (col : Fin 13)
  | drawer (c : Cab) (bank : Fin 1024)
  | channel (s : Stk) (ch : Fin 32)
  | sideboard (c : Cab)
  | router (c : Cab)
  | port (p : Pt)
deriving DecidableEq, Repr

/-- Errors of the operand, score and accumulator files of a drawer that the work of a bank meets (R347, R348), and the units of the path that
takes over whose checkers fail their self-test, should the drawer be lost (R352). -/
structure FileErrs where
  errs : List WordErr
  fails : List TestUnit
deriving DecidableEq, Repr

/-- What has failed for good in a stack or its cabinet: a channel that cannot be retrained (R360), the stack controller or the cabinet
router (R371). -/
inductive LostPart where
  | channel (ch : Fin 32)
  | controller
  | router
deriving DecidableEq, Repr

/-- A power domain other than always-on (Table 15-3). -/
inductive DomainId where
  | bench (c : Cab) (row : Fin 8) (col : Fin 13)
  | sideboard (c : Cab)
  | drawer (c : Cab)
  | chest (c : Cab)
  | plain (c : Cab)
  | port (p : Pt)
  | edge (e : Fin 4)
deriving DecidableEq, Repr

/-- A temperature sensor (Table 15-9). -/
inductive SensorId where
  | bench (c : Cab) (row : Fin 8) (col : Fin 13)
  | sideboard (c : Cab) (k : Fin 4)
  | chest (c : Cab) (k : Fin 2)
  | plain (c : Cab) (k : Fin 2)
  | edge (e : Fin 4) (k : Fin 8)
  | substrate (k : Fin 16)
deriving DecidableEq, Repr

/-- A regulator (Table 15-8). -/
inductive RegulatorId where
  | cabinet (c : Cab)
  | chest (c : Cab)
  | plain (c : Cab)
  | edge (e : Fin 4)
  | ports (e : Fin 4)
  | alwaysOn
deriving DecidableEq, Repr

/-- What a start-up meets beside the spec's own steps: whether the fuse array fails its own check (R460), the units whose checkers fail
their self-test (R352) and the channels that fail training (R458; 32 is the spare). -/
structure StartUp where
  fuseFault : Bool
  failures : List TestUnit
  badChannels : List (Stk × Fin 33)
deriving DecidableEq, Repr, Inhabited

/-- A start-up that meets no failure. -/
def StartUp.clean : StartUp := { fuseFault := false, failures := [], badChannels := [] }

/-- What a follower tells its leader (R237): that its part of a step has ended, with the first fault that discarded any of it (0: none)
and its FLOOR_VOID bits (R252); that a fault there discards the step (R251), or with 0 that a HALTED bench abandons it (R63); that
FLOOR_VOID bits have come up there; that a decision has been carried out there (R335); whether it holds admissions, and whether a fenced
cabinet is a cause (R365, R373). -/
inductive FollowerTell where
  | stepEnd (fault : BitVec 16) (floorVoid : BitVec 8)
  | discard (fault : BitVec 16)
  | floorVoid (set : BitVec 8)
  | acted
  | held (on fenced : Bool)
deriving DecidableEq, Repr

/-- The length of a low pulse on RESET_N (R493). -/
inductive PulseLen where
  | short | between | long
deriving DecidableEq, Repr

/-- Where traffic of class H comes from (R400): the port it arrives at, the number of the device that sent it, and whether that is the suite
head. -/
structure Via where
  port : Pt
  src : BitVec 6
  head : Bool
deriving DecidableEq, Repr

/-- How a host access arrives: through a window of the suite head (Table 14-11; Window 4 is written through the doorbell commands and
through this), or as a class H request over a link (R400, R402). -/
inductive HostWindow where
  | w0 | w2 | w4
  | link (v : Via)
deriving DecidableEq, Repr

/-- A write of the host to the PCIe configuration of Window 2 (R518): its size, as a power of two, or Memory Space Enable. -/
inductive W2Write where
  | size (log2 : Fin 42)
  | memSpace (on : Bool)
deriving DecidableEq, Repr

/-- What a completion that returns to the suite head ends (R415): the forwarded read at a position among those outstanding, or, with the
refusal of its target, a forwarded write or doorbell. -/
inductive HostAnswer where
  | read (idx : Nat)
  | write (idx : Nat)
deriving DecidableEq, Repr

/-- A suite fence marker on its way (R332, R336): that of a bench's fence comes back to its device, on the suite head without crossing a link;
that of a fence on another device reaches the suite head; the suite head's own, for a doorbell, reaches a device, or comes back from it. -/
inductive SuiteMarker where
  | back (b : BenchId) (via : Option Via)
  | ask (dev : BitVec 6) (via : Via)
  | drain (via : Via)
  | drained (dev : BitVec 6) (via : Via)
deriving DecidableEq, Repr

/-- What a link partner shows while a port trains (Sequence 14-1): the lanes that lock, its version range, whether it
answers, its membership certificate (Table 14-6) and the signature over the transcript, its identity and port, its
offer of wire compression (R317), and the generation and width at which port group 0 would train as PCIe (Table 14-10). -/
structure Partner where
  lanes : BitVec 4
  minVersion : BitVec 8
  maxVersion : BitVec 8
  answers : Bool
  cert : List Byte
  nonce : List Byte
  signature : List Byte
  number : Option (BitVec 6)
  port : BitVec 6
  cmpVersions : BitVec 8
  cmpTx : Bool
  cmpRx : Bool
  cmpRecord : List Byte
  cmpHeld : List (List Byte)
  pcieRate : BitVec 4
  pcieWidth : BitVec 5
deriving DecidableEq, Repr

/-- A device's discovery report at the head (R405): its identity hash, and for each port its state (Table 14-14), with the
partner's id tag and port. The forwarding device and ingress port order equal hop counts (R406). -/
structure DiscReport where
  identity : BitVec 384
  ports : List (BitVec 4 × BitVec 32 × BitVec 6)
  hops : Nat
  via : BitVec 384
  ingress : BitVec 6
deriving DecidableEq, Repr

/-- The transport of an SPDM request (R467). -/
inductive SpdmTransport where
  | doe | mctp
deriving DecidableEq, Repr

/-- An SPDM request, as far as Table 16-6 supports it; `other` is any request the table does not support. -/
inductive SpdmRequest where
  | getVersion
  | getCapabilities (version : BitVec 8)
  | negotiateAlgorithms
  | getDigests
  | getCertificate (slot : BitVec 8) (offset len : BitVec 16)
  | challenge (slot : BitVec 8)
  | getMeasurements (index : BitVec 8) (signed : Bool)
  | other (code : BitVec 8)
deriving DecidableEq, Repr

/-- The commands of the AK9, one constructor per row of the table of operations and events. -/
inductive Instr where
  /-- BUNDLE_ISSUE. R86: the bench issues its next bundle, with the errors of its SRAM that it meets (R347), and whether the spare that a lasting
  one calls for passes its self-test (R39). -/
  | bundleIssue (b : BenchId) (errs : List SramErr) (spareOk : Bool)
  /-- MMA. R90. -/
  | mma (b : BenchId) (tag : BitVec 16) (acc : Fin 4) (z : Bool)
  /-- MPUSH. R90, R141, R142. -/
  | mpush (b : BenchId) (tag : BitVec 16) (acc : Fin 4) (clr : Bool)
  /-- MSTA. R90, R523. -/
  | msta (b : BenchId) (tag : BitVec 16) (acc : Fin 4) (clr : Bool) (a : AOp) (fmt : BitVec 4)
  /-- MLDA. R92. -/
  | mlda (b : BenchId) (tag : BitVec 16) (a : AOp) (fmt : BitVec 4) (tr : Bool) (sa : AOp)
  /-- MLDB. R92. -/
  | mldb (b : BenchId) (tag : BitVec 16) (a : AOp) (fmt : BitVec 4) (tr : Bool) (sa : AOp) (pw : BitVec 4)
  /-- VLD. R92. -/
  | vld (b : BenchId) (tag : BitVec 16) (vd : Fin 32) (a : AOp) (fmt : BitVec 4)
  /-- VST. R92. -/
  | vst (b : BenchId) (tag : BitVec 16) (vs : Fin 32) (a : AOp) (fmt : BitVec 4)
  /-- LDX. R92. -/
  | ldx (b : BenchId) (tag : BitVec 16) (xd : Fin 32) (a : AOp) (size : Fin 4) (sx : Bool)
  /-- STX. R92. -/
  | stx (b : BenchId) (tag : BitVec 16) (xs : Fin 32) (a : AOp) (size : Fin 4)
  /-- MOVE. R280: a COPY whose descriptor's OP is MOVE. -/
  | move (b : BenchId) (tag : BitVec 16) (a : AOp) (ct : Fin 8)
  /-- COPY_GATHER. R282: a COPY whose descriptor's OP is GATHER. -/
  | copyGather (b : BenchId) (tag : BitVec 16) (a : AOp) (ct : Fin 8)
  /-- SCATTER. R282: a COPY whose descriptor's OP is SCATTER. -/
  | scatter (b : BenchId) (tag : BitVec 16) (a : AOp) (ct : Fin 8)
  /-- TALLY. R308: a COPY whose descriptor's OP is TALLY. -/
  | tally (b : BenchId) (tag : BitVec 16) (a : AOp) (ct : Fin 8)
  /-- COPY_COMPLETE. R290: the outstanding transfer at position idx completes. -/
  | copyComplete (b : BenchId) (idx : Nat)
  /-- CWAIT. R93. -/
  | cwait (b : BenchId) (tag : BitVec 16) (ct : Fin 8) (max : BitVec 7)
  /-- FENCE. R330. -/
  | fence (b : BenchId) (tag : BitVec 16) (scope : FenceScope)
  /-- ATOM. R95. -/
  | atom (b : BenchId) (tag : BitVec 16) (op : BitVec 4) (a : AOp) (xd xs xc : Fin 32)
  /-- VPOP. R137. -/
  | vpop (b : BenchId) (tag : BitVec 16) (vd : Fin 32)
  /-- VSETL. R524. -/
  | vsetl (b : BenchId) (tag : BitVec 16) (src : Bool) (imm : BitVec 8) (xs : Fin 32)
  /-- VFMA. R130. -/
  | vfma (b : BenchId) (tag : BitVec 16) (vd va vb : Fin 32)
  /-- VBIN. R130. -/
  | vbin (b : BenchId) (tag : BitVec 16) (vd va vb : Fin 32) (func : BitVec 4) (bs : Bool)
  /-- VUN. R131. -/
  | vun (b : BenchId) (tag : BitVec 16) (vd va : Fin 32) (func : BitVec 4)
  /-- VRED. R132. -/
  | vred (b : BenchId) (tag : BitVec 16) (vd va : Fin 32) (func : BitVec 2) (half : Bool)
  /-- VSCAN. R133. -/
  | vscan (b : BenchId) (tag : BitVec 16) (vd va : Fin 32) (func : BitVec 2) (excl : Bool)
  /-- VSEGSCAN. R134. -/
  | vsegscan (b : BenchId) (tag : BitVec 16) (vd va vf : Fin 32) (func : BitVec 2) (excl : Bool)
  /-- VBCAST. R524. -/
  | vbcast (b : BenchId) (tag : BitVec 16) (vd : Fin 32) (imm : BitVec 32)
  /-- SEND. R98. -/
  | send (b : BenchId) (tag : BitVec 16) (q : Fin 8) (a : AOp) (xdest xlen : Fin 32)
  /-- RECV. R98. -/
  | recv (b : BenchId) (tag : BitVec 16) (q : Fin 8) (a : AOp) (xlen xsrc : Fin 32)
  /-- POLL. R98. -/
  | poll (b : BenchId) (tag : BitVec 16) (q : Fin 8) (xd : Fin 32)
  /-- NOP. R99. -/
  | nop (b : BenchId) (tag : BitVec 16)
  /-- MOVI. R99: the immediate, already sign-extended to 32 bits. -/
  | movi (b : BenchId) (tag : BitVec 16) (xd : Fin 32) (imm : BitVec 32)
  /-- ADDI. R99. -/
  | addi (b : BenchId) (tag : BitVec 16) (xd xa : Fin 32) (imm : BitVec 16)
  /-- ALU. R99. -/
  | alu (b : BenchId) (tag : BitVec 16) (xd xa xb : Fin 32) (func : BitVec 4)
  /-- BR. R99. -/
  | br (b : BenchId) (tag : BitVec 16) (off : BitVec 26)
  /-- BRC. R99. -/
  | brc (b : BenchId) (tag : BitVec 16) (xa : Fin 32) (cond : BitVec 2) (off : BitVec 19)
  /-- BRX. R99. -/
  | brx (b : BenchId) (tag : BitVec 16) (xa : Fin 32) (link : Bool)
  /-- SETA. R85, R99. -/
  | seta (b : BenchId) (tag : BitVec 16) (ar : Fin 64) (field : BitVec 2) (xs : Fin 32)
  /-- GETA. R99. -/
  | geta (b : BenchId) (tag : BitVec 16) (ar : Fin 64) (field : BitVec 2) (xd : Fin 32)
  /-- SETN. R99. -/
  | setn (b : BenchId) (tag : BitVec 16) (n : Fin 16) (xs : Fin 32)
  /-- GETS. R99. -/
  | gets (b : BenchId) (tag : BitVec 16) (xd : Fin 32) (sel : BitVec 4)
  /-- STEPEND. R101. -/
  | stepend (b : BenchId) (tag : BitVec 16)
  /-- HALT. R99. -/
  | halt (b : BenchId) (tag : BitVec 16)
  /-- MPUSH_BACKPRESSURE_ADMIT. R142. -/
  | mpushBackpressureAdmit (b : BenchId)
  /-- VPOP_ROWS_ARRIVE. R139. -/
  | vpopRowsArrive (b : BenchId)
  /-- MESSAGE_ARRIVAL. R47: the first message in flight from src to this bench, on its unicast or broadcast route. -/
  | messageArrival (src : BitVec 18) (b : BenchId) (bcast : Bool)
  /-- DEST_FENCED_RETURN. R43: the message from src to dst with this sequence number, which a router cannot deliver. -/
  | destFencedReturn (src dst : BitVec 18) (seq : BitVec 48)
  /-- HOST_MAILBOX_RECORD. R54. -/
  | hostMailboxRecord (src : BitVec 18)
  /-- SIDEBOARD_WRITE_MESSAGE. R169: at the sideboard of cabinet c of this device (none), or of another device, whose delivery of a
  message from here the command reports. -/
  | sideboardWriteMessage (src : BitVec 18) (dev : Option (BitVec 6)) (c : Cab)
  /-- DRAWER_REQUEST. R191. -/
  | drawerRequest (src : BitVec 18) (c : Cab)
  /-- ATTEND. R193: the work of held request idx on one bank, with the errors of the drawer's files that it meets (R347). -/
  | attend (c : Cab) (idx : Nat) (bank : Fin 1024) (files : FileErrs)
  /-- APPEND. R196. -/
  | append (c : Cab) (idx : Nat) (files : FileErrs)
  /-- GATHER. R198. -/
  | gather (c : Cab) (idx : Nat) (bank : Fin 1024) (files : FileErrs)
  /-- UPDATE. R199. -/
  | update (c : Cab) (idx : Nat) (bank : Fin 1024) (files : FileErrs)
  /-- DRAWER_COMPLETION. R192. -/
  | drawerCompletion (c : Cab) (idx : Nat)
  /-- FALLBACK_ANSWER. R210. -/
  | fallbackAnswer (src : BitVec 18) (c : Cab)
  /-- MIRROR_APPEND_ANSWER. R232. -/
  | mirrorAppendAnswer (src : BitVec 18) (c : Cab)
  /-- COMMIT. R197. -/
  | commit (c : Cab)
  /-- ABANDON. R197. -/
  | abandon (c : Cab)
  /-- ACTIVITY_CEILING_ADJUST. R201: what the chest drew over the last microsecond. -/
  | activityCeilingAdjust (c : Cab) (milliwatts : Nat)
  /-- DRAWER_LOST. R209: `fails` are the units of the path that takes over whose checkers fail their self-test (R352). -/
  | drawerLost (c : Cab) (bank : Fin 1024) (fails : List TestUnit)
  /-- REFRESH_PERFORM. R160, R203: a refresh falls due while the bank is or is not busy. -/
  | refreshPerform (s : Stk) (bank : Fin 1024) (busy : Bool)
  /-- WRITE_BATCH_DRAIN. R161. -/
  | writeBatchDrain (s : Stk) (ch : Fin 32)
  /-- WRITE_BATCH_AGE. R525. -/
  | writeBatchAge (s : Stk) (ch : Fin 32)
  /-- PATROL_SCRUB. R353: the scrub of a unit goes on to one 32-byte word, by its offset / 32, with the errors that the word shows now
  and those that its cells take on when the scrub has left it, which a later read meets. -/
  | patrolScrub (u : FillUnit) (word : BitVec 32) (now later : WordErr)
  /-- CHANNEL_RETRAIN. R357, R359: a hold and retraining of a logical channel, or (32) of the spare channel while the copy to it
  runs; whether it succeeds, and whether the last one lies within 10 ms. -/
  | channelRetrain (s : Stk) (ch : Fin 33) (ok within10 : Bool)
  /-- CHANNEL_HOLD_END. R357. -/
  | channelHoldEnd (s : Stk) (ch : Fin 32)
  /-- CHANNEL_REPAIR_HANDOVER. R358, R213. -/
  | channelRepairHandover (s : Stk)
  /-- CHANNEL_LOST. R360, R371: a lasting fault of a channel, of the stack's controller or of its cabinet's router. -/
  | channelLost (s : Stk) (part : LostPart)
  /-- DRAWER_PORT_DRAIN. R326. -/
  | drawerPortDrain (c : Cab)
  /-- DRAIN_MARKER. R331: the marker of b's fence reaches a place. -/
  | drainMarker (b : BenchId) (p : Place)
  /-- FENCE_SUITE_MARKER. R332. -/
  | fenceSuiteMarker (m : SuiteMarker)
  /-- SPARE_SWAP. R39: a lasting failure of the bench; whether its spare passes its self-test. -/
  | spareSwap (b : BenchId) (spareOk : Bool)
  /-- FILL_START. R173: a write of DEV_FILL_CTL with START. -/
  | fillStart (path : Path) (v : BitVec 32)
  /-- FILL_COMPLETE. R173. -/
  | fillComplete (u : FillUnit)
  /-- STK_ILV_WRITE. R156. -/
  | stkIlvWrite (path : Path) (s : Stk) (i : Fin 8) (v : BitVec 32)
  /-- STK_CLASS_CTL_WRITE. R175. -/
  | stkClassCtlWrite (path : Path) (s : Stk) (v : BitVec 32)
  /-- SB_AOW_WRITE. R168. -/
  | sbAowWrite (path : Path) (c : Cab) (n : Fin 16) (v : BitVec 64)
  /-- DRW_MODE_WRITE. R202. -/
  | drwModeWrite (path : Path) (c : Cab) (v : BitVec 32)
  /-- DRW_MIRROR_WRITE. R234. -/
  | drwMirrorWrite (path : Path) (c : Cab) (v : BitVec 32)
  /-- DRW_FALLBACK_WRITE. R212. -/
  | drwFallbackWrite (path : Path) (c : Cab) (v : BitVec 32)
  /-- DEV_PLAN_BASE_WRITE. R71. -/
  | devPlanBaseWrite (path : Path) (v : BitVec 64)
  /-- LOAD. R62: a write of DEV_PLAN_CTL with LOAD. -/
  | load (path : Path)
  /-- UNLOAD. R63. -/
  | unload (path : Path)
  /-- UNLOAD_STEP_TIMEOUT. R63. -/
  | unloadStepTimeout
  /-- START. R240. -/
  | start (path : Path)
  /-- HALT_REQ. R58. -/
  | haltReq (path : Path) (b : BenchId)
  /-- RESUME. R64. -/
  | resume (path : Path) (b : BenchId)
  /-- CLEAR_FAULT. R365. -/
  | clearFault (path : Path) (b : BenchId)
  /-- INBOX_FLUSH. R64. -/
  | inboxFlush (path : Path) (b : BenchId)
  /-- BENCH_CLR_COUNTS. R64. -/
  | benchClrCounts (path : Path) (b : BenchId)
  /-- INBOX_Q_WRITE. R51, R68. -/
  | inboxQWrite (path : Path) (b : BenchId) (q : Fin 8) (v : BitVec 32)
  /-- ROW_STEER_WRITE. R70. -/
  | rowSteerWrite (path : Path) (c : Cab) (v : BitVec 32)
  /-- BENCH_FAULT_READ. R66. -/
  | benchFaultRead (path : Path) (b : BenchId)
  /-- MAT_CLR_COUNTS. R127. -/
  | matClrCounts (path : Path) (b : BenchId)
  /-- FLUSH. R143: a write of SHELF_CTL with FLUSH and this MODE. -/
  | flush (path : Path) (b : BenchId) (mode : Bool)
  /-- SHELF_MODE_WRITE. R140. -/
  | shelfModeWrite (path : Path) (b : BenchId) (mode : Bool)
  /-- SHELF_CLR_COUNTS. R150. -/
  | shelfClrCounts (path : Path) (b : BenchId) (mode : Bool)
  /-- COPY_CLR_COUNTS. R295. -/
  | copyClrCounts (path : Path) (b : BenchId)
  /-- DRW_CLR_COUNTS. R216. -/
  | drwClrCounts (path : Path) (c : Cab)
  /-- HMB_BASE_WRITE. R56. -/
  | hmbBaseWrite (path : Path) (v : BitVec 64)
  /-- HMB_HEAD_WRITE. R55. -/
  | hmbHeadWrite (path : Path) (v : BitVec 32)
  /-- HMB_CLR_COUNTS. R56: a write of HMB_CTL with CLR_COUNTS. -/
  | hmbClrCounts (path : Path) (v : BitVec 32)
  /-- SEQ_BASE_WRITE. R265. -/
  | seqBaseWrite (path : Path) (result : Bool) (v : BitVec 64)
  /-- SEQ_CLR_COUNTS. R266: a write of SEQ_CTL with CLR_COUNTS. -/
  | seqClrCounts (path : Path) (v : BitVec 32)
  /-- FLOG_BASE_WRITE. R378. -/
  | flogBaseWrite (path : Path) (v : BitVec 64)
  /-- FLOG_HEAD_WRITE. R379. -/
  | flogHeadWrite (path : Path) (v : BitVec 32)
  /-- FLOG_CLR_COUNTS. R379: a write of FLOG_CTL with CLR_COUNTS. -/
  | flogClrCounts (path : Path) (v : BitVec 32)
  /-- CMP_LOAD. R312: a write of CMP_CTL with LOAD. -/
  | cmpLoad (path : Path) (v : BitVec 64)
  /-- CMP_CLR_COUNTS. R322: a write of CMP_CTL with CLR_COUNTS. -/
  | cmpClrCounts (path : Path) (v : BitVec 64)
  /-- SCRUB_CLR_COUNTS. R382: a write of SCRUB_CTL with CLR_COUNTS. -/
  | scrubClrCounts (path : Path) (s : Stk) (v : BitVec 32)
  /-- PORT_CLR_COUNTS. R418: a write of PORT_CTL with CLR_COUNTS. -/
  | portClrCounts (path : Path) (p : Pt) (v : BitVec 32)
  /-- PWR_CLR_COUNTS. R447: a write of PWR_DOM_CTL with CLR_COUNTS. -/
  | pwrClrCounts (path : Path) (d : DomainId) (v : BitVec 32)
  /-- SENSOR_SUSPECT_CLEAR. R438. -/
  | sensorSuspectClear (path : Path) (n : SensorId)
  /-- REGISTER_WRITE. R13. -/
  | registerWrite (path : Path) (off : BitVec 26) (wide : Bool) (v : BitVec 64)
  /-- DOMAIN_REQ_ON. R431: a write of PWR_DOM_CTL with this REQ. -/
  | domainReqOn (path : Path) (d : DomainId) (v : BitVec 32)
  /-- DOMAIN_REQ_RETENTION. R431: a write of PWR_DOM_CTL with this REQ. -/
  | domainReqRetention (path : Path) (d : DomainId) (v : BitVec 32)
  /-- DOMAIN_REQ_OFF. R431: a write of PWR_DOM_CTL with this REQ. -/
  | domainReqOff (path : Path) (d : DomainId) (v : BitVec 32)
  /-- DOMAIN_ENTRY_COMPLETE. R433; the channels of a stack that fail the training of R23 where it leaves OFF. -/
  | domainEntryComplete (d : DomainId) (badChannels : List (Fin 33))
  /-- DOMAIN_ON_COMPLETE. R434; the channels of a stack that fail the training of R23 (32 is the spare). -/
  | domainOnComplete (d : DomainId) (badChannels : List (Fin 33))
  /-- REGULATOR_SAMPLE. R436: the phase currents read. -/
  | regulatorSample (r : RegulatorId) (amps : List Nat)
  /-- SENSOR_READING. R438, R441: the value read, and what the start-up meets where the reading lets a pending reset through. -/
  | sensorReading (n : SensorId) (raw : BitVec 16) (up : StartUp)
  /-- THROTTLE_LOOP. R442. -/
  | throttleLoop (d : DomainId) (underVolt : Bool)
  /-- POWER_CAP_LOOP. R445: the VIN12 current averaged over 100 us, in units of 0.1 A. -/
  | powerCapLoop (deciAmps : Nat)
  /-- CMD_TAIL_DOORBELL. R239. -/
  | cmdTailDoorbell (dev : BitVec 6) (via : Option Via) (v : BitVec 32)
  /-- RESULT_HEAD_DOORBELL. R239. -/
  | resultHeadDoorbell (dev : BitVec 6) (via : Option Via) (v : BitVec 32)
  /-- SUBMIT. R241: the sequencer processes the next ring command, where it is this one. -/
  | submit
  /-- READY. R241: the sequencer processes the next ring command, where it is this one. -/
  | ready
  /-- REISSUE. R241: the sequencer processes the next ring command, where it is this one. -/
  | reissue
  /-- CANCEL. R241: the sequencer processes the next ring command, where it is this one. -/
  | cancel
  /-- DEADLINE. R241: the sequencer processes the next ring command, where it is this one. -/
  | deadline
  /-- PREFIX_DEFINE. R241: the sequencer processes the next ring command, where it is this one. -/
  | prefixDefine
  /-- PREFIX_RELEASE. R241: the sequencer processes the next ring command, where it is this one. -/
  | prefixRelease
  /-- ADAPTER_LOAD. R241: the sequencer processes the next ring command, where it is this one. -/
  | adapterLoad
  /-- TILE. R241: the sequencer processes the next ring command, where it is this one. -/
  | tile
  /-- TILE_CANCEL. R241: the sequencer processes the next ring command, where it is this one. -/
  | tileCancel
  /-- BAD_OPCODE. R241: the sequencer processes the next ring command, where it is this one. -/
  | badOpcode
  /-- STEP_ADMISSION. R244. -/
  | stepAdmission
  /-- TILE_DISPATCH. R260. -/
  | tileDispatch
  /-- TILE_COMPLETION. R261. -/
  | tileCompletion (src : BitVec 18)
  /-- TOKEN_REPORT. R249. -/
  | tokenReport (src : BitVec 18)
  /-- STEP_COMMIT_DECISION. R251. -/
  | stepCommitDecision
  /-- STEP_DISCARD. R363: the oldest discard report reaches the sequencer. -/
  | stepDiscard
  /-- BENCH_STEP_DISCARD. R365. -/
  | benchStepDiscard (b : BenchId)
  /-- FOLLOWER_SLOT_TABLE. R237. -/
  | followerSlotTable (step : BitVec 48) (template : BitVec 16) (table : List Byte)
  /-- FOLLOWER_REPORT. R237. -/
  | followerReport (dev : BitVec 6) (step : BitVec 48) (tell : FollowerTell)
  /-- FOLLOWER_DECISION. R237. -/
  | followerDecision (step : BitVec 48) (commit : Bool)
  /-- STEP_WATCHDOG_EXPIRY. R369: of the serving step, or of one tile task. -/
  | stepWatchdogExpiry (task : Option (BitVec 32))
  /-- FAULT_LOG_RECORD. R376: the oldest offered record reaches the log unit. -/
  | faultLogRecord
  /-- FRAME_RECEIVE. R389, R390: the frame's 28 units as the partner sent them, the bytes that the channel changed, each by the value
  XORed to it, and the flit slots that begin a coded piece (R318). -/
  | frameReceive (p : Pt) (frame : List Byte) (errors : List (Nat × Byte)) (pieces : BitVec 25)
  /-- NAK. R390. -/
  | nak (p : Pt) (ackSeq : BitVec 48)
  /-- LANE_DROP. R397. -/
  | laneDrop (p : Pt) (lane : Fin 4)
  /-- LANE_LOCK_LOSS. R397. -/
  | laneLockLoss (p : Pt) (lanes : BitVec 4)
  /-- REPLAY_TIMEOUT. R390. -/
  | replayTimeout (p : Pt)
  /-- PORT_TRAIN. R394. -/
  | portTrain (p : Pt) (partner : Partner)
  /-- RETRAIN. R418: a write of PORT_CTL with RETRAIN. -/
  | retrain (path : Path) (p : Pt) (v : BitVec 32)
  /-- PORT_ENABLE_WRITE. R431: a write of PORT_CTL. -/
  | portEnableWrite (path : Path) (p : Pt) (v : BitVec 32)
  /-- FAILED_PORT_RETRY. R398. -/
  | failedPortRetry (p : Pt) (partner : Partner)
  /-- AUTH_TIMEOUT. R395. -/
  | authTimeout (p : Pt)
  /-- AUTH_RETRY. R395. -/
  | authRetry (p : Pt) (partner : Partner)
  /-- RATE_WINDOW_RESTART. R401. -/
  | rateWindowRestart (p : Pt)
  /-- CRED_COMMIT. R396. -/
  | credCommit (path : Path)
  /-- DISCOVER. R405. -/
  | discover (path : Path)
  /-- DISCOVERY_START. R405. -/
  | discoveryStart
  /-- DISCOVER_MESSAGE. R405: DISCOVER from the head of this identity hash arrives at port p; which of its discoveries it belongs to. -/
  | discoverMessage (p : Pt) (head : BitVec 384) (round : BitVec 16)
  /-- DISCOVERY_REPORT. R405. -/
  | discoveryReport (r : DiscReport)
  /-- DISCOVERY_REPORT_TIMEOUT. R405. -/
  | discoveryReportTimeout
  /-- ASSIGN. R406: the number, per destination device hops and ports, and the numbers of the partners found at the device's ports. -/
  | assign (number : BitVec 6) (routes : List (Nat × Nat × List Nat)) (partners : List (Nat × Option (BitVec 6)))
  /-- RESTORE_ROUTES. R399. -/
  | restoreRoutes (path : Path)
  /-- HOST_READ. R337. -/
  | hostRead (w : HostWindow) (off : Nat) (len : Nat)
  /-- HOST_WRITE. R415. -/
  | hostWrite (w : HostWindow) (off : Nat) (data : List Byte) (poisoned : Bool)
  /-- HOST_READ_TIMEOUT. R415. -/
  | hostReadTimeout (idx : Nat)
  /-- INTERRUPT_REQUEST. R416. -/
  | interruptRequest (vector : BitVec 11) (via : Via)
  /-- PCIE_RESET. R416. -/
  | pcieReset
  /-- PERST_N_ASSERT. R495. -/
  | perstNAssert
  /-- W2_RESIZE. R518: the new size as a power of two. -/
  | w2Resize (w : W2Write)
  /-- VAUX33_RISE. R455. -/
  | vaux33Rise
  /-- VAUX33_LOSS. R491. -/
  | vaux33Loss
  /-- VIN12_LOSS. R491. -/
  | vin12Loss
  /-- SUPPLY_VALID. R456: which supplies are valid now, and what the start-up that follows meets. -/
  | supplyValid (vin12 vaux33 : Bool) (up : StartUp)
  /-- RESET_N_ASSERT. R493. -/
  | resetNAssert (len : PulseLen)
  /-- WARM. R455: a write of DEV_RESET_CTL with WARM, and what the start-up that follows meets. -/
  | warm (path : Path) (up : StartUp)
  /-- LREFCLK_LOSS. R499. -/
  | lrefclkLoss (e : Fin 4)
  /-- PREFCLK_LOSS. R499. -/
  | prefclkLoss
  /-- PROGRAM. R464: a write of FW_CTL with PROGRAM. -/
  | program (path : Path) (v : BitVec 32)
  /-- FINISH. R464. -/
  | finish (path : Path)
  /-- ABORT. R481. -/
  | abort (path : Path)
  /-- REVOKE. R462. -/
  | revoke (path : Path)
  /-- ADVANCE_SVN. R462. -/
  | advanceSvn (path : Path)
  /-- RESET_MAP. R466. -/
  | resetMap (path : Path) (key : BitVec 16)
  /-- TRIG_ARM. R475: a write of TRACE_CTL with TRIG_ARM. -/
  | trigArm (path : Path) (b : BenchId) (v : BitVec 64)
  /-- OBS_ACK_RISE. R477. -/
  | obsAckRise
  /-- OBS_ACK_FALL. R477. -/
  | obsAckFall
  /-- EXTEST. R502, R503. -/
  | extest
  /-- IDCODE. R502, R503: the instruction, and what the start-up meets where it ends a hold. -/
  | idcode (up : StartUp)
  /-- SAMPLE_PRELOAD. R502, R503: as for IDCODE. -/
  | samplePreload (up : StartUp)
  /-- BYPASS. R502: 0xFF or an unlisted code; the start-up as for IDCODE. -/
  | bypass (code : BitVec 8) (up : StartUp)
  /-- CLAMP. R503. -/
  | clamp
  /-- HIGHZ. R503. -/
  | highz
  /-- EXTEST_PULSE. R503. -/
  | extestPulse
  /-- EXTEST_TRAIN. R503. -/
  | extestTrain
  /-- TRST_N_ASSERT. R503: the start-up as for IDCODE. -/
  | trstNAssert (up : StartUp)
  /-- ENTDAA. R469. -/
  | entdaa (addr : BitVec 7)
  /-- REG_READ. R469. -/
  | regRead (off : BitVec 26) (wide : Bool)
  /-- REG_WRITE. R469. -/
  | regWrite (off : BitVec 26) (wide : Bool) (v : BitVec 64)
  /-- SET_ENDPOINT_ID. R469. -/
  | setEndpointId (eid : BitVec 8)
  /-- GET_ENDPOINT_ID. R469. -/
  | getEndpointId
  /-- GET_MESSAGE_TYPE_SUPPORT. R469. -/
  | getMessageTypeSupport
  /-- GET_MCTP_VERSION_SUPPORT. R469. -/
  | getMctpVersionSupport (type : BitVec 8)
  /-- GETTID. R469. -/
  | gettid
  /-- GETPLDMTYPES. R469. -/
  | getpldmtypes
  /-- GETPLDMCOMMANDS. R469. -/
  | getpldmcommands (type : BitVec 6)
  /-- GETPLDMVERSION. R469. -/
  | getpldmversion (type : BitVec 6)
  /-- GETSENSORREADING. R470. -/
  | getsensorreading (id : BitVec 16)
  /-- GETSTATESENSORREADINGS. R470. -/
  | getstatesensorreadings (id : BitVec 16)
  /-- GETPDR. R470. -/
  | getpdr (handle : BitVec 32)
  /-- GETPDRREPOSITORYINFO. R470. -/
  | getpdrrepositoryinfo
  /-- POLLFORPLATFORMEVENTMESSAGE. R471. -/
  | pollforplatformeventmessage
  /-- EVENTMESSAGEBUFFERSIZE. R471. -/
  | eventmessagebuffersize (size : BitVec 16)
  /-- SPDM_REQUEST. R467. -/
  | spdmRequest (tr : SpdmTransport) (req : SpdmRequest)
  /-- PLAN_LOAD_COMPLETE. R62. -/
  | planLoadComplete
  /-- CHECKER_SELFTEST_COMPLETE. R23, R352. -/
  | checkerSelftestComplete (c : Cab) (failures : List TestUnit)
  /-- FENCE_SUITE_TIMEOUT. R332. -/
  | fenceSuiteTimeout (b : BenchId)
  /-- HOST_READ_COMPLETION. R415. -/
  | hostReadCompletion (a : HostAnswer) (via : Via) (ok : Bool) (data : List Byte) (poisoned : Bool)
  /-- ASSIGN_ACKNOWLEDGEMENT. R405. -/
  | assignAcknowledgement (dev : BitVec 6) (ok : Bool)
  /-- RESET_N_RELEASE. R493, with what the start-up meets. -/
  | resetNRelease (up : StartUp)
  /-- PERST_N_RELEASE. R495: the host end of the link, as it shows while the endpoint trains. -/
  | perstNRelease (partner : Partner)
  /-- FUSE_OPERATION_COMPLETE. R461. -/
  | fuseOperationComplete
  /-- FLASH_OPERATION_COMPLETE. R464. -/
  | flashOperationComplete
  /-- OBS_SAMPLE_ON_CHANGE. R477. -/
  | obsSampleOnChange
deriving DecidableEq, Repr

end Sys2Proof
end

