-- ==== Sys2Proof/Decode.lean ====
section
/-! DEFINITION. The commands that a word spells by the bits of the table. No row of the table gives bits: a command is an operation
or an event of the block, and the slot encodings of the manual (R88) are read by the bundle decoder of Machine/Bundle.lean. -/

namespace Sys2Proof

/-- No row of the table of operations and events gives bits, so no word spells a command. -/
def decodeTableWord (_nbits _w : Nat) : Option Instr := none

end Sys2Proof
end

