-- ==== Sys2Proof/Config.lean ====
section
/-! DEFINITION. What one part fixes and the manual leaves open: the free values (constants with no body, so that nothing
is known of them) and the fused values of one device. Each is named in the assumption log. -/

namespace Sys2Proof

/-- FREE VALUE (log 5). A candidate for a transcendental or reciprocal result of a vector or drawer unit (R131, R183);
the meaning keeps it within the error bound of Table 5-2. The first argument is the function number, the second x. -/
opaque Config.unitResult : Nat → BitVec 32 → BitVec 32

/-- FREE VALUE (log 6). Whether a copy reads a sector from its read-staging buffer where it may (R327). The arguments
are the use number and the sector address. -/
opaque Config.stageHit : Nat → Nat → Bool

/-- FREE VALUE (log 7). DEV_SERIAL, fused (R461, R478). -/
opaque Config.serial : BitVec 64

/-- FREE VALUE (log 7). The SHA-384 of the public key whose hash is fused in a key slot (R461). -/
opaque Config.keyHash : Nat → BitVec 384

/-- FREE VALUE (log 7). The device secret, fused (R461): no register, observation group or message reads it. -/
opaque Config.deviceSecret : BitVec 384

/-- FREE VALUE (log 8). Random nonces and the secrets of signatures that the device makes (R395, R467): the use number and the length. -/
opaque Config.randomBytes : Nat → Nat → List Byte

/-- FREE VALUE (log 9). Digest of the boot ROM (Table 16-7, measurement 1), which the manual does not print. -/
opaque Config.bootRomDigest : BitVec 384

/-- FREE VALUE (log 10). Contents of a domain after OFF to ON, which Table 15-4 leaves undefined: the use number and
the byte's place. -/
opaque Config.undefByte : Nat → Nat → Byte

/-- FREE VALUE (log 11). The signal group descriptor and the sampled value of the test multiplexer (R476): no group
list is given. The arguments are the group id and the use number. -/
opaque Config.obsDesc : Nat → BitVec 32
opaque Config.obsSample : Nat → Nat → BitVec 32

/-- FREE VALUE (log 12). Which of two outcomes an arbiter or a RESET_N pulse between 0.5 and 1 us takes (R493). -/
opaque Config.arbiter : Nat → Bool

/-- FREE VALUE (log 50). What the start-up after a warm reset meets where a register write that is no WARM command begins it: the use
number. -/
opaque Config.startUp : Nat → StartUp

/-- FREE VALUE (log 92). Whether a bench's trace queue of four entries is full when an entry is captured (R474): the use number, the
bench and the entry's SEQ. -/
opaque Config.traceLost : Nat → Nat → Nat → Bool

/-- FREE VALUE (log 88). SB[c]_AOW[n] as the plan loader writes it from the plan's placement (R168), which no section of the image is
laid out to hold: the image, the cabinet and the region; none where the plan places none. -/
opaque Config.planAow : List Byte → Nat → Nat → Option (BitVec 64)

/-- FREE VALUE (log 99). Whether an alternate of a plan route passes through the router of another cabinet on a die that it visits (R20):
the route's number, the alternate and the cabinet. -/
opaque Config.crosses : Nat → BitVec 16 → Nat → Bool

/-- FREE VALUE (log 99). Which of the three cabinets of its intermediate die a diagonal alternate passes through (R16): the route's number
and the alternate. -/
opaque Config.viaRouter : Nat → BitVec 16 → Fin 3

/-- FREE VALUE (log 25). The 128 bytes of FEC parity of a frame's units 0 to 25 (R389), whose field and generator are not given. -/
opaque Config.frameParity : List Byte → List Byte

/-- FREE VALUE (log 47). The device that a flit of class D or H is bound for (R409), whose layout is not given: the flit's 64 bytes. -/
opaque Config.flitDest : List Byte → BitVec 6

/-- FREE VALUE (log 13). Code lengths a TALLY chooses for an exponent histogram where several codes are optimal
(R308): the use number and the histogram. -/
opaque Config.tallyTable : Nat → List Nat → List (Nat × Nat)

/-- FREE VALUE (log 27). Voltages, power and other readings the device takes of its surroundings (R454, R470): which reading,
and the use number. -/
opaque Config.supplyReading : Nat → Nat → BitVec 16

/-- FREE VALUE (log 28). What the boundary cells capture of lands whose level is no state of the device (R502), by cell: the use number. -/
opaque Config.padSample : Nat → BitVec 698

/-- FREE VALUE (log 29). Answers of management protocols whose content other standards define (R469, R470): which answer. -/
opaque Config.mgmtData : Nat → List Byte

/-- FREE VALUE (log 29). The text that the signature of an SPDM response covers, whose bytes SPDM 1.3 lays out: the use number. -/
opaque Config.spdmText : Nat → List Byte

/-- FREE VALUE (log 29). The high 16 bits of the provisional ID, which MIPI assigns (R469). -/
opaque Config.i3cVendor : BitVec 16

/-- FREE VALUE (log 33). SHA-384 of header and body of the firmware image the board was delivered with (R468), which is not printed. -/
opaque Config.deliveredDigest : BitVec 384

/-- FREE VALUE (log 34). SHA-384 of the repair map as the bureau holds it (R468), whose layout is not given whole: a function of what
the map holds. -/
opaque Config.mapDigest : List Nat → BitVec 384

/-- FREE VALUE (log 30). The certificate chain of slot 0 (R463): a function of DEV_SERIAL and of the identity public key that its device
certificate holds. -/
opaque Config.certChain : BitVec 64 → List Byte → List Byte

end Sys2Proof
end

