-- ==== Sys2Proof/Machine/Float.lean ====
section
/-! DEFINITION. Number formats (R113, Table 4-2) and their exact arithmetic: a value is decoded to an exact dyadic number,
computed with exactly, and rounded once (R117, R121, R130). -/

namespace Sys2Proof.Machine

/-- A decoded value: NaN, an infinity, or the number (−1)^neg × m × 2^e. -/
inductive FV where
  | nan
  | inf (neg : Bool)
  | fin (neg : Bool) (m : Nat) (e : Int)
deriving DecidableEq, Repr

/-- What the codes with all exponent bits set stand for (Table 4-2). -/
inductive TopCodes where
  | ieee | e4m3 | none
deriving DecidableEq, Repr

/-- Canonical NaN of FP32 (R130). -/
def canonNaN : BitVec 32 := 0x7FC00000#32

/-- Decodes a code of `eb` exponent and `mb` mantissa bits; the bias is 2^(eb−1) − 1 in every format of Table 4-2. -/
def decodeFP (eb mb : Nat) (top : TopCodes) (code : Nat) : FV :=
  let m := code % 2 ^ mb
  let e := (code / 2 ^ mb) % 2 ^ eb
  let s := (code / 2 ^ (mb + eb)) % 2 == 1
  let q : Int := 2 - (2 ^ (eb - 1) : Nat) - mb
  if e == 2 ^ eb - 1 && top == .ieee then (if m == 0 then .inf s else .nan)
  else if e == 2 ^ eb - 1 && top == .e4m3 && m == 2 ^ mb - 1 then .nan
  else if e == 0 then .fin s m q
  else .fin s (2 ^ mb + m) (q + e - 1)

/-- m / 2^k rounded to the nearest integer, ties to even. -/
def rneShift (m k : Nat) : Nat :=
  let q := m >>> k
  let r := m - (q <<< k)
  let h := 2 ^ k
  if 2 * r > h || (2 * r == h && q % 2 == 1) then q + 1 else q

/-- The magnitude code of m × 2^e rounded to nearest, ties to even, with the exponent unbounded above: a code at or beyond
(2^eb − 1) × 2^mb lies outside the format. -/
def roundMag (eb mb m : Nat) (e : Int) : Nat :=
  if m == 0 then 0 else
  let least : Int := 2 - (2 ^ (eb - 1) : Nat) - mb
  let q := max ((Nat.log2 m : Int) + e - mb) least
  let k := q - e
  let mm := if k ≤ 0 then m <<< (-k).toNat else rneShift m k.toNat
  mm + (q - least).toNat * 2 ^ mb

/-- FP32 code of a rounded number: ±infinity where the magnitude exceeds the range (R117). -/
def roundFp32 (neg : Bool) (m : Nat) (e : Int) : BitVec 32 :=
  let c := min (roundMag 8 23 m e) 0x7F800000
  BitVec.ofNat 32 (c + (if neg then 0x80000000 else 0))

/-- The value of an FP32 code. -/
def fp32 (x : BitVec 32) : FV := decodeFP 8 23 .ieee x.toNat

/-- An exact number m × 2^e with a signed m. -/
abbrev Dy := Int × Int

/-- Exact sum of two dyadic numbers. -/
def dyAdd (a b : Dy) : Dy :=
  if a.1 == 0 then b else if b.1 == 0 then a else
  if a.2 ≤ b.2 then (a.1 + b.1 * ((2 ^ (b.2 - a.2).toNat : Nat) : Int), a.2)
  else (a.1 * ((2 ^ (a.2 - b.2).toNat : Nat) : Int) + b.1, b.2)

/-- Exact product. -/
def dyMul (a b : Dy) : Dy := (a.1 * b.1, a.2 + b.2)

/-- FP32 of an exact number; an exact zero gives +0 (R117). -/
def roundDy (a : Dy) : BitVec 32 := roundFp32 (a.1 < 0) a.1.natAbs a.2

/-- The exact number of a finite value. -/
def FV.dy : FV → Dy
  | .fin s m e => (if s then -(m : Int) else m, e)
  | _ => (0, 0)

def FV.isNaN : FV → Bool
  | .nan => true
  | _ => false

def FV.isZero : FV → Bool
  | .fin _ m _ => m == 0
  | _ => false

def FV.neg : FV → Bool
  | .inf s => s
  | .fin s _ _ => s
  | .nan => false

def FV.isInf : FV → Bool
  | .inf _ => true
  | _ => false

/-- ±infinity of FP32. -/
def infOf (neg : Bool) : BitVec 32 := if neg then 0xFF800000#32 else 0x7F800000#32

/-- ±0 of FP32. -/
def zeroOf (neg : Bool) : BitVec 32 := if neg then 0x80000000#32 else 0#32

/-- a × b + c rounded once (R130). A zero sum of opposite signs is +0, as IEEE 754 rounds it. -/
def fmaFV (a b c : FV) : BitVec 32 :=
  if a.isNaN || b.isNaN || c.isNaN then canonNaN
  else if (a.isInf && b.isZero) || (a.isZero && b.isInf) then canonNaN
  else
    let ps := a.neg != b.neg
    if a.isInf || b.isInf then
      (if c.isInf && c.neg != ps then canonNaN else infOf ps)
    else if c.isInf then infOf c.neg
    else
      let p := dyMul a.dy b.dy
      let s := dyAdd p c.dy
      if s.1 == 0 then
        (if p.1 == 0 && c.isZero then zeroOf (ps && c.neg) else zeroOf false)
      else roundDy s

def one32 : FV := .fin false 1 0

def fpAdd (a b : BitVec 32) : BitVec 32 := fmaFV (fp32 a) one32 (fp32 b)

def fpNeg (a : BitVec 32) : BitVec 32 := a ^^^ 0x80000000#32

def fpSub (a b : BitVec 32) : BitVec 32 := if (fp32 b).isNaN then canonNaN else fpAdd a (fpNeg b)

/-- a × b; an exact zero keeps the sign of the product. -/
def fpMul (a b : BitVec 32) : BitVec 32 :=
  let x := fp32 a
  let y := fp32 b
  if x.isNaN || y.isNaN || (x.isInf && y.isZero) || (x.isZero && y.isInf) then canonNaN
  else
    let s := x.neg != y.neg
    if x.isInf || y.isInf then infOf s
    else
      let p := dyMul x.dy y.dy
      if p.1 == 0 then zeroOf s else roundFp32 s p.1.natAbs p.2

/-- Orders FP32 codes that are not NaN, with −0 below +0 (R130). -/
def fpKey (a : BitVec 32) : Int := if a.msb then -(((a.toNat - 0x80000000 : Nat) : Int)) - 1 else (a.toNat : Int)

def fpMax (a b : BitVec 32) : BitVec 32 :=
  if (fp32 a).isNaN || (fp32 b).isNaN then canonNaN else if fpKey a < fpKey b then b else a

def fpMin (a b : BitVec 32) : BitVec 32 :=
  if (fp32 a).isNaN || (fp32 b).isNaN then canonNaN else if fpKey b < fpKey a then b else a

/-- NaN written as the canonical NaN, anything else unchanged (R130). -/
def canon (a : BitVec 32) : BitVec 32 := if (fp32 a).isNaN then canonNaN else a

/-- Truth of a ≤ b for exact numbers. -/
def dyLe (a b : Dy) : Bool := (dyAdd b (-a.1, a.2)).1 ≥ 0

/-! ## Conversions (R89, R121) -/

/-- Bytes of one element as VLD, VST and MSTA hold it (Table 3-5). -/
def fmtBytes (fmt : BitVec 4) : Nat :=
  if fmt == 0x8#4 || fmt == 0x9#4 then 2 else if fmt == 0xC#4 then 4 else 1

/-- Value of one element code of a format (Table 4-2). -/
def elemFV (fmt : BitVec 4) (code : Nat) : FV :=
  match fmt.toNat with
  | 0x1 => decodeFP 4 3 .e4m3 code
  | 0x2 => decodeFP 5 2 .ieee code
  | 0x3 => decodeFP 4 3 .e4m3 code
  | 0x4 => decodeFP 5 2 .ieee code
  | 0x5 => decodeFP 3 2 .none code
  | 0x6 => decodeFP 2 3 .none code
  | 0x7 => decodeFP 2 1 .none code
  | 0x8 => decodeFP 8 7 .ieee code
  | 0x9 => decodeFP 5 10 .ieee code
  | 0xA => .fin (sext 8 code < 0) (sext 8 code).natAbs 0
  | _ => decodeFP 8 23 .ieee code

/-- VLD: an element as FP32, exactly; every NaN becomes the canonical NaN (R121). -/
def toFp32 (fmt : BitVec 4) (code : Nat) : BitVec 32 :=
  if fmt == 0xC#4 then canon (BitVec.ofNat 32 code) else
  match elemFV fmt code with
  | .nan => canonNaN
  | .inf s => infOf s
  | .fin s m e => if m == 0 then zeroOf (s && fmt != 0xA#4) else roundFp32 s m e

/-- A converted element with what MAT_COUNT counts of it (Table 4-5): the code, SAT and NAN. -/
structure Conv where
  code : Nat
  sat : Bool
  nan : Bool
deriving DecidableEq, Repr

/-- Conversion to a floating format of at most 16 bits: `maxCode` is the largest finite code, `infCode` what an infinity
becomes, `satInf` whether it counts in SAT. Every finite magnitude above the largest finite value counts in SAT, also one
that rounds back to it (Example 4-2; log 20). -/
def convFloat (eb mb maxCode infCode nanCode : Nat) (satInf : Bool) (x : BitVec 32) : Conv :=
  let sgn := if x.msb then 2 ^ (eb + mb) else 0
  match fp32 x with
  | .nan => ⟨nanCode, false, true⟩
  | .inf _ => ⟨infCode + sgn, satInf, false⟩
  | .fin _ m e =>
    let c := min (roundMag eb mb m e) maxCode
    let big := match decodeFP eb mb .none maxCode with
      | .fin _ mm me => !dyLe ((m : Int), e) ((mm : Int), me)
      | _ => false
    ⟨c + sgn, big, false⟩

/-- Conversion to INT8: rounded to an integer, ties to even, and held at 127 and −128 (Table 4-5). -/
def convInt8 (x : BitVec 32) : Conv :=
  match fp32 x with
  | .nan => ⟨0, false, true⟩
  | .inf s => ⟨if s then 0x80 else 0x7F, true, false⟩
  | .fin s m e =>
    let r := if e ≥ 0 then m <<< e.toNat else rneShift m (-e).toNat
    if s then (if r > 128 then ⟨0x80, true, false⟩ else ⟨(256 - r) % 256, false, false⟩)
    else (if r > 127 then ⟨0x7F, true, false⟩ else ⟨r, false, false⟩)

/-- Conversion on store from FP32 (R121, Table 4-5). -/
def fromFp32 (fmt : BitVec 4) (x : BitVec 32) : Conv :=
  match fmt.toNat with
  | 0x1 => convFloat 4 3 0x7E 0x7E 0x7F true x
  | 0x2 => convFloat 5 2 0x7B 0x7C 0x7E false x
  | 0x8 => convFloat 8 7 0x7F7F 0x7F80 0x7FC0 false x
  | 0x9 => convFloat 5 10 0x7BFF 0x7C00 0x7E00 false x
  | 0xA => convInt8 x
  | _ => ⟨x.toNat, false, false⟩

/-- FP32 rounded once to bfloat16, infinity on overflow (R95, R193). -/
def toBf16 (d : Dy) : Nat := min (roundMag 8 7 d.1.natAbs d.2) 0x7F80 + (if d.1 < 0 then 0x8000 else 0)

end Sys2Proof.Machine
end

