-- ==== Sys2Proof/Machine/Elementary.lean ====
section
/-! DEFINITION. VUN functions 3 to 7 and the drawer's exp (R131, Table 5-2, R183). The manual bounds the error and fixes the
special values; within the bound the result is a free value, a candidate of Config.unitResult that is taken where it lies in
the bound. -/

namespace Sys2Proof.Machine

/-- Fraction bits of the fixed-point approximations, far beyond FP32. -/
def fxBits : Nat := 160

/-- ⌊ln 2 × 2^160⌋. -/
def ln2Fx : Nat := 1013035739299659071135698605846798551586536899366

/-- e^r for a fixed-point r in [0, 1), by its Taylor series. -/
def expSeries : Nat → Nat → Nat → Nat → Nat
  | 0, _, _, acc => acc
  | n + 1, i, r, acc =>
    -- `acc` carries the sum of the terms before i in its upper part; the term is recomputed from the last one
    let t := acc % 2 ^ 400
    let s := acc / 2 ^ 400
    let t' := t * r / 2 ^ fxBits / i
    expSeries n (i + 1) r ((s + t') * 2 ^ 400 + t')

/-- e^r in fixed point, 0 ≤ r < 1. -/
def expFx (r : Nat) : Nat := expSeries 45 1 r (2 ^ fxBits * 2 ^ 400 + 2 ^ fxBits) / 2 ^ 400

/-- 2 × atanh(z) in fixed point, summed as 2 × Σ z^(2i+1) / (2i+1). -/
def atanhSeries : Nat → Nat → Nat → Nat → Nat → Nat
  | 0, _, _, _, s => 2 * s
  | n + 1, i, z2, p, s => atanhSeries n (i + 2) z2 (p * z2 / 2 ^ fxBits) (s + p / i)

/-- ln of a fixed-point number in [1, 2). -/
def lnFx (m : Nat) : Nat :=
  let z := (m - 2 ^ fxBits) * 2 ^ fxBits / (m + 2 ^ fxBits)
  atanhSeries 60 1 (z * z / 2 ^ fxBits) z 0

/-- Integer square root by bits, from bit n − 1 down. -/
def isqrtBits : Nat → Nat → Nat → Nat
  | 0, _, r => r
  | n + 1, v, r => if (r + 2 ^ n) * (r + 2 ^ n) ≤ v then isqrtBits n v (r + 2 ^ n) else isqrtBits n v r

/-- A fixed-point integer of the exact number a, floored. -/
def toFx (a : Dy) : Int :=
  let k := a.2 + fxBits
  if k ≥ 0 then a.1 * ((2 ^ k.toNat : Nat) : Int) else a.1.fdiv ((2 ^ (-k).toNat : Nat) : Int)

/-- A number close to e^a, well inside one part in 2^100. -/
def expDy (a : Dy) : Dy :=
  let x := toFx a
  let k := x.fdiv (ln2Fx : Int)
  let r := (x - k * (ln2Fx : Int)).toNat
  ((expFx r : Int), k - fxBits)

/-- A number close to 2^a. -/
def exp2Dy (a : Dy) : Dy :=
  let x := toFx a
  let k := x.fdiv ((2 ^ fxBits : Nat) : Int)
  let f := (x - k * ((2 ^ fxBits : Nat) : Int)).toNat
  ((expFx (f * ln2Fx / 2 ^ fxBits) : Int), k - fxBits)

/-- A number close to ln(m × 2^e), m > 0. -/
def lnDy (m : Nat) (e : Int) : Dy :=
  let b := Nat.log2 m
  let mm := m * 2 ^ fxBits / 2 ^ b
  ((lnFx mm : Int) + (e + b) * (ln2Fx : Int), -(fxBits : Int))

/-- A number close to 1 / (m × 2^e). -/
def recipDy (m : Nat) (e : Int) : Dy := (((2 ^ 200 / m : Nat) : Int), -200 - e)

/-- A number close to 1 / √(m × 2^e). -/
def rsqrtDy (m : Nat) (e : Int) : Dy :=
  let mo := if e % 2 == 0 then m else 2 * m
  let eo := if e % 2 == 0 then e else e - 1
  (((isqrtBits 200 (2 ^ 300 / mo) 0 : Nat) : Int), -150 - eo / 2)

/-- Whether code y lies within n units in the last place of the exact number a. -/
def withinUlp (n : Nat) (y : BitVec 32) (a : Dy) : Bool :=
  match fp32 y with
  | .fin s m e =>
    let least : Int := -149
    let q := max ((Nat.log2 a.1.natAbs : Int) + a.2 - 23) least
    let d := dyAdd (if s then -(m : Int) else m, e) (-a.1, a.2)
    dyLe ((d.1.natAbs : Int), d.2) ((n : Int), q)
  | _ => false

/-- A result near the exact number a, which is not 0: the free candidate where it lies within n ulp and has the sign of a, else a
rounded to nearest. -/
def nearResult (fn n : Nat) (x : BitVec 32) (a : Dy) : BitVec 32 :=
  let c := Config.unitResult fn x
  if withinUlp n c a && c.msb == decide (a.1 < 0) then c else roundDy a

/-- e^x as unit fn computes it: within 2 ulp; beyond the range +∞, far below it a subnormal or +0. -/
def expBy (fn : Nat) (x : BitVec 32) : BitVec 32 :=
  match fp32 x with
  | .nan => canonNaN
  | .inf s => if s then 0#32 else infOf false
  | .fin s m e =>
    if dyLe (89, 0) ((m : Int), e) then (if s then (if dyLe (105, 0) ((m : Int), e) then 0#32 else nearResult fn 2 x (expDy (-(m : Int), e))) else infOf false)
    else nearResult fn 2 x (expDy (if s then -(m : Int) else m, e))

/-- VUN exp (Table 5-2, FUNC 3). -/
def fpExp (x : BitVec 32) : BitVec 32 := expBy 3 x

/-- A drawer's exp, within the same bound (Table 7-1). -/
def drawerExp (x : BitVec 32) : BitVec 32 := expBy 16 x

/-- 2^x (FUNC 4): within 1 ulp, exact for an integer x from −149 to 127. -/
def fpExp2 (x : BitVec 32) : BitVec 32 :=
  match fp32 x with
  | .nan => canonNaN
  | .inf s => if s then 0#32 else infOf false
  | .fin s m e =>
    let a : Dy := (if s then -(m : Int) else m, e)
    if dyLe (128, 0) a then infOf false
    else if dyLe a (-151, 0) then 0#32
    else if e ≥ 0 || m % 2 ^ (-e).toNat == 0 then
      let k := if e ≥ 0 then a.1 * ((2 ^ e.toNat : Nat) : Int) else a.1.fdiv ((2 ^ (-e).toNat : Nat) : Int)
      roundDy (1, k)
    else nearResult 4 1 x (exp2Dy a)

/-- ln x (FUNC 5): within 2 ulp. -/
def fpLog (x : BitVec 32) : BitVec 32 :=
  match fp32 x with
  | .nan => canonNaN
  | .inf s => if s then canonNaN else infOf false
  | .fin s m e =>
    if m == 0 then infOf true
    else if s then canonNaN
    else if x == 0x3F800000#32 then 0#32
    else nearResult 5 2 x (lnDy m e)

/-- 1/√x (FUNC 6): within 1 ulp. -/
def fpRsqrt (x : BitVec 32) : BitVec 32 :=
  match fp32 x with
  | .nan => canonNaN
  | .inf s => if s then canonNaN else 0#32
  | .fin s m e =>
    if m == 0 then infOf s
    else if s then canonNaN
    else nearResult 6 1 x (rsqrtDy m e)

/-- 1/x (FUNC 7): within 1 ulp; beyond the range ±∞ as it rounds. -/
def fpRecip (x : BitVec 32) : BitVec 32 :=
  match fp32 x with
  | .nan => canonNaN
  | .inf s => zeroOf s
  | .fin s m e =>
    if m == 0 then infOf s
    else
      let r := recipDy m e
      let a : Dy := (if s then -r.1 else r.1, r.2)
      if (fp32 (roundDy a)).isInf then infOf s else nearResult 7 1 x a

end Sys2Proof.Machine
end

