-- ==== Sys2Proof/Machine/State.lean ====
section
/-! DEFINITION. The state of the AK9 as plain data: every register, store, queue, counter and pin the manual gives the
device, the commands that wait, and State.reset. Each part's docstring cites the rules that give it. Per-unit state is kept
in tables by unit number; a unit with no entry is at its reset value. -/

namespace Sys2Proof.Machine

/-- A table by number, in ascending order of the keys; a key with no entry reads as the default its reader names. -/
abbrev Tab (α : Type) := List (Nat × α)

/-- One addressed store: bytes in canonical form, the poison marks of its 32-byte sectors (R153, R170), the fill
pattern that unlisted bytes read as (R172), and, where the contents are undefined (R63, R171, Table 15-4), the number of the
free value that unlisted bytes read as. A sector inside one of the `lost` ranges [first, end) is marked unless `marks` lists it
(R360); any other is marked where `marks` lists it. -/
structure Mem where
  cells : List Host.Cell
  marks : List Nat
  lost : List (Nat × Nat)
  pattern : BitVec 64
  undef : Option Nat
deriving DecidableEq, Repr

/-! ## Benches (02, 03, 04, 05, 10, 12) -/

/-- Bench states (Table 2-5). -/
inductive BenchSt where
  | off | spare | loading | ready | running | halted | faulted | unused
deriving DecidableEq, Repr

/-- An address register (R80, R84). -/
structure AReg where
  base : BitVec 48
  off : BitVec 32
  stride : BitVec 32
  wrap : BitVec 32
  mark : Bool
deriving DecidableEq, Repr

/-- A scalar register with its mark (R80). -/
structure XReg where
  val : BitVec 64
  mark : Bool
deriving DecidableEq, Repr

/-- A vector register: lanes from lane 0 (a missing lane is 0) and the mark of each 8-lane group (R80). -/
structure VReg where
  lanes : List (BitVec 32)
  marks : BitVec 16
deriving DecidableEq, Repr

/-- A loader of the matrix engine (R80, R120, R350): format, plane width, tile and scale bytes, the numbers of the marked 32-byte
sectors of both, whether the tile was transposed, and the addresses of the loads. -/
structure Loader where
  fmt : BitVec 4
  pw : BitVec 4
  tile : List Byte
  scales : List Byte
  tileMarks : List Nat
  scaleMarks : List Nat
  tr : Bool
  addr : BitVec 48
  saddr : BitVec 48
deriving DecidableEq, Repr

/-- The architectural state of a bench (Table 3-4). The PC is an 18-bit offset, or 262,144 where the last bundle ends the
program memory (R75). ct0 to ct7 are counted from the outstanding transfers. Accumulators are
4,096 FP32 words in row order; a missing word is +0. `regTile` is loader B's 64 × 64-byte register tile: the bytes of the pass
that went through it last (R92, R289; log 96). -/
structure Arch where
  pc : Nat
  a : Tab AReg
  x : Tab XReg
  n : Tab (BitVec 24)
  vl : Nat
  v : Tab VReg
  acc : Tab (List (BitVec 32))
  la : Loader
  lb : Loader
  regTile : List Byte
deriving DecidableEq, Repr

/-- One slot instruction, as the bundle decoder reads it (Tables 3-6, 3-8, 3-10, 3-11, 3-12). `copy` carries the operation
that a copy command of the table names; a decoded COPY names none. -/
inductive SlotOp where
  | mma (acc : Fin 4) (z : Bool)
  | mpush (acc : Fin 4) (clr : Bool)
  | msta (acc : Fin 4) (clr : Bool) (a : AOp) (fmt : BitVec 4)
  | mlda (a : AOp) (fmt : BitVec 4) (tr : Bool) (sa : AOp)
  | mldb (a : AOp) (fmt : BitVec 4) (tr : Bool) (sa : AOp) (pw : BitVec 4)
  | vld (vd : Fin 32) (a : AOp) (fmt : BitVec 4)
  | vst (vs : Fin 32) (a : AOp) (fmt : BitVec 4)
  | ldx (xd : Fin 32) (a : AOp) (size : Fin 4) (sx : Bool)
  | stx (xs : Fin 32) (a : AOp) (size : Fin 4)
  | copy (a : AOp) (ct : Fin 8) (op : Option (BitVec 4))
  | cwait (ct : Fin 8) (max : BitVec 7)
  | fence (scope : FenceScope)
  | atom (op : BitVec 4) (a : AOp) (xd xs xc : Fin 32)
  | vpop (vd : Fin 32)
  | vsetl (src : Bool) (imm : BitVec 8) (xs : Fin 32)
  | vfma (vd va vb : Fin 32)
  | vbin (vd va vb : Fin 32) (func : BitVec 4) (bs : Bool)
  | vun (vd va : Fin 32) (func : BitVec 4)
  | vred (vd va : Fin 32) (func : BitVec 2) (half : Bool)
  | vscan (vd va : Fin 32) (func : BitVec 2) (excl : Bool)
  | vsegscan (vd va vf : Fin 32) (func : BitVec 2) (excl : Bool)
  | vbcast (vd : Fin 32) (imm : BitVec 32)
  | send (q : Fin 8) (a : AOp) (xdest xlen : Fin 32)
  | recv (q : Fin 8) (a : AOp) (xlen xsrc : Fin 32)
  | poll (q : Fin 8) (xd : Fin 32)
  | nop
  | movi (xd : Fin 32) (imm : BitVec 32)
  | addi (xd xa : Fin 32) (imm : BitVec 16)
  | alu (xd xa xb : Fin 32) (func : BitVec 4)
  | br (off : BitVec 26)
  | brc (xa : Fin 32) (cond : BitVec 2) (off : BitVec 19)
  | brx (xa : Fin 32) (link : Bool)
  | seta (ar : Fin 64) (field : BitVec 2) (xs : Fin 32)
  | geta (ar : Fin 64) (field : BitVec 2) (xd : Fin 32)
  | setn (n : Fin 16) (xs : Fin 32)
  | gets (xd : Fin 32) (sel : BitVec 4)
  | stepend
  | halt
deriving DecidableEq, Repr

/-- A bundle in execution: its PMASK, its slots by PMASK bit, tag, repeat selector, repeat count as it stood when the bundle
began (R86), word count after the header, and whether it was fetched (a slot command executes one slot and leaves the PC to
branches). -/
structure Bundle where
  mask : BitVec 8
  slots : List (Nat × SlotOp)
  count : Nat
  tag : BitVec 16
  rep : Fin 16
  words : Nat
  fetched : Bool
deriving DecidableEq, Repr

/-- The bundle that raised or sent something, as fault records and trace entries name it (R104, R105). -/
structure Issue where
  tag : BitVec 16
  pc : Nat
  slot : Nat
  repeated : Bool
  index : Nat
deriving DecidableEq, Repr

/-- A message in flight or queued (R41): header fields, payload, the marked 32-byte sectors of the payload, the endpoint
this copy goes to (a broadcast is expanded into one copy per bench, R44), and the bundle that sent it. -/
structure Msg where
  dest : BitVec 18
  target : BitVec 18
  bcast : Bool
  src : BitVec 18
  queue : Fin 8
  seq : BitVec 48
  tag : BitVec 16
  planId : BitVec 16
  epoch : BitVec 16
  step : BitVec 16
  payload : List Byte
  marks : List Nat
  issue : Option Issue
deriving DecidableEq, Repr

/-- A queue register (Table 2-14). -/
structure QCfg where
  epoch : BitVec 16
  chk : Bool
  cap : BitVec 8
deriving DecidableEq, Repr

/-- A tile on the shelf (R136): 4,096 FP32 words in row order and its marked 32-byte sectors (R147). -/
structure ShelfItem where
  tile : List (BitVec 32)
  marks : List Nat
deriving DecidableEq, Repr

/-- The shelf (R136–R150): items from the head, pairs popped from the head, mode, flags and counters. Of a repeat that waits at the
shelf, `popped` holds the rows its VPOP took, `rest` the tiles of its MPUSHes that are not admitted yet (none: its MPUSHes have not been
judged), and `own` counts its items on the shelf, which its own VPOP does not take (R139, R142). -/
structure Shelf where
  items : List ShelfItem
  headPair : Nat
  mode : Bool
  bpWait : Bool
  overrun : Bool
  overruns : BitVec 16
  dropped : BitVec 16
  popped : Option VReg
  rest : Option (List (List (BitVec 32)))
  own : Nat
deriving DecidableEq, Repr

/-- A transfer issued and not complete (R93, R290): counter, bundle, descriptor offset, whether it is an in-place
transposition (R289, R296), the slot and generation of each block it has queued (R313), the descriptor of one that has moved nothing yet
because a channel it reads is held (R357), and the stacks and channels that hold its writes (R164). -/
structure Transfer where
  ct : Fin 8
  issue : Issue
  desc : BitVec 48
  inPlace : Bool
  queued : List (Nat × BitVec 16)
  todo : Option (List Byte)
  wrote : List (Nat × Nat)
deriving DecidableEq, Repr

/-- A fence under way (R330): its scope, the places whose acknowledgement is awaited, whether the suite marker is, and the stacks where
the marker waits for the end of a channel's hold (R331). -/
structure FenceRun where
  scope : FenceScope
  places : List Place
  suite : Bool
  held : List Stk
deriving DecidableEq, Repr

/-- A wait of the oldest unretired bundle (Table 3-17): its kind and the bundle, retried from the repeat index. -/
structure Wait where
  kind : BitVec 3
  bundle : Bundle
deriving DecidableEq, Repr

/-- The checkpoint of a bench (R365). -/
structure Checkpoint where
  pc : Nat
  x : Tab XReg
  a : Tab AReg
  n : Tab (BitVec 24)
  vl : Nat
deriving DecidableEq, Repr

/-- Trace capture (R105, R474, R475, R483). `captured` counts entries written since ENABLE last rose. -/
structure Trace where
  ctl : BitVec 64
  armed : Bool
  stopped : Bool
  seq : BitVec 48
  dropped : BitVec 16
  captured : Nat
  events : BitVec 32
deriving DecidableEq, Repr

/-- A logical bench. `arrived` are the messages whose headers have come and that wait in the router for room in their queue, in the order
of their coming (R47); `lateMarkers` counts suite-fence markers that lost to their timeout and have not returned (R370). -/
structure Bench where
  st : BenchSt
  csv : BitVec 4
  entry : Nat
  prog : Nat
  inPlan : Bool
  arch : Arch
  repIdx : Nat
  wait : Option Wait
  atStepEnd : Bool
  awaitDiscard : Bool
  mustDiscard : Bool
  haltReq : Bool
  checkpoint : Checkpoint
  store : Mem
  program : Mem
  traceMem : Mem
  msgSeq : BitVec 48
  faultSeq : BitVec 48
  inbox : List Msg
  arrived : List Msg
  queues : Tab QCfg
  stale : BitVec 16
  oversize : BitVec 16
  dropStep : Option (BitVec 16)
  faultCode : BitVec 16
  faultOverrun : Bool
  faultPending : Bool
  faultStep : BitVec 16
  faultTag : BitVec 16
  sat : BitVec 16
  nan : BitVec 16
  shelf : Shelf
  transfers : List Transfer
  staging : List (Nat × List Byte × Bool × Bool)
  skipped : BitVec 16
  poisonSectors : BitVec 16
  fence : Option FenceRun
  fenceBench : BitVec 16
  fenceDevice : BitVec 16
  fenceSuite : BitVec 16
  lateMarkers : Nat
  trace : Trace
deriving DecidableEq, Repr

/-! ## Stacks, sideboards, drawers (06, 07, 08, 13) -/

/-- A write that a stack controller has accepted and not performed (R161, R326): its place in the banks, bytes inside one
32-byte word, mark, and whose access it is: the number of a bench, or 1,152 for the host. -/
structure HeldWrite where
  key : Nat
  data : List Byte
  mark : Bool
  owner : Option Nat
deriving DecidableEq, Repr

/-- The rows of one bank (R355, R384, R466): rows on the watch list (oldest first), and the entries of its spare rows from spare 0 on:
the row it replaces, or 0xFFFE for a retired spare; a missing entry is an unused spare, 0xFFFF. -/
structure BankRows where
  watch : List Nat
  entries : List (BitVec 16)
  pending : Bool
deriving DecidableEq, Repr

/-- An error latent in a stored word (R348): what the first read and the retry show. Words of a stack are numbered by their place
in the banks, words of a sideboard by offset / 32. -/
structure Upset where
  word : Nat
  first : List SymErr
  again : List SymErr
deriving DecidableEq, Repr

/-- A channel held for retraining (R164, R357): whether the retraining succeeds, and whether the fault is lasting. -/
structure ChanHold where
  ch : BitVec 5
  ok : Bool
  lasting : Bool
deriving DecidableEq, Repr

/-- A stack (R151–R177, R353–R361, R382–R384). `mem` holds its bytes by place in the banks (R155), so that a change of an
interleave set moves no data. `holds` are the channels held, the one held longest first; `copyCh` is the channel whose copy to the
spare runs, and `scrubAt` the word, by offset / 32, that the patrol scrub reads next (R353). -/
structure Stack where
  mem : Mem
  held : List HeldWrite
  ilv : Tab (BitVec 32)
  classCtl : BitVec 32
  filled : Bool
  trained : Bool
  holds : List ChanHold
  spareLost : Bool
  spareActive : Bool
  copying : Bool
  copyCh : BitVec 5
  logical : BitVec 5
  scrubCtl : BitVec 32
  scrubAt : Nat
  errLasting : BitVec 16
  errTransient : BitVec 16
  errUncorrectable : BitVec 16
  errRemaps : BitVec 16
  banks : Tab BankRows
  postponed : Tab Nat
  upsets : List Upset
  badChannels : List Nat
deriving DecidableEq, Repr

/-- A write accepted at a sideboard's drawer port (R326): offset, data, its marked 32-byte sectors, and whether it replaces the
contents of an accumulate-on-write region (Table 7-4). -/
structure PortWrite where
  off : Nat
  data : List Byte
  marks : List Nat
  replace : Bool
deriving DecidableEq, Repr

/-- A sideboard (R165–R171, R178, R179, R353, R362, R385). `spares` are, for each bank, the lines that its spare lines replace, by index in
the bank (R466). -/
structure Sideboard where
  mem : Mem
  dq : List PortWrite
  filled : Bool
  reserve : Nat
  aow : Tab (BitVec 64)
  uncorrectable : BitVec 8
  lasting : BitVec 8
  transient : BitVec 8
  spares : Tab (List (BitVec 16))
  scrubAt : Nat
  upsets : List Upset
deriving DecidableEq, Repr

/-- A request held by a drawer controller (R191). Once its step is the cabinet's current one it is started: `banks` are the banks
whose drawers still owe work, `toForward` and `forwarded` the lost banks whose work is to be sent to, or awaited from, the fallback
bench (R210), `answered` and `parts` what the completion reports, `mirrorWait` an awaited mirror append (R232), and `broken` says that a
record of it was not written, so that it never completes (R192, Table 7-15). -/
structure DrwReq where
  msg : Msg
  started : Bool
  banks : List Nat
  toForward : List Nat
  forwarded : List Nat
  answered : Nat
  parts : Nat
  mirrorWait : Bool
  broken : Bool
deriving DecidableEq, Repr

/-- A page entry logged in a step (R196, R233): its sideboard offset, the step, and, on a mirror, the primary cabinet. -/
structure StageEntry where
  off : Nat
  step : BitVec 16
  primary : Option Nat
deriving DecidableEq, Repr

/-- A drawer controller and its chest's drawers (R183–R217, R232–R234). `step` is the low half of the cabinet's current step
(R191), `action` the COMMIT (true) or ABANDON that the sequencer has sent and the controller not finished, with its step, `closed` the
last one that was carried out for the cabinet (R233), and `handover` the channels whose spare drawers take over between steps (R213). -/
structure Drawer where
  mode : BitVec 32
  lost : List Nat
  fallback : BitVec 32
  mirror : BitVec 32
  ceiling : Nat
  reqs : List DrwReq
  log : List StageEntry
  step : BitVec 16
  poisonWb : BitVec 16
  checkRmw : BitVec 16
  yields : BitVec 16
  staleStage : BitVec 16
  faultCode : BitVec 16
  faultBank : BitVec 10
  faultBankValid : Bool
  faultOverrun : Bool
  faultUnread : Bool
  templates : List (List Byte)
  seq : BitVec 48
  action : Option (Bool × BitVec 16)
  closed : Option (Bool × BitVec 16)
  handover : List Nat
deriving DecidableEq, Repr

/-! ## Device-wide units -/

/-- A cabinet (R21, R70, R371, R381); `tested` says that its checkers have passed their self-test since its sideboard came ON
(R23). -/
structure Cabinet where
  st : BitVec 2
  rowSteer : BitVec 32
  cause : BitVec 16
  salvageChest : Bool
  salvagePlain : Bool
  tested : Bool
deriving DecidableEq, Repr

/-- States of the plan loader (Table 2-19). -/
inductive PlanSt where
  | none | loading | loaded | running | unloading | failed
deriving DecidableEq, Repr

/-- The plan loader (R59–R63, R71–R74) and what the loaded plan fixes for the whole device (R29). `image` is the image of
the load under way; `held` says that the load waits to read it while its channel is held (R357). -/
structure Plan where
  base : BitVec 64
  st : PlanSt
  planId : BitVec 16
  lastFault : BitVec 16
  offered : BitVec 16
  cabSet : BitVec 12
  image : List Byte
  stepTimer : Bool
  held : Bool
deriving DecidableEq, Repr

/-- The host mailbox (R54–R56). -/
structure Mailbox where
  base : BitVec 64
  ctl : BitVec 32
  head : BitVec 32
  tail : BitVec 32
  dropped : BitVec 16
deriving DecidableEq, Repr

/-- A record offered to the fault log (R376): its kind (Table 13-6), the 32 bytes of Table 3-14 or 13-7, and LASTING. -/
structure LogRec where
  kind : BitVec 8
  record : List Byte
  lasting : Bool
deriving DecidableEq, Repr

/-- The log unit (R376–R380) with its record queue and the bureau's ring of lasting records (Table 13-6 entries). -/
structure FaultLog where
  base : BitVec 64
  ctl : BitVec 32
  head : BitVec 32
  tail : BitVec 32
  lost : BitVec 16
  lseq : BitVec 48
  logLost : Bool
  offered : List LogRec
  keep : Tab (List Byte)
  keepTotal : Nat
  unitSeq : Tab (BitVec 48)
deriving DecidableEq, Repr

/-- A coding table (Table 11-2): format, generation, code lengths and values. -/
structure CodeTable where
  fmt : BitVec 4
  gen : BitVec 16
  lens : List Nat
  vals : List Nat
deriving DecidableEq, Repr

/-- The compression unit (R312, R321–R323): two generations per slot and the host's load registers. -/
structure Cmp where
  newest : Tab CodeTable
  prev : Tab CodeTable
  addr : BitVec 64
  decodePoisoned : BitVec 16
  rawFallback : BitVec 16
  code : BitVec 16
  loadState : BitVec 2
deriving DecidableEq, Repr

/-- The fill engine (R173, R180–R182): registers and the units still being filled. -/
structure Fill where
  ctl : BitVec 32
  pattern : BitVec 64
  st : BitVec 2
  done : BitVec 24
  stks : List Nat
  sideboards : List Nat
deriving DecidableEq, Repr

/-- A step discard reported to the sequencer (R363): the fault code, and the step it was raised in. -/
structure Discard where
  code : BitVec 16
  step : BitVec 16
deriving DecidableEq, Repr

/-- A power domain (R430, R447–R449); `entering` is the state that an accepted request leads to and that is not reached yet (0b00
OFF, 0b10 RETENTION, 0b01 ON), `level` the level of its governing value (R440), `underVolt` the last reading of its supply monitor (R446). The
save set of Table 15-7 stays in the unit's own fields while the domain is OFF: they are its shadow (R434). -/
structure Dom where
  st : BitVec 2
  entering : Option (BitVec 2)
  capStep : BitVec 4
  discard : Bool
  lastRefuser : BitVec 16
  level : BitVec 2
  loopStep : BitVec 4
  underVolt : Bool
  belowFloor : Bool
  aborted : BitVec 16
  refused : BitVec 16
deriving DecidableEq, Repr

/-- A temperature sensor (R437–R441, R450); `hot` is set by a confirmed reading at shutdown level. -/
structure Sensor where
  raw : BitVec 16
  median : BitVec 16
  suspect : Bool
  unchecked : Bool
  level : BitVec 2
  streak : Nat
  temp : BitVec 16
  hot : Bool
deriving DecidableEq, Repr

/-- A regulator (R435, R436, R451): its current over the last two readings, the sum of the last one, the phases lost, and each phase's
consecutive readings beyond 20 %. -/
structure Regul where
  current : BitVec 12
  prev : Option Nat
  lost : List Nat
  streaks : Tab Nat
deriving DecidableEq, Repr

/-- The always-on controller's power state (15). `pcapStep` is the power-cap step, one for
all bench domains (R445), `hold` is the shutdown of Sequence 15-2, `resetPending` the reset (LAST_RESET
code) held pending under R441. -/
structure Power where
  doms : Tab Dom
  sensors : Tab Sensor
  regs : Tab Regul
  cause : BitVec 16
  limit : BitVec 9
  pcapStep : BitVec 4
  current : BitVec 16
  vinMv : BitVec 16
  vauxMv : BitVec 16
  watts : BitVec 16
  hold : Bool
  resetPending : Option (BitVec 2)
deriving DecidableEq, Repr

/-- A flit on a link: class (Table 14-3: 1 D, 2 M, 3 H), 64 bytes, two mark bits (R41), and whether it begins a coded piece (R318). -/
structure Flit where
  cls : Nat
  data : List Byte
  marks : Nat
  piece : Bool
deriving DecidableEq, Repr

/-- A frame sent (R389, R390): FSEQ, flits, and what its control unit says: ACKSEQ, CREDITS of classes D, M and H, OP. -/
structure TxFrame where
  fseq : BitVec 48
  flits : List Flit
  ack : BitVec 48
  credits : Nat × Nat × Nat
  op : Nat
deriving DecidableEq, Repr

/-- What a device has sent a link partner in an authentication (R395): its nonce, its certificate, and its signature over the transcript. -/
structure AuthSent where
  nonce : List Byte
  cert : List Byte
  signature : Option (List Byte)
deriving DecidableEq, Repr

/-- A Triundoc Link port (R388–R403, R417–R422, R317–R319, R324, R325). `out` holds flits that await credit or replay room, `unacked` the
frames kept for replay, `rx` the flits of the class M message that is arriving, `badFrame` the lanes that were bad when the awaited frame failed.
`authTold` and `rateTold` that the record of Table 14-7 was written since training and in this millisecond, `needRetrain` that the port
trains again only on RETRAIN (R352, R499). `window` counts the flits of classes D, M and H in this microsecond, `ticks` the microseconds
of this millisecond, `burst` its protocol violations. `cmpActive` is what PORT[p]_CMP_CTL held when the port trained (R317), `cred` the
credential blob that applied then (R396). `last` is the frame put on the wire last, `rxCredit` what is left of the credits issued to the
partner for the three ingress buffers (R393), `laneFrame` the LANE_DROP frame sent last (Sequence 14-2), `authSent` what the port sent
in its last authentication (R395), `lost` counts expired transmissions whose acknowledgement may still come (R391), and `apart`
says that the partner took no number (R406). -/
structure Port where
  ctl : BitVec 32
  st : BitVec 4
  version : BitVec 8
  partnerMax : BitVec 8
  lanes : BitVec 4
  authFails : BitVec 4
  degraded : Bool
  pNumber : Option (BitVec 6)
  pPort : BitVec 6
  pTag : BitVec 32
  pIdentity : BitVec 384
  rate : BitVec 32
  replays : BitVec 16
  protocol : BitVec 16
  dropped : BitVec 16
  late : BitVec 16
  burst : Nat
  txSeq : BitVec 48
  out : List Flit
  unacked : List TxFrame
  last : Option TxFrame
  laneFrame : Option TxFrame
  authSent : Option AuthSent
  txCredit : Nat × Nat × Nat
  rxCredit : Nat × Nat × Nat
  lost : Nat
  expiries : Nat
  rxSeq : BitVec 48
  nakked : Bool
  badFrame : Option (BitVec 4)
  rx : List Flit
  rxDrop : Bool
  window : Nat × Nat × Nat
  ticks : Nat
  authTold : Bool
  rateTold : Bool
  cmpCtl : BitVec 32
  cmpActive : BitVec 32
  partnerVersions : BitVec 8
  txCmp : Bool
  rxCmp : Bool
  wireReject : BitVec 16
  wirePoisoned : BitVec 16
  needRetrain : Bool
  cred : Option (List Byte)
  apart : Bool
deriving DecidableEq, Repr

/-- A plan route: its alternates (Table 14-8) and the one in use, if any (R45, R398, R408). -/
structure Route where
  alts : List (BitVec 16)
  cur : Option Nat
deriving DecidableEq, Repr

/-- A suite route: ports in ascending order and the one in use (R407). -/
structure SuiteRoute where
  hops : Nat
  ports : List Nat
  cur : Option Nat
deriving DecidableEq, Repr

/-- What the device has sent to other devices of the suite in forms whose layout the manual does not give (log 44): to followers the slot
table, the decision and a queue's epoch (R237, R261), to the leader what a follower tells (R237), DISCOVER and the reports of discovery, numbers with
their tables and their acknowledgement (R405, R406), the return of a message that met a fence (R43), answers to class H requests (R400, R415), and
suite fence markers (R332, R336): a bench's fence's to the suite head, one that follows the host's writes to a device, and the answer to
the suite head's own. -/
inductive SuiteOut where
  | slotTable (dev : Nat) (step : BitVec 48) (template : BitVec 16) (table : List Byte)
  | decision (dev : Nat) (step : BitVec 48) (commit : Bool)
  | epoch (bench : BitVec 18) (queue : Fin 8) (epoch : BitVec 16)
  | report (step : BitVec 48) (tell : FollowerTell)
  | discover (port : Nat) (head : BitVec 384) (round : BitVec 16)
  | discReport (port : Nat) (identity : BitVec 384) (ports : List (BitVec 4 × BitVec 32 × BitVec 6))
  | assign (identity : BitVec 384) (number : Nat) (routes : List (Nat × Nat × List Nat)) (partners : List (Nat × Option (BitVec 6)))
  | assignAck (ok : Bool)
  | destFenced (sender dest : BitVec 18) (seq : BitVec 48) (tag : BitVec 16)
  | hostData (bytes : List Byte) (poisoned : Bool)
  | hostRefused (code : BitVec 16) (write : Bool)
  | fence (bench : BitVec 18)
  | marker (dev : Nat)
  | drained
deriving DecidableEq, Repr

/-- Suite state (R396, R402–R407, R424, R425). `cred` is the committed credential blob, held in the bureau; `round` counts the discoveries
that this device began as a head, `answered` is the head and the discovery that it answered last as another device (R405); `plan` and
`route` tables are keyed by 128 × source (cabinet, or 12 for transit) + destination (cabinet, or 64 + device) and by device. -/
structure Suite where
  cred : Option (List Byte)
  credState : BitVec 2
  credBuf : Tab (BitVec 32)
  wins : Tab (BitVec 64)
  limits : Tab (BitVec 64)
  numbered : Bool
  head : Bool
  devices : BitVec 7
  conflict : Bool
  noHeadRole : Bool
  discovery : BitVec 2
  devs : Tab (BitVec 64)
  reports : List DiscReport
  answered : Option (BitVec 384 × BitVec 16)
  round : BitVec 16
  alternatePaths : List Nat
  assigning : List Nat
  assignFailed : Bool
  planRoutes : Tab Route
  routes : Tab SuiteRoute
  restore : Bool
  sent : List SuiteOut
deriving DecidableEq, Repr

/-- A host read forwarded to another device and not completed (R415). -/
structure HostRead where
  dev : Nat
  addr : BitVec 48
  len : Nat
deriving DecidableEq, Repr

/-- How a host access ended: no answer yet, data (with its poison), or Completer Abort (R351, R415). -/
inductive HostCpl where
  | data (bytes : List Byte) (poisoned : Bool)
  | abort
deriving DecidableEq, Repr

/-- A class H packet that leaves the suite head (R411–R416): a write or doorbell to another device. -/
structure HostFwd where
  dev : Nat
  addr : BitVec 48
  data : List Byte
  poisoned : Bool
  doorbell : Bool
deriving DecidableEq, Repr

/-- A host access in its order of arrival (R337): a read or a write, with the size of Window 2 (as a power of two) that it was accepted under
(R518), a register write or read of Window 0, a doorbell or a read of a doorbell page, whose drain of the devices it waits for has been
asked or not (R336), the suite head's marker for another device's fence, or, at a bench's own device, the marker that comes back for its
fence, and, at another device, the drain that the suite head asks for. -/
inductive HostAcc where
  | read (w : HostWindow) (off len log2 : Nat)
  | write (w : HostWindow) (off : Nat) (data : List Byte) (poisoned : Bool) (log2 : Nat)
  | regWrite (off : Nat) (wide : Bool) (v : Nat) (up : StartUp)
  | regRead (off : Nat)
  | bell (dev : Nat) (result : Bool) (v : BitVec 32) (asked : Bool)
  | page (off len : Nat) (asked : Bool)
  | mark (dev : Nat)
  | fence (bench : Nat)
  | drain
deriving DecidableEq, Repr

/-- The host bridge (R404, R411–R416, R426, R427). `cpl` is the last completion sent to the host; `sent` are the writes forwarded over
links and not known to be performed, newest last, `asked` the interrupt requests sent to the suite head, and a device's `irqs` the MSI-X
writes it issued as the suite head. `parked` are the accesses that wait in their order of arrival (R336, R337, R357), the first of them
for a held channel or a drain. `w2Log2` is the size of Window 2, `w2Next` the size that takes effect when Memory Space Enable
(`memSpace`) next goes from 0 to 1 (R518). `aerAbort` and `aerPoison` say that AER has logged a Completer Abort and a poisoned TLP (R411, R415). -/
structure Bridge where
  ctl : BitVec 32
  headSel : Bool
  linkUp : Bool
  rate : BitVec 4
  width : BitVec 5
  lastCode : BitVec 16
  refused : BitVec 16
  late : BitVec 16
  w2Log2 : Nat
  w2Next : Nat
  memSpace : Bool
  segs : Tab (BitVec 64)
  reads : List HostRead
  lateReads : Nat
  cpl : Option HostCpl
  sent : List HostFwd
  asked : List (BitVec 11)
  parked : List HostAcc
  aerAbort : Bool
  aerPoison : Bool
deriving DecidableEq, Repr

/-! ## The step sequencer (09) -/

/-- A step template (Table 9-2). -/
structure Template where
  gen : Nat
  chunks : Nat
  chunkTokens : Nat
  floorNs : Nat
deriving DecidableEq, Repr

/-- A tile kind (Table 9-3). -/
structure TileKind where
  queue : Fin 8
  cabs : BitVec 16
  first : Nat
  last : Nat
  floorNs : Nat
deriving DecidableEq, Repr

/-- The template section of the loaded plan (Table 9-1). -/
structure Section7 where
  templates : List Template
  kinds : List TileKind
  leader : Nat
  devices : BitVec 64
  slotArea : Nat
  slotSize : Nat
  vocab : Nat
  tileFloor : Nat
deriving DecidableEq, Repr

/-- Request states (Table 9-6). `retired`: the record holding the retirement entry is not yet written, so the slot is not FREE
(R242). -/
inductive ReqSt where
  | free | prompt | generating | held | retired
deriving DecidableEq, Repr

/-- A request slot (R242, Table 9-5): committed length, pending token and its position, tokens generated, step last served,
order of its SUBMIT, the state it held at the abandoned step's admission, and whether a CANCEL met it in its step. -/
structure Req where
  st : ReqSt
  clientId : BitVec 64
  handle : BitVec 64
  len : Nat
  promptAddr : BitVec 48
  promptLen : Nat
  maxNew : Nat
  deadline : BitVec 48
  seed : BitVec 64
  temperature : BitVec 32
  topP : BitVec 32
  topK : BitVec 16
  adapter : BitVec 8
  useAdapter : Bool
  logprobs : Bool
  readySets : Nat
  stops : List (BitVec 32)
  generated : Nat
  token : BitVec 32
  served : BitVec 48
  order : Nat
  heldFrom : ReqSt
  cancelled : Bool
deriving DecidableEq, Repr

/-- A prefix (R256, R257). -/
structure Prefix where
  handle : BitVec 64
  tokens : Nat
  refs : Nat
  released : Bool
deriving DecidableEq, Repr

/-- A loaded adapter slot (R258): current buffer, GEN label of each buffer, and whether the other buffer drains. -/
structure Adapter where
  current : Bool
  gen0 : BitVec 8
  gen1 : BitVec 8
  draining : Bool
deriving DecidableEq, Repr

/-- A tile task (Table 9-16), with the times it was discarded. -/
structure TileTask where
  task : BitVec 32
  kind : Nat
  affinity : BitVec 8
  affDevice : BitVec 8
  clientId : BitVec 64
  args : List Byte
  discards : Nat
deriving DecidableEq, Repr

/-- A tile task dispatched to a seat with its epoch (R261). A seat is a bench of a device of the plan: 1,152 × device + logical bench. -/
structure TileRun where
  task : TileTask
  seat : Nat
  epoch : BitVec 16
deriving DecidableEq, Repr

/-- A filled slot of the step: slot number, request, position, tokens, LAST (Table 9-8). -/
structure SlotFill where
  slot : Nat
  req : Nat
  pos : Nat
  count : Nat
  last : Bool
deriving DecidableEq, Repr

/-- A token report accepted in the step (Table 9-9). -/
structure Report where
  req : Nat
  token : BitVec 32
  logprob : BitVec 32
  top8 : List Byte
deriving DecidableEq, Repr

/-- The step in flight: template (0xFFFF for a tile phase), filled slots, retirement entries made at its admission, token
reports, result units reserved, the code that abandons it, FLOOR_VOID, watchdog multiple, followers that have not reported;
and for a tile phase the idle and running seats, seats that received END, and tile entries. `reported` says that a follower has reported
its part of the step (R237). -/
structure StepRun where
  template : Nat
  gens : List SlotFill
  chunks : List SlotFill
  promptTokens : Nat
  retired : List (Nat × List Byte)
  reports : List Report
  reserve : Nat
  abandon : Option (BitVec 16)
  floorVoid : BitVec 8
  mult : BitVec 8
  followers : List Nat
  idle : List Nat
  running : List TileRun
  ended : List Nat
  tiles : List (List Byte)
  stopping : Bool
  reported : Bool
deriving DecidableEq, Repr

/-- A record that waits to be written, and the request slots that become FREE with it (R242). -/
structure SeqRec where
  bytes : List Byte
  frees : List Nat
deriving DecidableEq, Repr

/-- The leader's word to a follower (R237): a slot table, or a decision. -/
inductive LeaderWord where
  | table (step : BitVec 48) (template : BitVec 16) (table : List Byte)
  | decision (step : BitVec 48) (commit : Bool)
deriving DecidableEq, Repr

/-- The step sequencer (R236–R272). `cmdTail` and `resultHead` are the doorbell values; `records` are records whose writing
waits for the drawers' actions or for ring room; `lateStep` says that the watchdog ended the last admitted step, `lateFollowers` and
`timedOut` the followers and the tile placements whose arrivals lost to it (R370). `admitNeeds` and `cmdNeeds` are the units of the
result ring that an admission, and a command or the end of an unload, wait for (R254). Of a leader, `acting` are the followers that have
not carried out the last decision (R335) and `heldBy` those that hold admissions, each with whether a fenced cabinet is a cause (R365,
R373); of a follower, `fromLeader` are the leader's words that wait, oldest first, `closing` says that it owes the leader word of the
decision, and `toldHeld` what it last said of holding. `unloaded` says that the record of R264 is made. -/
structure Seq where
  ctl : BitVec 32
  stepLimit : BitVec 32
  cmdBase : BitVec 64
  resultBase : BitVec 64
  cmdHead : BitVec 32
  cmdTail : BitVec 32
  resultHead : BitVec 32
  resultTail : BitVec 32
  stale : BitVec 16
  refused : BitVec 16
  rseq : BitVec 48
  reqs : Tab Req
  orders : Nat
  prefixes : List Prefix
  adapters : Tab Adapter
  tiles : List TileTask
  epoch : BitVec 16
  msgSeq : BitVec 48
  run : Option StepRun
  admitNeeds : Nat
  cmdNeeds : Nat
  records : List SeqRec
  lateStep : Bool
  lateFollowers : List Nat
  timedOut : List (BitVec 32 × BitVec 16)
  acting : List Nat
  heldBy : List (Nat × Bool)
  fromLeader : List LeaderWord
  closing : Bool
  toldHeld : Bool × Bool
  unloaded : Bool
  sec : Section7
deriving DecidableEq, Repr

/-! ## Bring-up, trust, management and debug (16, 17) -/

/-- The contents of a firmware copy (Table 16-2), its boot record among them (R459): the image the board was delivered with, known by its
header fields and the BOOT_SEQ of its record where that is valid, or the bytes written since, with the 64 KiB chunks whose programming
a reset cut short. -/
inductive FwImage where
  | delivered (svn : BitVec 8) (keySlot : BitVec 2) (record : Option (BitVec 32))
  | written (bytes : Mem) (torn : List Nat)
deriving DecidableEq, Repr

/-- One generation of an area of board flash (R466): its number, its contents, and whether its digest checks. -/
structure FlashGen (α : Type) where
  gen : BitVec 32
  content : α
  good : Bool
deriving DecidableEq, Repr

/-- The two generations of an area (Table 16-2). -/
structure FlashPair (α : Type) where
  a : FlashGen α
  b : FlashGen α
deriving DecidableEq, Repr

/-- A cabinet's part of the repair map (R466): its steering, the cause and the salvageable stacks of a fence, its lost drawers, and its
sideboard's spare lines. -/
structure MapCab where
  steer : BitVec 32
  fence : Option (BitVec 16 × Bool × Bool)
  lost : List Nat
  lines : Tab (List (BitVec 16))
deriving DecidableEq, Repr

/-- A stack's part of the repair map (R466): its channel map, and of each bank the spare entries and the retire-pending bit. -/
structure MapStk where
  active : Bool
  lost : Bool
  logical : BitVec 5
  rows : Tab (List (BitVec 16) × Bool)
deriving DecidableEq, Repr

/-- The repair map (R466): its 12 cabinets and 24 stacks. -/
structure RepairMap where
  cabs : Tab MapCab
  stks : Tab MapStk
deriving DecidableEq, Repr

/-- An operation of the flash or of the fuses that runs (R461, R464). -/
inductive FwOp where
  | program (chunk : Nat)
  | finish
  | advance (target : Nat)
  | revoke (slot : BitVec 2)
deriving DecidableEq, Repr

/-- Board flash, fuses and their update (R459–R464, R466, R481). `owner` is the path of the open update, `op` the
operation that runs, `fuseBad` what the fuse array's check showed at the last start-up. -/
structure Fw where
  copyA : FwImage
  copyB : FwImage
  map : FlashPair RepairMap
  cred : FlashPair (List Byte)
  counter : Nat
  revoked : BitVec 4
  fuseBad : Bool
  stage : Tab (BitVec 32)
  chunk : BitVec 9
  st : BitVec 2
  code : BitVec 8
  owner : Option Path
  op : Option FwOp
deriving DecidableEq, Repr

/-- Bring-up (R455–R460, R479, R490–R495): DEV_BOOT_STATUS, the supplies, the causes that hold a cold reset, a pending RESET_MAP,
the levels of HEAD_SEL_N and PERST_N, and whether the bureau's copies of repair map and credential blob are valid (Sequence 16-1, step 4). -/
structure Boot where
  stage : BitVec 4
  lastReset : BitVec 2
  copy : Bool
  fallback : Bool
  svn : BitVec 8
  keySlot : BitVec 2
  vin12 : Bool
  vaux33 : Bool
  resetLow : Bool
  scanHold : Bool
  resetMap : Bool
  headSelN : Bool
  perstLow : Bool
  copies : Bool
  selftest : BitVec 32
deriving DecidableEq, Repr

/-- The change journal (R472, R473): entries by ring position, the entries written since power-on, and the next number of each
path (host, sideband, firmware, marker). -/
structure Journal where
  ring : Tab (List Byte)
  total : Nat
  host : BitVec 48
  sideband : BitVec 48
  firmware : BitVec 48
  marker : BitVec 48
deriving DecidableEq, Repr

/-- State of an SPDM connection (R467): whether its versions have been asked for, and the version that its requests use since. -/
structure SpdmConn where
  asked : Bool
  version : Option (BitVec 8)
  capabilities : Bool
  algorithms : Bool
deriving DecidableEq, Repr

/-- An SPDM answer (Table 16-6): the error code, or the content of the response. -/
inductive SpdmAnswer where
  | error (code : BitVec 8)
  | version (entries : List (BitVec 8))
  | capabilities (certCap chalCap measSig measFresh : Bool)
  | algorithms (ecdsaP384 sha384 : Bool)
  | digests (slots : BitVec 8) (digest : BitVec 384)
  | certificate (slot : BitVec 8) (part : List Byte) (remainder : Nat)
  | challengeAuth (slot : BitVec 8) (measurements : BitVec 384) (signature : List Byte)
  | measurementCount (n : Nat)
  | measurements (blocks : List (Nat × BitVec 384)) (signature : Option (List Byte))
deriving DecidableEq, Repr

/-- A sideband answer (R469, R470): none yet, a completion code that refuses, or data. -/
inductive SideAnswer where
  | none
  | error (code : BitVec 8)
  | data (bytes : List Byte)
deriving DecidableEq, Repr

/-- The sideband, telemetry and SPDM (R467–R471): dynamic address, endpoint id, queued events with the next TSEQ, the event
message buffer, the last answers. -/
structure Mgmt where
  addr : Option (BitVec 7)
  eid : BitVec 8
  events : List (List Byte)
  tseq : BitVec 48
  bufSize : BitVec 16
  ibi : Bool
  answer : SideAnswer
  doe : SpdmConn
  mctp : SpdmConn
  doeAnswer : Option SpdmAnswer
  mctpAnswer : Option SpdmAnswer
deriving DecidableEq, Repr

/-- Instructions of the test access port (Table 17-10). -/
inductive TapIr where
  | extest | idcode | samplePreload | clamp | highz | extestPulse | extestTrain | bypass
deriving DecidableEq, Repr

/-- The data register that the instruction puts between TDI and TDO (R502): the identification register with the code it captured, the
boundary register, or the bypass bit. -/
inductive TapDr where
  | identification (code : BitVec 32)
  | boundary
  | bypass
deriving DecidableEq, Repr

/-- The test access port (R502, R503) and its boundary register of 698 cells. -/
structure Tap where
  ir : TapIr
  dr : TapDr
  boundary : BitVec 698
deriving DecidableEq, Repr

/-- The test multiplexer (R476, R477, R484, R498): control, the group in use since the last sample, pads, changes missed. -/
structure Obs where
  ctl : BitVec 32
  group : BitVec 16
  out : BitVec 32
  req : Bool
  ack : Bool
  changed : Bool
  missed : BitVec 16
deriving DecidableEq, Repr

/-- The device without its command queue. `net` are the messages in flight in this device, `away` those its units have sent to endpoints
of other devices and of which nothing has come back (R104, R330). -/
structure Dev where
  benches : Tab Bench
  cabs : Tab Cabinet
  stks : Tab Stack
  sbs : Tab Sideboard
  drawers : Tab Drawer
  plan : Plan
  hmb : Mailbox
  flog : FaultLog
  cmp : Cmp
  fill : Fill
  pwr : Power
  ports : Tab Port
  suite : Suite
  bridge : Bridge
  seq : Seq
  wdCtl : BitVec 8
  lateCount : BitVec 16
  net : List Msg
  away : List Msg
  discards : List Discard
  irqs : List (BitVec 11)
  boot : Boot
  fw : Fw
  journal : Journal
  mgmt : Mgmt
  tap : Tap
  obs : Obs
  number : BitVec 6
  step : BitVec 48
  template : BitVec 16
  free : Nat
deriving DecidableEq, Repr

/-! ## Reset values (R13, the reset columns of the register tables) -/

/-- Contents that nothing has written since reset (R171; log 14): the free value of use number 0. -/
def Mem.reset : Mem := { cells := [], marks := [], lost := [], pattern := 0, undef := some 0 }

def AReg.reset : AReg := { base := 0, off := 0, stride := 0, wrap := 0, mark := false }
def XReg.reset : XReg := { val := 0, mark := false }
def VReg.reset : VReg := { lanes := [], marks := 0 }

/-- A loader not loaded since plan load holds format code 0 (R120). -/
def Loader.reset : Loader :=
  { fmt := 0, pw := 0, tile := [], scales := [], tileMarks := [], scaleMarks := [], tr := false, addr := 0, saddr := 0 }

/-- R80: every item 0, but vl = 128; the PC is set by the plan loader. -/
def Arch.reset : Arch :=
  { pc := 0, a := [], x := [], n := [], vl := 128, v := [], acc := [], la := Loader.reset, lb := Loader.reset, regTile := [] }

def QCfg.reset : QCfg := { epoch := 0, chk := false, cap := 0 }

def Shelf.reset : Shelf :=
  { items := [], headPair := 0, mode := false, bpWait := false, overrun := false, overruns := 0, dropped := 0, popped := none, rest := none, own := 0 }

/-- TRACE_CTL resets to TAG_HI 0xFFFF and KIND_MASK 0x10 (Table 16-18). -/
def Trace.reset : Trace :=
  { ctl := 0xFFFF000000000010#64, armed := false, stopped := false, seq := 0, dropped := 0, captured := 0, events := 0 }

def Checkpoint.reset : Checkpoint := { pc := 0, x := [], a := [], n := [], vl := 128 }

/-- A bench at reset: OFF (Table 2-11), every register 0, stores undefined (Table 15-4). -/
def Bench.reset : Bench :=
  { st := .off, csv := 0, entry := 0, prog := 0, inPlan := false, arch := Arch.reset, repIdx := 0, wait := none,
    atStepEnd := false, awaitDiscard := false, mustDiscard := false, haltReq := false, checkpoint := Checkpoint.reset, store := Mem.reset, program := Mem.reset,
    traceMem := Mem.reset, msgSeq := 0, faultSeq := 0, inbox := [], arrived := [], queues := [], stale := 0, oversize := 0, dropStep := none,
    faultCode := 0, faultOverrun := false, faultPending := false, faultStep := 0, faultTag := 0, sat := 0, nan := 0,
    shelf := Shelf.reset, transfers := [], staging := [], skipped := 0, poisonSectors := 0, fence := none, fenceBench := 0,
    fenceDevice := 0, fenceSuite := 0, lateMarkers := 0, trace := Trace.reset }

def BankRows.reset : BankRows := { watch := [], entries := [], pending := false }

/-- STK[s]_ILV[i] at reset (Table 6-9): GRAN 0b010; set 0 valid from 0 to 288. -/
def ilvReset (i : Nat) : BitVec 32 := if i == 0 then 0xA4800000#32 else 0x20000000#32

def Stack.reset : Stack :=
  { mem := Mem.reset, held := [], ilv := [], classCtl := 0x00683002#32, filled := false, trained := false,
    holds := [], spareLost := false, spareActive := false, copying := false, copyCh := 0, logical := 0,
    scrubCtl := 0x1400#32, scrubAt := 0, errLasting := 0, errTransient := 0, errUncorrectable := 0, errRemaps := 0, banks := [],
    postponed := [], upsets := [], badChannels := [] }

def Sideboard.reset : Sideboard :=
  { mem := Mem.reset, dq := [], filled := false, reserve := 0, aow := [], uncorrectable := 0, lasting := 0, transient := 0,
    spares := [], scrubAt := 0, upsets := [] }

/-- DRW[c]_MODE resets to 0b01 (R202); the ceiling to 0x400 (R215). -/
def Drawer.reset : Drawer :=
  { mode := 1, lost := [], fallback := 0, mirror := 0, ceiling := 0x400, reqs := [], log := [], step := 0,
    poisonWb := 0, checkRmw := 0, yields := 0, staleStage := 0, faultCode := 0, faultBank := 0,
    faultBankValid := false, faultOverrun := false, faultUnread := false, templates := [], seq := 0, action := none, closed := none, handover := [] }

/-- ROW_STEER resets to 0xF in every row (Table 2-16). -/
def Cabinet.reset : Cabinet :=
  { st := 0, rowSteer := 0xFFFFFFFF#32, cause := 0, salvageChest := false, salvagePlain := false, tested := false }

def Plan.reset : Plan :=
  { base := 0, st := .none, planId := 0, lastFault := 0, offered := 0, cabSet := 0, image := [], stepTimer := false, held := false }

/-- SIZE_LOG2 of the mailbox and the log resets to 0x0A (Tables 2-21, 13-9). -/
def Mailbox.reset : Mailbox := { base := 0x0A, ctl := 0, head := 0, tail := 0, dropped := 0 }

def FaultLog.reset : FaultLog :=
  { base := 0x0A, ctl := 0, head := 0, tail := 0, lost := 0, lseq := 0, logLost := false, offered := [], keep := [],
    keepTotal := 0, unitSeq := [] }

def Cmp.reset : Cmp :=
  { newest := [], prev := [], addr := 0, decodePoisoned := 0, rawFallback := 0, code := 0, loadState := 0 }

def Fill.reset : Fill := { ctl := 0, pattern := 0, st := 0, done := 0, stks := [], sideboards := [] }

/-- A domain at reset: OFF (Table 15-13). -/
def Dom.reset : Dom :=
  { st := 0, entering := none, capStep := 0, discard := false, lastRefuser := 0, level := 0, loopStep := 0,
    underVolt := false, belowFloor := false, aborted := 0, refused := 0 }

def Sensor.reset : Sensor :=
  { raw := 0, median := 0, suspect := false, unchecked := false, level := 0, streak := 0, temp := 0, hot := false }

def Regul.reset : Regul := { current := 0, prev := none, lost := [], streaks := [] }

/-- LIMIT_A resets to 0x17C (Table 15-18). -/
def Power.reset : Power :=
  { doms := [], sensors := [], regs := [], cause := 0, limit := 0x17C, pcapStep := 0, current := 0,
    vinMv := 0, vauxMv := 0, watts := 0, hold := false, resetPending := none }

/-- A port at reset: DOWN, ALLOW_V12 and ENABLE at 1, LIMIT_D at 0x010 (Tables 14-13 to 14-17). -/
def Port.reset : Port :=
  { ctl := 3, st := 0, version := 0, partnerMax := 0, lanes := 0, authFails := 0, degraded := false, pNumber := none,
    pPort := 0, pTag := 0, pIdentity := 0, rate := 0x10, replays := 0, protocol := 0, dropped := 0, late := 0, burst := 0, txSeq := 0,
    out := [], unacked := [], last := none, laneFrame := none, authSent := none, txCredit := (0, 0, 0), rxCredit := (0, 0, 0), lost := 0,
    expiries := 0, rxSeq := 0,
    nakked := false, badFrame := none, rx := [],
    rxDrop := false, window := (0, 0, 0), ticks := 0, authTold := false, rateTold := false, cmpCtl := 0, cmpActive := 0,
    partnerVersions := 0, txCmp := false, rxCmp := false, wireReject := 0, wirePoisoned := 0, needRetrain := false, cred := none, apart := false }

def Suite.reset : Suite :=
  { cred := none, credState := 0, credBuf := [], wins := [], limits := [], numbered := false, head := false, devices := 0,
    conflict := false, noHeadRole := false, discovery := 0, devs := [], reports := [], answered := none, round := 0, alternatePaths := [],
    assigning := [], assignFailed := false, planRoutes := [], routes := [], restore := false, sent := [] }

/-- Window 2 is 16 GiB at reset (Table 14-11), and Memory Space Enable is 0 (PRESUMED, log 118). HEAD_SEL_N low makes this device the suite
head (R404): log 15. -/
def Bridge.reset : Bridge :=
  { ctl := 0, headSel := true, linkUp := false, rate := 0, width := 0, lastCode := 0, refused := 0, late := 0, w2Log2 := 34, w2Next := 34,
    memSpace := false, segs := [], reads := [], lateReads := 0, cpl := none, sent := [], asked := [], parked := [], aerAbort := false, aerPoison := false }

def Section7.reset : Section7 :=
  { templates := [], kinds := [], leader := 0, devices := 0, slotArea := 0, slotSize := 0, vocab := 0, tileFloor := 0 }

def Req.reset : Req :=
  { st := .free, clientId := 0, handle := 0, len := 0, promptAddr := 0, promptLen := 0, maxNew := 0, deadline := 0, seed := 0,
    temperature := 0, topP := 0, topK := 0, adapter := 0, useAdapter := false, logprobs := false, readySets := 0, stops := [],
    generated := 0, token := 0, served := 0, order := 0, heldFrom := .free, cancelled := false }

/-- SIZE_LOG2 resets to 0x06 and 0x0E (Table 9-22), STEP_LIMIT to 0xFFFF_FFFF (Table 9-21). -/
def Seq.reset : Seq :=
  { ctl := 0, stepLimit := 0xFFFFFFFF, cmdBase := 6, resultBase := 0x0E, cmdHead := 0, cmdTail := 0, resultHead := 0,
    resultTail := 0, stale := 0, refused := 0, rseq := 0, reqs := [], orders := 0, prefixes := [], adapters := [], tiles := [],
    epoch := 0, msgSeq := 0, run := none, admitNeeds := 0, cmdNeeds := 0, records := [], lateStep := false, lateFollowers := [],
    timedOut := [], acting := [], heldBy := [], fromLeader := [], closing := false, toldHeld := (false, false), unloaded := false
    sec := Section7.reset }

/-- A repair map that holds nothing. -/
def RepairMap.empty : RepairMap :=
  { cabs := (List.range 12).map (fun c => (c, { steer := 0xFFFFFFFF#32, fence := none, lost := [], lines := [] }))
    stks := (List.range 24).map (fun s => (s, { active := false, lost := false, logical := 0, rows := [] })) }

/-- An area of flash that holds no generation whose digest checks. -/
def FlashPair.blank {α : Type} (x : α) : FlashPair α := { a := ⟨0, x, false⟩, b := ⟨0, x, false⟩ }

/-- The board's flash as delivered (log 14): copy A bootable with SVN 0 under key slot 0, copy B erased, and no generation of repair map or
credential blob. -/
def Fw.reset : Fw :=
  { copyA := .delivered 0 0 (some 1)
    copyB := .written { cells := [], marks := [], lost := [], pattern := 0xFFFFFFFFFFFFFFFF#64, undef := none } []
    map := FlashPair.blank RepairMap.empty, cred := FlashPair.blank []
    counter := 0, revoked := 0, fuseBad := false, stage := [], chunk := 0, st := 0, code := 0, owner := none, op := none }

/-- VAUX33 is valid and VIN12 is not yet: bring-up has not begun (log 15). -/
def Boot.reset : Boot :=
  { stage := 0, lastReset := 0, copy := false, fallback := false, svn := 0, keySlot := 0, vin12 := false, vaux33 := true,
    resetLow := false, scanHold := false, resetMap := false, headSelN := false, perstLow := false, copies := false, selftest := 0 }

/-- The marker entry of a reset (R472): path 3, APPLIED 1. -/
def markerEntry (seq : BitVec 48) (mark : BitVec 4) : List Byte :=
  leBytes 8 (seq.toNat * 2 ^ 16 + 3 * 2 ^ 14 + 2 ^ 13 + mark.toNat * 2 ^ 8) ++ List.replicate 24 0

/-- After power-on the ring holds the marker of MARK 3. -/
def Journal.reset : Journal :=
  { ring := [(0, markerEntry 0 3)], total := 1, host := 0, sideband := 0, firmware := 0, marker := 1 }

def SpdmConn.reset : SpdmConn := { asked := false, version := none, capabilities := false, algorithms := false }

/-- EVENT buffer size and endpoint id 0 before they are set (log 18). -/
def Mgmt.reset : Mgmt :=
  { addr := none, eid := 0, events := [], tseq := 0, bufSize := 0, ibi := false, answer := .none, doe := SpdmConn.reset,
    mctp := SpdmConn.reset, doeAnswer := none, mctpAnswer := none }

/-- What IDCODE reads (R502). -/
def tapIdcode : BitVec 32 := 0xBA0095CB#32

/-- The test access port after its reset holds IDCODE (IEEE 1149.1; log 18). -/
def Tap.reset : Tap := { ir := .idcode, dr := .identification tapIdcode, boundary := 0 }

def Obs.reset : Obs := { ctl := 0, group := 0, out := 0, req := false, ack := false, changed := false, missed := 0 }

def Dev.reset : Dev :=
  { benches := [], cabs := [], stks := [], sbs := [], drawers := [], plan := Plan.reset, hmb := Mailbox.reset,
    flog := FaultLog.reset, cmp := Cmp.reset, fill := Fill.reset, pwr := Power.reset, ports := [], suite := Suite.reset,
    bridge := Bridge.reset, seq := Seq.reset, wdCtl := 4, lateCount := 0, net := [], away := [], discards := [], irqs := [],
    boot := Boot.reset, fw := Fw.reset, journal := Journal.reset, mgmt := Mgmt.reset, tap := Tap.reset, obs := Obs.reset, number := 0,
    step := 0, template := 0, free := 1 }

/-- The state: the device and the commands that wait, first in, first out. -/
structure State extends Dev where
  pending : List Instr
deriving DecidableEq, Repr

/-- The state after reset: the device at its reset values and no command waiting. -/
def State.reset : State := { Dev.reset with pending := [] }

/-- Why a step stops. -/
inductive Fault where
  /-- Raised by no meaning: the AK9 reports every error in its own state (R363, R375). Safe: it stops nothing. -/
  | machineCheck
deriving DecidableEq, Repr

/-- Why a command has no meaning. -/
inductive Refusal where
  /-- Raised by an arm of exec whose command is not modelled yet. Safe: the run stops. -/
  | notModelled (mnemonic : String)
deriving DecidableEq, Repr

end Sys2Proof.Machine
end

