-- ==== Sys2Proof/Machine/Codes.lean ====
section
/-! DEFINITION. The fault codes of Table 13-5 (R374, R375). -/

namespace Sys2Proof.Machine

/-- FLT_AKK_ENCODING. -/
def fltAkkEncoding : BitVec 16 := 0x1001#16

/-- FLT_AKK_PC. -/
def fltAkkPc : BitVec 16 := 0x1002#16

/-- FLT_AKK_BOUNDS. -/
def fltAkkBounds : BitVec 16 := 0x1003#16

/-- FLT_AKK_ALIGN. -/
def fltAkkAlign : BitVec 16 := 0x1004#16

/-- FLT_AKK_FORMAT. -/
def fltAkkFormat : BitVec 16 := 0x1005#16

/-- FLT_AKK_OPERAND. -/
def fltAkkOperand : BitVec 16 := 0x1006#16

/-- FLT_ATOMIC_SPACE. -/
def fltAtomicSpace : BitVec 16 := 0x1007#16

/-- FLT_BENCH_ADDR. -/
def fltBenchAddr : BitVec 16 := 0x1008#16

/-- FLT_BENCH_BUSY. -/
def fltBenchBusy : BitVec 16 := 0x1009#16

/-- FLT_INBOX_CFG. -/
def fltInboxCfg : BitVec 16 := 0x100A#16

/-- FLT_SHELF_FLUSHED. -/
def fltShelfFlushed : BitVec 16 := 0x100B#16

/-- FLT_BENCH_LOST. -/
def fltBenchLost : BitVec 16 := 0x1010#16

/-- FLT_MSG_UNROUTABLE. -/
def fltMsgUnroutable : BitVec 16 := 0x2001#16

/-- FLT_MSG_NO_ROUTE. -/
def fltMsgNoRoute : BitVec 16 := 0x2002#16

/-- FLT_DEST_FENCED. -/
def fltDestFenced : BitVec 16 := 0x2003#16

/-- FLT_MSG_OVERSIZE. -/
def fltMsgOversize : BitVec 16 := 0x2004#16

/-- FLT_ROUTER_LOST. -/
def fltRouterLost : BitVec 16 := 0x2010#16

/-- FLT_PLAN_BUSY. -/
def fltPlanBusy : BitVec 16 := 0x3001#16

/-- FLT_PLAN_FORMAT. -/
def fltPlanFormat : BitVec 16 := 0x3002#16

/-- FLT_PLAN_VERSION. -/
def fltPlanVersion : BitVec 16 := 0x3003#16

/-- FLT_PLAN_DIGEST. -/
def fltPlanDigest : BitVec 16 := 0x3004#16

/-- FLT_PLAN_CABINET. -/
def fltPlanCabinet : BitVec 16 := 0x3005#16

/-- FLT_PLAN_FOOTPRINT. -/
def fltPlanFootprint : BitVec 16 := 0x3006#16

/-- FLT_PLAN_SECTION. -/
def fltPlanSection : BitVec 16 := 0x3007#16

/-- FLT_CSV_VERSION. -/
def fltCsvVersion : BitVec 16 := 0x3008#16

/-- FLT_STK_ADDR. -/
def fltStkAddr : BitVec 16 := 0x4001#16

/-- FLT_ILV_CFG. -/
def fltIlvCfg : BitVec 16 := 0x4002#16

/-- FLT_STK_CFG. -/
def fltStkCfg : BitVec 16 := 0x4003#16

/-- FLT_FILL_BUSY. -/
def fltFillBusy : BitVec 16 := 0x4004#16

/-- FLT_STK_UNCORRECTABLE. -/
def fltStkUncorrectable : BitVec 16 := 0x4010#16

/-- FLT_ROW_REMAP. -/
def fltRowRemap : BitVec 16 := 0x4011#16

/-- FLT_ROW_SPARE_RETIRED. -/
def fltRowSpareRetired : BitVec 16 := 0x4012#16

/-- FLT_ROW_NO_SPARE. -/
def fltRowNoSpare : BitVec 16 := 0x4013#16

/-- FLT_BANK_RETIRE_PENDING. -/
def fltBankRetirePending : BitVec 16 := 0x4014#16

/-- FLT_CHAN_RETRAIN. -/
def fltChanRetrain : BitVec 16 := 0x4015#16

/-- FLT_CHAN_REPAIR. -/
def fltChanRepair : BitVec 16 := 0x4016#16

/-- FLT_CHAN_LOST. -/
def fltChanLost : BitVec 16 := 0x4017#16

/-- FLT_STK_LOST. -/
def fltStkLost : BitVec 16 := 0x4018#16

/-- FLT_SB_ADDR. -/
def fltSbAddr : BitVec 16 := 0x5001#16

/-- FLT_SB_RESERVE. -/
def fltSbReserve : BitVec 16 := 0x5002#16

/-- FLT_SB_CFG. -/
def fltSbCfg : BitVec 16 := 0x5003#16

/-- FLT_SB_MSG. -/
def fltSbMsg : BitVec 16 := 0x5004#16

/-- FLT_SB_UNCORRECTABLE. -/
def fltSbUncorrectable : BitVec 16 := 0x5010#16

/-- FLT_SB_LOST. -/
def fltSbLost : BitVec 16 := 0x5011#16

/-- FLT_DRW_MSG. -/
def fltDrwMsg : BitVec 16 := 0x6001#16

/-- FLT_DRW_ENTRY. -/
def fltDrwEntry : BitVec 16 := 0x6002#16

/-- FLT_DRW_SET. -/
def fltDrwSet : BitVec 16 := 0x6003#16

/-- FLT_DRW_PAGE_FULL. -/
def fltDrwPageFull : BitVec 16 := 0x6004#16

/-- FLT_DRW_STAGE_FULL. -/
def fltDrwStageFull : BitVec 16 := 0x6005#16

/-- FLT_DRW_LOST. -/
def fltDrwLost : BitVec 16 := 0x6006#16

/-- FLT_DRW_CFG. -/
def fltDrwCfg : BitVec 16 := 0x6007#16

/-- FLT_SEQ_DOORBELL. -/
def fltSeqDoorbell : BitVec 16 := 0x7001#16

/-- FLT_SEQ_CFG. -/
def fltSeqCfg : BitVec 16 := 0x7002#16

/-- FLT_SEQ_REPORT. -/
def fltSeqReport : BitVec 16 := 0x7003#16

/-- FLT_STEP_TIMEOUT. -/
def fltStepTimeout : BitVec 16 := 0x7004#16

/-- FLT_COPY_DESC. -/
def fltCopyDesc : BitVec 16 := 0x8001#16

/-- FLT_COPY_SPACE. -/
def fltCopySpace : BitVec 16 := 0x8002#16

/-- FLT_COPY_SHAPE. -/
def fltCopyShape : BitVec 16 := 0x8003#16

/-- FLT_COPY_RANGE. -/
def fltCopyRange : BitVec 16 := 0x8004#16

/-- FLT_COPY_LIST. -/
def fltCopyList : BitVec 16 := 0x8005#16

/-- FLT_COPY_CMP. -/
def fltCopyCmp : BitVec 16 := 0x8006#16

/-- FLT_COPY_OVERLAP. -/
def fltCopyOverlap : BitVec 16 := 0x8007#16

/-- FLT_CMP_NO_TABLE. -/
def fltCmpNoTable : BitVec 16 := 0x9001#16

/-- FLT_CMP_FORMAT. -/
def fltCmpFormat : BitVec 16 := 0x9002#16

/-- FLT_CMP_TABLE_BUSY. -/
def fltCmpTableBusy : BitVec 16 := 0x9003#16

/-- FLT_CMP_ROOM. -/
def fltCmpRoom : BitVec 16 := 0x9004#16

/-- FLT_CMP_TABLE. -/
def fltCmpTable : BitVec 16 := 0x9005#16

/-- FLT_CMP_VERSION. -/
def fltCmpVersion : BitVec 16 := 0x9006#16

/-- FLT_LINK_LANE. -/
def fltLinkLane : BitVec 16 := 0xA001#16

/-- FLT_LINK_PORT. -/
def fltLinkPort : BitVec 16 := 0xA002#16

/-- FLT_LINK_AUTH. -/
def fltLinkAuth : BitVec 16 := 0xA003#16

/-- FLT_LINK_RATE. -/
def fltLinkRate : BitVec 16 := 0xA004#16

/-- FLT_LINK_WINDOW. -/
def fltLinkWindow : BitVec 16 := 0xA005#16

/-- FLT_LINK_VERSION. -/
def fltLinkVersion : BitVec 16 := 0xA006#16

/-- FLT_REG_PHASE. -/
def fltRegPhase : BitVec 16 := 0xB001#16

/-- FLT_REG_LIMIT. -/
def fltRegLimit : BitVec 16 := 0xB002#16

/-- FLT_SENSOR_SUSPECT. -/
def fltSensorSuspect : BitVec 16 := 0xB003#16

/-- FLT_THERMAL_SHUTDOWN. -/
def fltThermalShutdown : BitVec 16 := 0xB004#16

/-- FLT_POISON_CONSUMED. -/
def fltPoisonConsumed : BitVec 16 := 0xC001#16

/-- FLT_FENCE_SUITE. -/
def fltFenceSuite : BitVec 16 := 0xC002#16

/-- FLT_CABINET_LOST. -/
def fltCabinetLost : BitVec 16 := 0xC003#16

/-- FLT_SELFTEST. -/
def fltSelftest : BitVec 16 := 0xC004#16

/-- FLT_ADDR_SELECTOR. -/
def fltAddrSelector : BitVec 16 := 0xC005#16


end Sys2Proof.Machine
end

