-- ==== Sys2Proof/Machine/Memory.lean ====
section
/-! DEFINITION. Tables by number, and the addressed stores: canonical form, byte and range access, poison marks. -/

namespace Sys2Proof.Machine

/-! ## Tables -/

/-- The entry of key k, or d where it has none. -/
def Tab.get {α : Type} : Tab α → α → Nat → α
  | [], d, _ => d
  | (j, v) :: t, d, k => if j == k then v else Tab.get t d k

/-- Writes entry k, keeping the keys ascending. -/
def Tab.set {α : Type} : Tab α → Nat → α → Tab α
  | [], k, v => [(k, v)]
  | (j, w) :: t, k, v =>
    if j == k then (k, v) :: t else if k < j then (k, v) :: (j, w) :: t else (j, w) :: Tab.set t k v

/-- The entry of key k, if any. -/
def Tab.find {α : Type} : Tab α → Nat → Option α
  | [], _ => none
  | (j, v) :: t, k => if j == k then some v else Tab.find t k

/-- Removes entry k. -/
def Tab.erase {α : Type} (t : Tab α) (k : Nat) : Tab α := t.filter (fun p => p.1 != k)

/-! ## Sets of numbers, ascending -/

def nsInsert (k : Nat) : List Nat → List Nat
  | [] => [k]
  | j :: t => if j == k then j :: t else if k < j then k :: j :: t else j :: nsInsert k t

def nsErase (k : Nat) (t : List Nat) : List Nat := t.filter (· != k)

/-- Adds or removes k. -/
def nsPut (k : Nat) (on : Bool) (t : List Nat) : List Nat := if on then nsInsert k t else nsErase k t

/-! ## Bytes -/

/-- What a byte that nothing has written reads as: the fill pattern (R172), or, where the contents are undefined, a free
value (R63, R171, Table 15-4). -/
def Mem.unlisted (m : Mem) (a : Nat) : Byte :=
  match m.undef with
  | none => BitVec.ofNat 8 (m.pattern.toNat >>> (8 * (a % 8)))
  | some g => Config.undefByte g a

/-- The listed byte at an address. -/
def cellGet : List Host.Cell → Nat → Option Byte
  | [], _ => none
  | (b, v) :: t, a => if b == a then some v else if a < b then none else cellGet t a

/-- Lists a byte, keeping the addresses strictly rising. -/
def cellPut : List Host.Cell → Nat → Byte → List Host.Cell
  | [], a, v => [(a, v)]
  | (b, w) :: t, a, v =>
    if b == a then (a, v) :: t else if a < b then (a, v) :: (b, w) :: t else (b, w) :: cellPut t a v

/-- Unlists a byte. -/
def cellDrop : List Host.Cell → Nat → List Host.Cell
  | [], _ => []
  | (b, w) :: t, a => if b == a then t else if a < b then (b, w) :: t else (b, w) :: cellDrop t a

/-- Reads one byte. -/
def Mem.byte (m : Mem) (a : Nat) : Byte := (cellGet m.cells a).getD (m.unlisted a)

/-- Writes one byte; a byte equal to the fill pattern is unlisted again, so that equal contents are equal data. -/
def Mem.setByte (m : Mem) (a : Nat) (v : Byte) : Mem :=
  { m with cells := if m.undef.isNone && v == m.unlisted a then cellDrop m.cells a else cellPut m.cells a v }

/-- Strictly rising addresses. -/
def risingFrom (lo : Nat) : List Host.Cell → Bool
  | [] => true
  | (a, _) :: t => decide (lo ≤ a) && risingFrom (a + 1) t

/-- The canonical form: addresses strictly rising, and no entry equal to what an unlisted address reads as. -/
def Mem.wf (m : Mem) : Bool :=
  risingFrom 0 m.cells && (m.undef.isSome || m.cells.all (fun c => c.2 != m.unlisted c.1))

/-- A store whose every byte reads as the pattern. -/
def Mem.filled (pattern : BitVec 64) : Mem := { cells := [], marks := [], lost := [], pattern := pattern, undef := none }

/-- A store of undefined contents (the n-th free value). -/
def Mem.undefined (n : Nat) : Mem := { cells := [], marks := [], lost := [], pattern := 0, undef := some n }

/-- Reads n bytes. -/
def Mem.read (m : Mem) (a n : Nat) : List Byte := (List.range n).map (fun i => m.byte (a + i))

/-- Reads a little-endian number of n bytes (R520). -/
def Mem.readNat (m : Mem) (a n : Nat) : Nat := leNat (m.read a n)

/-- Writes bytes in ascending order of address. -/
def Mem.write (m : Mem) : Nat → List Byte → Mem
  | _, [] => m
  | a, v :: vs => Mem.write (m.setByte a v) (a + 1) vs

/-- Writes the bytes that a mask names (none keeps the stored byte). -/
def Mem.writeOpt (m : Mem) : Nat → List (Option Byte) → Mem
  | _, [] => m
  | a, none :: vs => Mem.writeOpt m (a + 1) vs
  | a, some v :: vs => Mem.writeOpt (m.setByte a v) (a + 1) vs

/-! ## Poison marks, one per 32-byte sector -/

/-- Sector k lies in a range whose every word was written marked (R360). -/
def Mem.inLost (m : Mem) (k : Nat) : Bool := m.lost.any (fun r => decide (r.1 ≤ k) && decide (k < r.2))

/-- Whether sector k is marked. -/
def Mem.marked (m : Mem) (k : Nat) : Bool := m.marks.contains k != m.inLost k

/-- Sets or clears the mark of a sector. -/
def Mem.setMark (m : Mem) (k : Nat) (on : Bool) : Mem := { m with marks := nsPut k (on != m.inLost k) m.marks }

/-- Whether the 32-byte sector that holds an address is marked. -/
def Mem.mark (m : Mem) (a : Nat) : Bool := m.marked (a / 32)

/-- The numbers of the 32-byte sectors that n bytes from a touch. -/
def sectorsOf (a n : Nat) : List Nat := if n == 0 then [] else (List.range ((a + n - 1) / 32 - a / 32 + 1)).map (· + a / 32)

/-- Whether any sector of a range is marked. -/
def Mem.anyMark (m : Mem) (a n : Nat) : Bool := (sectorsOf a n).any m.marked

/-- The address of the first marked sector of a range. -/
def Mem.firstMark (m : Mem) (a n : Nat) : Option Nat := ((sectorsOf a n).find? m.marked).map (· * 32)

/-- The marked sectors of a range that begins at a sector, numbered from its start. -/
def Mem.markList (m : Mem) (a n : Nat) : List Nat := ((sectorsOf a n).filter m.marked).map (· - a / 32)

/-- The new mark of a sector on a write of n bytes from a (R153): an unmarked write of the whole sector clears it, a partial
write keeps a stored mark, a marked write sets it. -/
def Mem.markWrite (m : Mem) (a n : Nat) (marked : Nat → Bool) : Mem :=
  (sectorsOf a n).foldl (fun m k =>
    let whole := decide (a ≤ 32 * k) && decide (32 * k + 32 ≤ a + n)
    m.setMark k (marked k || (!whole && m.marked k))) m

/-- Writes bytes with their marks: `marked k` is the mark that the incoming data carries for sector k. -/
def Mem.store (m : Mem) (a : Nat) (vs : List Byte) (marked : Nat → Bool) : Mem :=
  (m.write a vs).markWrite a vs.length marked

/-- Marks every sector of [lo, hi) (R360). -/
def Mem.loseRange (m : Mem) (lo hi : Nat) : Mem :=
  { m with marks := m.marks.filter (fun k => decide (k < lo) || decide (hi ≤ k)), lost := (lo, hi) :: m.lost }

end Sys2Proof.Machine
end

