-- ==== Sys2Proof/Machine/Ops.lean ====
section
/-! DEFINITION. Named operations over the state: units by number, the report of faults (R103, R104, R363, R376, R377), the
outcome of a meaning, and the accesses to stack and sideboard space (R154, R165) with their poison marks. -/

namespace Sys2Proof.Machine

/-- The outcome of a meaning: the device as the command leaves it, the queue untouched. -/
def done (s : State) (d : Dev) : Host.Outcome State Fault Refusal := .next { s with toDev := d }

/-- Fields of an endpoint id (R7). -/
def epDev (e : BitVec 18) : Nat := bits 17 12 e.toNat
def epCab (e : BitVec 18) : Nat := bits 11 8 e.toNat
def epVal (e : BitVec 18) : Nat := bits 7 0 e.toNat

/-- The number of a logical bench. -/
def benchKey (b : BenchId) : Nat := 96 * b.cab.val + b.bench.val

def Dev.bench (d : Dev) (k : Nat) : Bench := d.benches.get Bench.reset k
def Dev.setBench (d : Dev) (k : Nat) (b : Bench) : Dev := { d with benches := d.benches.set k b }
def Dev.modBench (d : Dev) (k : Nat) (f : Bench → Bench) : Dev := d.setBench k (f (d.bench k))
def Dev.cab (d : Dev) (c : Nat) : Cabinet := d.cabs.get Cabinet.reset c
def Dev.setCab (d : Dev) (c : Nat) (x : Cabinet) : Dev := { d with cabs := d.cabs.set c x }
def Dev.stk (d : Dev) (s : Nat) : Stack := d.stks.get Stack.reset s
def Dev.setStk (d : Dev) (s : Nat) (x : Stack) : Dev := { d with stks := d.stks.set s x }
def Dev.sb (d : Dev) (c : Nat) : Sideboard := d.sbs.get Sideboard.reset c
def Dev.setSb (d : Dev) (c : Nat) (x : Sideboard) : Dev := { d with sbs := d.sbs.set c x }
def Dev.drw (d : Dev) (c : Nat) : Drawer := d.drawers.get Drawer.reset c
def Dev.setDrw (d : Dev) (c : Nat) (x : Drawer) : Dev := { d with drawers := d.drawers.set c x }

def Dev.port (d : Dev) (p : Nat) : Port := d.ports.get Port.reset p
def Dev.setPort (d : Dev) (p : Nat) (x : Port) : Dev := { d with ports := d.ports.set p x }

/-- Changes every bench that has left its reset value. -/
def Dev.mapBenches (d : Dev) (f : Nat → Bench → Bench) : Dev :=
  { d with benches := d.benches.map (fun (p : Nat × Bench) => (p.1, f p.1 p.2)) }

/-- A fresh use number for a free value. -/
def Dev.fresh (d : Dev) : Dev := { d with free := d.free + 1 }

/-- The endpoint id of a logical bench (R7). -/
def Dev.benchEp (d : Dev) (k : Nat) : BitVec 18 := BitVec.ofNat 18 (d.number.toNat * 4096 + (k / 96) * 256 + k % 96)

/-- Raises an MSI-X vector (R416): the suite head issues the write; another device sends an interrupt request to it. -/
def Dev.interrupt (d : Dev) (vector : BitVec 11) : Dev :=
  if d.suite.head then { d with irqs := d.irqs ++ [vector] }
  else { d with bridge := { d.bridge with asked := d.bridge.asked ++ [vector] } }

/-- An endpoint of this device (R7, R8): cabinet field and value. -/
def Dev.epOf (d : Dev) (cab v : Nat) : BitVec 18 := BitVec.ofNat 18 (d.number.toNat * 4096 + cab * 256 + v)

/-! ## Power domains (R430, R431) -/

def Dev.dom (d : Dev) (id : Nat) : Dom := d.pwr.doms.get Dom.reset id
def Dev.setDom (d : Dev) (id : Nat) (x : Dom) : Dev := { d with pwr := { d.pwr with doms := d.pwr.doms.set id x } }

/-- Whether a domain is ON. -/
def Dev.domOn (d : Dev) (id : Nat) : Bool := (d.dom id).st == 1

def sbDom (c : Nat) : Nat := 256 * c + 104
def drwDom (c : Nat) : Nat := 256 * c + 105
def stkDom (s : Nat) : Nat := 256 * (s / 2) + 106 + s % 2

/-- The physical column that serves logical column k of a row whose steering field is f (R38). -/
def physCol (f k : Nat) : Nat := if f ≤ 11 && f ≤ k then k + 1 else k

/-- The steering field of row r (Table 2-16). -/
def Cabinet.steer (x : Cabinet) (r : Nat) : Nat := bits (4 * r + 3) (4 * r) x.rowSteer.toNat

/-- The physical column serving logical bench k (R37, R38). -/
def Dev.physColOf (d : Dev) (k : Nat) : Nat := physCol ((d.cab (k / 96)).steer (k % 96 / 12)) (k % 96 % 12)

/-- The domain of logical bench k (Table 15-3). -/
def Dev.benchDom (d : Dev) (k : Nat) : Nat := 256 * (k / 96) + 13 * (k % 96 / 12) + d.physColOf k

/-- Block ids (Table 15-6): class and domain id. -/
def blockId (cls id : Nat) : BitVec 16 := BitVec.ofNat 16 (4096 * cls + id)

/-- The block id of a bench. -/
def Dev.benchBlock (d : Dev) (k : Nat) : BitVec 16 := blockId 1 (d.benchDom k)

/-- The domain of the edge-die core ED0, where the sequencer, the loader, the host path and the log unit sit. -/
def ed0Dom : Nat := 164

/-- Its block id. -/
def ed0Block : BitVec 16 := blockId 6 ed0Dom

/-- The plan loader, which has no domain of its own. -/
def loaderBlock : BitVec 16 := blockId 7 0

/-- The block id that stands for the sender of a message: a bench or drawer controller of this device, else the edge die. -/
def Dev.senderBlock (d : Dev) (src : BitVec 18) : BitVec 16 :=
  let cab := bits 11 8 src.toNat
  let v := bits 7 0 src.toNat
  if bits 17 12 src.toNat != d.number.toNat || decide (12 ≤ cab) then ed0Block
  else if v < 96 then d.benchBlock (96 * cab + v)
  else if v == 0xF1 then blockId 3 (drwDom cab)
  else ed0Block

/-- An arrival at a domain whose entry into RETENTION or OFF runs aborts the entry (R433): the model places each arrival by
the order of the commands. `block` is the id of the block that sent it (Table 15-6). -/
def Dev.arrive (d : Dev) (id : Nat) (block : BitVec 16) : Dev :=
  let m := d.dom id
  if m.st == 1 && m.entering.isSome then
    d.setDom id { m with st := 1, entering := none, aborted := satInc16 m.aborted, lastRefuser := block }
  else d

/-- An action bit of a control register that is written 1: its effect, and whether it or an earlier one was accepted (Table 16-11). -/
def actBit (on : Bool) (ok : Dev → Bool) (f : Dev → Dev) (r : Dev × Bool) : Dev × Bool := if on then (f r.1, r.2 || ok r.1) else r

/-- Cabinet c is fenced (R20, R21). -/
def Dev.fenced (d : Dev) (c : Nat) : Bool := (d.cab c).st == 2

/-- Cabinet c is active. -/
def Dev.active (d : Dev) (c : Nat) : Bool := (d.cab c).st == 1

/-! ## Fault records -/

/-- Offers a record to the log unit (R376). -/
def Dev.offer (d : Dev) (r : LogRec) : Dev := { d with flog := { d.flog with offered := d.flog.offered ++ [r] } }

/-- Four 64-bit words as 32 little-endian bytes (R520). -/
def rec32 (w0 w1 w2 w3 : Nat) : List Byte := leBytes 8 w0 ++ leBytes 8 w1 ++ leBytes 8 w2 ++ leBytes 8 w3

/-- What a unit record says beside its unit and code (Table 13-7). -/
structure UnitNote where
  endpoint : Nat := 0
  detail : Nat := 0
  atRest : Bool := false
  discard : Bool := false
  lasting : Bool := false
  retried : Bool := false
deriving DecidableEq, Repr

/-- A unit record of kind `kind`, cabinet c and index i (R377). -/
def Dev.unitRecord (d : Dev) (kind c i : Nat) (code : BitVec 16) (n : UnitNote) : Dev :=
  let u := 4096 * kind + 256 * c + i
  let sq := d.flog.unitSeq.get 0#48 u
  let w0 := sq.toNat * 65536 + code.toNat
  let w1 := u * 2 ^ 48 + d.plan.planId.toNat * 2 ^ 32 + (d.step.toNat % 65536) * 65536 +
    8 * b2n n.atRest + 4 * b2n n.discard + 2 * b2n n.lasting + b2n n.retried
  let d := d.offer ⟨2, rec32 w0 w1 (n.endpoint * 2 ^ 46) n.detail, n.lasting⟩
  { d with flog := { d.flog with unitSeq := d.flog.unitSeq.set u (sq + 1) } }

/-- A fault that discards the step, reported to the step sequencer (R363). -/
def Dev.discard (d : Dev) (code : BitVec 16) : Dev :=
  { d with discards := d.discards ++ [⟨code, BitVec.ofNat 16 d.step.toNat⟩] }

/-- A unit record of a fault that discards the step. -/
def Dev.unitDiscard (d : Dev) (kind c i : Nat) (code : BitVec 16) (n : UnitNote) : Dev :=
  (d.unitRecord kind c i code { n with discard := true }).discard code

/-- A refused or ignored register write, recorded by the unit that owns the register (R377). -/
def Dev.regRefused (d : Dev) (kind c i : Nat) (code : BitVec 16) (off : Nat) : Dev :=
  d.unitRecord kind c i code { detail := off }

/-! ## Telemetry (R471) -/

/-- Offers an event (Table 16-10): it takes the next TSEQ, and is dropped where 64 are queued. -/
def Dev.telemetry (d : Dev) (kind sensor value : Nat) (record : List Byte) : Dev :=
  let m := d.mgmt
  let e := leBytes 6 m.tseq.toNat ++ [BitVec.ofNat 8 kind, 0] ++ leBytes 2 sensor ++ leBytes 2 value ++
    (if record.isEmpty then List.replicate 64 0 else record)
  { d with mgmt := if m.events.length < 64 then { m with tseq := m.tseq + 1, events := m.events ++ [e], ibi := true }
    else { m with tseq := m.tseq + 1 } }

/-- A cabinet's state changes (Table 16-9, sensor 0x3000 + c). -/
def Dev.setCabSt (d : Dev) (c : Nat) (st : BitVec 2) : Dev :=
  let x := d.cab c
  if x.st == st then d else (d.setCab c { x with st := st }).telemetry 2 (0x3000 + c) st.toNat []

/-! ## Trace entries (R105, R474, R475) -/

/-- Captures one trace entry of the bench, where TRACE_CTL admits it. `lost` says that the queue of R474 was full: the entry takes
its SEQ and is counted in DROPPED. -/
def Bench.capture (b : Bench) (src : BitVec 18) (planId step : Nat) (kind : Nat) (iss : Issue) (peer data : Nat) (lost : Bool) : Bench :=
  let ctl := b.trace.ctl.toNat
  let t := b.trace
  let inTag := kind == 4 || (decide (bits 47 32 ctl ≤ iss.tag.toNat) && decide (iss.tag.toNat ≤ bits 63 48 ctl))
  if bit 8 ctl && bit kind (bits 6 0 ctl) && inTag && !t.stopped then
    let w0 := t.seq.toNat * 65536 + iss.tag.toNat
    let w1 := planId * 2 ^ 48 + (iss.pc % 2 ^ 18) * 2 ^ 30 + kind * 2 ^ 26 + iss.index
    let w2 := src.toNat * 2 ^ 46 + peer * 2 ^ 28 + (step % 65536) * 2 ^ 12
    let n := t.captured + 1
    { b with
      traceMem := if lost then b.traceMem else b.traceMem.write (32 * (t.seq.toNat % 2048)) (rec32 w0 w1 w2 data)
      trace := { t with
        seq := t.seq + 1, captured := n, stopped := bit 9 ctl && decide (2048 ≤ n),
        dropped := if lost then satInc16 t.dropped else t.dropped } }
  else b

/-- One trace entry of bench `k`; whether the queue of R474 has room for it depends on beats, so that is a free value (log 92). -/
def Dev.trace (d : Dev) (k kind : Nat) (iss : Issue) (peer data : Nat) : Dev :=
  d.modBench k (fun b => b.capture (d.benchEp k) d.plan.planId.toNat d.step.toNat kind iss peer data
    (Config.traceLost d.free k b.trace.seq.toNat))

/-! ## Bench faults (R103, R104) -/

/-- Writes a bench fault record and the bench's fault registers (R66, R67, R104), with the step number given. -/
def Dev.benchRecord (d : Dev) (k : Nat) (code : BitVec 16) (iss : Issue) (step : BitVec 16) (detail : Nat) : Dev :=
  let b := d.bench k
  let w0 := b.faultSeq.toNat * 65536 + code.toNat
  let w1 := iss.tag.toNat * 2 ^ 48 + d.plan.planId.toNat * 2 ^ 32 + step.toNat * 65536 + (b.queues.get QCfg.reset 0).epoch.toNat
  let w2 := (d.benchEp k).toNat * 2 ^ 46 + (iss.pc % 2 ^ 18) * 2 ^ 28 + iss.slot * 2 ^ 25 + b2n iss.repeated * 2 ^ 24 + iss.index % 2 ^ 24
  let d := d.offer ⟨1, rec32 w0 w1 w2 detail, false⟩
  let d := d.trace k 4 iss 0 (b.faultSeq.toNat * 65536 + code.toNat)
  d.modBench k (fun b => { b with
    faultSeq := b.faultSeq + 1, faultOverrun := b.faultOverrun || b.faultPending, faultCode := code, faultPending := true,
    faultStep := step, faultTag := iss.tag })

/-- Ends every transfer, wait and fence of a bench that stops. -/
def Bench.stop (b : Bench) : Bench :=
  { b with wait := none, haltReq := false, fence := none, shelf := { b.shelf with bpWait := false, popped := none, rest := none, own := 0 } }

/-! ## Plan routes and their alternates (R20, R45, R398) -/

def Dev.trusted (d : Dev) (p : Nat) : Bool := (d.port p).st == 4

/-- Two compute dies lie diagonally (Table 1-2). -/
def diagonal (a b : Nat) : Bool := a + b == 3

/-- Whether alternate a of route `key` merely passes through the router of cabinet c (R16, R20): neither the route's source nor its
destination. A diagonal route passes one router of its VIA die; of the other routers on the dies that a route visits a free value says
it, and a route passes none on a die that it does not visit. Transit traffic avoids the routers of fenced cabinets (R409). -/
def routeCrosses (key : Nat) (a : BitVec 16) (c : Nat) : Bool :=
  let src := key / 128
  let dst := key % 128
  let via := bits 11 8 a.toNat
  let inner := decide (dst < 64)
  if src == 12 || c == src || c == dst then false
  else if inner && diagonal (src / 3) (dst / 3) && c / 3 == via then (Config.viaRouter key a).val == c % 3
  else (c / 3 == src / 3 || (if inner then c / 3 == dst / 3 else c / 3 == via)) && Config.crosses key a c

/-- An alternate that a plan route may use: valid, on a TRUSTED port where it leaves the device, and past no fenced cabinet's router. -/
def Dev.altUsable (d : Dev) (key : Nat) (a : BitVec 16) : Bool :=
  a.msb && (decide (key % 128 < 64) || d.trusted (bits 5 0 a.toNat)) && (List.range 12).all (fun c => !d.fenced c || !routeCrosses key a c)

/-- The next usable alternate after number k of n, cyclically (R398). -/
def nextAlt (usable : Nat → Bool) (k n : Nat) : Option Nat := ((List.range n).map (fun i => (k + 1 + i) % n)).find? usable

/-- A plan route moves on where `off` says that the alternate in use has failed. -/
def Dev.movePlanRoute (d : Dev) (off : BitVec 16 → Bool) (key : Nat) (r : Route) : Route :=
  match r.cur with
  | some k => if off (r.alts.getD k 0) then { r with cur := nextAlt (fun i => d.altUsable key (r.alts.getD i 0)) k r.alts.length } else r
  | none => r

/-- Every plan route whose alternate in use has failed moves on. -/
def Dev.movePlanRoutes (d : Dev) (off : Nat → BitVec 16 → Bool) : Dev :=
  { d with suite := { d.suite with planRoutes := d.suite.planRoutes.map (fun (e : Nat × Route) => (e.1, d.movePlanRoute (off e.1) e.1 e.2)) } }

/-- Whether a message in flight between two cabinets of this device is on a route through the router of cabinet c (R45, R408). -/
def Dev.onRouter (d : Dev) (c : Nat) (m : Msg) : Bool :=
  let key := 128 * epCab m.src + epCab m.target
  epDev m.src == d.number.toNat && epCab m.src != epCab m.target &&
    (match d.suite.planRoutes.find key with
     | some r => r.cur.any (fun i => routeCrosses key (r.alts.getD i 0) c)
     | none => false)

/-- A cabinet is lost (R371): it is fenced, executes nothing (R20), its cause is kept and the step is discarded. `chest` and
`plain` say which stacks remain readable for salvage (R372). A fence waits for its places no longer (R331), and routes through its
router move on, the messages in flight on them discarded (R45). -/
def Dev.loseCabinet (d : Dev) (c : Nat) (cause : BitVec 16) (chest plain : Bool) : Dev :=
  if d.fenced c then d else
  let d := (d.setCabSt c 2).setCab c { d.cab c with st := 2, cause := cause, salvageChest := chest, salvagePlain := plain }
  let gone (p : Place) : Bool := match p with
    | .sideboard x => x.val == c
    | .stack s => s.val / 2 == c
  let d := d.mapBenches (fun k b =>
    let b := { b with fence := b.fence.map (fun f => { f with places := f.places.filter (fun p => !gone p) }) }
    if k / 96 == c then { b.stop with transfers := [] } else b)
  let d := { d with net := d.net.filter (fun m => !d.onRouter c m) }
  let d := d.movePlanRoutes (fun key a => routeCrosses key a c)
  d.unitDiscard 4 c 0 fltCabinetLost { lasting := true }

/-- This device makes the plan's admissions (R237). -/
def Dev.leader (d : Dev) : Bool := d.seq.sec.leader == d.number.toNat

/-- A follower tells its leader something of step n (log 44). -/
def Dev.tell (d : Dev) (n : BitVec 48) (t : FollowerTell) : Dev :=
  { d with suite := { d.suite with sent := d.suite.sent ++ [.report n t] } }

/-- FLOOR_VOID bits of the step in flight (R252); a follower tells its leader of those that come up (R237). -/
def Dev.voidFloor (d : Dev) (b : BitVec 8) : Dev :=
  match d.seq.run with
  | some r =>
    if r.floorVoid ||| b == r.floorVoid then d else
    let d : Dev := { d with seq := { d.seq with run := some { r with floorVoid := r.floorVoid ||| b } } }
    if d.leader then d else d.tell d.step (.floorVoid b)
  | none => d

/-- A plan whose benches run a step uses cabinet c: an interruption of Table 13-4 that keeps the step shows as FLOOR_VOID bit 1 (R252,
R357). -/
def Dev.interrupts (d : Dev) (c : Nat) : Dev := if bit c d.plan.cabSet.toNat then d.voidFloor 2 else d

/-- A fault that a bench raises: record, then FAULTED and the step is discarded (R103, R363). After FLT_POISON_CONSUMED and
FLT_FENCE_SUITE the bench waits for the discard instead; after FLT_SHELF_FLUSHED, which no bundle raises, it goes on until the discard
(R143, R144). A halt requested meanwhile is discarded (R58). -/
def Dev.benchFault (d : Dev) (k : Nat) (code : BitVec 16) (iss : Issue) (detail : Nat) : Dev :=
  let d := d.benchRecord k code iss (BitVec.ofNat 16 d.step.toNat) detail
  let d := if code == fltPoisonConsumed || code == fltFenceSuite then d.modBench k (fun b => { b with awaitDiscard := true, haltReq := false })
    else if code == fltShelfFlushed then d
    else d.modBench k (fun b => { b.stop with st := .faulted })
  d.discard code

end Sys2Proof.Machine
end

