-- ==== Sys2Proof/Machine/Operands.lean ====
section
/-! DEFINITION. Operand forms of the Akken slots (R80, R81, R84, R85): registers as they stood before the repeat, effective
addresses, address stepping, and the own bench store. -/

namespace Sys2Proof.Machine

/-- x0 reads 0 and carries no mark (R80). -/
def Arch.getX (r : Arch) (i : Fin 32) : XReg := if i.val == 0 then XReg.reset else r.x.get XReg.reset i.val

/-- A write to x0 is ignored (R80). -/
def Arch.setX (r : Arch) (i : Fin 32) (v : BitVec 64) (mark : Bool) : Arch :=
  if i.val == 0 then r else { r with x := r.x.set i.val ⟨v, mark⟩ }

def Arch.getA (r : Arch) (i : Fin 64) : AReg := r.a.get AReg.reset i.val
def Arch.setA (r : Arch) (i : Fin 64) (v : AReg) : Arch := { r with a := r.a.set i.val v }

/-- A repeat counter; n0 is none and reads 0. -/
def Arch.getN (r : Arch) (i : Fin 16) : BitVec 24 := r.n.get 0#24 i.val
def Arch.setN (r : Arch) (i : Fin 16) (v : BitVec 24) : Arch := { r with n := r.n.set i.val v }

def Arch.getV (r : Arch) (i : Fin 32) : VReg := r.v.get VReg.reset i.val
def Arch.setV (r : Arch) (i : Fin 32) (v : VReg) : Arch := { r with v := r.v.set i.val v }

/-- Lane l of a vector register. -/
def VReg.lane (v : VReg) (l : Nat) : BitVec 32 := v.lanes.getD l 0#32

/-- Accumulator i as 4,096 words in row order. -/
def Arch.getAcc (r : Arch) (i : Fin 4) : List (BitVec 32) := r.acc.get [] i.val
def Arch.setAcc (r : Arch) (i : Fin 4) (v : List (BitVec 32)) : Arch := { r with acc := r.acc.set i.val v }

/-- The effective address (R84). -/
def AReg.ea (a : AReg) : Nat := (a.base.toNat + a.off.toNat) % 2 ^ 48

/-- One step of an address register (R85). -/
def AReg.step (a : AReg) : AReg :=
  let t : Int := (a.off.toNat : Int) + a.stride.toInt
  { a with off := if a.wrap = 0 then BitVec.ofInt 32 t else BitVec.ofNat 32 (t.emod (a.wrap.toNat : Int)).toNat }

/-- SETA (R85, R99): a field from the low bits of x; OFF is kept below a nonzero WRAP. -/
def AReg.setField (a : AReg) (field : BitVec 2) (v : BitVec 64) : AReg :=
  match field.toNat with
  | 0 => { a with base := v.setWidth 48 }
  | 1 => { a with off := if a.wrap = 0 then v.setWidth 32 else BitVec.ofNat 32 ((v.setWidth 32).toNat % a.wrap.toNat) }
  | 2 => { a with stride := v.setWidth 32 }
  | _ =>
    let w := v.setWidth 32
    { a with wrap := w, off := if w = 0 then a.off else BitVec.ofNat 32 (a.off.toNat % w.toNat) }

/-- GETA (R99): the field zero-extended, STRIDE sign-extended. -/
def AReg.getField (a : AReg) (field : BitVec 2) : BitVec 64 :=
  match field.toNat with
  | 0 => a.base.setWidth 64
  | 1 => a.off.setWidth 64
  | 2 => a.stride.signExtend 64
  | _ => a.wrap.setWidth 64

/-- The address register of an AOP, and its effective address. -/
def Arch.aop (r : Arch) (a : AOp) : AReg := r.getA a.reg

/-- Bytes of a bench store (R33, R84). -/
def storeSize : Nat := 0x400000

/-- The address registers that the slots of a bundle name (R85): those with S = 1 step once per repeat. -/
def SlotOp.aops : SlotOp → List AOp
  | .msta _ _ a _ => [a]
  | .mlda a _ _ sa => [a, sa]
  | .mldb a _ _ sa _ => [a, sa]
  | .vld _ a _ => [a]
  | .vst _ a _ => [a]
  | .ldx _ a _ _ => [a]
  | .stx _ a _ => [a]
  | .copy a _ _ => [a]
  | .atom _ a _ _ _ => [a]
  | .send _ a _ _ => [a]
  | .recv _ a _ _ => [a]
  | _ => []

/-- The numbers of the registers that step after a repeat. -/
def Bundle.stepped (bd : Bundle) : List Nat :=
  (bd.slots.flatMap (fun s => s.2.aops)).foldl (fun l a => if a.step then nsInsert a.reg.val l else l) []

/-- Steps every register named with S = 1 (R85). -/
def Arch.stepAll (r : Arch) (regs : List Nat) : Arch :=
  regs.foldl (fun r i => { r with a := r.a.set i (r.a.get AReg.reset i).step }) r

/-- Result of one slot in one repeat: effects (stores carry their bytes and marked sectors); a fault with its DETAIL; a fault
of an instruction that takes an effect all the same (R98); a wait of a kind (Table 3-17) with what it begins. -/
inductive Res where
  | ok (stores : List (Nat × List Byte × List Nat)) (regs : Arch → Arch) (late : Dev → Dev)
  | fault (code : BitVec 16) (detail : Nat)
  | faultAfter (code : BitVec 16) (detail : Nat) (also : Dev → Dev)
  | wait (kind : BitVec 3) (begun : Dev → Dev)

/-- A slot that only writes registers. -/
def Res.regs (f : Arch → Arch) : Res := .ok [] f id

/-- A marked register consumed: DETAIL is 0, because registers keep no address (R350). -/
def poisoned : Res := .fault fltPoisonConsumed 0

end Sys2Proof.Machine
end

