-- ==== Sys2Proof/Machine/Flags.lean ====
section
/-! DEFINITION. Flags: the poison marks of registers (R102, R135), and the flag bits that status registers show of a bench
(Tables 2-11, 3-17, 5-6, 10-9). -/

namespace Sys2Proof.Machine

/-- The mark of the 8-lane group that holds lane l (R80). -/
def VReg.markAt (v : VReg) (l : Nat) : Bool := v.marks.getLsbD (l / 8)

/-- An arithmetic instruction consumes a mark when it reads a lane below n of a marked group (R135). -/
def VReg.consumed (v : VReg) (n : Nat) : Bool := (List.range 16).any (fun g => decide (8 * g < n) && v.marks.getLsbD g)

/-- Builds the 16 group marks. -/
def groupMarks (f : Nat → Bool) : BitVec 16 :=
  (List.range 16).foldl (fun m g => if f g then m ||| BitVec.ofNat 16 (2 ^ g) else m) 0#16

/-- Writes the lanes below n that `p` admits: other lanes keep their values; a group written in part keeps the OR of its
marks, a group written whole takes the mark of the data (R135). -/
def VReg.put (v : VReg) (p : Nat → Bool) (val : Nat → BitVec 32) (mark : Nat → Bool) : VReg :=
  { lanes := (List.range 128).map (fun l => if p l then val l else v.lane l)
    marks := groupMarks (fun g =>
      let some8 := (List.range 8).any (fun i => p (8 * g + i))
      let all8 := (List.range 8).all (fun i => p (8 * g + i))
      if all8 then mark g else if some8 then mark g || v.marks.getLsbD g else v.marks.getLsbD g) }

/-- Items on the shelf (R138). -/
def Shelf.held (s : Shelf) : Nat := s.items.length

/-- Transfers outstanding in counter ct (R93). -/
def Bench.ct (b : Bench) (ct : Fin 8) : Nat := (b.transfers.filter (fun t => t.ct == ct)).length

/-- CT_BUSY (Table 10-9). -/
def Bench.ctBusy (b : Bench) : Nat := ((List.range 8).map (fun n => if b.transfers.any (fun t => t.ct.val == n) then 2 ^ n else 0)).sum

/-- Room that a queued message takes: its payload in whole flits. R47 does not say whether the header flit takes room in the inbox too:
DESIGN CHOICE, it takes none (log 100). -/
def Msg.room (m : Msg) : Nat := (m.payload.length + 63) / 64 * 64

/-- Bytes occupied in queue q. -/
def Bench.queueUsed (b : Bench) (q : Fin 8) : Nat := ((b.inbox.filter (fun m => m.queue == q)).map Msg.room).sum

/-- INBOX_USED in KiB (Table 2-11); a KiB used in part counts (DESIGN CHOICE, log 100). -/
def Bench.inboxUsed (b : Bench) : Nat := ((b.inbox.map Msg.room).sum + 1023) / 1024

/-- Bytes of the bench's messages that have not arrived: they lie in its outbox with their header flits (R42, log 100). A broadcast counts once. -/
def Dev.outboxBytes (d : Dev) (k : Nat) : Nat :=
  let ms := d.net.filter (fun m => m.src == d.benchEp k && m.issue.isSome)
  ((ms.map (fun m => m.seq)).dedup.map (fun q => match ms.find? (fun m => m.seq == q) with
    | some m => 64 + m.room
    | none => 0)).sum

/-- WAIT_KIND (Table 3-17): 3 for a bench held at STEPEND or, after a discard, as if at STEPEND (R365). -/
def Bench.waitKind (b : Bench) : BitVec 3 :=
  if b.atStepEnd then 3 else match b.wait with
  | some w => w.kind
  | none => 0

/-- FAULTED benches hold admission (R365, DEV_FAULT_SUMMARY.BENCH_HOLD). -/
def Dev.benchHold (d : Dev) : Bool := d.benches.any (fun p => p.2.inPlan && p.2.st == .faulted)

end Sys2Proof.Machine
end

