-- ==== Sys2Proof/Machine/Bundle.lean ====
section
/-! DEFINITION. Bundles in program memory (R75–R79, R82, R87, R106): decoding with the reasons of Table 3-3. -/

namespace Sys2Proof.Machine

/-- A decoded slot: its instruction where the opcode is defined, and the reasons it fails by itself. -/
structure DSlot where
  op : Option SlotOp
  reasons : List Nat
deriving DecidableEq, Repr

/-- An AOP field (R84). -/
def aopOf (v : Nat) : AOp := ⟨bit 6 v, Fin.ofNat 64 v⟩

def f5 (hi w : Nat) : Fin 32 := Fin.ofNat 32 (bits hi (hi - 4) w)

/-- Formats that version 2 does not hold (R106). -/
def isV3Fmt (fmt : BitVec 4) : Bool := isMxFmt fmt || fmt == 0xB#4
where isMxFmt (fmt : BitVec 4) : Bool := decide (3 ≤ fmt.toNat) && decide (fmt.toNat ≤ 7)

/-- The decode checks of one instruction, whatever word it came from: reserved values (reason 4) and what version 2 does not
hold (reason 6). -/
def SlotOp.reasons (csv : BitVec 4) (op : SlotOp) : List Nat :=
  let mx (fmt : BitVec 4) := decide (3 ≤ fmt.toNat) && decide (fmt.toNat ≤ 7)
  let four (b : Bool) : List Nat := if b then [4] else []
  let six (b : Bool) : List Nat := if b && csv == 2#4 then [6] else []
  match op with
  | .msta _ _ _ fmt => six (isV3Fmt fmt)
  | .mlda _ fmt _ sa => four (!mx fmt && (sa.step || sa.reg.val != 0)) ++ six (isV3Fmt fmt)
  | .mldb _ fmt _ sa pw =>
    four ((!mx fmt && (sa.step || sa.reg.val != 0)) ||
      (if fmt == 0xB#4 then pw.toNat == 0 || decide (8 < pw.toNat) else pw != 0#4)) ++ six (isV3Fmt fmt)
  | .vld _ _ fmt => six (isV3Fmt fmt)
  | .vst _ _ fmt => six (isV3Fmt fmt)
  | .cwait _ m => four (decide (64 < m.toNat))
  | .atom o _ _ _ _ => four (decide (11 ≤ o.toNat)) ++ six (o == 3#4)
  | .vsetl src imm _ => four (!src && decide (128 < imm.toNat))
  | .vbin _ _ _ func _ => four (decide (4 < func.toNat))
  | .vun _ _ func => four (decide (7 < func.toNat))
  | .vred _ _ func _ => four (func == 3#2)
  | .vscan _ _ func _ => four (decide (1 < func.toNat))
  | .vsegscan _ _ _ func _ => four (decide (1 < func.toNat)) ++ six true
  | .alu _ _ _ func => four (decide (13 < func.toNat))
  | .setn n _ => four (n.val == 0)
  | .gets _ sel => four (decide (4 < sel.toNat)) ++ six (sel == 4#4)
  | _ => []

/-- One row of the encoding tables: the instruction, whether the word's reserved bits are 0, and whether W is the width the
opcode has. A wrong width is a reason beside the others (R79), so the instruction still counts for them. -/
def slotOf (op : SlotOp) (csv : BitVec 4) (reservedZero widthOk : Bool) : DSlot :=
  ⟨some op, (if widthOk then [] else [8]) ++ (if reservedZero then [] else [4]) ++ op.reasons csv⟩

/-- Matrix class (Table 3-6). -/
def decM (csv : BitVec 4) (w : Nat) : DSlot :=
  let wide := bit 31 w
  let acc : Fin 4 := Fin.ofNat 4 (bits 25 24 w)
  match bits 30 26 w with
  | 1 => slotOf (.mma acc (bit 23 w)) csv (bits 22 0 w == 0) (!wide)
  | 2 => slotOf (.mpush acc (bit 23 w)) csv (bits 22 0 w == 0) (!wide)
  | 3 => slotOf (.msta acc (bit 23 w) (aopOf (bits 22 16 w)) (BitVec.ofNat 4 (bits 15 12 w))) csv (bits 11 0 w == 0) (!wide)
  | _ => ⟨none, [3]⟩

/-- Memory and copy class (Table 3-8). -/
def decC (csv : BitVec 4) (w w2 : Nat) : DSlot :=
  let wide := bit 31 w
  match bits 30 26 w with
  | 1 => slotOf (.mlda (aopOf (bits 25 19 w)) (BitVec.ofNat 4 (bits 18 15 w)) (bit 14 w) (aopOf (bits 13 7 w))) csv
      (bits 6 0 w == 0) (!wide)
  | 2 => slotOf (.mldb (aopOf (bits 25 19 w)) (BitVec.ofNat 4 (bits 18 15 w)) (bit 14 w) (aopOf (bits 13 7 w))
      (BitVec.ofNat 4 (bits 6 3 w))) csv (bits 2 0 w == 0) (!wide)
  | 3 => slotOf (.vld (f5 25 w) (aopOf (bits 20 14 w)) (BitVec.ofNat 4 (bits 13 10 w))) csv (bits 9 0 w == 0) (!wide)
  | 4 => slotOf (.vst (f5 25 w) (aopOf (bits 20 14 w)) (BitVec.ofNat 4 (bits 13 10 w))) csv (bits 9 0 w == 0) (!wide)
  | 5 => slotOf (.ldx (f5 25 w) (aopOf (bits 20 14 w)) (Fin.ofNat 4 (bits 13 12 w)) (bit 11 w)) csv (bits 10 0 w == 0) (!wide)
  | 6 => slotOf (.stx (f5 25 w) (aopOf (bits 20 14 w)) (Fin.ofNat 4 (bits 13 12 w))) csv (bits 11 0 w == 0) (!wide)
  | 7 => slotOf (.copy (aopOf (bits 25 19 w)) (Fin.ofNat 8 (bits 18 16 w)) none) csv (bits 15 0 w == 0) (!wide)
  | 8 => slotOf (.cwait (Fin.ofNat 8 (bits 25 23 w)) (BitVec.ofNat 7 (bits 22 16 w))) csv (bits 15 0 w == 0) (!wide)
  | 9 =>
    match bits 25 24 w with
    | 0 => slotOf (.fence .bench) csv (bits 23 0 w == 0) (!wide)
    | 1 => slotOf (.fence .device) csv (bits 23 0 w == 0) (!wide)
    | 2 => slotOf (.fence .suite) csv (bits 23 0 w == 0) (!wide)
    | _ => if wide then ⟨none, [4, 8]⟩ else ⟨none, [4]⟩
  | 10 => slotOf (.atom (BitVec.ofNat 4 (bits 25 22 w)) (aopOf (bits 21 15 w)) (f5 14 w) (f5 9 w) (f5 4 w)) csv (!wide || w2 == 0) wide
  | _ => ⟨none, [3]⟩

/-- Vector class (Table 3-10). -/
def decV (csv : BitVec 4) (w w2 : Nat) : DSlot :=
  let wide := bit 31 w
  match bits 30 26 w with
  | 1 => slotOf (.vpop (f5 25 w)) csv (bits 20 0 w == 0) (!wide)
  | 2 => slotOf (.vsetl (bit 25 w) (BitVec.ofNat 8 (bits 24 17 w)) (f5 16 w)) csv (bits 11 0 w == 0) (!wide)
  | 3 => slotOf (.vfma (f5 25 w) (f5 20 w) (f5 15 w)) csv (bits 10 0 w == 0) (!wide)
  | 4 => slotOf (.vbin (f5 25 w) (f5 20 w) (f5 15 w) (BitVec.ofNat 4 (bits 10 7 w)) (bit 6 w)) csv (bits 5 0 w == 0) (!wide)
  | 5 => slotOf (.vun (f5 25 w) (f5 20 w) (BitVec.ofNat 4 (bits 15 12 w))) csv (bits 11 0 w == 0) (!wide)
  | 6 => slotOf (.vred (f5 25 w) (f5 20 w) (BitVec.ofNat 2 (bits 15 14 w)) (bit 13 w)) csv (bits 12 0 w == 0) (!wide)
  | 7 => slotOf (.vscan (f5 25 w) (f5 20 w) (BitVec.ofNat 2 (bits 15 14 w)) (bit 13 w)) csv (bits 12 0 w == 0) (!wide)
  | 8 => slotOf (.vsegscan (f5 25 w) (f5 20 w) (f5 15 w) (BitVec.ofNat 2 (bits 10 9 w)) (bit 8 w)) csv (bits 7 0 w == 0) (!wide)
  | 9 => slotOf (.vbcast (f5 25 w) (BitVec.ofNat 32 w2)) csv (bits 20 0 w == 0) wide
  | _ => ⟨none, [3]⟩

/-- Message class (Table 3-11). -/
def decS (csv : BitVec 4) (w : Nat) : DSlot :=
  let wide := bit 31 w
  let q : Fin 8 := Fin.ofNat 8 (bits 25 23 w)
  match bits 30 26 w with
  | 1 => slotOf (.send q (aopOf (bits 22 16 w)) (f5 15 w) (f5 10 w)) csv (bits 5 0 w == 0) (!wide)
  | 2 => slotOf (.recv q (aopOf (bits 22 16 w)) (f5 15 w) (f5 10 w)) csv (bits 5 0 w == 0) (!wide)
  | 3 => slotOf (.poll q (f5 22 w)) csv (bits 17 0 w == 0) (!wide)
  | _ => ⟨none, [3]⟩

/-- Control class (Table 3-12). -/
def decK (csv : BitVec 4) (w w2 : Nat) : DSlot :=
  let wide := bit 31 w
  match bits 30 26 w with
  | 1 => slotOf .nop csv (bits 25 0 w == 0) (!wide)
  | 2 =>
    if wide then slotOf (.movi (f5 25 w) (BitVec.ofNat 32 w2)) csv (bits 20 0 w == 0) true
    else slotOf (.movi (f5 25 w) (BitVec.ofInt 32 (sext 16 (bits 20 5 w)))) csv (bits 4 0 w == 0) true
  | 3 => slotOf (.addi (f5 25 w) (f5 20 w) (BitVec.ofNat 16 (bits 15 0 w))) csv true (!wide)
  | 4 => slotOf (.alu (f5 25 w) (f5 20 w) (f5 15 w) (BitVec.ofNat 4 (bits 10 7 w))) csv (bits 6 0 w == 0) (!wide)
  | 5 => slotOf (.br (BitVec.ofNat 26 (bits 25 0 w))) csv true (!wide)
  | 6 => slotOf (.brc (f5 25 w) (BitVec.ofNat 2 (bits 20 19 w)) (BitVec.ofNat 19 (bits 18 0 w))) csv true (!wide)
  | 7 => slotOf (.brx (f5 25 w) (bit 20 w)) csv (bits 19 0 w == 0) (!wide)
  | 8 => slotOf (.seta (Fin.ofNat 64 (bits 25 20 w)) (BitVec.ofNat 2 (bits 19 18 w)) (f5 17 w)) csv (bits 12 0 w == 0) (!wide)
  | 9 => slotOf (.geta (Fin.ofNat 64 (bits 25 20 w)) (BitVec.ofNat 2 (bits 19 18 w)) (f5 17 w)) csv (bits 12 0 w == 0) (!wide)
  | 10 => slotOf (.setn (Fin.ofNat 16 (bits 25 22 w)) (f5 21 w)) csv (bits 16 0 w == 0) (!wide)
  | 11 => slotOf (.gets (f5 25 w) (BitVec.ofNat 4 (bits 20 17 w))) csv (bits 16 0 w == 0) (!wide)
  | 12 => slotOf .stepend csv (bits 25 0 w == 0) (!wide)
  | 13 => slotOf .halt csv (bits 25 0 w == 0) (!wide)
  | _ => ⟨none, [3]⟩

/-- A slot by its PMASK bit (Table 3-2). -/
def decSlot (csv : BitVec 4) (slot w w2 : Nat) : DSlot :=
  if slot < 2 then decM csv w else if slot < 4 then decV csv w w2 else if slot < 6 then decC csv w w2
  else if slot == 6 then decS csv w else decK csv w w2

/-- The present slots in mask order, each taking one word, or two where bit 31 is set (R76, R78); and the words used. -/
def splitSlots (csv : BitVec 4) : List Nat → List Nat → List (Nat × DSlot) × Nat
  | [], _ => ([], 0)
  | s :: ss, ws =>
    let w := ws.headD 0
    let n := if bit 31 w then 2 else 1
    let r := splitSlots csv ss (ws.drop n)
    ((s, decSlot csv s w ((ws.drop 1).headD 0)) :: r.1, n + r.2)

/-- Scalar registers that an instruction writes (R82); x0 ignores writes. -/
def SlotOp.xWrites : SlotOp → List Nat
  | .ldx xd _ _ _ => [xd.val]
  | .atom o _ xd _ _ => if 4 ≤ o.toNat then [xd.val] else []
  | .recv _ _ xl xs => [xl.val, xs.val]
  | .poll _ xd => [xd.val]
  | .movi xd _ => [xd.val]
  | .addi xd _ _ => [xd.val]
  | .alu xd _ _ _ => [xd.val]
  | .brx _ true => [31]
  | .geta _ _ xd => [xd.val]
  | .gets xd _ => [xd.val]
  | _ => []

/-- Vector registers written. -/
def SlotOp.vWrites : SlotOp → List Nat
  | .vld vd _ _ => [vd.val]
  | .vpop vd => [vd.val]
  | .vfma vd _ _ => [vd.val]
  | .vbin vd _ _ _ _ => [vd.val]
  | .vun vd _ _ => [vd.val]
  | .vred vd _ _ _ => [vd.val]
  | .vscan vd _ _ _ => [vd.val]
  | .vsegscan vd _ _ _ _ => [vd.val]
  | .vbcast vd _ => [vd.val]
  | _ => []

/-- Accumulators written. -/
def SlotOp.accWrites : SlotOp → List Nat
  | .mma a _ => [a.val]
  | .mpush a true => [a.val]
  | .msta a true _ _ => [a.val]
  | _ => []

def SlotOp.isArith : SlotOp → Bool
  | .vfma .. | .vbin .. | .vun .. | .vred .. | .vscan .. | .vsegscan .. => true
  | _ => false

def SlotOp.isMma : SlotOp → Bool
  | .mma .. => true
  | _ => false

def SlotOp.isVpop : SlotOp → Bool
  | .vpop .. => true
  | _ => false

def SlotOp.isMpush : SlotOp → Bool
  | .mpush .. => true
  | _ => false

/-- Instructions that do not repeat (R87). -/
def SlotOp.once : SlotOp → Bool
  | .br .. | .brc .. | .brx .. | .stepend | .halt => true
  | _ => false

/-- Two slots conflict (R82). -/
def conflict (a b : SlotOp) : Bool :=
  let share (x y : List Nat) := x.any (fun v => y.contains v)
  share (a.xWrites.filter (· != 0)) (b.xWrites.filter (· != 0)) || share a.vWrites b.vWrites || share a.accWrites b.accWrites ||
  (match a, b with
    | .vsetl .., .vsetl .. => true
    | .mlda .., .mlda .. => true
    | .mldb .., .mldb .. => true
    | .seta ar _ _, o => o.aops.any (fun x => x.step && x.reg == ar)
    | o, .seta ar _ _ => o.aops.any (fun x => x.step && x.reg == ar)
    | _, _ => false) ||
  (a.isMma && b.isMma) || (a.isVpop && b.isVpop) || (a.isArith && b.isArith)

/-- Whether any pair of a list conflicts. -/
def anyConflict : List SlotOp → Bool
  | [] => false
  | a :: t => t.any (conflict a) || anyConflict t

/-- A decoded bundle, or the lowest reason it fails for (R79). -/
inductive DecodeOut where
  | bundle (bd : Bundle)
  | bad (reason : Nat)

/-- Decodes a header and the words that follow it. -/
def decodeBundle (csv : BitVec 4) (h : Nat) (ws : List Nat) : DecodeOut :=
  let mask := bits 31 24 h
  let rep := bits 7 4 h
  let present := (List.range 8).filter (fun s => bit s mask)
  let (slots, used) := splitSlots csv present ws
  let ops := slots.filterMap (fun s => s.2.op)
  let reasons :=
    (if mask == 0 then [1] else []) ++ (if used != bits 3 0 h + 1 then [2] else []) ++ slots.flatMap (fun s => s.2.reasons) ++
    (if anyConflict ops then [5] else []) ++ (if rep != 0 && ops.any SlotOp.once then [7] else [])
  match reasons with
  | [] => .bundle { mask := BitVec.ofNat 8 mask, count := 1, slots := slots.filterMap (fun s => s.2.op.map (fun o => (s.1, o))), tag := BitVec.ofNat 16 (bits 23 8 h),
                    rep := Fin.ofNat 16 rep, words := bits 3 0 h + 1, fetched := true }
  | r :: t => .bad (t.foldl min r)

/-- Bytes of the program memory (R33, R75). -/
def progSize : Nat := 262144

/-- A fetch (R75): a decoded bundle, an encoding fault with the header's TAG and REPEATED, or the offset of the first word at
or beyond 262,144. -/
inductive FetchOut where
  | bundle (bd : Bundle)
  | bad (reason : Nat) (tag : BitVec 16) (repeated : Bool)
  | beyond (off : Nat) (tag : BitVec 16) (repeated : Bool)

/-- A fetch at the PC. Where the header itself lies at or beyond 262,144 there is no header to take TAG and REPEATED from: they are 0
(DESIGN CHOICE, log 101). -/
def fetchBundle (csv : BitVec 4) (program : Mem) (pc : Nat) : FetchOut :=
  if progSize < pc + 4 then .beyond pc 0 false
  else
    let h := program.readNat pc 4
    let n := bits 3 0 h + 1
    let tag := BitVec.ofNat 16 (bits 23 8 h)
    let rp := bits 7 4 h != 0
    if progSize < pc + 4 + 4 * n then .beyond progSize tag rp
    else match decodeBundle csv h ((List.range n).map (fun i => program.readNat (pc + 4 + 4 * i) 4)) with
      | .bundle bd => .bundle bd
      | .bad r => .bad r tag rp

end Sys2Proof.Machine
end

