-- ==== Sys2Proof/Machine/Check.lean ====
section
/-! DEFINITION. The check codes of stored words: the Reed–Solomon code of a 32-byte stack word (R345), its poison pattern and the
decoding by syndromes (R346), and the code of SRAM words (R347). -/

namespace Sys2Proof.Machine

/-! ## GF(2^8) (R345) -/

/-- Multiplication by α = 0x02 modulo x^8 + x^4 + x^3 + x^2 + 1. -/
def gfDouble (a : Byte) : Byte := if a.msb then (a <<< 1) ^^^ 0x1D#8 else a <<< 1

/-- The product of two field elements, by the low `n` bits of b. -/
def gfMulBits : Nat → Byte → Byte → Byte
  | 0, _, _ => 0
  | n + 1, a, b => (if b.getLsbD 0 then a else 0) ^^^ gfMulBits n (gfDouble a) (b >>> 1)

def gfMul (a b : Byte) : Byte := gfMulBits 8 a b

/-- α^n. -/
def alphaPow : Nat → Byte
  | 0 => 1
  | n + 1 => gfDouble (alphaPow n)

/-- The coefficients of g(x) = (x + α^0)(x + α^1)(x + α^2)(x + α^3), from that of x^3 down to that of x^0. -/
def rsGenerator : List Byte :=
  let mulRoot (p : List Byte) (a : Byte) : List Byte := List.zipWith (· ^^^ ·) (p ++ [0]) ((0 : Byte) :: p.map (gfMul a))
  (mulRoot (mulRoot (mulRoot (mulRoot [1] (alphaPow 0)) (alphaPow 1)) (alphaPow 2)) (alphaPow 3)).drop 1

/-- One step of the division by g(x): the next symbol enters the remainder. -/
def rsShift (r : List Byte) (x : Byte) : List Byte :=
  let f := x ^^^ r.getD 0 0
  List.zipWith (· ^^^ ·) (r.drop 1 ++ [0]) (rsGenerator.map (gfMul f))

/-- The check bytes c0 to c3 of 32 data bytes. -/
def rsCheck (data : List Byte) : List Byte := data.foldl rsShift [0, 0, 0, 0]

/-- The poison pattern P (R346). -/
def rsPoison : List Byte := [0xB7, 0x4E, 0x19, 0xD2]

/-- A stored word: 32 data bytes and the check bytes, XORed with P where it is marked (R346). -/
def rsWord (data : List Byte) (marked : Bool) : List Byte :=
  data ++ (if marked then List.zipWith (· ^^^ ·) (rsCheck data) rsPoison else rsCheck data)

/-- The syndrome of a stored word at α^j. -/
def rsSyndrome (w : List Byte) (j : Nat) : Byte := w.foldl (fun s x => gfMul s (alphaPow j) ^^^ x) 0

def rsSyndromes (w : List Byte) : List Byte := (List.range 4).map (rsSyndrome w)

/-- The symbol whose error alone has these syndromes, and its value. -/
def rsSingle (s : List Byte) : Option (Nat × Byte) :=
  let e := s.getD 0 0
  if e == 0 then none
  else ((List.range 36).find? (fun i => (List.range 4).all (fun j => s.getD j 0 == gfMul e (alphaPow (j * (35 - i)))))).map (fun i => (i, e))

/-! ## Errors and what a read shows -/

/-- How the error of one read decodes (Table 13-1): no error, corrected, or neither. -/
inductive ErrClass where
  | clean | corrected | uncorrectable
deriving DecidableEq, Repr

/-- What a read of a stored word delivers: its 32 bytes, its mark and the class of its error. -/
structure WordRead where
  data : List Byte
  mark : Bool
  cls : ErrClass
deriving DecidableEq, Repr

/-- The word with the errors of its symbols. -/
def flipSyms (w : List Byte) (e : List SymErr) : List Byte :=
  e.foldl (fun w x => w.set x.sym.val (w.getD x.sym.val 0 ^^^ x.val)) w

/-- Reads a stored stack word by its syndromes (Table 13-1). -/
def rsRead (w : List Byte) : WordRead :=
  let s := rsSyndromes w
  let fix (p : Nat × Byte) : List Byte := (w.set p.1 (w.getD p.1 0 ^^^ p.2)).take 32
  let marked := List.zipWith (· ^^^ ·) s (rsSyndromes (List.replicate 32 0 ++ rsPoison))
  if s.all (· == 0) then ⟨w.take 32, false, .clean⟩
  else if marked.all (· == 0) then ⟨w.take 32, true, .clean⟩
  else match rsSingle s with
    | some p => ⟨fix p, false, .corrected⟩
    | none => match rsSingle marked with
      | some p => ⟨fix p, true, .corrected⟩
      | none => ⟨w.take 32, true, .uncorrectable⟩

/-- What a read of a stack word with these symbol errors delivers. -/
def stackRead (data : List Byte) (marked : Bool) (e : List SymErr) : WordRead := rsRead (flipSyms (rsWord data marked) e)

/-! ## SRAM (R347) -/

/-- The wrong bits of 64-bit word j of a 32-byte SRAM sector and of its 8 check bits, which are symbol 32 + j. -/
def sramFlips (e : List SymErr) (j : Nat) : Nat :=
  let w := flipSyms (List.replicate 36 0) e
  (((w.drop (8 * j)).take 8 ++ [w.getD (32 + j) 0]).map (fun b => (List.range 8).countP (fun i => b.getLsbD i))).sum

/-- What a read of a 32-byte SRAM sector with these errors delivers: per 64-bit word one bit is corrected and more are not. The mark
bits are stored apart, three times each and read by majority (R347), so that no error of one of them shows (log 76). -/
def sramRead (data : List Byte) (marked : Bool) (e : List SymErr) : WordRead :=
  let n := (List.range 4).map (sramFlips e)
  let bad := (flipSyms (data ++ [0, 0, 0, 0]) e).take 32
  if n.all (· == 0) then ⟨data, marked, .clean⟩
  else if n.all (· ≤ 1) then ⟨data, marked, .corrected⟩
  else ⟨(List.range 4).flatMap (fun j => ((if n.getD j 0 ≤ 1 then data else bad).drop (8 * j)).take 8), true, .uncorrectable⟩

/-! ## The retry (R348) -/

/-- How an error ends: what is delivered, and whether it was transient, lasting, and uncorrectable on both reads. -/
structure Retried where
  word : WordRead
  transient : Bool
  lasting : Bool
  lost : Bool
deriving DecidableEq, Repr

/-- Every detected error is retried once; the retry classes it, and a word uncorrectable on both reads is delivered as read and
marked. -/
def retryRead (read : List SymErr → WordRead) (first again : List SymErr) : Retried :=
  let a := read first
  if a.cls == .clean then ⟨a, false, false, false⟩
  else
    let b := read again
    if b.cls == .clean then ⟨b, true, false, false⟩
    else if a.cls == .uncorrectable && b.cls == .uncorrectable then ⟨{ b with mark := true }, false, true, true⟩
    else ⟨if b.cls == .uncorrectable then a else b, false, true, false⟩

/-- An error of a drawer's files that the retry shows again (R348), a lasting fault of the drawer (R209). The classes depend on the errors
alone, so a word of zeros stands for what the file holds. -/
def fileLasting (f : FileErrs) : Bool :=
  f.errs.any (fun e => (retryRead (sramRead (List.replicate 32 0) false) e.first e.again).lasting)

end Sys2Proof.Machine
end

