-- ==== Sys2Proof/Machine/Spaces.lean ====
section
/-! DEFINITION. Stack and sideboard space (R11, R154, R155, R165–R170): address checks, placement, the controllers' held
writes (R161, R326), the drawer port's queue, accumulate-on-write regions, and errors of stored words (R348, R355, R362). -/

namespace Sys2Proof.Machine

/-! ## Stacks -/

/-- Bytes of a stack and of a sideboard. -/
def stkSize : Nat := 0x1200000000
def sbSize : Nat := 0x6000000

def Stack.ilvOf (st : Stack) (i : Nat) : Nat := (st.ilv.get (ilvReset i) i).toNat

/-- Interleave set i holds the offset (R155). -/
def Stack.inSet (st : Stack) (x i : Nat) : Bool :=
  let v := st.ilvOf i
  bit 31 v && decide (bits 17 8 v * 2 ^ 28 ≤ x) && decide (x < bits 27 18 v * 2 ^ 28)

/-- The valid set that holds an offset, if any. -/
def Stack.setOf (st : Stack) (x : Nat) : Option Nat := (List.range 8).find? (st.inSet x)

/-- Where an offset lies: logical channel, bank in the channel, row, column (R155). -/
structure DramPlace where
  ch : Nat
  bank : Nat
  row : Nat
  col : Nat
deriving DecidableEq, Repr

/-- The placement function of R155, for set i. -/
def Stack.placeIn (st : Stack) (x i : Nat) : DramPlace :=
  let v := st.ilvOf i
  let gran := 256 * 2 ^ bits 30 28 v
  let base := bits 17 8 v * 2 ^ 28
  let y := x - base
  let g := y / gran
  let loc := (g / 32) * gran + y % gran + base / 32
  { ch := g % 32, bank := (loc / 2048) % 32, row := loc / 65536, col := loc % 2048 }

def Stack.place (st : Stack) (x : Nat) : DramPlace := st.placeIn x ((st.setOf x).getD 0)

/-- Bytes of a channel. -/
def chanSize : Nat := stkSize / 32

/-- The place in the banks as one number: channel, row, bank, column. -/
def DramPlace.key (p : DramPlace) : Nat := chanSize * p.ch + 65536 * p.row + 2048 * p.bank + p.col

/-- The place in the banks of an offset (R155). -/
def Stack.key (st : Stack) (x : Nat) : Nat := (st.place x).key

/-- The channel, bank, row and column of a place. -/
def placeOfKey (k : Nat) : DramPlace :=
  let l := k % chanSize
  { ch := k / chanSize, bank := (l / 2048) % 32, row := l / 65536, col := l % 2048 }

/-- The offset in set i whose place is k. -/
def Stack.offsetIn (st : Stack) (k i : Nat) : Nat :=
  let v := st.ilvOf i
  let gran := 256 * 2 ^ bits 30 28 v
  let base := bits 17 8 v * 2 ^ 28
  let l := k % chanSize - base / 32
  base + ((l / gran) * 32 + k / chanSize) * gran + l % gran

/-- The offset whose place is k, where a valid set holds it; otherwise k itself. -/
def Stack.offsetOf (st : Stack) (k : Nat) : Nat :=
  match (List.range 8).find? (fun i => st.inSet (st.offsetIn k i) i && st.key (st.offsetIn k i) == k) with
  | some i => st.offsetIn k i
  | none => k

/-- Every 256 MiB unit that a range touches lies in a valid set (R154). -/
def Stack.inSets (st : Stack) (x n : Nat) : Bool :=
  (List.range ((x + n - 1) / 2 ^ 28 - x / 2 ^ 28 + 1)).all (fun i => (st.setOf ((x / 2 ^ 28 + i) * 2 ^ 28)).isSome)

/-- Performs one held write at its bank (R326). A part of a word is merged with what a read returns: while FILLED is 0 that read
is marked, and so is the merged word (R153). -/
def performHeld (filled : Bool) (m : Mem) (h : HeldWrite) : Mem :=
  m.store h.key h.data (fun _ => h.mark || (!filled && h.data.length != 32))

/-- What a read through the controller sees: every accepted write (Table 12-1). -/
def Stack.view (st : Stack) : Mem := st.held.foldl (performHeld st.filled) st.mem

/-- The held writes that `p` selects, each with every earlier one to the same 64-byte sector, and the rest: writes to one word are
performed in order of arrival (R158, R328), and the two words of a sector written whole together (R329). -/
def splitDue (p : HeldWrite → Bool) : List HeldWrite → List HeldWrite × List HeldWrite
  | [] => ([], [])
  | h :: t =>
    let r := splitDue p t
    if p h || t.any (fun g => p g && g.key / 64 == h.key / 64) then (h :: r.1, r.2) else (r.1, h :: r.2)

/-- Performs some of the held writes, in order, and keeps the others. -/
def Stack.performSome (st : Stack) (r : List HeldWrite × List HeldWrite) : Stack :=
  { st with mem := r.1.foldl (performHeld st.filled) st.mem, held := r.2 }

/-- Performs the held writes that `p` selects, in order. -/
def Stack.drain (st : Stack) (p : HeldWrite → Bool) : Stack := st.performSome (splitDue p st.held)

/-- A channel of the stack is held for retraining; a given one is (R164, R357). -/
def Stack.hold (st : Stack) : Bool := !st.holds.isEmpty
def Stack.chanHeld (st : Stack) (ch : Nat) : Bool := st.holds.any (fun h => h.ch.toNat == ch)

/-- A place in the banks lies in a channel that is held for retraining, whose accesses wait. -/
def Stack.keyHeld (st : Stack) (k : Nat) : Bool := st.chanHeld (k / chanSize)

/-- A range of offsets touches the held channel. -/
def Stack.rangeHeld (st : Stack) (x n : Nat) : Bool := st.hold && (sectorsOf x n).any (fun k => st.keyHeld (st.key (32 * k)))

/-- A read of n bytes at a device address waits: it reaches a channel that is held (R357). -/
def Dev.readWaits (d : Dev) (a n : Nat) : Bool := bits 47 44 a == 0 && (d.stk (bits 43 39 a)).rangeHeld (bits 36 0 a) n

/-- Cuts data at 32-byte word boundaries; the fuel is the data's length. -/
def cutWords : Nat → Nat → List Byte → List (Nat × List Byte)
  | 0, _, _ => []
  | n + 1, a, vs =>
    match vs with
    | [] => []
    | _ =>
      let k := 32 - a % 32
      (a, vs.take k) :: cutWords n (a + k) (vs.drop k)

/-- Accepts a write at the controller port (R161): `marked k` is the mark that the data carries for sector k. -/
def Stack.accept (st : Stack) (off : Nat) (data : List Byte) (marked : Nat → Bool) (owner : Option Nat) : Stack :=
  { st with held := st.held ++ (cutWords data.length off data).map (fun p =>
      { key := st.key p.1, data := p.2, mark := marked (p.1 / 32), owner := owner }) }

/-- Who makes an access to a place. -/
inductive Who where
  | bench (k : Nat)
  | host
  | device
deriving DecidableEq, Repr

def Who.owner : Who → Option Nat
  | .bench k => some k
  | .host => some 1152
  | .device => none

/-- Cabinets of other cabinets' benches and the host may read a fenced cabinet's salvageable stack (R372). -/
def Dev.salvage (d : Dev) (s : Nat) (who : Who) (write : Bool) : Bool :=
  let c := d.cab (s / 2)
  let ok := if s % 2 == 0 then c.salvageChest else c.salvagePlain
  ok && !write && (match who with
    | .host => true
    | .bench k => k / 96 != s / 2
    | .device => false)

/-- The refusal of an access to n bytes of stack space, if any: FLT_STK_ADDR (R154, R433) or FLT_DEST_FENCED (R20, R372). -/
def Dev.stkRefusal (d : Dev) (a n : Nat) (who : Who) (write : Bool) : Option (BitVec 16) :=
  let s := bits 43 39 a
  let x := bits 36 0 a
  if decide (24 ≤ s) || bits 38 37 a != 0 || decide (stkSize < x + n) then some fltStkAddr
  else if d.fenced (s / 2) && !d.salvage s who write then some fltDestFenced
  else if !d.fenced (s / 2) && !d.domOn (stkDom s) then some fltStkAddr
  else if !(d.stk s).inSets x n then some fltStkAddr
  else none

/-- A read of one place: bytes, and the marked sectors (numbered by address / 32). -/
structure Rd where
  data : List Byte
  marks : List Nat
deriving DecidableEq, Repr

/-- Reads a stack through its controller: while FILLED is 0 every sector is marked (R171). -/
def Stack.readCtl (st : Stack) (x n : Nat) : Rd :=
  let v := st.view
  { data := (List.range n).map (fun i => v.byte (st.key (x + i)))
    marks := (sectorsOf x n).filter (fun k => !st.filled || v.mark (st.key (32 * k))) }

/-! ## Errors of stored words (R348, R355, R356) -/

def Stack.bank (st : Stack) (n : Nat) : BankRows := st.banks.get BankRows.reset n

/-- Spares never used, spares retired, and whether a spare serves row r. -/
def BankRows.left (b : BankRows) : Nat := 16 - b.entries.length
def BankRows.retired (b : BankRows) : Nat := (b.entries.filter (· == 0xFFFE#16)).length
def BankRows.remaps (b : BankRows) (r : Nat) : Bool := b.entries.contains (BitVec.ofNat 16 r)

/-- The next unused spare takes row r; a spare that served it is retired (R355). The spares are used in their order (DESIGN CHOICE,
log 123). -/
def BankRows.respare (b : BankRows) (r : Nat) : BankRows :=
  let e := BitVec.ofNat 16 r
  { b with entries := b.entries.map (fun x => if x == e then 0xFFFE#16 else x) ++ [e], watch := b.watch.filter (· != r) }

/-- Row r enters the watch list, whose oldest entry a fifth row drops (R355). -/
def BankRows.watched (b : BankRows) (r : Nat) : BankRows := { b with watch := (b.watch ++ [r]).drop (if b.watch.length == 4 then 1 else 0) }

/-- A lasting error of row r in bank n (R355): the watch list of four rows, the remap, the retired spare; then the
retire-pending check of R356. Answers the bank and the codes to record. -/
def BankRows.fail (b : BankRows) (r : Nat) : BankRows × List (BitVec 16) × Bool :=
  let (b', codes, remapped) :=
    if !b.watch.contains r then (b.watched r, [], false)
    else if b.left == 0 then (b, [fltRowNoSpare], false)
    else (b.respare r, [if b.remaps r then fltRowSpareRetired else fltRowRemap], true)
  if 14 < b'.retired && !b'.pending then
    ({ b' with pending := true }, codes ++ [fltBankRetirePending], remapped)
  else (b', codes, remapped)

/-- What a read of word w of the banks delivers where its symbols show these errors. -/
def Stack.readWord (st : Stack) (w : Nat) (e : List SymErr) : WordRead := stackRead (st.mem.read (32 * w) 32) (st.mem.marked w) e

/-- The word reads from now on as it was delivered. -/
def Mem.settleWord (m : Mem) (w : Nat) (r : WordRead) : Mem :=
  if r.data == m.read (32 * w) 32 && r.mark == m.marked w then m else m.store (32 * w) r.data (fun _ => r.mark)

/-- The record of a stack word uncorrectable on both reads and written back marked (R349). -/
def Dev.stkLostWord (d : Dev) (s w : Nat) : Dev :=
  d.unitRecord 1 (s / 2) s fltStkUncorrectable
    { detail := s * 2 ^ 39 + (d.stk s).offsetOf (32 * w), atRest := true, lasting := true, retried := true }

/-- Counts an error and its retry in STK[s]_ERR_COUNT, and leaves the word as it is delivered (R348). -/
def Stack.counted (st : Stack) (w : Nat) (o : Retried) : Stack :=
  { st with
    errTransient := if o.transient then satInc16 st.errTransient else st.errTransient
    errLasting := if o.lasting then satInc16 st.errLasting else st.errLasting
    errUncorrectable := if o.lost then satInc16 st.errUncorrectable else st.errUncorrectable
    mem := st.mem.settleWord w o.word }

/-- A word that is copied with its row to spare cells: corrected, or marked where it is uncorrectable on both reads (R355). Its latent
error stays behind; that a lasting one of it fails no row again, for the row is being remapped, is a DESIGN CHOICE (log 116). -/
def Dev.copyWord (d : Dev) (s : Nat) (u : Upset) : Dev :=
  let st := d.stk s
  let o := retryRead (st.readWord u.word) u.first u.again
  let d := d.setStk s (st.counted u.word o)
  if o.lost then d.stkLostWord s u.word else d

/-- Every word that `p` selects is copied to spare cells. -/
def Dev.copyWords (d : Dev) (s : Nat) (p : Nat → Bool) : Dev :=
  let st := d.stk s
  match st.upsets.filter (fun u => p u.word) with
  | [] => d
  | hit => hit.foldl (fun d u => d.copyWord s u) (d.setStk s { st with upsets := st.upsets.filter (fun u => !p u.word) })

/-- The words of the row that holds word w. -/
def sameRow (w v : Nat) : Bool := { placeOfKey (32 * v) with col := 0 } == { placeOfKey (32 * w) with col := 0 }

/-- One read of a stored word that shows an error (R348): the retry classes it, lasting errors enter the row accounting of
R355, and a word uncorrectable on both reads is written back marked (R349). A row that is remapped is copied. A lasting error that is
neither written back nor left behind stays in its cells. -/
def Dev.stkError (d : Dev) (s : Nat) (u : Upset) : Dev :=
  if u.first.isEmpty then d else
  let st := d.stk s
  let o := retryRead (st.readWord u.word) u.first u.again
  let st := st.counted u.word o
  let d := d.setStk s st
  if !o.lasting then d else
  let p := placeOfKey (32 * u.word)
  let n := 32 * p.ch + p.bank
  let (bk, codes, remap) := (st.bank n).fail p.row
  let d := d.setStk s { st with
    banks := st.banks.set n bk
    errRemaps := if remap then satInc16 st.errRemaps else st.errRemaps
    upsets := if remap || o.lost then st.upsets else st.upsets ++ [⟨u.word, u.again, u.again⟩] }
  let d := if o.lost then d.stkLostWord s u.word else d
  let d := if remap then (d.copyWords s (sameRow u.word)).interrupts (s / 2) else d
  codes.foldl (fun d c => d.unitRecord 1 (s / 2) s c { detail := n * 65536 + p.row, lasting := true, retried := true }) d

/-- Meets the latent errors of the words that `p` selects, one after the other (R348): one that a remap has copied away is met no more.
While FILLED is 0 nothing is retried or counted (R171). -/
def Dev.touchWords (d : Dev) (s : Nat) (p : Nat → Bool) : Dev :=
  let st := d.stk s
  if !st.filled then d else
  match st.upsets.filter (fun u => p u.word) with
  | [] => d
  | hit => hit.foldl (fun d u =>
      let st := d.stk s
      if st.upsets.contains u then (d.setStk s { st with upsets := st.upsets.erase u }).stkError s u else d) d

/-- Meets every latent error in the words of a range of offsets before they are read. -/
def Dev.touchStk (d : Dev) (s x n : Nat) : Dev :=
  let st := d.stk s
  let ws := if st.upsets.isEmpty then [] else (sectorsOf x n).map (fun k => st.key (32 * k) / 32)
  d.touchWords s (fun w => ws.contains w)

/-- Performs held writes of stack s, as they are split from the rest (R326): those that cover a word in part read it first (R205). -/
def Dev.performSome (d : Dev) (s : Nat) (r : List HeldWrite × List HeldWrite) : Dev :=
  let part := (r.1.filter (fun h => h.data.length != 32)).map (fun h => h.key / 32)
  let d := d.touchWords s (fun w => part.contains w)
  d.setStk s ((d.stk s).performSome r)

/-- Performs the held writes of stack s that `p` selects. -/
def Dev.drainStk (d : Dev) (s : Nat) (p : HeldWrite → Bool) : Dev := d.performSome s (splitDue p (d.stk s).held)

/-! ## Sideboards -/

/-- The refusal of an access to n bytes of sideboard space, if any (R165, R166, R20, R433). The program reserve lies at the
top. -/
def Dev.sbRefusal (d : Dev) (a n : Nat) : Option (BitVec 16) :=
  let c := bits 43 40 a
  let x := bits 26 0 a
  if decide (12 ≤ c) || bits 39 27 a != 0 || decide (sbSize < x + n) then some fltSbAddr
  else if d.fenced c then some fltDestFenced
  else if !d.domOn (sbDom c) then some fltSbAddr
  else if decide (sbSize - (d.sb c).reserve * 0x40000 < x + n) then some fltSbReserve
  else none

/-- Reads a sideboard through its router port (R167, R326): the drawer port's queue is not seen; while FILLED is 0 every
sector is marked (R171). -/
def Sideboard.readRouter (sb : Sideboard) (x n : Nat) : Rd :=
  { data := sb.mem.read x n
    marks := (sectorsOf x n).filter (fun k => !sb.filled || sb.mem.marked k) }

def Sideboard.aowOf (sb : Sideboard) (n : Nat) : Nat := (sb.aow.get 0#64 n).toNat

/-- The accumulate-on-write region that holds an offset (R168). -/
def Sideboard.region (sb : Sideboard) (x : Nat) : Option Nat :=
  (List.range 16).find? (fun n =>
    let v := sb.aowOf n
    bit 63 v && decide (bits 26 0 v ≤ x) && decide (x < bits 53 27 v))

/-- One write to one 64-byte sector or less of a sideboard, REPLACE = 0, combined where it lies in a region (R168): the new
store, and whether the combine met a mark (R170). -/
def Sideboard.combine (sb : Sideboard) (x : Nat) (data : List Byte) (marked : Nat → Bool) : Mem × Bool :=
  match sb.region x with
  | none => (sb.mem.store x data marked, false)
  | some r =>
    let secs := sectorsOf x data.length
    let stored := if sb.filled then sb.mem.anyMark (x / 64 * 64) 64 else true
    if stored || secs.any marked then
      (secs.foldl (fun m k => m.setMark k true) sb.mem, true)
    else
      let op := bits 61 60 (sb.aowOf r)
      let vals := (List.range (data.length / 4)).flatMap (fun i =>
        let old := BitVec.ofNat 32 (sb.mem.readNat (x + 4 * i) 4)
        let inc := BitVec.ofNat 32 (leNat ((data.drop (4 * i)).take 4))
        leBytes 4 (if op == 0 then fpAdd old inc else fpMax old inc).toNat)
      (sb.mem.write x vals, false)

/-- A request that splits a 4-byte element of a region is refused (R168). -/
def Sideboard.splits (sb : Sideboard) (x n : Nat) : Bool := (sb.region x).isSome && (x % 4 != 0 || n % 4 != 0)

/-- A write through the router port, sector by sector. `replace` stores over regions (R168). Answers the address of the first
sector where a combine met a mark. -/
def sbWriteSectors (sb : Sideboard) (replace : Bool) : List (Nat × List Byte) → (Nat → Bool) → Option Nat → Sideboard × Option Nat
  | [], _, hit => (sb, hit)
  | (x, vs) :: t, marked, hit =>
    if replace then sbWriteSectors { sb with mem := sb.mem.store x vs marked } replace t marked hit
    else
      let (m, bad) := sb.combine x vs marked
      sbWriteSectors { sb with mem := m } replace t marked (if bad && hit.isNone then some (x / 64 * 64) else hit)

/-- Cuts data at 64-byte sector boundaries. -/
def cutSectors : Nat → Nat → List Byte → List (Nat × List Byte)
  | 0, _, _ => []
  | n + 1, a, vs =>
    match vs with
    | [] => []
    | _ =>
      let k := 64 - a % 64
      (a, vs.take k) :: cutSectors n (a + k) (vs.drop k)

/-- Performs one write that leaves the drawer port's queue (R326); the address of the first sector whose combine met a mark. -/
def Sideboard.performPort (sb : Sideboard) (w : PortWrite) : Sideboard × Option Nat :=
  sbWriteSectors sb w.replace (cutSectors w.data.length w.off w.data) (fun k => w.marks.contains k) none

/-- Reads a sideboard through its drawer port: accepted writes are seen (Table 12-1). -/
def Sideboard.readDrawer (sb : Sideboard) (x n : Nat) : Rd := (sb.dq.foldl (fun s w => (s.performPort w).1) sb).readRouter x n

/-- A write through the router port of sideboard c. -/
def Dev.sbWrite (d : Dev) (c x : Nat) (data : List Byte) (marked : Nat → Bool) (replace : Bool) : Dev × Option Nat :=
  let (sb, hit) := sbWriteSectors (d.sb c) replace (cutSectors data.length x data) marked none
  (d.setSb c sb, hit)

/-- The code and notes of a sideboard word (R349). -/
def sbNote (c w : Nat) (rest : Bool) : UnitNote :=
  { detail := 2 ^ 44 + c * 2 ^ 40 + 32 * w, atRest := rest, lasting := true, retried := true }

/-- Counts the error of a sideboard word and its retry in SB[c]_ERR_COUNT, and leaves the word as it is delivered (R348). -/
def Sideboard.counted (sb : Sideboard) (w : Nat) (o : Retried) : Sideboard :=
  { sb with
    transient := if o.transient then satInc8 sb.transient else sb.transient
    lasting := if o.lasting then satInc8 sb.lasting else sb.lasting
    uncorrectable := if o.lost then satInc8 sb.uncorrectable else sb.uncorrectable
    mem := sb.mem.settleWord w o.word }

/-- One word of a sideboard is read with these errors; a word uncorrectable on both reads is stored marked and recorded (R349). Answers
whether the error was lasting. -/
def Dev.sbWord (d : Dev) (c : Nat) (u : Upset) : Dev × Bool :=
  let sb := d.sb c
  let o := retryRead (sramRead (sb.mem.read (32 * u.word) 32) (sb.mem.marked u.word)) u.first u.again
  let d := d.setSb c (sb.counted u.word o)
  (if o.lost then d.unitRecord 2 c 0 fltSbUncorrectable (sbNote c u.word true) else d, o.lasting)

/-- A sideboard line with an error (R348, R362): a lasting one is remapped to one of its bank's 4 spare lines with its words copied,
or, with no line left, the cabinet is lost. -/
def Dev.sbError (d : Dev) (c : Nat) (u : Upset) : Dev :=
  if u.first.isEmpty then d else
  let (d, lasting) := d.sbWord c u
  if !lasting then d else
  let sb := d.sb c
  let line := u.word / 2
  let used := sb.spares.get [] (line % 24)
  if 4 ≤ used.length then (d.unitDiscard 2 c 0 fltSbLost (sbNote c u.word false)).loseCabinet c fltSbLost true true
  else
    let inLine (v : Upset) : Bool := v.word / 2 == line
    ((sb.upsets.filter inLine).foldl (fun d v => (d.sbWord c v).1)
      (d.setSb c { sb with spares := sb.spares.set (line % 24) (used ++ [BitVec.ofNat 16 (line / 24)]), upsets := sb.upsets.filter (fun v => !inLine v) })).interrupts c

/-- Meets the latent errors of the sideboard words that `p` selects, one after the other: one whose line has been remapped is met no
more (R362). -/
def Dev.touchSbWords (d : Dev) (c : Nat) (p : Nat → Bool) : Dev :=
  let sb := d.sb c
  if !sb.filled then d else
  match sb.upsets.filter (fun u => p u.word) with
  | [] => d
  | hit => hit.foldl (fun d u =>
      let sb := d.sb c
      if sb.upsets.contains u then (d.setSb c { sb with upsets := sb.upsets.erase u }).sbError c u else d) d

/-- Meets the latent errors of a sideboard range. -/
def Dev.touchSb (d : Dev) (c x n : Nat) : Dev := d.touchSbWords c (fun w => (sectorsOf x n).contains w)

end Sys2Proof.Machine
end

