-- ==== Sys2Proof/Machine/Coding.lean ====
section
/-! DEFINITION. The block coding of 11 (R299–R306, R310): decomposition, canonical codes, coded blocks, index entries and
their decoding. -/

namespace Sys2Proof.Machine

/-- How a format splits (Table 11-1): bytes of an element, exponent bits, mantissa bits; 0 exponent bits for integers. -/
structure Split where
  es : Nat
  eb : Nat
  mb : Nat
deriving DecidableEq, Repr

def splitOf (fmt : Nat) : Option Split :=
  match fmt with
  | 1 => some ⟨1, 4, 3⟩
  | 3 => some ⟨1, 4, 3⟩
  | 2 => some ⟨1, 5, 2⟩
  | 4 => some ⟨1, 5, 2⟩
  | 5 => some ⟨1, 3, 2⟩
  | 6 => some ⟨1, 2, 3⟩
  | 7 => some ⟨1, 2, 1⟩
  | 8 => some ⟨2, 8, 7⟩
  | 9 => some ⟨2, 5, 10⟩
  | 0xC => some ⟨4, 8, 23⟩
  | 0xA => some ⟨1, 0, 7⟩
  | 0xB => some ⟨1, 0, 7⟩
  | _ => none

/-- Elements of a 4,096-byte block. -/
def Split.count (s : Split) : Nat := 4096 / s.es

/-- Sections of a block: the sign and every mantissa bit. -/
def Split.sections (s : Split) : Nat := s.mb + 1

/-- The elements of a block (little-endian). -/
def elemsOf (es : Nat) : Nat → List Byte → List Nat
  | 0, _ => []
  | n + 1, bs => leNat (bs.take es) :: elemsOf es n (bs.drop es)

/-- The exponent of an element. -/
def Split.expo (s : Split) (v : Nat) : Nat := (v / 2 ^ s.mb) % 2 ^ s.eb

/-- Bit of section i of an element (Table 11-1, R300). -/
def Split.secBit (s : Split) (i v : Nat) : Bool :=
  if s.eb == 0 then (if i == 0 then bit 7 v else bit (7 - i) v != bit 7 v)
  else if i == 0 then bit (s.mb + s.eb) v else bit (s.mb - i) v

/-- Canonical codes (R302): each symbol's code, assigned by length and then by symbol. -/
def assignCodes (lens : List Nat) : List (Nat × Nat) :=
  ((List.range 15).foldl (fun (st : Nat × Nat × List (Nat × Nat)) i =>
    let len := i + 1
    (List.range 16).foldl (fun st s =>
      if lens.getD s 0 == len then
        let c := st.1 <<< (len - st.2.1)
        (c + 1, len, st.2.2 ++ [(s, c)])
      else st) st) (0, 0, [])).2.2

/-- The n bits of a number, most significant first. -/
def msbBits (n v : Nat) : List Bool := (List.range n).map (fun i => bit (n - 1 - i) v)

/-- The code bits of an exponent, or none where it has no code (R302). -/
def CodeTable.codeOf (t : CodeTable) (codes : List (Nat × Nat)) (eb e : Nat) : Option (List Bool) :=
  let code (s : Nat) : Option (List Bool) := (codes.find? (fun p => p.1 == s)).map (fun p => msbBits (t.lens.getD s 0) p.2)
  match (List.range 15).find? (fun s => t.lens.getD s 0 != 0 && t.vals.getD s 0 == e) with
  | some s => code s
  | none => (code 15).map (fun c => c ++ msbBits eb e)

/-- Bits into bytes from bit 7 downward, padded with zeros (R302). -/
def packMsb : Nat → List Bool → List Byte
  | 0, _ => []
  | n + 1, bs =>
    match bs with
    | [] => []
    | _ => BitVec.ofNat 8 ((List.range 8).map (fun i => b2n (bs.getD i false) * 2 ^ (7 - i))).sum :: packMsb n (bs.drop 8)

/-- Bits into bytes, element i at bit i mod 8 (R299). -/
def packLsb : Nat → List Bool → List Byte
  | 0, _ => []
  | n + 1, bs =>
    match bs with
    | [] => []
    | _ => BitVec.ofNat 8 ((List.range 8).map (fun i => b2n (bs.getD i false) * 2 ^ i)).sum :: packLsb n (bs.drop 8)

/-- Run bytes of a section: the longest run possible at each point, up to 128 bits (R304). -/
def runBytes : List Bool → Option (Bool × Nat) → List Byte
  | [], none => []
  | [], some (v, n) => [BitVec.ofNat 8 (b2n v * 128 + (n - 1))]
  | b :: t, none => runBytes t (some (b, 1))
  | b :: t, some (v, n) =>
    if b == v && decide (n < 128) then runBytes t (some (v, n + 1))
    else BitVec.ofNat 8 (b2n v * 128 + (n - 1)) :: runBytes t (some (b, 1))

/-- What a block is stored as (R305). -/
inductive Stored where
  | zero
  | coded (bytes : List Byte)
  | raw
deriving DecidableEq, Repr

/-- Pads with zero bytes to a multiple of 32 (R303). -/
def pad32 (bs : List Byte) : List Byte := bs ++ List.replicate ((32 - bs.length % 32) % 32) 0

/-- Encodes one block (R303–R305): `marked` says that a source sector is marked. -/
def encodeBlock (t : CodeTable) (raw : List Byte) (marked : Bool) : Stored :=
  if raw.all (· == 0) && !marked then .zero
  else if marked then .raw
  else match splitOf t.fmt.toNat with
  | none => .raw
  | some sp =>
    let es := elemsOf sp.es sp.count raw
    let codes := assignCodes t.lens
    let stream : Option (List Bool) := if sp.eb == 0 then some [] else
      es.foldr (fun v acc => match acc, t.codeOf codes sp.eb (sp.expo v) with
        | some a, some c => some (c ++ a)
        | _, _ => none) (some [])
    match stream with
    | none => .raw
    | some bits =>
      let body := packMsb (bits.length + 1) bits
      let secs := (List.range sp.sections).map (fun i =>
        let bs := es.map (sp.secBit i)
        let rawSec := packLsb (sp.count + 1) bs
        let rb := runBytes bs none
        if rb.length + 2 < rawSec.length then (true, leBytes 2 rb.length ++ rb) else (false, rawSec))
      let mode := ((List.range sp.sections).map (fun i => if (secs.getD i (false, [])).1 then 2 ^ i else 0)).sum
      let header := t.fmt.toNat * 2 ^ 56 + body.length * 2 ^ 40 + (t.gen.toNat % 256) * 2 ^ 32 + mode
      let out := pad32 (leBytes 8 header ++ body ++ secs.flatMap (fun s => s.2))
      if 4032 < out.length then .raw else .coded out

/-- Reads one exponent from a bit stream: the symbol's value or an escape (R302). The fuel bounds the code length. -/
def readCode (t : CodeTable) (codes : List (Nat × Nat)) (eb : Nat) : Nat → Nat → Nat → List Bool → Option (Nat × List Bool)
  | 0, _, _, _ => none
  | n + 1, len, v, bs =>
    match bs with
    | [] => none
    | b :: rest =>
      let len := len + 1
      let v := 2 * v + b2n b
      match codes.find? (fun p => t.lens.getD p.1 0 == len && p.2 == v) with
      | some (15, _) =>
        if rest.length < eb then none
        else some (((List.range eb).map (fun i => b2n (rest.getD i false) * 2 ^ (eb - 1 - i))).sum, rest.drop eb)
      | some (s, _) => some (t.vals.getD s 0, rest)
      | none => readCode t codes eb n len v rest

/-- Reads the exponents of n elements. -/
def readExpos (t : CodeTable) (codes : List (Nat × Nat)) (eb : Nat) : Nat → List Bool → Option (List Nat)
  | 0, _ => some []
  | n + 1, bs =>
    match readCode t codes eb 15 0 0 bs with
    | some (e, rest) => (readExpos t codes eb n rest).map (e :: ·)
    | none => none

/-- Expands runs (R304). -/
def expandRuns (bs : List Byte) : List Bool := bs.flatMap (fun b => List.replicate (b.toNat % 128 + 1) b.msb)

/-- Reads the sections of a coded block; none where one runs past the stored bytes or its runs do not sum (R310). -/
def readSections (count mode : Nat) : Nat → Nat → List Byte → Option (List (List Bool))
  | 0, _, _ => some []
  | n + 1, i, bs =>
    if bit i mode then
      if bs.length < 2 then none
      else
        let k := leNat (bs.take 2)
        let runs := (bs.drop 2).take k
        if runs.length < k then none
        else
          let bits := expandRuns runs
          if bits.length != count then none else (readSections count mode n (i + 1) (bs.drop (2 + k))).map (bits :: ·)
    else
      let k := count / 8
      if bs.length < k then none
      else
        let bits := (bs.take k).flatMap (fun b => (List.range 8).map (fun j => b.getLsbD j))
        (readSections count mode n (i + 1) (bs.drop k)).map (bits :: ·)

/-- An element from its exponent and section bits. -/
def Split.join (s : Split) (e : Nat) (secs : List Bool) : Nat :=
  let sec (i : Nat) : Bool := secs.getD i false
  if s.eb == 0 then
    ((List.range 8).map (fun i => b2n (if i == 0 then sec 0 else sec i != sec 0) * 2 ^ (7 - i))).sum
  else b2n (sec 0) * 2 ^ (s.mb + s.eb) + e * 2 ^ s.mb + ((List.range s.mb).map (fun j => b2n (sec (s.mb - j)) * 2 ^ j)).sum

/-- Decodes the body of a coded block; none where it is corrupt (Table 11-4). -/
def decodeBody (t : CodeTable) (stored : List Byte) : Option (List Byte) :=
  match splitOf t.fmt.toNat with
  | none => none
  | some sp =>
    let h := leNat (stored.take 8)
    let elen := bits 55 40 h
    let mode := bits 31 0 h
    let body := (stored.drop 8).take elen
    if body.length < elen || mode / 2 ^ sp.sections != 0 || (sp.eb == 0 && elen != 0) then none
    else
      let expos := if sp.eb == 0 then some (List.replicate sp.count 0)
        else readExpos t (assignCodes t.lens) sp.eb sp.count (body.flatMap (fun b => msbBits 8 b.toNat))
      match expos, readSections sp.count mode sp.sections 0 (stored.drop (8 + elen)) with
      | some es, some secs =>
        some ((List.range sp.count).flatMap (fun i => leBytes sp.es (sp.join (es.getD i 0) (secs.map (fun s => s.getD i false)))))
      | _, _ => none

/-! ## Index entries (Table 11-3) -/

structure Entry where
  room : Nat
  length : Nat
  raw : Bool
  zero : Bool
  slot : Nat
  gen : Nat
  fver : Nat
  offset : Nat
deriving DecidableEq, Repr

def entryOf (v : Nat) : Entry :=
  { room := bits 63 56 v, length := bits 55 48 v, raw := bit 47 v, zero := bit 46 v, slot := bits 45 42 v, gen := bits 41 40 v,
    fver := bits 39 36 v, offset := bits 30 0 v }

def Entry.toNat (e : Entry) : Nat :=
  e.room * 2 ^ 56 + e.length * 2 ^ 48 + b2n e.raw * 2 ^ 47 + b2n e.zero * 2 ^ 46 + e.slot * 2 ^ 42 + e.gen * 2 ^ 40 +
    e.fver * 2 ^ 36 + e.offset

/-- The entry of a block coded with a table in a slot (R305, R308, R309). -/
def entryFor (old : Entry) (slot : Nat) (t : CodeTable) (s : Stored) : Entry :=
  match s with
  | .zero => { old with length := 0, raw := false, zero := true, slot := 0, gen := 0, fver := 1 }
  | .raw => { old with length := 128, raw := true, zero := false, slot := 0, gen := 0, fver := 1 }
  | .coded b => { old with length := b.length / 32, raw := false, zero := false, slot := slot, gen := t.gen.toNat % 4, fver := 1 }

/-- A block stored raw. -/
def Stored.isRaw : Stored → Bool
  | .raw => true
  | _ => false

/-- Bytes stored for a block. -/
def Stored.bytes (s : Stored) (raw : List Byte) : List Byte :=
  match s with
  | .zero => []
  | .coded b => b
  | .raw => raw

/-- Every slot emptied (R312). -/
def Cmp.emptied (c : Cmp) : Cmp := { c with newest := [], prev := [] }

/-- The generation of a slot whose number has the residue given (R310). -/
def Cmp.genOf (c : Cmp) (slot gen : Nat) : Option CodeTable :=
  match c.newest.find slot with
  | some t => if t.gen.toNat % 4 == gen then some t
    else match c.prev.find slot with
      | some p => if p.gen.toNat % 4 == gen then some p else none
      | none => none
  | none => none

/-- What the stored bytes of a block must be read for: none where the entry alone decides (Table 11-4). -/
def Entry.sound (e : Entry) : Bool :=
  e.fver == 1 && !(e.raw && e.zero) && (if e.zero then e.length == 0 else if e.raw then e.length == 128
    else decide (1 ≤ e.length) && decide (e.length ≤ 126))

/-- Bytes without a mark. -/
def clean (bs : List Byte) : List (Byte × Bool) := bs.map (fun b => (b, false))

/-- A block decoded from its entry and stored bytes (Table 11-4), each byte with its sector's mark; none where it is delivered
poisoned. -/
def decodeBlock (c : Cmp) (fmt : Nat) (e : Entry) (stored : List (Byte × Bool)) : Option (List (Byte × Bool)) :=
  if !e.sound then none
  else if e.zero then some (clean (List.replicate 4096 0))
  else if e.raw then some stored
  else match c.genOf e.slot e.gen with
  | none => none
  | some t =>
    let bytes := stored.map (fun b => b.1)
    let h := leNat (bytes.take 8)
    if t.gen.toNat % 256 != bits 39 32 h || bits 63 56 h != t.fmt.toNat || t.fmt.toNat != fmt || stored.any (fun b => b.2) then none
    else (decodeBody t bytes).map clean

/-- Block j that use n delivers poisoned (R310): 4,096 bytes with every sector marked; what the bytes hold is free (log 105). -/
def poisonBlock (n j : Nat) : List (Byte × Bool) := (List.range 4096).map (fun i => (Config.undefByte n (4096 * j + i), true))

/-- The generation that a coded block of an index entry is queued in (R313): zero and raw blocks name none. -/
def Cmp.queuedGen (c : Cmp) (e : Entry) : List (Nat × BitVec 16) :=
  if e.raw || e.zero then [] else ((c.genOf e.slot e.gen).map (fun t => (e.slot, t.gen))).toList

/-! ## Coded pieces of message payloads (R318, R319) -/

/-- Bytes as class M flits: the last flit is filled with zeros, and a half with a marked byte is marked (R41). -/
def byteFlits : Nat → List (Byte × Bool) → List Flit
  | 0, _ => []
  | n + 1, bs =>
    match bs with
    | [] => []
    | _ =>
      let f := bs.take 64
      let half (h : List (Byte × Bool)) : Nat := b2n (h.any (fun b => b.2))
      ⟨2, f.map (fun b => b.1) ++ List.replicate (64 - f.length) 0, half (f.take 32) + 2 * half (f.drop 32), false⟩ :: byteFlits n (bs.drop 64)

/-- The bytes of a flit, each with its half's mark. -/
def Flit.bytes (f : Flit) : List (Byte × Bool) := (f.data.take 32).map (fun b => (b, bit 0 f.marks)) ++ (f.data.drop 32).map (fun b => (b, bit 1 f.marks))

/-- A whole piece without a mark as it is coded (log 46): a flit with its index entry (Table 11-3), then the stored bytes. A piece that is
stored raw goes raw. -/
def codedPiece (slot : Nat) (t : CodeTable) (p : List (Byte × Bool)) : Option (List Flit) :=
  if p.length != 4096 || p.any (fun b => b.2) then none
  else
    let raw := p.map (fun b => b.1)
    let st := encodeBlock t raw false
    if st.isRaw then none
    else some (⟨2, leBytes 8 (entryFor (entryOf 0) slot t st).toNat ++ List.replicate 56 0, 0, true⟩ :: byteFlits 64 (clean (st.bytes raw)))

/-- A payload on a compressed direction, piece by piece (R318). -/
def wirePieces (slot : Nat) (t : CodeTable) : Nat → List (Byte × Bool) → List Flit
  | 0, _ => []
  | n + 1, bs =>
    match bs with
    | [] => []
    | _ => (codedPiece slot t (bs.take 4096)).getD (byteFlits 64 (bs.take 4096)) ++ wirePieces slot t n (bs.drop 4096)

/-- The index entry of a flit that begins a coded piece. -/
def Flit.entry (f : Flit) : Entry := entryOf (leNat (f.data.take 8))

/-- The pieces of `left` payload bytes as they arrive, each with its index entry where it is coded; none while flits are missing. -/
def arrivedPieces : Nat → Nat → List Flit → Option (List (Option Entry × List Flit))
  | 0, _, _ => some []
  | _ + 1, 0, _ => some []
  | _ + 1, _ + 1, [] => none
  | n + 1, left + 1, f :: fs =>
    let (e, k, body) := if f.piece then (some f.entry, (f.entry.length + 1) / 2, fs) else (none, (min (left + 1) 4096 + 63) / 64, f :: fs)
    if body.length < k then none
    else (arrivedPieces n (left + 1 - 4096) (body.drop k)).map (fun r => (e, body.take k) :: r)

/-- A piece decoded (R319); none where it is delivered poisoned. The table's own format stands for the descriptor's (R318). -/
def Cmp.piece (c : Cmp) (p : Option Entry × List Flit) : Option (List (Byte × Bool)) :=
  let bs := p.2.flatMap Flit.bytes
  match p.1 with
  | none => some (bs.take 4096)
  | some e =>
    let fmt := ((c.genOf e.slot e.gen).map (fun t => t.fmt.toNat)).getD 0
    decodeBlock c fmt e (bs.take (32 * e.length))

/-! ## Coding tables (R301, R312) -/

/-- A record of Table 11-2 as a slot and table, where it breaks none of R301's rules. -/
def tableOf (r : List Byte) : Option (Nat × CodeTable) :=
  let by' (i : Nat) : Nat := (r.getD i 0).toNat
  let lens := (List.range 16).map (fun s => (by' (4 + s / 2) / 16 ^ (s % 2)) % 16)
  let vals := (List.range 16).map (fun s => by' (12 + s))
  match splitOf (by' 1) with
  | none => none
  | some sp =>
    let present := (List.range 16).filter (fun s => lens.getD s 0 != 0)
    let kraft := (present.map (fun s => 2 ^ (15 - lens.getD s 0))).sum
    let direct := present.filter (· != 15)
    let badInt := sp.eb == 0 && (lens.any (· != 0) || vals.any (· != 0))
    let badExp := sp.eb != 0 && (present.isEmpty || decide (2 ^ 15 < kraft))
    let badVals := (direct.map (fun s => vals.getD s 0)).dedup.length != direct.length ||
      vals.any (fun v => decide (2 ^ sp.eb ≤ v) && v != 0) || vals.getD 15 0 != 0 ||
      (List.range 15).any (fun s => lens.getD s 0 == 0 && vals.getD s 0 != 0)
    if decide (16 ≤ by' 0) || badInt || badExp || badVals || (List.range 4).any (fun i => by' (28 + i) != 0) then none
    else some (by' 0, { fmt := BitVec.ofNat 4 (by' 1), gen := BitVec.ofNat 16 (by' 2 + 256 * by' 3), lens := lens, vals := vals })

/-- Loads a table into a slot (R312): none where its GEN does not follow the newest. -/
def Cmp.load (c : Cmp) (slot : Nat) (t : CodeTable) : Option Cmp :=
  match c.newest.find slot with
  | none => some { c with newest := c.newest.set slot t }
  | some n => if t.gen == n.gen + 1 then some { c with newest := c.newest.set slot t, prev := c.prev.set slot n } else none

/-! ## The table a TALLY builds (R308) -/

/-- Inserts a weighted group of symbols into a list ordered by weight. -/
def insertGroup (g : Nat × List Nat) : List (Nat × List Nat) → List (Nat × List Nat)
  | [] => [g]
  | h :: t => if g.1 ≤ h.1 then g :: h :: t else h :: insertGroup g t

/-- Merges the two lightest groups until one is left; each merge lengthens the codes of its symbols by one. -/
def huffman : Nat → List (Nat × List Nat) → List Nat → List Nat
  | 0, _, lens => lens
  | n + 1, gs, lens =>
    match gs with
    | a :: b :: t =>
      let m := a.2 ++ b.2
      huffman n (insertGroup (a.1 + b.1, m) t) ((List.range 16).map (fun s => lens.getD s 0 + b2n (m.contains s)))
    | _ => lens

/-- Code lengths minimising the total bits for the weights of symbols (at most 16, so never beyond 15 bits). -/
def huffLens (ws : List (Nat × Nat)) : List Nat :=
  match ws with
  | [(s, _)] => (List.range 16).map (fun i => b2n (i == s))
  | _ => huffman 16 (ws.foldl (fun l w => insertGroup (w.2, [w.1]) l) []) (List.replicate 16 0)

/-- Exponent values by falling count. -/
def byCount (hist : List Nat) : List Nat :=
  let ins (v : Nat) (l : List Nat) : List Nat :=
    l.takeWhile (fun u => decide (hist.getD v 0 ≤ hist.getD u 0)) ++ v :: l.dropWhile (fun u => decide (hist.getD v 0 ≤ hist.getD u 0))
  (List.range hist.length).foldl (fun l v => if hist.getD v 0 == 0 then l else ins v l) []

/-- Total stream bits of a table for a histogram. -/
def streamBits (eb : Nat) (hist lens vals : List Nat) : Nat :=
  ((List.range hist.length).map (fun e =>
    match (List.range 15).find? (fun s => lens.getD s 0 != 0 && vals.getD s 0 == e) with
    | some s => hist.getD e 0 * lens.getD s 0
    | none => hist.getD e 0 * (lens.getD 15 0 + eb))).sum

/-- The table that codes the k commonest values directly and the rest by the escape. -/
def tallyWith (hist : List Nat) (k : Nat) : List Nat × List Nat :=
  let vs := (byCount hist).take k
  let rest := ((byCount hist).drop k).map (fun v => hist.getD v 0)
  let ws := (List.range vs.length).map (fun i => (i, hist.getD (vs.getD i 0) 0)) ++ [(15, rest.sum)]
  (huffLens ws, (List.range 16).map (fun s => if s < vs.length then vs.getD s 0 else 0))

/-- A table of fewest total bits with symbol 15 present; where several are optimal, the free candidate is taken if it is one
(log 13). -/
def tallyBest (free fmt eb : Nat) (hist : List Nat) : List Nat × List Nat :=
  let best := (List.range 16).foldl (fun (b : List Nat × List Nat) k =>
    let c := tallyWith hist k
    if streamBits eb hist c.1 c.2 < streamBits eb hist b.1 b.2 then c else b) (tallyWith hist 15)
  let cand := Config.tallyTable free hist
  let cl := (List.range 16).map (fun s => (cand.getD s (0, 0)).1)
  let cv := (List.range 16).map (fun s => (cand.getD s (0, 0)).2)
  let rec32 : List Byte := [0, BitVec.ofNat 8 fmt, 0, 0] ++ (List.range 8).map (fun i => BitVec.ofNat 8 (cl.getD (2 * i) 0 + 16 * cl.getD (2 * i + 1) 0)) ++
    cv.map (BitVec.ofNat 8) ++ [0, 0, 0, 0]
  if cl.all (· < 16) && cv.all (· < 256) && (tableOf rec32).isSome && cl.getD 15 0 != 0 &&
    streamBits eb hist cl cv == streamBits eb hist best.1 best.2 then (cl, cv) else best

/-- The exponent histogram of raw blocks. -/
def histogram (sp : Split) (blocks : List (List Byte)) : List Nat :=
  blocks.foldl (fun h b => (elemsOf sp.es sp.count b).foldl (fun h v =>
    h.modify (sp.expo v) (· + 1)) h) (List.replicate (2 ^ sp.eb) 0)

end Sys2Proof.Machine
end

