-- ==== Sys2Proof/Machine/Messages.lean ====
section
/-! DEFINITION. Messages (R7–R9, R41–R52): endpoints, sending, arrival at an inbox, queue registers. -/

namespace Sys2Proof.Machine

/-- An endpoint that messages may name (R8, R9). -/
def epValid (e : BitVec 18) : Bool :=
  let v := epVal e
  if v ≤ 95 || v == 0xF0 || v == 0xF1 || v == 0xFF then decide (epCab e < 12)
  else if v == 0xF2 || v == 0xFE then decide (12 ≤ epCab e)
  else false

/-- Two endpoint ids name one endpoint: cabinet values 12 to 15 are equivalent (Table 0-6). -/
def epSame (a b : BitVec 18) : Bool :=
  epDev a == epDev b && epVal a == epVal b && (epCab a == epCab b || (decide (12 ≤ epCab a) && decide (12 ≤ epCab b)))

/-- The logical bench that a local endpoint names, if it names one. -/
def Dev.benchOfEp (d : Dev) (e : BitVec 18) : Option Nat :=
  if epDev e == d.number.toNat && decide (epVal e < 96) && decide (epCab e < 12) then some (96 * epCab e + epVal e) else none

/-- Whether a local endpoint can take messages now: its cabinet is not fenced and its domain, or ED0's core, is ON (R20, R433). -/
def Dev.epOpen (d : Dev) (e : BitVec 18) : Bool :=
  if decide (12 ≤ epCab e) then d.domOn ed0Dom
  else if d.fenced (epCab e) then false
  else if decide (epVal e < 96) then d.domOn (d.benchDom (96 * epCab e + epVal e))
  else d.domOn (sbDom (epCab e))

/-- The benches of cabinet c that a broadcast reaches, as message copies (R44). A broadcast to a fenced cabinet stays one
message for its router to return (R20). -/
def Dev.expand (d : Dev) (m : Msg) : List Msg :=
  if epVal m.dest == 0xFF && epDev m.dest == d.number.toNat && !d.fenced (epCab m.dest) then
    (List.range 96).map (fun i => { m with target := d.epOf (epCab m.dest) i, bcast := true })
  else [{ m with target := m.dest }]

/-- The header flit (Table 2-3). -/
def Msg.header (m : Msg) : List Byte :=
  leBytes 8 (m.dest.toNat * 2 ^ 46 + m.src.toNat * 2 ^ 28 + m.queue.val * 2 ^ 25 + (m.payload.length - 1) % 2 ^ 14 * 2 ^ 11 +
    b2n (!m.marks.isEmpty) * 2 ^ 10) ++
  leBytes 8 (m.seq.toNat * 2 ^ 16 + m.tag.toNat) ++
  leBytes 8 (m.planId.toNat * 2 ^ 48 + m.epoch.toNat * 2 ^ 32 + m.step.toNat * 2 ^ 16) ++ List.replicate 40 0

/-- The message of a header flit and its payload, each byte with its sector's mark (Table 2-3, R41). -/
def msgOf (h : List Byte) (payload : List (Byte × Bool)) : Msg :=
  let w (i : Nat) : Nat := leNat ((h.drop (8 * i)).take 8)
  let bs := payload.take (bits 24 11 (w 0) + 1)
  { dest := BitVec.ofNat 18 (bits 63 46 (w 0)), target := BitVec.ofNat 18 (bits 63 46 (w 0)), bcast := false,
    src := BitVec.ofNat 18 (bits 45 28 (w 0)), queue := Fin.ofNat 8 (bits 27 25 (w 0)), seq := BitVec.ofNat 48 (bits 63 16 (w 1)),
    tag := BitVec.ofNat 16 (bits 15 0 (w 1)), planId := BitVec.ofNat 16 (bits 63 48 (w 2)), epoch := BitVec.ofNat 16 (bits 47 32 (w 2)),
    step := BitVec.ofNat 16 (bits 31 16 (w 2)), payload := bs.map (fun b => b.1),
    marks := (List.range ((bs.length + 31) / 32)).filter (fun j => (bs.getD (32 * j) (0, false)).2), issue := none }

/-- The payload of a message, each byte with its sector's mark. -/
def Msg.bytes (m : Msg) : List (Byte × Bool) := m.payload.zipIdx.map (fun p => (p.1, m.marks.contains (p.2 / 32)))

/-- The flits of a message, class M, on a direction that carries no coded pieces (R41, R393). -/
def Msg.flits (m : Msg) : List Flit := ⟨2, m.header, 0, false⟩ :: byteFlits 257 m.bytes

/-! ## Links: sending (R390, R393) -/

/-- The credits of a class. -/
def creditOf (c : Nat × Nat × Nat) (cls : Nat) : Nat := if cls == 1 then c.1 else if cls == 2 then c.2.1 else c.2.2

def addCredit (c : Nat × Nat × Nat) (d m h : Nat) : Nat × Nat × Nat := (c.1 + d, c.2.1 + m, c.2.2 + h)

/-- Takes flits for one frame, each with a credit of its class: a flit that has none holds back those behind it. -/
def takeFlits : Nat → List Flit → Nat × Nat × Nat → List Flit × List Flit × (Nat × Nat × Nat)
  | 0, fs, c => ([], fs, c)
  | _ + 1, [], c => ([], [], c)
  | n + 1, f :: fs, c =>
    if creditOf c f.cls == 0 then ([], f :: fs, c)
    else
      let c' := if f.cls == 1 then (c.1 - 1, c.2.1, c.2.2) else if f.cls == 2 then (c.1, c.2.1 - 1, c.2.2) else (c.1, c.2.1, c.2.2 - 1)
      let r := takeFlits n fs c'
      (f :: r.1, r.2.1, r.2.2)

/-- A frame as the port sends it now (Table 14-2): it acknowledges what has come in order, and returns credits. -/
def Port.frame (p : Port) (fseq : BitVec 48) (flits : List Flit) (credits : Nat × Nat × Nat) (op : Nat) : TxFrame :=
  ⟨fseq, flits, p.rxSeq, credits, op⟩

/-- Sends frames of up to 25 flits while flits wait and fewer than 48 frames are unacknowledged (R390). The fuel bounds the
number of frames. -/
def Port.pump : Nat → Port → Port
  | 0, p => p
  | n + 1, p =>
    if p.st != 4 || 48 ≤ p.unacked.length || p.out.isEmpty then p
    else
      let r := takeFlits 25 p.out p.txCredit
      if r.1.isEmpty then p
      else
        let f := p.frame (p.txSeq + 1) r.1 (0, 0, 0) 0
        Port.pump n { p with out := r.2.1, txCredit := r.2.2, unacked := p.unacked ++ [f], last := some f, txSeq := p.txSeq + 1 }

/-- Queues flits at a port. -/
def Port.push (p : Port) (fs : List Flit) : Port := Port.pump 48 { p with out := p.out ++ fs }

/-- The flits of a message at a port (R318): coded with the slot's newest generation where its send direction is compressed. -/
def Port.wireFlits (p : Port) (c : Cmp) (m : Msg) : List Flit :=
  let slot := bits 7 4 p.cmpActive.toNat
  match c.newest.find slot with
  | some t => if p.txCmp then ⟨2, m.header, 0, false⟩ :: wirePieces slot t 5 m.bytes else m.flits
  | none => m.flits

/-- A message goes out at port p. -/
def Dev.pushMsg (d : Dev) (p : Nat) (m : Msg) : Dev := d.setPort p ((d.port p).push ((d.port p).wireFlits d.cmp m))

/-- The plan route of a cabinet (12: transit) to a device (R45, R408). -/
def Dev.planRoute (d : Dev) (c dev : Nat) : Option Route := d.suite.planRoutes.find (128 * c + 64 + dev)

/-- A device with an entry in the route table of cabinet c (R43). -/
def Dev.hasRoute (d : Dev) (c dev : Nat) : Bool :=
  match d.planRoute c dev with
  | some r => r.alts.any (fun a => a.msb)
  | none => false

/-- The port of the alternate in use. -/
def Route.port (r : Route) : Option Nat := r.cur.map (fun k => bits 5 0 (r.alts.getD k 0).toNat)

/-- Whether the route that cabinet c's table gives to another cabinet of this device has an alternate in use; within one cabinet, and where
the plan holds no table, none is needed (R45, R408; log 115). -/
def Dev.inRoute (d : Dev) (c : Nat) (dest : BitVec 18) : Bool :=
  c == epCab dest || decide (12 ≤ c) || decide (12 ≤ epCab dest) || d.fenced (epCab dest) ||
    (match d.suite.planRoutes.find (128 * c + epCab dest) with
     | some r => r.cur.isSome
     | none => true)

/-- Puts a message of cabinet c on its way (R42, R45): into this device's routes, or onto the link port of the route in use.
With no alternate left it is discarded and recorded where it stands (R398). Of a message to another device the sender
keeps what a return would name (R104). -/
def Dev.emit (d : Dev) (c : Nat) (m : Msg) : Dev :=
  if epDev m.dest == d.number.toNat then
    if d.inRoute c m.dest then { d with net := d.net ++ d.expand m }
    else d.unitRecord 4 c 0 fltMsgNoRoute { endpoint := m.dest.toNat, detail := m.seq.toNat }
  else match (d.planRoute c (epDev m.dest)).bind Route.port with
  | some p => { d.pushMsg p m with away := d.away ++ [m] }
  | none => d.unitRecord 4 c 0 fltMsgNoRoute { endpoint := m.dest.toNat, detail := m.seq.toNat }

/-- A message from a unit other than a bench (R41): a destination that cannot be reached is recorded by the sending unit, of
kind `kind`, and nothing is sent (R377). -/
def Dev.unitSend (d : Dev) (kind c i : Nat) (m : Msg) : Dev :=
  let note : UnitNote := { endpoint := m.dest.toNat, detail := m.seq.toNat }
  if !epValid m.dest then d.unitRecord kind c i fltMsgUnroutable note
  else if epDev m.dest == d.number.toNat then (if d.epOpen m.dest then d.emit c m else d.unitRecord kind c i fltDestFenced note)
  else if d.hasRoute c (epDev m.dest) then d.emit c m else d.unitRecord kind c i fltMsgNoRoute note

/-- The queue configuration of a bench. -/
def Bench.queue (b : Bench) (q : Nat) : QCfg := b.queues.get QCfg.reset q

/-- What an inbox does with a message whose last flit arrives. -/
inductive InboxOut where
  | store
  | stale
  | oversize
  | waits
deriving DecidableEq, Repr

/-- The inbox's decision (R47, R48, R50, R52). -/
def Bench.judge (b : Bench) (m : Msg) : InboxOut :=
  let q := b.queue m.queue.val
  if q.cap.toNat == 0 || decide (1024 * q.cap.toNat < m.payload.length) then .oversize
  else if b.dropStep == some m.step then .stale
  else if q.chk && m.epoch != q.epoch then .stale
  else if decide (1024 * q.cap.toNat < b.queueUsed m.queue + m.room) then .waits
  else .store

/-- A message whose queue an earlier message waits for, or that finds no room in it, waits (R47). `w` are the messages that wait. -/
def Bench.holdsBack (b : Bench) (w : List Msg) (m : Msg) : Bool :=
  (w.find? (fun x => x.queue == m.queue)).any (· != m) || b.judge m == .waits

/-- The first message from src on one route to endpoint e that its queue admits, and the messages that wait: one that waits holds back
later ones to the same queue of the bench, from whatever sender, and no others (R47). -/
def firstAdmitted (b : Bench) (src e : BitVec 18) (bc : Bool) : List Msg → List Msg → List Msg × Option Msg
  | [], w => (w, none)
  | m :: t, w =>
    if m.src == src && m.target == e && m.bcast == bc then
      if b.holdsBack w m then firstAdmitted b src e bc t (if w.contains m then w else w ++ [m]) else (w, some m)
    else firstAdmitted b src e bc t w

/-- The messages that wait in the router for room at bench k. -/
def Dev.waitingAt (d : Dev) (k : Nat) : List Msg := (d.bench k).arrived.filter (fun m => d.net.contains m)

/-- MESSAGE_ARRIVAL (R44, R47, R48, R50, R52): the next message from src on the given route arrives whole, or the headers of those that
cannot be reserved yet do. -/
def messageArrival (d : Dev) (src : BitVec 18) (k : Nat) (bc : Bool) : Dev :=
  let e := d.benchEp k
  let r := firstAdmitted (d.bench k) src e bc d.net (d.waitingAt k)
  match d.net.find? (fun m => m.src == src && m.target == e && m.bcast == bc) with
  | none => d
  | some m =>
    if d.fenced (k / 96) then d else
    let d := d.arrive (d.benchDom k) (d.senderBlock src)
    if !d.domOn (d.benchDom k) then (if bc then { d with net := d.net.erase m } else d) else
    let d := d.modBench k (fun b => { b with arrived := r.1 })
    match r.2 with
    | none => d
    | some m =>
      let b := d.bench k
      let d := { d with net := d.net.erase m }
      match b.judge m with
      | .store => d.modBench k (fun b => { b with inbox := b.inbox ++ [m] })
      | .stale => d.modBench k (fun b => { b with stale := satInc16 b.stale })
      | .oversize =>
        (d.modBench k (fun b => { b with oversize := satInc16 b.oversize })).unitRecord 12 (k / 96) (k % 96) fltMsgOversize
          { endpoint := m.src.toNat, detail := m.seq.toNat }
      | .waits => d

/-- The unit that sends from an endpoint that is no bench, by kind, cabinet and index (Tables 0-6, 13-8). -/
def senderUnit (e : BitVec 18) : Nat × Nat :=
  if epVal e == 0xF1 then (3, epCab e) else if epVal e == 0xF0 then (2, epCab e) else (5, 0)

/-- A message that met a fence returns to its sender (R20, R43, R104, R377): a bench of this device records it with the values of the
bundle that sent it, another unit of this device in a unit record, and to another device the return leaves. STEP is that of the message,
which R104 leaves open once the bundle has retired (DESIGN CHOICE, log 108). -/
def Dev.returned (d : Dev) (m : Msg) : Dev :=
  if epDev m.src != d.number.toNat then
    { d with suite := { d.suite with sent := d.suite.sent ++ [.destFenced m.src m.dest m.seq m.tag] } }
  else match d.benchOfEp m.src, m.issue with
    | some k, some iss => d.benchRecord k fltDestFenced iss m.step m.seq.toNat
    | _, _ =>
      let u := senderUnit m.src
      d.unitRecord u.1 u.2 0 fltDestFenced { endpoint := m.dest.toNat, detail := m.seq.toNat }

/-- DEST_FENCED_RETURN (R20, R43, R433): a router returns the message from src to dst with the sequence number given, which it cannot
deliver. Whether a cabinet of another device is fenced is known there: the command is the return's arrival (log 99). -/
def destFencedReturn (d : Dev) (src dst : BitVec 18) (seq : BitVec 48) : Dev :=
  if epDev dst == d.number.toNat then
    let shut := if epVal dst == 0xFF then d.fenced (epCab dst) else !d.epOpen dst
    match d.net.find? (fun m => shut && m.src == src && m.dest == dst && m.seq == seq) with
    | none => d
    | some m => { d with net := d.net.filter (fun n => !(n.src == m.src && n.dest == m.dest && n.seq == m.seq)) }.returned m
  else match d.away.find? (fun m => m.src == src && m.dest == dst && m.seq == seq) with
    | none => d
    | some m => { d with away := d.away.erase m }.returned m

/-- The message at the front of a queue. -/
def Bench.oldest (b : Bench) (q : Fin 8) : Option Msg := b.inbox.find? (fun m => m.queue == q)

/-- Writes a queue's EPOCH and EPOCH_CHK (R51): with EPOCH_CHK at 1 every held message of another epoch is discarded and
counted. -/
def Bench.writeEpoch (b : Bench) (q : Nat) (epoch : BitVec 16) (chk : Bool) : Bench :=
  let old := b.queue q
  let b := { b with queues := b.queues.set q { old with epoch := epoch, chk := chk } }
  if chk then
    let bad := b.inbox.filter (fun m => m.queue.val == q && m.epoch != epoch)
    { b with inbox := b.inbox.filter (fun m => !(m.queue.val == q && m.epoch != epoch)), stale := satAdd16 b.stale bad.length }
  else b

/-- Discards queued messages and counts each in STALE (R52, R64). -/
def Bench.dropMsgs (b : Bench) (p : Msg → Bool) : Bench :=
  { b with inbox := b.inbox.filter (fun m => !p m), stale := satAdd16 b.stale (b.inbox.filter p).length }

end Sys2Proof.Machine
end

