-- ==== Sys2Proof/Machine/Copy.lean ====
section
/-! DEFINITION. The copy engines (10): descriptors and their checks in the order of Table 10-6, forms, permutation, padding,
gather and scatter, compressed sides (R285, R308–R310), overlap, and what a transfer reads and writes. -/

namespace Sys2Proof.Machine

/-- A parsed descriptor (Table 10-2). -/
structure Desc where
  op : Nat
  cls : Nat
  replace : Bool
  pad : Bool
  fmt : Nat
  pw : Nat
  sform : Nat
  dform : Nat
  perm : Nat
  cmp : Nat
  cslot : Nat
  src : Nat
  dst : Nat
  ext : List Nat
  lcount : Nat
  spitch : Nat × Nat
  dpitch : Nat × Nat
  w6 : Nat
  padval : Nat
  list : Nat
  reservedZero : Bool
deriving DecidableEq, Repr

/-- Reads a descriptor from its eight words. -/
def descOf (bs : List Byte) : Desc :=
  let w (i : Nat) : Nat := leNat ((bs.drop (8 * i)).take 8)
  { op := bits 63 60 (w 0), cls := bits 59 58 (w 0), replace := bit 57 (w 0), pad := bit 56 (w 0), fmt := bits 55 52 (w 0),
    pw := bits 51 48 (w 0), sform := bits 47 46 (w 0), dform := bits 45 44 (w 0), perm := bits 43 41 (w 0),
    cmp := bits 40 39 (w 0), cslot := bits 38 35 (w 0), src := bits 47 0 (w 1), dst := bits 47 0 (w 2),
    ext := [bits 63 48 (w 3) + 1, bits 47 32 (w 3) + 1, bits 31 16 (w 3) + 1], lcount := bits 15 0 (w 3) + 1,
    spitch := (bits 63 32 (w 4), bits 31 0 (w 4)), dpitch := (bits 63 32 (w 5), bits 31 0 (w 5)), w6 := w 6,
    padval := bits 63 32 (w 7), list := bits 21 0 (w 7),
    reservedZero := bits 34 0 (w 0) == 0 && bits 63 48 (w 1) == 0 && bits 63 48 (w 2) == 0 && bits 31 22 (w 7) == 0 }

def Desc.e (x : Desc) (i : Nat) : Nat := x.ext.getD i 1
def Desc.listed (x : Desc) : Bool := x.op == 2 || x.op == 3
def Desc.padlo0 (x : Desc) : Nat := bits 63 48 x.w6
def Desc.padlo1 (x : Desc) : Nat := bits 47 32 x.w6
def Desc.vext0 (x : Desc) : Nat := bits 31 16 x.w6 + 1
def Desc.vext1 (x : Desc) : Nat := bits 15 0 x.w6 + 1

/-- Element size in stride and tile form (R274). -/
def Desc.es (x : Desc) : Nat := if x.fmt == 8 || x.fmt == 9 then 2 else if x.fmt == 0xC then 4 else 1

/-- Source dimension that becomes destination dimension i (Table 10-3). -/
def permSrc (p i : Nat) : Nat :=
  ((match p with
    | 1 => [1, 0, 2]
    | 2 => [0, 2, 1]
    | 3 => [2, 1, 0]
    | 4 => [1, 2, 0]
    | 5 => [2, 0, 1]
    | _ => [0, 1, 2]) : List Nat).getD i 0

/-- Extents of the destination box of one block. -/
def Desc.dext (x : Desc) (i : Nat) : Nat := x.e (permSrc x.perm i)

/-- Number of blocks: list entries for GATHER and SCATTER, else one. -/
def Desc.blocks (x : Desc) : Nat := if x.listed then x.lcount else 1

/-- One side of a copy: form, base, pitches, element size and plane width. -/
structure Side where
  form : Nat
  base : Nat
  p1 : Nat
  p2 : Nat
  es : Nat
  w : Nat
deriving DecidableEq, Repr

def Desc.srcSide (x : Desc) : Side := ⟨x.sform, x.src, x.spitch.1, x.spitch.2, x.es, x.pw⟩
def Desc.dstSide (x : Desc) : Side := ⟨x.dform, x.dst, x.dpitch.1, x.dpitch.2, x.es, x.pw⟩

/-- Byte address of an element in stride or tile form (Table 10-1). -/
def Side.place (s : Side) (i0 i1 i2 : Nat) : Nat :=
  if s.form == 0 then s.base + s.es * i0 + s.p1 * i1 + 64 * s.p2 * i2
  else s.base + 64 * s.p2 * i2 + 4096 * s.es * (s.p1 * (i1 / 64) + i0 / 64) + 64 * s.es * (i1 % 64) + s.es * (i0 % 64)

/-- Byte of plane p that holds an element in plane form (Table 10-1). -/
def Side.planeByte (s : Side) (p i0 i1 i2 : Nat) : Nat :=
  s.base + 64 * s.p2 * i2 + 512 * s.w * (s.p1 * (i1 / 64) + i0 / 64) + 512 * p + 8 * (i1 % 64) + (i0 % 64) / 8

/-- Lowest and one past the highest byte that a box of a side can touch (R288), its origin at index (o0, o1, o2): places rise with
every index, so they are those of its first and last element. -/
def Side.bounds (s : Side) (o0 o1 o2 n0 n1 n2 : Nat) : Nat × Nat :=
  if s.form == 2 then (s.planeByte 0 o0 o1 o2, s.planeByte (s.w - 1) (o0 + n0 - 1) (o1 + n1 - 1) (o2 + n2 - 1) + 1)
  else (s.place o0 o1 o2, s.place (o0 + n0 - 1) (o1 + n1 - 1) (o2 + n2 - 1) + s.es)

/-- A unit that a copy reaches (R278): 0 stack, 1 sideboard, 2 own bench store, with the unit's number and size. -/
structure UnitOf where
  kind : Nat
  num : Nat
  size : Nat
deriving DecidableEq, Repr

/-- The unit of an address, or none where it lies in no place of R278. -/
def unitOf (a : Nat) : Option UnitOf :=
  match bits 47 44 a with
  | 0 => if bits 43 39 a < 24 && bits 38 37 a == 0 then some ⟨0, bits 43 39 a, stkSize⟩ else none
  | 1 => if bits 43 40 a < 12 && bits 39 27 a == 0 then some ⟨1, bits 43 40 a, sbSize⟩ else none
  | 2 => if bits 43 22 a == 0 then some ⟨2, 0, storeSize⟩ else none
  | _ => none

/-- The base address of a unit. -/
def UnitOf.base (u : UnitOf) : Nat :=
  match u.kind with
  | 0 => u.num * 2 ^ 39
  | 1 => 2 ^ 44 + u.num * 2 ^ 40
  | _ => 2 ^ 45

/-- A range of addresses lies beyond the unit of its base. -/
def beyondUnit (base : Nat) (r : Nat × Nat) : Bool :=
  match unitOf base with
  | some u => decide (u.base + u.size < r.2)
  | none => true

/-- Two ranges share a byte of one unit. -/
def overlap (a b : Nat × Nat) : Bool := decide (a.1 < b.2) && decide (b.1 < a.2)

/-- Source box read by one block: the valid region under PAD (R281). -/
def Desc.readExt (x : Desc) (i : Nat) : Nat := if x.pad then (if i == 0 then x.vext0 else if i == 1 then x.vext1 else x.e 2) else x.e i

/-- Bytes of the source side that the copy can touch, the listed side apart. -/
def Desc.srcRange (x : Desc) : Nat × Nat :=
  x.srcSide.bounds 0 0 0 (x.readExt 0) (x.readExt 1) (if x.op == 3 then x.lcount * x.e 2 else x.readExt 2)

def Desc.dstRange (x : Desc) : Nat × Nat :=
  x.dstSide.bounds 0 0 0 (x.dext 0) (x.dext 1) (if x.op == 2 then x.lcount * x.dext 2 else x.dext 2)

/-- Raw 4 KiB blocks of a compressed copy (R285). -/
def Desc.rawBytes (x : Desc) : Nat := x.e 0 * x.e 1 * x.e 2 * x.es
def Desc.nblocks (x : Desc) : Nat := x.rawBytes / 4096
def Desc.cidx (x : Desc) : Nat := bits 47 0 x.w6
def Desc.idxRange (x : Desc) : Nat × Nat := (x.cidx, x.cidx + 8 * x.nblocks)
def Desc.listRange (x : Desc) : Nat × Nat := (2 ^ 45 + x.list, 2 ^ 45 + x.list + 8 * x.lcount)

/-- The ranges of check 6: of a listed side, its base (R278). -/
def Desc.srcReach (x : Desc) : Nat × Nat := if x.op == 2 then (x.src, x.src + 1) else x.srcRange
def Desc.dstReach (x : Desc) : Nat × Nat := if x.op == 3 then (x.dst, x.dst + 1) else x.dstRange

/-- A plain copy (R286). -/
def Desc.plain (x : Desc) : Bool := x.op == 1 && x.perm == 0 && x.cmp == 0 && !x.pad && x.sform == x.dform

/-- The in-place transposition of R289. -/
def Desc.inPlace (x : Desc) : Bool :=
  x.op == 1 && x.perm == 1 && x.src == x.dst && x.sform == x.dform && x.sform != 2 && x.spitch == x.dpitch && x.e 0 == 64 &&
  x.e 1 == 64 && [1, 2, 8, 9, 0xA].contains x.fmt && !x.pad && x.cmp == 0 &&
  (x.e 2 == 1 || (let r := x.srcSide.bounds 0 0 0 64 64 1; decide (r.2 - r.1 ≤ 64 * x.spitch.2)))

/-- A shift that runs downward (R288): a plain copy between overlapping stride-form sides of equal pitches with DST > SRC. -/
def Desc.shiftsDown (x : Desc) : Bool :=
  x.plain && x.sform == 0 && x.spitch == x.dpitch && decide (x.src < x.dst) && overlap x.srcRange x.dstRange

/-- Check 3 of Table 10-6. -/
def Desc.badDesc (x : Desc) : Bool :=
  let plane := x.sform == 2 || x.dform == 2
  !x.reservedZero || x.op == 0 || decide (4 < x.op) || x.cls == 3 || x.fmt == 0 || decide (0xC < x.fmt) || x.sform == 3 ||
  x.dform == 3 || decide (5 < x.perm) || x.cmp == 3 || (x.cmp != 2 && x.cslot != 0) ||
  (!x.listed && (x.lcount != 1 || x.list != 0)) || (x.listed && x.list % 8 != 0) ||
  (if plane then x.pw == 0 || decide (8 < x.pw) else x.pw != 0) ||
  (x.pad && (x.op == 3 || x.op == 4 || x.cmp != 0 || decide (x.e 0 < x.padlo0 + x.vext0) || decide (x.e 1 < x.padlo1 + x.vext1))) ||
  (!x.pad && (if x.cmp != 0 then bits 63 48 x.w6 != 0 else x.w6 != 0)) ||
  decide (2 ^ (if x.dform == 2 then x.pw else 8 * x.es) ≤ x.padval)

/-- Check 5 of Table 10-6, for one side with its dimension-0 extent. -/
def badSide (x : Desc) (s : Side) (n0 : Nat) : Bool :=
  if s.form == 0 then s.base % s.es != 0 || s.p1 % s.es != 0
  else s.base % 64 != 0 || decide (s.p1 < (n0 + 63) / 64) || s.p1 == 0 ||
    (s.form == 2 && !((x.fmt == 5 && x.pw == 6) || (x.fmt == 6 && x.pw == 6) || (x.fmt == 7 && x.pw == 4) || x.fmt == 0xB))

def Desc.badShape (x : Desc) : Bool :=
  badSide x x.srcSide (x.readExt 0) || badSide x x.dstSide (x.dext 0) || (x.dform == 2 && x.dext 0 % 8 != 0)

/-- Check 8 of Table 10-6: the rules of R285. -/
def Desc.badCmp (x : Desc) : Bool :=
  if x.cmp == 0 then x.op == 4
  else
    let side := if x.cmp == 1 then x.srcSide else x.dstSide
    let n (i : Nat) : Nat := if x.cmp == 1 then x.e i else x.dext i
    side.form != 0 || side.p1 != n 0 * x.es || 64 * side.p2 != side.p1 * n 1 || x.rawBytes % 4096 != 0 ||
    !(x.op == 1 || (x.op == 4 && x.cmp == 2)) || x.cidx % 8 != 0 || (match unitOf x.cidx with
      | some u => u.kind == 2
      | none => true)

/-- Check 9 of Table 10-6: R288, and the index range of R307. -/
def Desc.badOverlap (x : Desc) : Bool :=
  let sd := overlap x.srcRange x.dstRange
  (!x.listed && x.op != 4 && (if x.plain then sd && !(x.sform == 0 && x.spitch == x.dpitch) else sd && !x.inPlace)) ||
  (x.op == 2 && overlap x.listRange x.dstRange) ||
  (x.cmp != 0 && (overlap x.idxRange x.srcRange || (x.op != 4 && overlap x.idxRange x.dstRange)))

/-- The checks of Table 10-6 after the descriptor is read, and those of Table 11-5 (R316). -/
def Desc.firstFault (x : Desc) (c : Cmp) : Option (BitVec 16) :=
  if x.badDesc then some fltCopyDesc
  else if (unitOf x.src).isNone || (unitOf x.dst).isNone || (x.cmp != 0 && (unitOf x.cidx).isNone) then some fltCopySpace
  else if x.badShape then some fltCopyShape
  else if beyondUnit x.src x.srcReach || beyondUnit x.dst x.dstReach || (x.cmp != 0 && beyondUnit x.cidx x.idxRange) then some fltCopyRange
  else if x.listed && decide (storeSize < x.list + 8 * x.lcount) then some fltCopyList
  else if x.badCmp then some fltCopyCmp
  else if x.badOverlap then some fltCopyOverlap
  else if x.op == 1 && x.cmp == 2 then
    match c.newest.find x.cslot with
    | none => some fltCmpNoTable
    | some t => if t.fmt.toNat != x.fmt then some fltCmpFormat else none
  else none

/-! ## Reading and writing places -/

/-- A sector read from its place: its 64 bytes and the marks of its halves. -/
abbrev Sector := List Byte × Bool × Bool

/-- The bytes of a sector, each with its half's mark. -/
def sectorBytes (v : Sector) : List (Byte × Bool) := (v.1.take 32).map (fun b => (b, v.2.1)) ++ (v.1.drop 32).map (fun b => (b, v.2.2))

/-- What stops a transfer: a fault with its DETAIL, or a read of a channel that is held (R357). -/
inductive Stop where
  | fault (code : BitVec 16) (detail : Nat)
  | wait
deriving DecidableEq, Repr

/-- State of a transfer under way: the device, what stopped it, the sectors read so far as marked bytes, and the blocks queued so far
(R313). -/
structure Xfer where
  d : Dev
  stop : Option Stop
  cache : Tab (List (Byte × Bool))
  queued : List (Nat × BitVec 16)

/-- Reads the 64-byte sector at a device address from its place (R327, R372). A compressed block that its index entry places
beyond the own bench store stops the transfer (log 89). -/
def readPlace (d : Dev) (k a : Nat) : Dev × Except Stop Sector :=
  match bits 47 44 a with
  | 0 =>
    match d.stkRefusal (bits 43 0 a) 64 (.bench k) false with
    | some f => (d, .error (.fault f 0))
    | none =>
      if d.readWaits a 64 then (d, .error .wait) else
      let s := bits 43 39 a
      let x := bits 36 0 a
      let d := (d.arrive (stkDom s) (d.benchBlock k)).touchStk s x 64
      let r := (d.stk s).readCtl x 64
      (d, .ok (r.data, r.marks.contains (x / 32), r.marks.contains (x / 32 + 1)))
  | 1 =>
    match d.sbRefusal (bits 43 0 a) 64 with
    | some f => (d, .error (.fault f 0))
    | none =>
      let c := bits 43 40 a
      let x := bits 26 0 a
      let d := (d.arrive (sbDom c) (d.benchBlock k))
      let d := d.touchSb c x 64
      let r := (d.sb c).readRouter x 64
      (d, .ok (r.data, r.marks.contains (x / 32), r.marks.contains (x / 32 + 1)))
  | _ =>
    let m := (d.bench k).store
    let x := bits 21 0 a
    if bits 43 22 a != 0 then (d, .error (.fault fltCopyRange 0)) else (d, .ok (m.read x 64, m.mark x, m.mark (x + 32)))

/-- Reads a sector, from the read-staging buffer where it may and the free value says so (R327), and keeps it there. -/
def readSector (d : Dev) (k a : Nat) : Dev × Except Stop Sector :=
  if bits 47 44 a == 2 then readPlace d k a else
  let st := (d.bench k).staging
  match st.find? (fun e => e.1 == a) with
  | some (_, v) =>
    if Config.stageHit d.free a then (d, .ok v)
    else
      let (d, r) := readPlace d k a
      match r with
      | .ok v' => (d.modBench k (fun b => { b with staging := b.staging.map (fun e => if e.1 == a then (a, v') else e) }), .ok v')
      | .error f => (d, .error f)
  | none =>
    let (d, r) := readPlace d k a
    match r with
    | .ok v => (d.modBench k (fun b => { b with staging := (b.staging ++ [(a, v)]).drop (b.staging.length - 63) }), .ok v)
    | .error f => (d, .error f)

/-- Brings a sector into the transfer's cache. -/
def Xfer.fetch (t : Xfer) (k a : Nat) : Xfer :=
  if t.stop.isSome || (t.cache.find a).isSome then t else
  let (d, r) := readSector t.d k a
  match r with
  | .ok v => { t with d := d, cache := t.cache.set a (sectorBytes v) }
  | .error f => { t with d := d, stop := some f }

/-- The byte at an address of the cache, and whether its 32-byte half is marked. -/
def Xfer.byte (t : Xfer) (a : Nat) : Byte × Bool := (t.cache.get [] (a / 64 * 64)).getD (a % 64) (0, false)

/-- Reads a run of at most 32 bytes of stack space as one narrow-path access (R159, R284): it touches those bytes alone. -/
def Xfer.narrow (t : Xfer) (k a n : Nat) : Xfer :=
  match t.d.stkRefusal (bits 43 0 a) n (.bench k) false with
  | some f => { t with stop := some (.fault f 0) }
  | none =>
    if t.d.readWaits a n then { t with stop := some .wait } else
    let s := bits 43 39 a
    let x := bits 36 0 a
    let d := (t.d.arrive (stkDom s) (t.d.benchBlock k)).touchStk s x n
    let r := (d.stk s).readCtl x n
    let at' (b : Nat) : Byte × Bool := if b < a then (0, false) else (r.data.getD (b - a) 0, r.marks.contains (bits 36 0 b / 32))
    let sectors := (List.range (a % 64 + n)).map (fun i => a / 64 * 64 + i) |>.filter (fun b => b % 64 == 0)
    { t with d := d, cache := sectors.foldl (fun c b => c.set b ((List.range 64).map (fun i => at' (b + i)))) t.cache }

/-- One byte to write: address, value, mark. -/
abbrev ByteW := Nat × Byte × Bool

/-- Inserts a byte into a list of falling addresses. -/
def insByte (w : ByteW) : List ByteW → List ByteW
  | [] => [w]
  | v :: t => if v.1 < w.1 then w :: v :: t else v :: insByte w t

/-- Cuts writes into passes, each of falling addresses: a byte that meets an earlier one of the same address begins the next, so that
every write of an accumulate-on-write region combines (R291). -/
def passesOf : List ByteW → List ByteW → List (List ByteW)
  | [], p => [p]
  | w :: t, p => if p.any (fun v => v.1 == w.1) then p :: passesOf t [w] else passesOf t (insByte w p)

/-- Joins rising bytes into runs inside one 64-byte sector. -/
def runsOf : List ByteW → Option (Nat × List ByteW) → List (List ByteW)
  | [], none => []
  | [], some (_, r) => [r.reverse]
  | w :: t, none => runsOf t (some (w.1, [w]))
  | w :: t, some (a, r) =>
    if w.1 == a + 1 && w.1 % 64 != 0 then runsOf t (some (w.1, w :: r)) else r.reverse :: runsOf t (some (w.1, [w]))

/-- The marked 32-byte sectors of a run (R287). -/
def runMarks (off : Nat) (r : List ByteW) : List Nat :=
  r.foldl (fun ms w => if w.2.2 then nsInsert ((off + w.1) / 32) ms else ms) []

/-- Updates the read-staging buffer by the bench's own write (R327): a held sector takes the bytes, or leaves the buffer where
the write combined. -/
def stageWrite (st : List (Nat × List Byte × Bool × Bool)) (combined : Bool) (r : List ByteW) : List (Nat × List Byte × Bool × Bool) :=
  match r with
  | [] => st
  | w :: _ =>
    let a := w.1 / 64 * 64
    if combined then st.filter (fun e => e.1 != a)
    else st.map (fun e => if e.1 == a then
      let data := r.foldl (fun l w => l.set (w.1 % 64) w.2.1) e.2.1
      let half (lo : Nat) (old : Bool) : Bool :=
        let ws := r.filter (fun w => decide (lo ≤ w.1 % 64) && decide (w.1 % 64 < lo + 32))
        ws.any (fun w => w.2.2) || (ws.length != 32 && old)
      (a, data, half 0 e.2.2.1, half 32 e.2.2.2) else e)

/-- Writes one run (R287, R291, R168): answers the fault of the target. `counted` says that the run's 64-byte sector has already
counted in POISON_SECTORS. -/
def Xfer.writeRun (t : Xfer) (k : Nat) (replace counted : Bool) (r : List ByteW) : Xfer :=
  match t.stop, r with
  | some _, _ => t
  | none, [] => t
  | none, w :: _ =>
    let a := w.1
    let data := r.map (fun w => w.2.1)
    let anyMark := !counted && r.any (fun w => w.2.2)
    let d := t.d
    match bits 47 44 a with
    | 0 =>
      match d.stkRefusal (bits 43 0 a) data.length (.bench k) true with
      | some f => { t with stop := some (.fault f 0) }
      | none =>
        let s := bits 43 39 a
        let x := bits 36 0 a
        let ms := runMarks 0 (r.map (fun w => (bits 36 0 w.1, w.2)))
        let d := d.arrive (stkDom s) (d.benchBlock k)
        let d := d.setStk s ((d.stk s).accept x data (fun q => ms.contains q) (some k))
        { t with d := d.modBench k (fun b => { b with staging := stageWrite b.staging false r, poisonSectors := satAdd16 b.poisonSectors (b2n anyMark) }) }
    | 1 =>
      let c := bits 43 40 a
      let x := bits 26 0 a
      match d.sbRefusal (bits 43 0 a) data.length with
      | some f => { t with stop := some (.fault f 0) }
      | none =>
        if !replace && (d.sb c).splits x data.length then { t with stop := some (.fault fltSbAddr 0) }
        else
          let ms := runMarks 0 (r.map (fun w => (bits 26 0 w.1, w.2)))
          let d := d.arrive (sbDom c) (d.benchBlock k)
          let comb := !replace && ((d.sb c).region x).isSome
          let (d, hit) := d.sbWrite c x data (fun q => ms.contains q) replace
          let d := d.modBench k (fun b => { b with staging := stageWrite b.staging comb r, poisonSectors := satAdd16 b.poisonSectors (b2n (anyMark && !comb)) })
          match hit with
          | some h => { t with d := d, stop := some (.fault fltPoisonConsumed (2 ^ 44 + c * 2 ^ 40 + h)) }
          | none => { t with d := d }
    | _ =>
      let x := bits 21 0 a
      let ms := runMarks 0 (r.map (fun w => (bits 21 0 w.1, w.2)))
      if bits 43 22 a != 0 then { t with stop := some (.fault fltCopyRange 0) } else
      { t with d := d.modBench k (fun b => { b with
          store := b.store.store x data (fun q => ms.contains q), poisonSectors := satAdd16 b.poisonSectors (b2n anyMark) }) }

/-- Writes the runs of one pass in the order given. -/
def Xfer.writeRuns (t : Xfer) (k : Nat) (replace : Bool) (rs : List (List ByteW)) : Xfer :=
  (rs.foldl (fun (p : Xfer × Option Nat) r =>
    let sector := r.head?.map (fun w => w.1 / 64)
    (p.1.writeRun k replace (p.2.isSome && p.2 == sector) r, if r.any (fun w => w.2.2) then sector else p.2)) (t, none)).1

/-- Writes bytes run by run, in rising order of address, or falling where `down` says so (R288). -/
def Xfer.writeBytes (t : Xfer) (k : Nat) (replace down : Bool) (ws : List ByteW) : Xfer :=
  (passesOf ws []).foldl (fun t p => let rs := runsOf p.reverse none; t.writeRuns k replace (if down then rs.reverse else rs)) t

/-! ## Elements -/

/-- The byte addresses of an element on a side. -/
def Side.addrs (s : Side) (i0 i1 i2 : Nat) : List Nat :=
  if s.form == 2 then (List.range s.w).map (fun p => s.planeByte p i0 i1 i2)
  else (List.range s.es).map (fun j => s.place i0 i1 i2 + j)

/-- The element code on a side, with its mark; a plane-form element becomes one byte, sign-extended for FMT 0xB (R275). -/
def Xfer.elem (t : Xfer) (x : Desc) (s : Side) (i0 i1 i2 : Nat) : Nat × Bool :=
  let bs := (s.addrs i0 i1 i2).map t.byte
  let mark := bs.any (fun b => b.2)
  if s.form == 2 then
    let code := ((List.range s.w).map (fun p => b2n ((bs.getD p (0, false)).1.getLsbD (i0 % 64 % 8)) * 2 ^ p)).sum
    (if x.fmt == 0xB && bit (s.w - 1) code then code + (256 - 2 ^ s.w) else code, mark)
  else (leNat (bs.map (fun b => b.1)), mark)

/-- A box of indices: (i0, i1, i2) with i0 fastest. -/
def boxOf (n0 n1 n2 : Nat) : List (Nat × Nat × Nat) :=
  (List.range n2).flatMap (fun i2 => (List.range n1).flatMap (fun i1 => (List.range n0).map (fun i0 => (i0, i1, i2))))

/-- The 64 × 64 bytes of an in-place transposition that pass the register tile last: of the last matrix, the second half of the columns where
elements have two bytes (R289, log 96). -/
def Xfer.lastPass (t : Xfer) (x : Desc) : List Byte :=
  (List.range 64).flatMap (fun r => (List.range 64).map (fun j => (t.byte (x.srcSide.place 0 r (x.e 2 - 1) + 64 * (x.es - 1) + j)).1))

/-- An in-place transposition passes through the register tile (R289). -/
def Xfer.passTile (t : Xfer) (k : Nat) (x : Desc) : Xfer :=
  if x.inPlace then
    let tile := t.lastPass x
    { t with d := t.d.modBench k (fun b => { b with arch := { b.arch with regTile := tile } }) }
  else t

/-- Moves one block: source box at index `so` of the source side, destination box at index `dz` of dimension 2 and at the
origin `dO` of the destination side. `skip` delivers PADVAL for the whole block (R282). -/
def Xfer.block (t : Xfer) (k : Nat) (x : Desc) (so dO : Nat × Nat × Nat) (skip : Bool) : Xfer :=
  if t.stop.isSome then t else
  let src := x.srcSide
  let dst := x.dstSide
  let pl0 := if x.pad then x.padlo0 else 0
  let pl1 := if x.pad then x.padlo1 else 0
  let valid (s0 s1 : Nat) : Bool := !skip && decide (pl0 ≤ s0) && decide (s0 < pl0 + x.readExt 0) && decide (pl1 ≤ s1) && decide (s1 < pl1 + x.readExt 1)
  -- sectors the block reads
  let r := src.bounds so.1 so.2.1 so.2.2 (x.readExt 0) (x.readExt 1) (x.readExt 2)
  let box := boxOf (x.readExt 0) (x.readExt 1) (x.readExt 2)
  let addrs (i : Nat × Nat × Nat) : List Nat := src.addrs (so.1 + i.1) (so.2.1 + i.2.1) (so.2.2 + i.2.2)
  let shortRun : Bool := x.op == 2 && x.cls == 0 && bits 47 44 r.1 == 0 && decide (r.2 - r.1 ≤ 32) &&
    (List.range (r.2 - r.1)).all (fun j => box.any (fun i => (addrs i).contains (r.1 + j)))
  let t := if skip then t
    else if shortRun then t.narrow k r.1 (r.2 - r.1)
    else box.foldl (fun t i => (addrs i).foldl (fun t a => t.fetch k (a / 64 * 64)) t) t
  if t.stop.isSome then t else
  let val (d0 d1 d2 : Nat) : Nat × Bool :=
    let di (i : Nat) : Nat := ([d0, d1, d2] : List Nat).getD i 0
    let inv (j : Nat) : Nat := ((List.range 3).map (fun i => if permSrc x.perm i == j then di i else 0)).sum
    let s0 := inv 0
    let s1 := inv 1
    let s2 := inv 2
    if valid s0 s1 then t.elem x src (so.1 + (s0 - pl0)) (so.2.1 + (s1 - pl1)) (so.2.2 + s2) else (x.padval, false)
  let ws : List ByteW :=
    if dst.form == 2 then
      (boxOf (x.dext 0 / 8) (x.dext 1) (x.dext 2)).flatMap (fun i =>
        let vs := (List.range 8).map (fun j => val (8 * i.1 + j) i.2.1 i.2.2)
        (List.range dst.w).map (fun p =>
          (dst.planeByte p (dO.1 + 8 * i.1) (dO.2.1 + i.2.1) (dO.2.2 + i.2.2),
           BitVec.ofNat 8 ((List.range 8).map (fun j => b2n (bit p (vs.getD j (0, false)).1) * 2 ^ j)).sum,
           vs.any (fun v => v.2))))
    else
      (boxOf (x.dext 0) (x.dext 1) (x.dext 2)).flatMap (fun i =>
        let v := val i.1 i.2.1 i.2.2
        let a := dst.place (dO.1 + i.1) (dO.2.1 + i.2.1) (dO.2.2 + i.2.2)
        (List.range dst.es).map (fun j => (a + j, BitVec.ofNat 8 (v.1 / 256 ^ j), v.2)))
  { t.passTile k x with cache := [] }.writeBytes k x.replace x.shiftsDown ws

/-! ## Lists (R282, R283, R288) -/

/-- One list entry: its block coordinates, or a skip. A marked sector is the 32 bytes that a mark covers (R41, log 86). -/
def listEntry (t : Xfer) (k : Nat) (x : Desc) (i : Nat) : Xfer × Option (Nat × Nat × Nat) :=
  let a := x.list + 8 * i
  let m := (t.d.bench k).store
  if m.mark a then ({ t with stop := some (.fault fltPoisonConsumed (a / 32 * 32)) }, none)
  else
    let v := m.readNat a 8
    if v == 2 ^ 64 - 1 then (t, none) else (t, some (bits 15 0 v, bits 39 16 v, bits 63 40 v))

/-- Blocks of a GATHER or SCATTER from entry i on (R282, R283). -/
def Xfer.listBlocks (k : Nat) (x : Desc) : Nat → Nat → Xfer → Xfer
  | 0, _, t => t
  | n + 1, i, t =>
    if t.stop.isSome then t else
    let (t, e) := listEntry t k x i
    if t.stop.isSome then t else
    let z := if x.op == 2 then i * x.dext 2 else i * x.e 2
    match e with
    | none =>
      let t := { t with d := t.d.modBench k (fun b => { b with skipped := satInc16 b.skipped }) }
      let t := if x.op == 2 then t.block k x (0, 0, 0) (0, 0, z) true else t
      Xfer.listBlocks k x n (i + 1) t
    | some (i0, i1, i2) =>
      let side := if x.op == 2 then x.srcSide else x.dstSide
      let ext (j : Nat) : Nat := if x.op == 2 then x.readExt j else x.dext j
      let o := (i0 * ext 0, i1 * ext 1, i2 * ext 2)
      let r := side.bounds o.1 o.2.1 o.2.2 (ext 0) (ext 1) (ext 2)
      if beyondUnit side.base r then { t with stop := some (.fault fltCopyList 0) }
      else if overlap r (if x.op == 2 then x.dstRange else x.srcRange) || (x.op == 3 && overlap r x.listRange) then
        { t with stop := some (.fault fltCopyOverlap 0) }
      else
        let t := if x.op == 2 then t.block k x o (0, 0, z) false else t.block k x (0, 0, z) o false
        Xfer.listBlocks k x n (i + 1) t

/-! ## Compressed copies (R285, R308–R310) -/

/-- Reads n bytes at a device address through the cache, each with its sector's mark. -/
def Xfer.readRange (t : Xfer) (k a n : Nat) : Xfer × List (Byte × Bool) :=
  let t := if n == 0 then t else (List.range ((a % 64 + n + 63) / 64)).foldl (fun t i => t.fetch k (a / 64 * 64 + 64 * i)) t
  (t, (List.range n).map (fun i => t.byte (a + i)))

/-- Reads the index entry of block j (R306, R307). -/
def Xfer.readEntry (t : Xfer) (k : Nat) (x : Desc) (j : Nat) : Xfer × Entry :=
  let a := x.cidx + 8 * j
  let t := t.fetch k (a / 64 * 64)
  if t.stop.isSome then (t, entryOf 0)
  else
    let m := (t.byte a).2
    let v := leNat ((List.range 8).map (fun i => (t.byte (a + i)).1))
    if m then ({ t with stop := some (.fault fltPoisonConsumed (a / 32 * 32)) }, entryOf 0) else (t, entryOf v)

/-- Writes the index entry of block j; REPLACE holds for it as for every sideboard write of the copy (R291). -/
def Xfer.writeEntry (t : Xfer) (k : Nat) (x : Desc) (j : Nat) (e : Entry) : Xfer :=
  { t with cache := t.cache.erase ((x.cidx + 8 * j) / 64 * 64) }.writeBytes k x.replace false
    ((List.range 8).map (fun i => (x.cidx + 8 * j + i, (leBytes 8 e.toNat).getD i 0, false)))

/-- The raw source of an encode or TALLY, in the destination's order, as bytes with marks (R285, R308). -/
def Xfer.rawSource (t : Xfer) (k : Nat) (x : Desc) : Xfer × List (Byte × Bool) :=
  let src := x.srcSide
  let t := (boxOf (x.e 0) (x.e 1) (x.e 2)).foldl (fun t i =>
    (src.addrs i.1 i.2.1 i.2.2).foldl (fun t a => t.fetch k (a / 64 * 64)) t) t
  let bytes := (boxOf (x.dext 0) (x.dext 1) (x.dext 2)).flatMap (fun i =>
    let di (j : Nat) : Nat := ([i.1, i.2.1, i.2.2] : List Nat).getD j 0
    let inv (q : Nat) : Nat := ((List.range 3).map (fun j => if permSrc x.perm j == q then di j else 0)).sum
    let v := t.elem x src (inv 0) (inv 1) (inv 2)
    (List.range x.es).map (fun j => (BitVec.ofNat 8 (v.1 / 256 ^ j), v.2)))
  (t, bytes)

/-- A block stored raw counts in RAW_FALLBACK (Table 11-6). -/
def Xfer.noteRaw (t : Xfer) (st : Stored) : Xfer :=
  let n := satAdd16 t.d.cmp.rawFallback (b2n st.isRaw)
  { t with d := { t.d with cmp := { t.d.cmp with rawFallback := n } } }

/-- One MOVE with CMP = 2, block by block (R309). -/
def Xfer.encodeBlocks (k : Nat) (x : Desc) (tab : CodeTable) : Nat → Nat → List (Byte × Bool) → Xfer → Xfer
  | 0, _, _, t => t
  | n + 1, j, raw, t =>
    if t.stop.isSome then t else
    let blk := raw.take 4096
    let bytes := blk.map (fun b => b.1)
    let st := encodeBlock tab bytes (blk.any (fun b => b.2))
    let (t, old) := { t with cache := [] }.readEntry k x j
    if t.stop.isSome then t else
    let e := entryFor old x.cslot tab st
    if old.room < e.length then { t with stop := some (.fault fltCmpRoom 0) }
    else
      let data := st.bytes bytes
      let t := { t with cache := [] }.writeBytes k x.replace false
        ((List.range data.length).map (fun i => (x.dst + 32 * old.offset + i, data.getD i 0,
          st.isRaw && (blk.getD i (0, false)).2)))
      let t := t.noteRaw st
      Xfer.encodeBlocks k x tab n (j + 1) (raw.drop 4096) (if t.stop.isSome then t else t.writeEntry k x j e)

/-- Sweep 2 of a TALLY (R308): measures each block and writes its entry. -/
def Xfer.tallyBlocks (k : Nat) (x : Desc) (tab : CodeTable) : Nat → Nat → Nat → List (Byte × Bool) → Xfer → Xfer
  | 0, _, _, _, t => t
  | n + 1, j, off, raw, t =>
    if t.stop.isSome then t else
    let blk := raw.take 4096
    let st := encodeBlock tab (blk.map (fun b => b.1)) (blk.any (fun b => b.2))
    let e := entryFor (entryOf 0) x.cslot tab st
    let e := { e with room := e.length, offset := off }
    let t := t.noteRaw st
    Xfer.tallyBlocks k x tab n (j + 1) (off + e.length) (raw.drop 4096) (t.writeEntry k x j e)

/-- Some port codes or decodes with a slot's tables since it trained (R314, R317, R325). -/
def Dev.wireHolds (d : Dev) (slot : Nat) : Bool :=
  d.ports.any (fun p => (p.2.txCmp || p.2.rxCmp) && bits 7 4 p.2.cmpActive.toNat == slot)

/-- Coded pieces that port x holds queued in a generation (R313): not yet transmitted, or arrived and not decoded. -/
def Port.queuedIn (c : Cmp) (x : Port) (slot : Nat) (gen : BitVec 16) : Nat :=
  ((x.out ++ x.rx).filter (fun f => f.piece && (c.queuedGen f.entry).contains (slot, gen))).length

/-- Blocks queued anywhere in the device in a generation of a slot (R313). -/
def Dev.queuedIn (d : Dev) (slot : Nat) (gen : BitVec 16) : Nat :=
  (d.benches.map (fun (b : Nat × Bench) => (b.2.transfers.map (fun t => t.queued.count (slot, gen))).sum)).sum +
    (d.ports.map (fun (p : Nat × Port) => p.2.queuedIn d.cmp slot gen)).sum

/-- A load into a slot is refused as busy (R314): a port uses the slot, or a block is queued in the generation it would displace. -/
def Dev.slotBusy (d : Dev) (slot : Nat) : Bool :=
  d.wireHolds slot || (match d.cmp.prev.find slot with
    | some t => decide (0 < d.queuedIn slot t.gen)
    | none => false)

/-- TALLY (R308, R312, R314). -/
def Xfer.tally (t : Xfer) (k : Nat) (x : Desc) : Xfer :=
  let (t, raw) := t.rawSource k x
  if t.stop.isSome then t
  else if t.d.slotBusy x.cslot then { t with stop := some (.fault fltCmpTableBusy 0) }
  else match splitOf x.fmt with
  | none => { t with stop := some (.fault fltCopyCmp 0) }
  | some sp =>
    let blocks := (List.range x.nblocks).map (fun j => ((raw.drop (4096 * j)).take 4096).map (fun b => b.1))
    let lv := if sp.eb == 0 then (List.replicate 16 0, List.replicate 16 0) else tallyBest t.d.free x.fmt sp.eb (histogram sp blocks)
    let gen := match t.d.cmp.newest.find x.cslot with
      | some n => n.gen + 1
      | none => 0
    let tab : CodeTable := { fmt := BitVec.ofNat 4 x.fmt, gen := gen, lens := lv.1, vals := lv.2 }
    let cmp := (t.d.cmp.load x.cslot tab).getD t.d.cmp
    let d := { t.d with cmp := cmp, free := t.d.free + 1 }
    Xfer.tallyBlocks k x tab x.nblocks 0 0 raw { t with d := d, cache := [], queued := List.replicate x.nblocks (x.cslot, gen) }

/-- Decodes every block of a compressed source into raw bytes with marks (R310). -/
def Xfer.decodeBlocks (k : Nat) (x : Desc) : Nat → Nat → Xfer → Xfer × List (Byte × Bool)
  | 0, _, t => (t, [])
  | n + 1, j, t =>
    if t.stop.isSome then (t, []) else
    let (t, e) := t.readEntry k x j
    if t.stop.isSome then (t, []) else
    let len := if e.sound then 32 * e.length else 0
    let (t, stored) := { t with queued := t.queued ++ t.d.cmp.queuedGen e }.readRange k (x.src + 32 * e.offset) len
    let (t, blk) := match decodeBlock t.d.cmp x.fmt e stored with
      | some b => (t, b)
      | none =>
        let c := { t.d.cmp with decodePoisoned := satInc16 t.d.cmp.decodePoisoned }
        ({ t with d := { t.d with cmp := c } }, poisonBlock t.d.free j)
    let (t, rest) := Xfer.decodeBlocks k x n (j + 1) t
    (t, blk ++ rest)

/-- A MOVE with CMP = 1: the decoded tensor, dense in source order, written to the destination. -/
def Xfer.decodeMove (t : Xfer) (k : Nat) (x : Desc) : Xfer :=
  let (t, raw) := Xfer.decodeBlocks k x x.nblocks 0 t
  if t.stop.isSome then t else
  -- the raw bytes stand in the cache as the source side
  let base := x.src / 64 * 64
  let sh := x.src - base
  let padded := List.replicate sh ((0 : Byte), false) ++ raw
  let cache : Tab (List (Byte × Bool)) := (List.range ((padded.length + 63) / 64)).map (fun i => (base + 64 * i, (padded.drop (64 * i)).take 64))
  { t with cache := cache }.block k { x with cmp := 0 } (0, 0, 0) (0, 0, 0) false

/-! ## Issue -/

/-- The table that codes an encode's blocks (R309, R314): the newest of the slot at the issue, which a load may have made the previous since. -/
def Xfer.encodeTable (t : Xfer) (slot : Nat) : CodeTable :=
  let c := t.d.cmp
  let newest := (c.newest.find slot).getD { fmt := 0, gen := 0, lens := [], vals := [] }
  match t.queued.head?, c.prev.find slot with
  | some q, some p => if q.2 == p.gen then p else newest
  | _, _ => newest

/-- The whole transfer of a descriptor (R280, R282, R285, R290). -/
def Xfer.run (t : Xfer) (k : Nat) (x : Desc) : Xfer :=
  if x.op == 4 then t.tally k x
  else if x.cmp == 1 then t.decodeMove k x
  else if x.cmp == 2 then
    let tab := t.encodeTable x.cslot
    let (t, raw) := { t with queued := List.replicate x.nblocks (x.cslot, tab.gen) }.rawSource k x
    Xfer.encodeBlocks k x tab x.nblocks 0 raw t
  else if x.listed then Xfer.listBlocks k x x.lcount 0 t
  else t.block k x (0, 0, 0) (0, 0, 0) false

/-- A transfer that has moved nothing yet. -/
def Xfer.start (d : Dev) (queued : List (Nat × BitVec 16)) : Xfer := { d := d, stop := none, cache := [], queued := queued }

/-- The blocks that an encode queues as it issues (R313). -/
def Desc.issued (x : Desc) (t : Xfer) : List (Nat × BitVec 16) :=
  if x.op == 1 && x.cmp == 2 then List.replicate x.nblocks (x.cslot, (t.encodeTable x.cslot).gen) else []

/-- The held writes of bench k in a channel of a stack. -/
def Stack.heldOf (st : Stack) (k ch : Nat) : Nat := (st.held.filter (fun h => h.owner == some k && h.key / chanSize == ch)).length

/-- The stacks and channels that took writes of bench k between two states of a transfer. -/
def Dev.writtenIn (d after : Dev) (k : Nat) : List (Nat × Nat) :=
  after.stks.flatMap (fun (p : Nat × Stack) =>
    ((List.range 32).filter (fun ch => decide ((d.stk p.1).heldOf k ch < p.2.heldOf k ch))).map (fun ch => (p.1, ch)))

/-- Writes of a transfer wait in a channel that is held, so it cannot complete (R164). -/
def Dev.writesWait (d : Dev) (k : Nat) (tr : Transfer) : Bool :=
  tr.wrote.any (fun w => (d.stk w.1).chanHeld w.2 && decide (0 < (d.stk w.1).heldOf k w.2))

/-- COPY issues (R93, R277, R292): the descriptor is read once (`bytes`, with the first marked sector) and checked in the order
of Table 10-6; the transfer's bytes move as a whole (95), and it stays outstanding until COPY_COMPLETE. A fault stops the
transfer and the bench, with the bytes already written left in place. The repeat's register writes and address steps stand although the
bundle of a copy that faults does not retire (log 101). A transfer that reads a held channel moves its bytes when the hold has ended (R357;
log 106). `op` is the operation a copy command names: a descriptor of another operation is not that command. -/
def copyIssue (k : Nat) (iss : Issue) (ea : Nat) (ct : Fin 8) (op : Option (BitVec 4)) (bytes : List Byte) (hit : Option Nat)
    (d : Dev) : Dev :=
  match hit with
  | some a => d.benchFault k fltPoisonConsumed iss a
  | none =>
    let x := descOf bytes
    if (match op with
      | some o => o.toNat != x.op && x.op != 0 && decide (x.op ≤ 4)
      | none => false) then d else
    match x.firstFault d.cmp with
    | some f => d.benchFault k f iss ea
    | none =>
      let t := (Xfer.start d []).run k x
      let done : Dev := { t.d with free := t.d.free + 1 }
      let tr : Transfer := { ct := ct, issue := iss, desc := BitVec.ofNat 48 ea, inPlace := x.inPlace, queued := t.queued, todo := none, wrote := d.writtenIn t.d k }
      match t.stop with
      | some (.fault f det) => done.benchFault k f iss (if f == fltPoisonConsumed then det else ea)
      | some .wait =>
        let tr := { tr with queued := x.issued (Xfer.start d []), todo := some bytes, wrote := [] }
        d.modBench k (fun b => { b with transfers := b.transfers ++ [tr] })
      | none => done.modBench k (fun b => { b with transfers := b.transfers ++ [tr] })

/-- COPY_COMPLETE (R290): the counter decrements, and the entry of trace kind 3 is captured. A transfer that waited for a held channel moves its
bytes first, once it can; one with writes in a held channel goes on waiting (R164). -/
def copyComplete (d : Dev) (k idx : Nat) : Dev :=
  match (d.bench k).transfers[idx]? with
  | none => d
  | some tr =>
    let ends (d : Dev) : Dev := d.modBench k (fun b => { b with transfers := b.transfers.eraseIdx idx })
    let detail := tr.ct.val * 2 ^ 48 + tr.desc.toNat
    match tr.todo with
    | none => if d.writesWait k tr then d else (ends d).trace k 3 tr.issue 0 detail
    | some bytes =>
      let t := (Xfer.start d tr.queued).run k (descOf bytes)
      let done : Dev := { t.d with free := t.d.free + 1 }
      match t.stop with
      | some .wait => d
      | some (.fault f det) => (ends done).benchFault k f tr.issue (if f == fltPoisonConsumed then det else tr.desc.toNat)
      | none =>
        let tr := { tr with todo := none, wrote := d.writtenIn t.d k }
        if done.writesWait k tr then done.modBench k (fun b => { b with transfers := b.transfers.set idx tr })
        else (ends done).trace k 3 tr.issue 0 detail

end Sys2Proof.Machine
end

