-- ==== Sys2Proof/Machine/Serving.lean ====
section
/-! DEFINITION. The plan in service as every unit sees it (R237, R246, R252, R335, R365, R373, R446): its benches and cabinets, leader
and follower, the domains that a step uses, what holds an admission or a record, and what a follower tells its leader. -/

namespace Sys2Proof.Machine

/-! ## The plan -/

/-- Benches of the loaded plan. -/
def Dev.planBenches (d : Dev) : List Nat := (d.benches.filter (fun (p : Nat × Bench) => p.2.inPlan)).map (fun p => p.1)

/-- Cabinets of the loaded plan. -/
def Dev.planCabs (d : Dev) : List Nat := (List.range 12).filter (fun c => bit c d.plan.cabSet.toNat)

/-- The devices of the plan beside this one. -/
def Dev.followers (d : Dev) : List Nat := (List.range 64).filter (fun i => bit i d.seq.sec.devices.toNat && i != d.number.toNat)

/-- A plan is loaded. -/
def Dev.planLoaded (d : Dev) : Bool := d.plan.st == .loaded || d.plan.st == .running || d.plan.st == .unloading

/-! ## What holds a record or an admission -/

/-- The step that the last decision was about: the one before the step in flight, else the last admitted. -/
def Dev.decided (d : Dev) : BitVec 48 := if d.seq.run.isSome then d.step - 1 else d.step

/-- Messages of the decided step that write a sideboard and have not been performed (R330, R335): of this device those bound for an
active cabinet, of its benches those on their way to another device. -/
def Dev.writesPending (d : Dev) : Bool :=
  (d.net.filter (fun m => !d.fenced (bits 11 8 m.target.toNat)) ++ d.away).any (fun m =>
    bits 7 0 m.target.toNat == 0xF0 && decide (bits 7 0 m.src.toNat < 96) && m.step == d.decided.setWidth 16)

/-- A drawer controller of the plan has not finished its action, or, where its cabinet has been fenced since, the mirrors have not (R233). -/
def Dev.drawersActing (d : Dev) : Bool :=
  d.planCabs.any (fun c => (d.drw c).action.isSome && (d.fenced c || d.domOn (256 * c + 104)))

/-- The last decision has not been carried out everywhere (R335): a drawer controller of the plan has not finished its action, a bench
has not discarded the step, a write of the step is on its way, or a follower has not finished. -/
def Dev.actionsPending (d : Dev) : Bool :=
  d.drawersActing || d.planBenches.any (fun k => (d.bench k).mustDiscard && !d.fenced (k / 96)) || d.writesPending || !d.seq.acting.isEmpty

/-- A FAULTED bench or a fenced cabinet of the plan holds every admission (R365, R373). -/
def Dev.holdsAdmission (d : Dev) : Bool := d.planBenches.any (fun k => (d.bench k).st == .faulted) || d.planCabs.any d.fenced

/-! ## Below the floor corner (R446) -/

/-- A domain that a step of the plan uses (R446): those of its cabinets, of bench domains the mapped ones, and the edge-die cores. -/
def Dev.usesDom (d : Dev) (id : Nat) : Bool :=
  let i := id % 256
  if i < 104 then d.planBenches.any (fun k => d.benchDom k == id)
  else if i < 108 then bit (id / 256) d.plan.cabSet.toNat
  else decide (164 ≤ i) && decide (i < 168)

/-- Clockless domains: benches, sideboards and edge-die cores (R442). -/
def clockless (id : Nat) : Bool := decide (id % 256 ≤ 104) || (decide (164 ≤ id % 256) && decide (id % 256 < 168))

/-- Clockless domains whose governing value exceeds 105 °C: bench and sideboard sensors, and those of the edge dies. -/
def Dev.hotDoms (d : Dev) : List Nat :=
  d.pwr.sensors.filterMap (fun (p : Nat × Sensor) =>
    let i := p.1 % 256
    if p.2.temp.toInt ≤ 420 then none
    else if i < 104 then some p.1
    else if i < 108 then some (p.1 - i + 104)
    else if 128 ≤ i ∧ i < 160 then some (164 + (i - 128) / 8)
    else none)

/-- Clockless domains whose supply monitor reads under 0.70 V. -/
def Dev.starvedDoms (d : Dev) : List Nat :=
  (d.pwr.doms.filter (fun (p : Nat × Dom) => p.2.underVolt && clockless p.1)).map (fun p => p.1)

/-- Clockless domains below the floor corner by heat or by supply. -/
def Dev.weakDoms (d : Dev) : List Nat := d.hotDoms ++ d.starvedDoms

/-- The largest CAP_STEP or loop step of a domain (R442). -/
def Dev.ownStep (d : Dev) (id : Nat) : Nat := max (d.dom id).capStep.toNat (d.dom id).loopStep.toNat

/-- The effective current-limit step (R442, R445): a chest and its drawers share one limiter, whose loop step is the chest's. -/
def Dev.effStep (d : Dev) (id : Nat) : Nat :=
  let i := id % 256
  if i < 104 then max (d.ownStep id) d.pwr.pcapStep.toNat
  else if i == 105 || i == 106 then max (d.ownStep (id - i + 106)) (d.dom (id - i + 105)).capStep.toNat
  else d.ownStep id

/-- A domain that the step uses is below the floor corner now. -/
def Dev.slow (d : Dev) : Bool :=
  d.planBenches.any (fun k => decide (0 < d.effStep (d.benchDom k))) ||
    d.planCabs.any (fun c => [104, 105, 106, 107].any (fun i => decide (0 < d.effStep (256 * c + i)))) ||
    [164, 165, 166, 167].any (fun i => decide (0 < d.effStep i)) || d.weakDoms.any d.usesDom

/-! ## A follower and its leader (R237) -/

/-- A follower reports once all its benches have reported STEPEND (R237); one whose part a fault has discarded has told so already (R251). -/
def Dev.tellStepEnd (d : Dev) : Dev :=
  match d.seq.run with
  | some r =>
    if !d.leader && !r.reported && r.abandon.isNone && d.planBenches.all (fun k => (d.bench k).atStepEnd) then
      ({ d with seq := { d.seq with run := some { r with reported := true } } } : Dev).tell d.step
        (.stepEnd 0 (r.floorVoid ||| (if d.slow then 1 else 0)))
    else d
  | none => d

/-- Whether this device holds admissions, and whether a fenced cabinet is a cause (R365, R373). -/
def Dev.holding (d : Dev) : Bool × Bool := (d.holdsAdmission, d.planCabs.any d.fenced)

/-- A follower says whether it holds admissions, where that has changed (R365, R373). -/
def Dev.tellHeld (d : Dev) : Dev :=
  if d.planLoaded && !d.leader && d.seq.toldHeld != d.holding then
    ({ d with seq := { d.seq with toldHeld := d.holding } } : Dev).tell d.step (.held d.holding.1 d.holding.2)
  else d

/-- A follower says that the last decision has been carried out there (R335). -/
def Dev.tellActed (d : Dev) : Dev :=
  if d.seq.closing then ({ d with seq := { d.seq with closing := false } } : Dev).tell d.decided .acted else d

/-- The step in flight is abandoned with FAULT 0, unless it already is, as a HALTED bench or its bound in an unload demands (R63); a
follower tells its leader. -/
def Dev.abandonBare (d : Dev) : Dev :=
  match d.seq.run with
  | some r =>
    if r.abandon.isSome then d else
    let d : Dev := { d with seq := { d.seq with run := some { r with abandon := some 0 } } }
    if d.leader then d else d.tell d.step (.discard 0)
  | none => d

/-- A bench has become HALTED: during an unload that abandons the step in flight (R63). -/
def Dev.noteHalt (d : Dev) : Dev := if d.plan.st == .unloading then d.abandonBare else d

end Sys2Proof.Machine
end

