-- ==== Sys2Proof/Machine/Matrix.lean ====
section
/-! DEFINITION. The matrix engine (R90, R91, R114–R122): operand tiles, the product of one cell, MMA, MSTA and the loads. -/

namespace Sys2Proof.Machine

/-- MX formats, which carry scales (Table 3-5). -/
def isMx (fmt : BitVec 4) : Bool := decide (3 ≤ fmt.toNat) && decide (fmt.toNat ≤ 7)

/-- Formats held in bit planes, with their width (R115). -/
def planeWidth (fmt pw : BitVec 4) : Option Nat :=
  match fmt.toNat with
  | 5 => some 6
  | 6 => some 6
  | 7 => some 4
  | 0xB => some pw.toNat
  | _ => none

/-- Bytes of a 64 × 64 loader tile (R92, R115). -/
def tileBytes (fmt pw : BitVec 4) : Nat :=
  match planeWidth fmt pw with
  | some w => 512 * w
  | none => 4096 * fmtBytes fmt

/-- Value of a plane-serial code of width w (R122): the top plane is the sign. -/
def planeValue (w code : Nat) : FV :=
  let v := sext w code
  .fin (v < 0) v.natAbs 0

/-- The 64 stored rows of a tile, each as 64 element values (R115, R116). -/
def Loader.rows (l : Loader) : List (List FV) :=
  match planeWidth l.fmt l.pw with
  | some w =>
    (List.range 64).map (fun r => (List.range 64).map (fun q =>
      let code := ((List.range w).map (fun p => b2n (bit (q % 8) (l.tile.getD (512 * p + 8 * r + q / 8) 0).toNat) * 2 ^ p)).sum
      if l.fmt == 0xB#4 then planeValue w code else elemFV l.fmt code))
  | none =>
    let n := fmtBytes l.fmt
    (List.range 64).map (fun r =>
      let row := (l.tile.drop (64 * n * r)).take (64 * n)
      (List.range 64).map (fun q => elemFV l.fmt (leNat ((row.drop (n * q)).take n))))

/-- Columns of a list of rows. -/
def transposeRows (m : List (List FV)) : List (List FV) := (List.range 64).map (fun q => m.map (fun r => r.getD q .nan))

/-- A[i] over k (Table 4-3). -/
def Loader.aRows (l : Loader) : List (List FV) := if l.tr then transposeRows l.rows else l.rows

/-- Column j of B over k (Table 4-3): MX and plane-serial tiles are stored one output column per row. -/
def Loader.bCols (l : Loader) : List (List FV) :=
  if isMx l.fmt || l.fmt == 0xB#4 || l.tr then l.rows else transposeRows l.rows

/-- The two scales of a row (R115); 127 where the format has none (R114). -/
def Loader.scalePair (l : Loader) (r : Nat) : Nat × Nat :=
  if isMx l.fmt then ((l.scales.getD (2 * r) 0).toNat, (l.scales.getD (2 * r + 1) 0).toNat) else (127, 127)

/-- Operand pairs that MMA accepts (Table 3-7). -/
def mmaPair (a b : BitVec 4) : Bool :=
  let x := a.toNat
  let y := b.toNat
  (decide (1 ≤ x) && decide (x ≤ 7) && decide (1 ≤ y) && decide (y ≤ 7)) || (x == 8 && y == 8) || (x == 9 && y == 9) ||
    (x == 0xA && (y == 0xA || y == 0xB))

/-- Exact sum of the products of two lists. -/
def dot (ps : List (FV × FV)) : Dy := ps.foldl (fun s p => dyAdd s (dyMul p.1.dy p.2.dy)) (0, 0)

/-- FP32 sum of an accumulator and a rounded product sum; an exact zero gives +0 (R117), and an infinite accumulator stays
infinite (R119; log 87). -/
def accAdd (acc p : BitVec 32) : BitVec 32 :=
  match fp32 acc, fp32 p with
  | .inf s, _ => infOf s
  | _, .inf s => infOf s
  | x, y => roundDy (dyAdd x.dy y.dy)

/-- One cell of an MMA (R117, R118, R119, R122). -/
def mmaCell (half16 : Bool) (a b : List FV) (sa sb : Nat × Nat) (acc : BitVec 32) : BitVec 32 :=
  let ps := a.zip b
  let infs := ps.filter (fun p => p.1.isInf || p.2.isInf)
  let pos := infs.any (fun p => p.1.neg == p.2.neg)
  let neg := infs.any (fun p => p.1.neg != p.2.neg)
  if ps.any (fun p => p.1.isNaN || p.2.isNaN) || sa.1 == 255 || sa.2 == 255 || sb.1 == 255 || sb.2 == 255 || (fp32 acc).isNaN then canonNaN
  else if infs.any (fun p => p.1.isZero || p.2.isZero) then canonNaN
  else if pos && neg then canonNaN
  else if pos || neg then
    (if (fp32 acc).isInf && (fp32 acc).neg != neg then canonNaN else infOf neg)
  else if half16 then
    [0, 1, 2, 3].foldl (fun acc g => accAdd acc (roundDy (dot ((ps.drop (16 * g)).take 16)))) acc
  else
    let t0 := dot (ps.take 32)
    let t1 := dot (ps.drop 32)
    let p := dyAdd (t0.1, t0.2 + (sa.1 + sb.1 : Nat) - 254) (t1.1, t1.2 + (sa.2 + sb.2 : Nat) - 254)
    accAdd acc (roundDy p)

/-- C ← C + A·B (R90), row by row. -/
def mmaTile (la lb : Loader) (acc : List (BitVec 32)) : List (BitVec 32) :=
  let rows := la.aRows
  let cols := lb.bCols
  (List.range 64).flatMap (fun i => (List.range 64).map (fun j =>
    mmaCell (la.fmt == 8#4 || la.fmt == 9#4) (rows.getD i []) (cols.getD j []) (la.scalePair i) (lb.scalePair j)
      (acc.getD (64 * i + j) 0#32)))

/-- MMA (R90, R91, R350): Z clears before repeat 0 only; a marked loader sector is consumed. Of several
marked ones DETAIL names the first of A tile, A scales, B tile, B scales (DESIGN CHOICE, log 107). -/
def evalMma (r : Arch) (idx : Nat) (acc : Fin 4) (z : Bool) : Res :=
  if !mmaPair r.la.fmt r.lb.fmt then .fault fltAkkFormat 0
  else if !r.la.tileMarks.isEmpty then .fault fltPoisonConsumed r.la.addr.toNat
  else if !r.la.scaleMarks.isEmpty then .fault fltPoisonConsumed r.la.saddr.toNat
  else if !r.lb.tileMarks.isEmpty then .fault fltPoisonConsumed r.lb.addr.toNat
  else if !r.lb.scaleMarks.isEmpty then .fault fltPoisonConsumed r.lb.saddr.toNat
  else
    let old := if z && idx == 0 then [] else r.getAcc acc
    .regs (fun q => q.setAcc acc (mmaTile r.la r.lb old))

/-- Formats valid in MLDA and MLDB (Table 3-5). -/
def loadFmt (isB : Bool) (fmt : BitVec 4) : Bool := decide (1 ≤ fmt.toNat) && decide (fmt.toNat ≤ (if isB then 0xB else 0xA))

/-- Formats valid in MSTA, VLD and VST (Table 3-5). -/
def storeFmt (fmt : BitVec 4) : Bool := [1, 2, 8, 9, 0xA, 0xC].contains fmt.toNat

/-- Formats that accept TR (R92). -/
def trFmt (fmt : BitVec 4) : Bool := [1, 2, 8, 9, 0xA].contains fmt.toNat

/-- The 64 × 64 bytes of a transposed tile that pass the register tile last: a 2-byte tile passes in two halves of its columns
(R92, R289). -/
def lastPass (fmt : BitVec 4) (tile : List Byte) : List Byte :=
  if fmtBytes fmt == 2 then (List.range 64).flatMap (fun r => (tile.drop (128 * r + 64)).take 64) else tile

/-- MLDA and MLDB, their checks in the order of R521. A transposed load passes the register tile. -/
def evalLoad (isB : Bool) (r : Arch) (mem : Mem) (a : AOp) (fmt : BitVec 4) (tr : Bool) (sa : AOp) (pw : BitVec 4) : Res :=
  let n := tileBytes fmt pw
  let x := (r.aop a).ea
  let y := (r.aop sa).ea
  if !loadFmt isB fmt || (tr && !trFmt fmt) then .fault fltAkkFormat 0
  else if (r.aop a).mark || (isMx fmt && (r.aop sa).mark) then poisoned
  else if x % 64 != 0 then .fault fltAkkAlign x
  else if decide (storeSize < x + n) then .fault fltAkkBounds x
  else if isMx fmt && y % 64 != 0 then .fault fltAkkAlign y
  else if isMx fmt && decide (storeSize < y + 128) then .fault fltAkkBounds y
  else
    let l : Loader := {
      fmt := fmt, pw := pw, tile := mem.read x n, scales := if isMx fmt then mem.read y 128 else [],
      tileMarks := mem.markList x n, scaleMarks := if isMx fmt then mem.markList y 128 else [], tr := tr,
      addr := BitVec.ofNat 48 x, saddr := BitVec.ofNat 48 y }
    .regs (fun q =>
      let q := if tr then { q with regTile := lastPass fmt l.tile } else q
      if isB then { q with lb := l } else { q with la := l })

/-- Converts elements to bytes and counts SAT and NAN (R121, R127). -/
def convAll (fmt : BitVec 4) (xs : List (BitVec 32)) : List Byte × Nat × Nat :=
  let cs := xs.map (fromFp32 fmt)
  (cs.flatMap (fun c => leBytes (fmtBytes fmt) c.code), (cs.filter Conv.sat).length, (cs.filter Conv.nan).length)

/-- Adds to SAT and NAN of a bench. -/
def Dev.countConv (d : Dev) (k s n : Nat) : Dev :=
  d.modBench k (fun b => { b with sat := satAdd16 b.sat s, nan := satAdd16 b.nan n })

/-- An accumulator as exactly 4,096 words. -/
def fullTile (t : List (BitVec 32)) : List (BitVec 32) := (List.range 4096).map (fun i => t.getD i 0#32)

/-- MSTA (R90, R521). -/
def evalMsta (k : Nat) (r : Arch) (acc : Fin 4) (clr : Bool) (a : AOp) (fmt : BitVec 4) : Res :=
  let x := (r.aop a).ea
  let n := 4096 * fmtBytes fmt
  if !storeFmt fmt then .fault fltAkkFormat 0
  else if (r.aop a).mark then poisoned
  else if x % 64 != 0 then .fault fltAkkAlign x
  else if decide (storeSize < x + n) then .fault fltAkkBounds x
  else
    let c := convAll fmt (fullTile (r.getAcc acc))
    .ok [(x, c.1, [])] (fun q => if clr then q.setAcc acc [] else q) (fun d => d.countConv k c.2.1 c.2.2)

end Sys2Proof.Machine
end

