-- ==== Sys2Proof/Machine/Vector.lean ====
section
/-! DEFINITION. The vector engine (R96, R97, R128–R135, R521, R524) and the shelf (R136–R142). -/

namespace Sys2Proof.Machine

/-- VBIN functions (Table 3-10). -/
def binFn (func : Nat) (a b : BitVec 32) : BitVec 32 :=
  match func with
  | 0 => fpAdd a b
  | 1 => fpSub a b
  | 2 => fpMul a b
  | 3 => fpMax a b
  | _ => fpMin a b

/-- VUN functions (Table 5-2). -/
def unFn (func : Nat) (a : BitVec 32) : BitVec 32 :=
  match func with
  | 0 => canon a
  | 1 => if (fp32 a).isNaN then canonNaN else fpNeg a
  | 2 => if (fp32 a).isNaN then canonNaN else a &&& 0x7FFFFFFF#32
  | 3 => fpExp a
  | 4 => fpExp2 a
  | 5 => fpLog a
  | 6 => fpRsqrt a
  | _ => fpRecip a

/-- An arithmetic result into lanes 0 to n − 1 of vd: no mark is written (R129, R135). With vl = 0 nothing changes (R97). -/
def arith (vd : Fin 32) (n : Nat) (f : Nat → BitVec 32) : Res :=
  if n == 0 then .regs id
  else .regs (fun q => q.setV vd ((q.getV vd).put (fun l => decide (l < n)) f (fun _ => false)))

/-- VFMA (R96, R130). -/
def evalVfma (r : Arch) (vd va vb : Fin 32) : Res :=
  if (r.getV va).consumed r.vl || (r.getV vb).consumed r.vl || (r.getV vd).consumed r.vl then poisoned
  else arith vd r.vl (fun l => fmaFV (fp32 ((r.getV va).lane l)) (fp32 ((r.getV vb).lane l)) (fp32 ((r.getV vd).lane l)))

/-- VBIN (R96, R130, R135): with BS = 1 only vb[0] is read. -/
def evalVbin (r : Arch) (vd va vb : Fin 32) (func : BitVec 4) (bs : Bool) : Res :=
  let nb := if bs then min r.vl 1 else r.vl
  if (r.getV va).consumed r.vl || (r.getV vb).consumed nb then poisoned
  else arith vd r.vl (fun l => binFn func.toNat ((r.getV va).lane l) ((r.getV vb).lane (if bs then 0 else l)))

/-- VUN (R96, R131). -/
def evalVun (r : Arch) (vd va : Fin 32) (func : BitVec 4) : Res :=
  if (r.getV va).consumed r.vl then poisoned else arith vd r.vl (fun l => unFn func.toNat ((r.getV va).lane l))

/-- VRED functions (Table 3-10). -/
def redFn (func : Nat) (a b : BitVec 32) : BitVec 32 :=
  match func with
  | 0 => fpAdd a b
  | 1 => fpMax a b
  | _ => fpMin a b

/-- One round of R132: neighbours combined in pairs, a lane without a partner unchanged. -/
def pairUp (f : BitVec 32 → BitVec 32 → BitVec 32) : List (BitVec 32) → List (BitVec 32)
  | a :: b :: t => f a b :: pairUp f t
  | l => l

/-- The fixed pairwise order of R132; seven rounds cover 128 lanes. -/
def reduceLanes (f : BitVec 32 → BitVec 32 → BitVec 32) (l : List (BitVec 32)) : BitVec 32 :=
  (([0, 1, 2, 3, 4, 5, 6].foldl (fun l _ => pairUp f l) l).map canon).getD 0 0#32

def VReg.slice (v : VReg) (lo hi : Nat) : List (BitVec 32) := (List.range (hi - lo)).map (fun i => v.lane (lo + i))

/-- VRED (R132). -/
def evalVred (r : Arch) (vd va : Fin 32) (func : BitVec 2) (half : Bool) : Res :=
  let v := r.getV va
  if v.consumed r.vl then poisoned
  else if half then
    let lo := reduceLanes (redFn func.toNat) (v.slice 0 (min r.vl 64))
    let hi := reduceLanes (redFn func.toNat) (v.slice 64 r.vl)
    arith vd r.vl (fun l => if l < 64 then lo else hi)
  else
    let x := reduceLanes (redFn func.toNat) (v.slice 0 r.vl)
    arith vd r.vl (fun _ => x)

/-- Identity of a scan (R133). -/
def scanId (func : Nat) : BitVec 32 := if func == 0 then 0#32 else 0xFF800000#32

/-- Inclusive scan with segment starts (R133, R134): `prev` is the result of the lane before, none at a start. -/
def scanLanes (f : BitVec 32 → BitVec 32 → BitVec 32) : Option (BitVec 32) → List (BitVec 32 × Bool) → List (BitVec 32)
  | _, [] => []
  | prev, (x, start) :: t =>
    let y := match prev with
      | some p => if start then canon x else f p x
      | none => canon x
    y :: scanLanes f (some y) t

/-- VSCAN and VSEGSCAN: `start l` says where a segment starts. -/
def scanAll (func : Nat) (excl : Bool) (xs : List (BitVec 32)) (start : Nat → Bool) : List (BitVec 32) :=
  let f := if func == 0 then fpAdd else fpMax
  let inc := scanLanes f none ((List.range xs.length).map (fun l => (xs.getD l 0#32, start l)))
  if excl then (List.range xs.length).map (fun l => if l == 0 || start l then scanId func else inc.getD (l - 1) 0#32) else inc

/-- VSCAN (R133). -/
def evalVscan (r : Arch) (vd va : Fin 32) (func : BitVec 2) (excl : Bool) : Res :=
  let v := r.getV va
  if v.consumed r.vl then poisoned
  else
    let ys := scanAll func.toNat excl (v.slice 0 r.vl) (fun _ => false)
    arith vd r.vl (fun l => ys.getD l 0#32)

/-- VSEGSCAN (R134). -/
def evalVsegscan (r : Arch) (vd va vf : Fin 32) (func : BitVec 2) (excl : Bool) : Res :=
  let v := r.getV va
  let f := r.getV vf
  if v.consumed r.vl || f.consumed r.vl then poisoned
  else
    let ys := scanAll func.toNat excl (v.slice 0 r.vl) (fun l => f.lane l != 0#32)
    arith vd r.vl (fun l => ys.getD l 0#32)

/-- VSETL (R524): the register form reads XS as unsigned. -/
def evalVsetl (r : Arch) (src : Bool) (imm : BitVec 8) (xs : Fin 32) : Res :=
  if !src then .regs (fun q => { q with vl := imm.toNat })
  else if (r.getX xs).mark then poisoned
  else if 128 < (r.getX xs).val.toNat then .fault fltAkkOperand 0
  else .regs (fun q => { q with vl := (r.getX xs).val.toNat })

/-- VBCAST (R524): every lane, bits unchanged, marks cleared (R135). -/
def evalVbcast (vd : Fin 32) (imm : BitVec 32) : Res :=
  .regs (fun q => q.setV vd { lanes := List.replicate 128 imm, marks := 0 })

/-- VLD (R92, R97, R135, R521). -/
def evalVld (r : Arch) (mem : Mem) (vd : Fin 32) (a : AOp) (fmt : BitVec 4) : Res :=
  let n := fmtBytes fmt
  let x := (r.aop a).ea
  if r.vl == 0 then .regs id
  else if !storeFmt fmt then .fault fltAkkFormat 0
  else if (r.aop a).mark then poisoned
  else if x % n != 0 then .fault fltAkkAlign x
  else if decide (storeSize < x + n * r.vl) then .fault fltAkkBounds x
  else .regs (fun q => q.setV vd ((q.getV vd).put (fun l => decide (l < r.vl))
      (fun l => toFp32 fmt (mem.readNat (x + n * l) n))
      (fun g => mem.anyMark (x + n * (8 * g)) (n * (min r.vl (8 * g + 8) - 8 * g)))))

/-- VST (R92, R97, R521): marked lanes mark the sectors they are written to. -/
def evalVst (k : Nat) (r : Arch) (vs : Fin 32) (a : AOp) (fmt : BitVec 4) : Res :=
  let n := fmtBytes fmt
  let x := (r.aop a).ea
  let v := r.getV vs
  if r.vl == 0 then .regs id
  else if !storeFmt fmt then .fault fltAkkFormat 0
  else if (r.aop a).mark then poisoned
  else if x % n != 0 then .fault fltAkkAlign x
  else if decide (storeSize < x + n * r.vl) then .fault fltAkkBounds x
  else
    let c := convAll fmt (v.slice 0 r.vl)
    let marks := (List.range 16).foldl (fun ms g =>
      if decide (8 * g < r.vl) && v.marks.getLsbD g then
        (sectorsOf (x + n * (8 * g)) (n * (min r.vl (8 * g + 8) - 8 * g))).foldl (fun ms k => nsInsert k ms) ms
      else ms) []
    .ok [(x, c.1, marks)] id (fun d => d.countConv k c.2.1 c.2.2)

/-! ## The shelf -/

/-- Row pair p of a tile as 128 lanes, with the marks of its 16 sectors (R137, R147). -/
def ShelfItem.pair (it : ShelfItem) (p : Nat) : VReg :=
  { lanes := (it.tile.drop (128 * p)).take 128
    marks := groupMarks (fun g => it.marks.contains (16 * p + g)) }

/-- One VPOP from the head item (R137), or none where the shelf is empty. -/
def Shelf.pop (s : Shelf) : Option (VReg × Shelf) :=
  match s.items with
  | [] => none
  | it :: rest =>
    let v := it.pair s.headPair
    if s.headPair == 31 then some (v, { s with items := rest, headPair := 0 })
    else some (v, { s with headPair := s.headPair + 1 })

/-- Empties the shelf; each item counts in DROPPED, and nothing waits at it any more (R143, R145). -/
def Shelf.flush (s : Shelf) : Shelf :=
  { s with items := [], headPair := 0, dropped := satAdd16 s.dropped s.items.length, bpWait := false, popped := none, rest := none, own := 0 }

/-- MPUSHes in back-pressure mode: as many tiles as find room are admitted, in the order of the slots, and the others wait (R142). -/
def Shelf.pushAll (s : Shelf) (tiles : List (List (BitVec 32))) : Shelf :=
  let n := min tiles.length (16 - s.items.length)
  { s with items := s.items ++ (tiles.take n).map (fun x => ⟨x, []⟩), rest := some (tiles.drop n), own := s.own + n }

/-- MPUSHes in native mode, judged against `held`, the HELD before the repeat, with the MPUSHes of the repeat placed before them: one
that meets 16 is ignored (R141). -/
def Shelf.native (s : Shelf) (held : Nat) (tiles : List (List (BitVec 32))) : Shelf :=
  let n := min tiles.length (16 - held)
  let lost := tiles.length - n
  { s with
    items := s.items ++ (tiles.take n).map (fun x => ⟨x, []⟩), rest := some [], own := n
    overrun := s.overrun || decide (0 < lost), overruns := satAdd16 s.overruns lost }

/-- What the shelf answers to a repeat: it goes on, with the rows of its VPOP, or it waits. -/
inductive ShelfOut where
  | go (s : Shelf) (row : Option VReg)
  | hold (s : Shelf)

/-- A repeat that waits at no shelf keeps nothing of one there. -/
def Shelf.settled (s : Shelf) : Shelf := { s with popped := none, rest := none, own := 0, bpWait := false }

/-- The VPOP of a repeat takes the next row pair of an item of an earlier repeat, if the shelf holds one (R137, R139). -/
def Shelf.popOlder (s : Shelf) : Shelf :=
  if s.popped.isNone && decide (s.own < s.items.length) then
    match s.pop with
    | some (v, t) => { t with popped := some v }
    | none => s
  else s

/-- The shelf in one repeat, tried first or (`again`) after a wait: the VPOP, if any, and the tiles of its MPUSHes; neither waits for the
other. The repeat waits on a VPOP that finds no item of an earlier repeat (R139) and, in back-pressure mode, on an MPUSH that finds HELD at 16 (R142). -/
def shelfRepeat (s : Shelf) (again : Bool) (tiles : List (List (BitVec 32))) (pops : Bool) : ShelfOut :=
  if tiles.isEmpty && !pops then .go s none
  else
    let s := if again && s.rest.isSome then s else s.settled
    let t := if pops then s.popOlder else s
    let t := match s.rest with
      | some ts => t.pushAll ts
      | none => if s.mode then t.pushAll tiles else t.native s.items.length tiles
    let full := t.rest != some []
    if full || (pops && t.popped.isNone) then .hold { t with bpWait := full } else .go t.settled t.popped

end Sys2Proof.Machine
end

