-- ==== Sys2Proof/Machine/Exec.lean ====
section
/-! DEFINITION. Bundle execution (R81, R83, R86–R88, R98–R103, R142, R475): what each slot does in one repeat, repeats, waits,
faults and retirement. -/

namespace Sys2Proof.Machine

/-! ## Scalar slots (R99) -/

/-- ALU functions (Table 3-12). -/
def aluFn (func : Nat) (a b : BitVec 64) : BitVec 64 :=
  let sh := b.toNat % 64
  let flag (c : Bool) : BitVec 64 := if c then 1 else 0
  match func with
  | 0 => a + b
  | 1 => a - b
  | 2 => a * b
  | 3 => a &&& b
  | 4 => a ||| b
  | 5 => a ^^^ b
  | 6 => a <<< sh
  | 7 => a >>> sh
  | 8 => a.sshiftRight sh
  | 9 => flag (a.slt b)
  | 10 => flag (a.ult b)
  | 11 => flag (a == b)
  | 12 => if a.slt b then a else b
  | _ => if a.slt b then b else a

/-- BRC conditions (Table 3-12). -/
def brcTaken (cond : BitVec 2) (a : BitVec 64) : Bool :=
  match cond.toNat with
  | 0 => a == 0
  | 1 => a != 0
  | 2 => a.msb
  | _ => !a.msb

/-- GETS (Table 3-12). -/
def getsVal (d : Dev) (k : Nat) (sel : BitVec 4) : BitVec 64 :=
  match sel.toNat with
  | 0 => (d.benchEp k).setWidth 64
  | 1 => d.plan.planId.setWidth 64
  | 2 => d.step.setWidth 64
  | 3 => d.template.setWidth 64
  | _ => (d.bench k).csv.setWidth 64

/-- A branch target that the bench accepts (R75). -/
def targetOk (t : Int) : Bool := decide (0 ≤ t) && decide (t ≤ 262140) && decide (t % 4 = 0)

/-- The target of a taken branch (R99), where it branches. -/
def branchTarget (r : Arch) : SlotOp → Option Int
  | .br off => some ((r.pc : Int) + 4 * off.toInt)
  | .brc xa cond off => if brcTaken cond (r.getX xa).val then some ((r.pc : Int) + 4 * off.toInt) else none
  | .brx xa _ => some ((r.getX xa).val.toNat % 2 ^ 18 : Nat)
  | _ => none

/-- BR, BRC and BRX: a marked register bites (R102), a target outside program memory or off its alignment faults (R75). -/
def evalBranch (r : Arch) (op : SlotOp) (regs : Arch → Arch) : Res :=
  match branchTarget r op with
  | none => .regs regs
  | some t => if targetOk t then .regs regs else .fault fltAkkPc (t.emod (2 ^ 48)).toNat

/-! ## Scalar memory accesses (R92) -/

/-- LDX. The order of its checks is the model's (DESIGN CHOICE, log 107). -/
def evalLdx (r : Arch) (mem : Mem) (xd : Fin 32) (a : AOp) (size : Fin 4) (sx : Bool) : Res :=
  let n := 2 ^ size.val
  let x := (r.aop a).ea
  if (r.aop a).mark then poisoned
  else if x % n != 0 then .fault fltAkkAlign x
  else if storeSize < x + n then .fault fltAkkBounds x
  else
    let v := mem.readNat x n
    .regs (fun q => q.setX xd (if sx then BitVec.ofInt 64 (sext (8 * n) v) else BitVec.ofNat 64 v) (mem.anyMark x n))

/-- STX. The order of its checks is the model's (DESIGN CHOICE, log 107). -/
def evalStx (r : Arch) (xs : Fin 32) (a : AOp) (size : Fin 4) : Res :=
  let n := 2 ^ size.val
  let x := (r.aop a).ea
  if (r.aop a).mark then poisoned
  else if x % n != 0 then .fault fltAkkAlign x
  else if storeSize < x + n then .fault fltAkkBounds x
  else .ok [(x, leBytes n (r.getX xs).val.toNat, if (r.getX xs).mark then sectorsOf x n else [])] id id

/-! ## ATOM (R95, R167, R170) -/

def atomSize (op : BitVec 4) : Nat := if op == 0#4 || op == 2#4 || op == 3#4 then 4 else 8

/-- Sum of two bfloat16 numbers, rounded once (R95). -/
def bf16Add (a b : BitVec 16) : BitVec 16 :=
  let inf (s : Bool) : BitVec 16 := if s then 0xFF80#16 else 0x7F80#16
  match fp32 (a ++ 0#16), fp32 (b ++ 0#16) with
  | .nan, _ => 0x7FC0#16
  | _, .nan => 0x7FC0#16
  | .inf s, .inf t => if s == t then inf s else 0x7FC0#16
  | .inf s, _ => inf s
  | _, .inf s => inf s
  | x, y =>
    let s := dyAdd x.dy y.dy
    if s.1 = 0 then (if x.neg && y.neg then 0x8000#16 else 0#16) else BitVec.ofNat 16 (toBf16 s)

/-- The new value of an ATOM word (Table 3-9). -/
def atomNew (op : BitVec 4) (old xs xc : BitVec 64) : BitVec 64 :=
  match op.toNat with
  | 0 => ((old.setWidth 32 + xs.setWidth 32 : BitVec 32)).setWidth 64
  | 1 => old + xs
  | 2 => (fpAdd (old.setWidth 32) (xs.setWidth 32)).setWidth 64
  | 3 => ((bf16Add (old.extractLsb' 16 16) (xs.extractLsb' 16 16)) ++ (bf16Add (old.setWidth 16) (xs.setWidth 16)) : BitVec 32).setWidth 64
  | 4 => old + xs
  | 5 => if old.slt xs then xs else old
  | 6 => if old.slt xs then old else xs
  | 7 => old &&& xs
  | 8 => old ||| xs
  | 9 => old ^^^ xs
  | _ => if old == xc then xs else old

/-- The sideboard and offset of an address of selector 1. -/
def sbCab (a : Nat) : Nat := bits 43 40 a
def sbOff (a : Nat) : Nat := bits 26 0 a

/-- Whether ATOM returns the old value (Table 3-9). -/
def atomReturns (op : BitVec 4) : Bool := decide (4 ≤ op.toNat)

/-- ATOM at the sideboard: the word is combined at its bank, and the old value returns (R95, R167). -/
def atomDo (k : Nat) (op : BitVec 4) (x : Nat) (xs xc : BitVec 64) (xd : Fin 32) (d : Dev) : Dev :=
  let c := sbCab x
  let o := sbOff x
  let n := atomSize op
  let d := d.arrive (sbDom c) (d.benchBlock k)
  let old := BitVec.ofNat 64 ((d.sb c).mem.readNat o n)
  let sb := d.sb c
  let d := d.setSb c { sb with mem := sb.mem.write o (leBytes n (atomNew op old xs xc).toNat) }
  if atomReturns op then d.modBench k (fun b => { b with arch := b.arch.setX xd old false }) else d

/-- ATOM (R95). The order of its checks, marked registers, space, alignment, the sideboard's refusal, the marked word, is the model's
(DESIGN CHOICE, log 107). -/
def evalAtom (d : Dev) (k : Nat) (r : Arch) (op : BitVec 4) (a : AOp) (xd xs xc : Fin 32) : Res :=
  let x := (r.aop a).ea
  let n := atomSize op
  if (r.aop a).mark || (r.getX xs).mark || (op == 10#4 && (r.getX xc).mark) then poisoned
  else if bits 47 44 x != 1 then .fault fltAtomicSpace x
  else if x % n != 0 then .fault fltAkkAlign x
  else match d.sbRefusal (bits 43 0 x) n with
  | some f => .fault f x
  | none =>
    let sb := d.sb (sbCab x)
    if !sb.filled || sb.mem.anyMark (sbOff x) n then .fault fltPoisonConsumed x
    else .ok [] id (atomDo k op x (r.getX xs).val (r.getX xc).val xd)

/-! ## Messages (R41–R49, R98) -/

/-- The message that a SEND builds. -/
def sendMsg (d : Dev) (k : Nat) (iss : Issue) (mem : Mem) (q : Fin 8) (x len : Nat) (dest : BitVec 18) : Msg :=
  let b := d.bench k
  { dest := dest, target := dest, bcast := false, src := d.benchEp k, queue := q, seq := b.msgSeq, tag := iss.tag,
    planId := d.plan.planId, epoch := (b.queue 0).epoch, step := d.step.setWidth 16, payload := mem.read x len,
    marks := (List.range ((len + 31) / 32)).filter (fun i => mem.anyMark (x + 32 * i) (min 32 (len - 32 * i))), issue := some iss }

/-- SEND completes (R42): the message leaves, the bench's sequence number advances, trace kind 1. -/
def sendDo (k : Nat) (iss : Issue) (m : Msg) (d : Dev) : Dev :=
  let d := d.emit (k / 96) m
  let d := d.modBench k (fun b => { b with msgSeq := b.msgSeq + 1 })
  d.trace k 1 iss m.dest.toNat ((m.payload.length - 1) * 2 ^ 48 + m.seq.toNat)

/-- SEND (R43, R98). The order of its checks, operands, bounds, endpoint, route, is the model's (DESIGN CHOICE, log 107). -/
def evalSend (d : Dev) (k : Nat) (iss : Issue) (r : Arch) (mem : Mem) (q : Fin 8) (a : AOp) (xdest xlen : Fin 32) : Res :=
  let ds := r.getX xdest
  let ln := r.getX xlen
  let len := ln.val.toNat
  let x := (r.aop a).ea
  let dest : BitVec 18 := ds.val.setWidth 18
  if ds.mark || ln.mark || (r.aop a).mark then poisoned
  else if len < 1 || 16384 < len || 2 ^ 18 ≤ ds.val.toNat then .fault fltAkkOperand 0
  else if storeSize < x + len then .fault fltAkkBounds x
  else if !epValid dest then .fault fltMsgUnroutable 0
  else if epDev dest != d.number.toNat && !d.hasRoute (k / 96) (epDev dest) then .fault fltMsgNoRoute 0
  else if 65536 < d.outboxBytes k + 64 + (len + 63) / 64 * 64 then .wait 4 id
  else .ok [] id (sendDo k iss (sendMsg d k iss mem q x len dest))

/-- RECV completes (R49): the message leaves its queue, the read-staging buffer is emptied (R327), trace kind 2. -/
def recvDo (k : Nat) (iss : Issue) (m : Msg) (d : Dev) : Dev :=
  let d := d.modBench k (fun b => { b with inbox := b.inbox.erase m, staging := [] })
  d.trace k 2 iss m.src.toNat ((m.payload.length - 1) * 2 ^ 48 + m.seq.toNat)

/-- The marked sectors of a payload written at x (R46). -/
def payloadMarks (m : Msg) (x : Nat) : List Nat :=
  m.marks.flatMap (fun i => sectorsOf (x + 32 * i) (min 32 (m.payload.length - 32 * i)))

/-- RECV (R98). -/
def evalRecv (d : Dev) (k : Nat) (iss : Issue) (r : Arch) (q : Fin 8) (a : AOp) (xlen xsrc : Fin 32) : Res :=
  let x := (r.aop a).ea
  if (r.aop a).mark then poisoned
  else match (d.bench k).oldest q with
  | none => .wait 1 id
  | some m =>
    if storeSize < x + m.payload.length then
      .faultAfter fltAkkBounds x (fun d => d.modBench k (fun b => { b with inbox := b.inbox.erase m }))
    else .ok [(x, m.payload, payloadMarks m x)]
      (fun g => (g.setX xlen (BitVec.ofNat 64 m.payload.length) false).setX xsrc (m.src.setWidth 64) false) (recvDo k iss m)

/-! ## Fences (R330–R332, R335) -/

/-- The release half (R330): every transfer has completed, every stack write of the bench is performed, and every message of the
bench to a sideboard, of this device or another, has been delivered. -/
def Dev.released (d : Dev) (k : Nat) : Bool :=
  (d.bench k).transfers.isEmpty && d.stks.all (fun p => p.2.held.all (fun h => h.owner != some k)) &&
    (d.net ++ d.away).all (fun m => m.src != d.benchEp k || epVal m.dest != 0xF0)

/-- The places that drain markers reach: sideboards and stacks of active cabinets (R331). -/
def Dev.places (d : Dev) : List Place :=
  ((List.finRange 12).filter (fun c => d.active c.val)).map Place.sideboard ++
    ((List.finRange 24).filter (fun s => d.active (s.val / 2))).map Place.stack

/-- The wider of two scopes. -/
def fenceRank : FenceScope → Nat
  | .bench => 0
  | .device => 1
  | .suite => 2

/-- The widest scope of a bundle's fences: one run of markers serves all of them. -/
def Bundle.scope (bd : Bundle) : FenceScope :=
  bd.slots.foldl (fun w s => match s.2 with
    | .fence x => if fenceRank w < fenceRank x then x else w
    | _ => w) .bench

/-- A fence completes: the read-staging buffer is emptied and its count rises (R330, R343). -/
def fenceDone (k : Nat) (scope : FenceScope) (d : Dev) : Dev :=
  d.modBench k (fun b => match scope with
    | .bench => { b with staging := [], fence := none, fenceBench := satInc16 b.fenceBench }
    | .device => { b with staging := [], fence := none, fenceDevice := satInc16 b.fenceDevice }
    | .suite => { b with staging := [], fence := none, fenceSuite := satInc16 b.fenceSuite })

/-- A fence of scope SUITE sends its marker to the suite head's host bridge (R332): on the suite head itself it crosses no link. -/
def fenceSuiteStart (k : Nat) (d : Dev) : Dev :=
  let d := d.modBench k (fun b => { b with fence := some ⟨.suite, [], true, []⟩ })
  if d.suite.head then d else { d with suite := { d.suite with sent := d.suite.sent ++ [.fence (d.benchEp k)] } }

/-- FENCE (R330): `widest` is the scope of the run of markers. -/
def evalFence (d : Dev) (k : Nat) (widest scope : FenceScope) : Res :=
  if !d.released k then .wait 6 id
  else match widest, (d.bench k).fence with
  | .bench, _ => .ok [] id (fenceDone k scope)
  | _, some f => if f.places.isEmpty && !f.suite then .ok [] id (fenceDone k scope) else .wait 6 id
  | .device, none => .wait 6 (fun d => d.modBench k (fun b => { b with fence := some ⟨.device, d.places, false, []⟩ }))
  | .suite, none => .wait 6 (fenceSuiteStart k)

/-! ## One slot -/

/-- COPY at its slot (R93, R277): the descriptor address, then the limit of 64 outstanding transfers; `before` counts the COPYs
of earlier slots of the bundle. -/
def evalCopy (d : Dev) (k : Nat) (iss : Issue) (r : Arch) (mem : Mem) (before : Nat) (a : AOp) (ct : Fin 8)
    (op : Option (BitVec 4)) : Res :=
  let x := (r.aop a).ea
  if (r.aop a).mark then poisoned
  else if x % 64 != 0 then .fault fltAkkAlign x
  else if storeSize < x + 64 then .fault fltAkkBounds x
  else if 64 ≤ (d.bench k).transfers.length + before then .wait 2 id
  else .ok [] id (copyIssue k iss x ct op (mem.read x 64) (mem.firstMark x 64))

def SlotOp.isCopy : SlotOp → Bool
  | .copy .. => true
  | _ => false

/-- What one slot of bench k does in repeat `iss.index`, reading registers as they stood before the repeat (R81) and the bench
store as `mem`; `row` is what the repeat's VPOP takes. -/
def evalSlot (d : Dev) (k : Nat) (bd : Bundle) (iss : Issue) (mem : Mem) (row : Option VReg) (op : SlotOp) : Res :=
  let r := (d.bench k).arch
  match op with
  | .mma acc z => evalMma r iss.index acc z
  | .mpush acc clr => .regs (fun q => if clr then q.setAcc acc [] else q)
  | .msta acc clr a fmt => evalMsta k r acc clr a fmt
  | .mlda a fmt tr sa => evalLoad false r mem a fmt tr sa 0
  | .mldb a fmt tr sa pw => evalLoad true r mem a fmt tr sa pw
  | .vld vd a fmt => evalVld r mem vd a fmt
  | .vst vs a fmt => evalVst k r vs a fmt
  | .ldx xd a size sx => evalLdx r mem xd a size sx
  | .stx xs a size => evalStx r xs a size
  | .copy a ct o => evalCopy d k iss r mem (bd.slots.filter (fun s => decide (s.1 < iss.slot) && s.2.isCopy)).length a ct o
  | .cwait ct m => if (d.bench k).ct ct ≤ m.toNat then .regs id else .wait 2 id
  | .fence scope => evalFence d k bd.scope scope
  | .atom o a xd xs xc => evalAtom d k r o a xd xs xc
  | .vpop vd => match row with
    | some v => .regs (fun q => q.setV vd v)
    | none => .regs id
  | .vsetl src imm xs => evalVsetl r src imm xs
  | .vfma vd va vb => evalVfma r vd va vb
  | .vbin vd va vb func bs => evalVbin r vd va vb func bs
  | .vun vd va func => evalVun r vd va func
  | .vred vd va func half => evalVred r vd va func half
  | .vscan vd va func excl => evalVscan r vd va func excl
  | .vsegscan vd va vf func excl => evalVsegscan r vd va vf func excl
  | .vbcast vd imm => evalVbcast vd imm
  | .send q a xdest xlen => evalSend d k iss r mem q a xdest xlen
  | .recv q a xlen xsrc => evalRecv d k iss r q a xlen xsrc
  | .poll q xd => .regs (fun g => g.setX xd (BitVec.ofNat 64 ((d.bench k).inbox.filter (fun m => m.queue == q)).length) false)
  | .nop => .regs id
  | .movi xd imm => .regs (fun q => q.setX xd (imm.signExtend 64) false)
  | .addi xd xa imm => if (r.getX xa).mark then poisoned
    else .regs (fun q => q.setX xd ((r.getX xa).val + imm.signExtend 64) false)
  | .alu xd xa xb func => if (r.getX xa).mark || (r.getX xb).mark then poisoned
    else .regs (fun q => q.setX xd (aluFn func.toNat (r.getX xa).val (r.getX xb).val) false)
  | .br _ => evalBranch r op id
  | .brc xa _ _ => if (r.getX xa).mark then poisoned else evalBranch r op id
  | .brx xa link => if (r.getX xa).mark then poisoned
    else evalBranch r op (fun q => if link then q.setX 31 (BitVec.ofNat 64 (r.pc + 4 * (bd.words + 1))) false else q)
  | .seta ar field xs => if (r.getX xs).mark then poisoned
    else .regs (fun q => q.setA ar ((q.getA ar).setField field (r.getX xs).val))
  | .geta ar field xd => .regs (fun q => q.setX xd ((r.getA ar).getField field) (r.getA ar).mark)
  | .setn n xs => if (r.getX xs).mark then poisoned
    else if 16777215 < (r.getX xs).val.toNat then .fault fltAkkOperand 0
    else .regs (fun q => q.setN n ((r.getX xs).val.setWidth 24))
  | .gets xd sel => .regs (fun q => q.setX xd (getsVal d k sel) false)
  | .stepend => .regs id
  | .halt => .regs id

/-! ## Store accesses of one bundle (R83) -/

/-- A store of a slot: address, bytes, marked sectors. -/
abbrev StoreW := Nat × List Byte × List Nat

def Res.stores : Res → List StoreW
  | .ok s _ _ => s
  | _ => []

/-- A store cut at 64-byte sector boundaries. -/
def StoreW.pieces (w : StoreW) : List StoreW := (cutSectors w.2.1.length w.1 w.2.1).map (fun p => (p.1, p.2, w.2.2))

def Mem.put (m : Mem) (w : StoreW) : Mem := m.store w.1 w.2.1 (fun q => w.2.2.contains q)

/-- FREE (log 12): an order of the store's arbiters in use `free`, for what `tag` names, at a 64-byte sector. -/
def arb (free tag a : Nat) : Bool := Config.arbiter ((free * 256 + tag) * 65536 + a / 64)

/-- The bench store as slot s reads it: C0 precedes C1; of any other slot's writes to a sector it sees all or none. -/
def viewMem (m : Mem) (free s : Nat) (ws : List (Nat × List StoreW)) : Mem :=
  ws.foldl (fun m t =>
    if t.1 == s || (s == 4 && t.1 == 5) then m
    else t.2.foldl (fun m w => w.pieces.foldl (fun m p =>
      if (s == 5 && t.1 == 4) || arb free (8 * s + t.1) p.1 then m.put p else m) m) m) m

/-- The place of a slot's writes among those of other slots to one sector: C0 and C1 keep their order. -/
def writeRank (free s a : Nat) : Nat :=
  let g := if s == 5 then 4 else s
  b2n (arb free (64 + g) a) + 2 * b2n (arb free (72 + g) a)

/-- The bench store after every slot's writes. -/
def applyStores (m : Mem) (free : Nat) (ws : List (Nat × List StoreW)) : Mem :=
  match ws.filter (fun w => !w.2.isEmpty) with
  | [] => m
  | [w] => w.2.foldl Mem.put m
  | many => [0, 1, 2, 3].foldl (fun m rank => many.foldl (fun m t => t.2.foldl (fun m w => w.pieces.foldl (fun m p =>
      if writeRank free t.1 p.1 == rank then m.put p else m) m) m) m) m

/-- The writes of a faulting repeat: each sector of another slot may or may not have been written (R88). -/
def partialStores (m : Mem) (free : Nat) (ws : List (Nat × List StoreW)) : Mem :=
  ws.foldl (fun m t => t.2.foldl (fun m w => w.pieces.foldl (fun m p => if arb free (80 + t.1) p.1 then m.put p else m) m) m) m

/-! ## Repeats -/

/-- Whether a repeat goes on or the bench stops in it. -/
inductive RepOut where
  | go (d : Dev)
  | stop (d : Dev)

/-- The first fault of a repeat, that of the lowest PMASK bit (DESIGN CHOICE, log 97: R88 does not say which). -/
def firstFault : List (Nat × Res) → Option (Nat × BitVec 16 × Nat × (Dev → Dev))
  | [] => none
  | (s, .fault c x) :: _ => some (s, c, x, id)
  | (s, .faultAfter c x f) :: _ => some (s, c, x, f)
  | _ :: t => firstFault t

/-- The first wait of a repeat. -/
def firstWait : List (Nat × Res) → Option (BitVec 3 × (Dev → Dev))
  | [] => none
  | (_, .wait kind f) :: _ => some (kind, f)
  | _ :: t => firstWait t

/-- A wait ends (trace kind 6). -/
def Dev.waitEnds (d : Dev) (k : Nat) (bd : Bundle) (idx : Nat) : Dev :=
  let b := d.bench k
  match b.wait with
  | none => d
  | some w =>
    (d.trace k 6 ⟨bd.tag, b.arch.pc, 0, bd.rep.val != 0, idx⟩ 0 w.kind.toNat).modBench k (fun b => { b with wait := none })

/-- The bench waits at a repeat (Table 3-17), trace kind 6 where the wait begins; a wait of another kind ends first. -/
def Dev.waitAt (d : Dev) (k : Nat) (kind : BitVec 3) (bd : Bundle) (idx : Nat) : Dev :=
  let b := d.bench k
  let d := if b.waitKind == kind then d
    else (d.waitEnds k bd idx).trace k 6 ⟨bd.tag, b.arch.pc, 0, bd.rep.val != 0, idx⟩ 0 (8 + kind.toNat)
  d.modBench k (fun b => { b with wait := some ⟨kind, bd⟩, repIdx := idx })

/-- Latent errors of the sideboard words that ATOMs of the bundle read (R348, R362). -/
def Dev.touchAtoms (d : Dev) (k : Nat) (bd : Bundle) : Dev :=
  bd.slots.foldl (fun d s => match s.2 with
    | .atom o a _ _ _ =>
      let x := ((d.bench k).arch.aop a).ea
      if bits 47 44 x == 1 && (d.sbRefusal (bits 43 0 x) (atomSize o)).isNone then d.touchSb (sbCab x) (sbOff x) (atomSize o) else d
    | _ => d) d

/-- The tiles that the MPUSHes of a bundle read (R90, R136). -/
def Bundle.tiles (bd : Bundle) (r : Arch) : List (List (BitVec 32)) :=
  bd.slots.filterMap (fun s => match s.2 with
    | .mpush acc _ => some (fullTile (r.getAcc acc))
    | _ => none)

/-- The accumulators cleared by the MPUSHes that the shelf has admitted or ignored, `n` of the bundle's, while the repeat still waits
there: CLR acts with the read-out (R90, R141). One that an MSTA of the repeat reads too is cleared when the repeat completes (log 97). -/
def Bundle.pushed (bd : Bundle) (n : Nat) (r : Arch) : Arch :=
  let read (acc : Fin 4) : Bool := bd.slots.any (fun s => match s.2 with
    | .msta a _ _ _ => a == acc
    | _ => false)
  ((bd.slots.filter (fun s => s.2.isMpush)).take n).foldl (fun r s => match s.2 with
    | .mpush acc true => if read acc then r else r.setAcc acc []
    | _ => r) r

/-- One repeat of a bundle (R81, R86, R88). The manual does not say which fault of several slots is recorded, nor how one slot's fault
and another's wait are ordered: the model records that of the lowest slot, takes faults before waits, and takes RECV, FENCE, CWAIT, SEND
and copy waits before the shelf is judged (DESIGN CHOICE, log 97). Then stores, register writes, address steps and the other effects
take place. Elements that an MSTA or VST stores in a repeat in which another slot faults do not count in MAT_COUNT (DESIGN CHOICE,
log 109). -/
def repeatOnce (d : Dev) (k : Nat) (bd : Bundle) (idx : Nat) : RepOut :=
  let d := d.touchAtoms k bd
  let b := d.bench k
  let iss (s : Nat) : Issue := ⟨bd.tag, b.arch.pc, s, bd.rep.val != 0, idx⟩
  let ws := bd.slots.map (fun s => (s.1, (evalSlot d k bd (iss s.1) b.store none s.2).stores))
  let sh := shelfRepeat b.shelf b.wait.isSome (bd.tiles b.arch) (bd.slots.any (fun s => s.2.isVpop))
  let row := match sh with
    | .go _ r => r
    | .hold _ => none
  let res := bd.slots.map (fun s => (s.1, evalSlot d k bd (iss s.1) (viewMem b.store d.free s.1 ws) row s.2))
  match firstFault res with
  | some (s, code, detail, also) =>
    let d := also (d.modBench k (fun b => { b with store := partialStores b.store d.free (ws.filter (fun w => w.1 != s)), repIdx := idx }))
    .stop ((d.fresh.waitEnds k bd idx).benchFault k code (iss s) detail)
  | none =>
    match firstWait res with
    | some (kind, begun) => .stop ((begun d).waitAt k kind bd idx)
    | none =>
      match sh with
      | .hold shelf =>
        let n := (bd.tiles b.arch).length - (shelf.rest.getD []).length
        .stop ((d.modBench k (fun b => { b with shelf := shelf, arch := bd.pushed n b.arch })).waitAt k 5 bd idx)
      | .go shelf _ =>
        let d := d.waitEnds k bd idx
        let last := idx + 1 == bd.count
        let d := d.modBench k (fun b =>
          let arch := res.foldl (fun q x => match x.2 with
            | .ok _ f _ => f q
            | _ => q) b.arch
          { b with
            store := applyStores b.store d.free ws, shelf := shelf
            arch := if b.csv == 2#4 && last then arch else arch.stepAll bd.stepped })
        let d := res.foldl (fun d x => match x.2 with
          | .ok _ _ f => f d
          | _ => d) d.fresh
        let b := d.bench k
        if b.st == .running && !b.awaitDiscard then .go d else .stop (d.modBench k (fun b => { b with repIdx := idx }))

/-- Repeats idx to the count (R86), the fuel being the repeats left. -/
def repeats (k : Nat) (bd : Bundle) : Nat → Nat → Dev → RepOut
  | 0, _, d => .go d
  | n + 1, idx, d =>
    match repeatOnce d k bd idx with
    | .go d => repeats k bd n (idx + 1) d
    | .stop d => .stop d

/-! ## Retirement -/

/-- Where the PC goes: a branch target, else the next bundle (R86); a slot command moves it only by branching. -/
def Bundle.nextPc (bd : Bundle) (before : Arch) : Nat :=
  match (bd.slots.filterMap (fun s => branchTarget before s.2)).head? with
  | some t => t.toNat
  | none => if bd.fetched then before.pc + 4 * (bd.words + 1) else before.pc

def Bundle.has (bd : Bundle) (op : SlotOp) : Bool := bd.slots.any (fun s => s.2 == op)

/-- A new TRACE_CTL: where ENABLE goes from 0 to 1, the entries of MODE 1 are counted afresh (R474). The trigger is disarmed. -/
def Trace.enable (t : Trace) (ctl : BitVec 64) : Trace :=
  if bit 8 ctl.toNat && !bit 8 t.ctl.toNat then { t with armed := false, ctl := ctl, captured := 0, stopped := false }
  else { t with armed := false, ctl := ctl }

/-- The trigger of a bench's trace at a retirement (R475): the trace, and whether it halts the bench. -/
def Trace.fire (t : Trace) (tag : BitVec 16) : Trace × Bool :=
  let ctl := t.ctl.toNat
  if t.armed && bits 31 16 ctl == tag.toNat then
    match bits 15 14 ctl with
    | 1 => (t.enable (t.ctl ||| 0x100#64), false)
    | 2 => ({ t with armed := false, ctl := t.ctl &&& ~~~0x100#64 }, false)
    | 3 => ({ t with armed := false }, true)
    | _ => ({ t with armed := false }, false)
  else (t, false)

/-- What retiring a bundle changes in its bench: event count, trace kind 0, trigger, PC, and a halt that was requested (R58, R99, R105,
R475). -/
def Dev.retireBench (d : Dev) (k : Nat) (bd : Bundle) (nextPc : Nat) : Dev :=
  let b := d.bench k
  let n := b.trace.events + 1
  let d := d.modBench k (fun b => { b with trace := { b.trace with events := n } })
  let d := d.trace k 0 ⟨bd.tag, b.arch.pc, 0, bd.rep.val != 0, bd.count - 1⟩ 0 (bd.mask.toNat * 2 ^ 32 + n.toNat)
  d.modBench k (fun b =>
    let t := b.trace.fire bd.tag
    { b with
      trace := t.1
      wait := none
      repIdx := 0
      haltReq := false
      st := if t.2 || b.haltReq || bd.has .halt then .halted else b.st
      arch := { b.arch with pc := nextPc } })

/-- A bundle retires; one that halts its bench during an unload abandons the step in flight (R63). -/
def Dev.retire (d : Dev) (k : Nat) (bd : Bundle) (nextPc : Nat) : Dev :=
  let d := d.retireBench k bd nextPc
  if (d.bench k).st == .halted then d.noteHalt else d

/-- STEPEND takes effect after the bundle's other slots (R100) and the release half (R335): the bench reports, trace kind 5, and
is held until admission. Before that it waits with the STEPEND alone. A report that lost to the watchdog counts as late (R370). Of a follower's
benches the last one lets it report to the leader (R237). -/
def Dev.stepEnd (d : Dev) (k : Nat) (bd : Bundle) : Dev :=
  let only : Bundle := { bd with slots := bd.slots.filter (fun s => s.2 == .stepend) }
  let d := d.waitAt k 3 only 0
  if d.released k then
    let d := d.trace k 5 ⟨bd.tag, (d.bench k).arch.pc, 7, false, 0⟩ 0 d.step.toNat
    let d := if d.seq.lateStep then { d with lateCount := satInc16 d.lateCount } else d
    (d.modBench k (fun b => { b with atStepEnd := true })).tellStepEnd
  else d

/-- Executes a bundle from the repeat index reached (R86). -/
def execBundle (d : Dev) (k : Nat) (bd : Bundle) : Dev :=
  let b := d.bench k
  match repeats k bd (bd.count - b.repIdx) b.repIdx d with
  | .stop d => d
  | .go d' => if bd.has .stepend then d'.stepEnd k bd else d'.retire k bd (bd.nextPc b.arch)

/-- The bench tries the bundle it waits with again; of one that waits at STEPEND, the STEPEND alone is left. -/
def retryWait (d : Dev) (k : Nat) (w : Wait) : Dev := if w.kind == 3#3 then d.stepEnd k w.bundle else execBundle d k w.bundle

/-- Whether a bench issues bundles. -/
def Dev.issues (d : Dev) (k : Nat) : Bool :=
  let b := d.bench k
  b.st == .running && !b.atStepEnd && !b.awaitDiscard && !d.fenced (k / 96)

/-- A new bundle starts at repeat 0 with the repeat count as it stands. -/
def startBundle (d : Dev) (k : Nat) (bd : Bundle) : Dev :=
  let n := if bd.rep.val == 0 then 1 else ((d.bench k).arch.getN bd.rep).toNat
  execBundle (d.modBench k (fun b => { b with repIdx := 0 })) k { bd with count := n }

/-- BUNDLE_ISSUE (R75, R79, R86): the bench goes on with the bundle that waits, or fetches, decodes and executes the next. -/
def bundleIssue (d : Dev) (k : Nat) : Dev :=
  if !d.issues k then d else
  let b := d.bench k
  match b.wait with
  | some w => retryWait d k w
  | none =>
    match fetchBundle b.csv b.program b.arch.pc with
    | .bundle bd => startBundle d k bd
    | .bad reason tag rp => d.benchFault k fltAkkEncoding ⟨tag, b.arch.pc, 0, rp, 0⟩ reason
    | .beyond off tag rp => d.benchFault k fltAkkPc ⟨tag, b.arch.pc, 0, rp, 0⟩ off

/-- One slot instruction by itself, as a bundle of that slot with the tag given (log 16): decoded under the bench's version,
executed once; while the bench waits with it, the command tries it again. -/
def slotCommand (d : Dev) (k : Nat) (slot : Nat) (tag : BitVec 16) (op : SlotOp) : Dev :=
  if !d.issues k then d else
  let b := d.bench k
  let bd : Bundle := { mask := BitVec.ofNat 8 (2 ^ slot), slots := [(slot, op)], count := 1, tag := tag, rep := 0, words := 1, fetched := false }
  match b.wait with
  | some w => if w.bundle == bd then retryWait d k w else d
  | none =>
    match op.reasons b.csv with
    | [] => startBundle d k bd
    | r :: t => d.benchFault k fltAkkEncoding ⟨tag, b.arch.pc, 0, false, 0⟩ (t.foldl min r)

end Sys2Proof.Machine
end

