-- ==== Sys2Proof/Machine/Stores.lean ====
section
/-! DEFINITION. Stores and rings: the host mailbox (R54–R56), sideboard write messages (R169, R170), fills (R171–R173), held
writes and refresh (R160, R161, R525), patrol scrub (R353), channels (R357–R361), the drawer port's queue (R326) and fence markers
(R331, R332). -/

namespace Sys2Proof.Machine

/-! ## Rings in stack space (R54, R376, R239) -/

/-- The device address of a ring's first unit. -/
def ringAddr (base : BitVec 64) : Nat := bits 47 12 base.toNat * 4096
def ringLog2 (base : BitVec 64) : Nat := bits 4 0 base.toNat

/-- A ring of n bytes lies in stack space that takes writes, in a cabinet in state 0b01. -/
def Dev.ringOk (d : Dev) (a n : Nat) : Bool :=
  bits 47 44 a == 0 && d.active (bits 43 39 a / 2) && (d.stkRefusal a n .device true).isNone

/-- Writes one 64-byte unit of a ring at a device address; the flags are the marks of its halves. -/
def Dev.putUnit (d : Dev) (a : Nat) (bytes : List Byte) (lo hi : Bool) : Dev :=
  let s := bits 43 39 a
  let x := bits 36 0 a
  let d := d.arrive (stkDom s) ed0Block
  d.setStk s ((d.stk s).accept x bytes (fun q => if q == x / 32 then lo else hi) none)

/-- Reads n bytes of stack space as unit `block` on ED0 does, and whether any of it is marked. -/
def Dev.readUnit (d : Dev) (block : BitVec 16) (a n : Nat) : Dev × List Byte × Bool :=
  let s := bits 43 39 a
  let x := bits 36 0 a
  let d := (d.arrive (stkDom s) block).touchStk s x n
  let r := (d.stk s).readCtl x n
  (d, r.data, !r.marks.isEmpty)

/-! ## The host mailbox (R54, R55) -/

/-- The units of a mailbox record: the header with UNITS in bytes 24 to 27, then the payload. -/
def mailRecord (m : Msg) : List (List Byte × Bool × Bool) :=
  let n := (m.payload.length + 63) / 64
  let h := m.header
  (h.take 24 ++ leBytes 4 (n + 1) ++ h.drop 28, false, false) ::
    (List.range n).map (fun i =>
      let p := (m.payload.drop (64 * i)).take 64
      (p ++ List.replicate (64 - p.length) 0, m.marks.contains (2 * i), m.marks.contains (2 * i + 1)))

/-- HOST_MAILBOX_RECORD: the first message from src to the mailbox arrives, where ED0's core is ON (R433). -/
def hostMailboxRecord (d : Dev) (src : BitVec 18) : Dev :=
  match d.net.find? (fun m => m.src == src && epVal m.target == 0xFE && epDev m.target == d.number.toNat) with
  | none => d
  | some m =>
    let d := d.arrive ed0Dom (d.senderBlock src)
    if !d.domOn ed0Dom then d else
    let d := { d with net := d.net.erase m }
    let h := d.hmb
    let log2 := ringLog2 h.base
    let us := mailRecord m
    let used := (h.tail - h.head).toNat
    if !bit 0 h.ctl.toNat || decide (2 ^ log2 < used + us.length) || !d.ringOk (ringAddr h.base) (64 * 2 ^ log2) then
      { d with hmb := { h with dropped := satInc16 h.dropped } }
    else
      let d := (List.range us.length).foldl (fun d i =>
        let u := us.getD i ([], false, false)
        d.putUnit (ringAddr h.base + 64 * ((h.tail.toNat + i) % 2 ^ log2)) u.1 u.2.1 u.2.2) d
      let d := { d with hmb := { h with tail := h.tail + BitVec.ofNat 32 us.length } }
      if bit 2 h.ctl.toNat then d.interrupt (BitVec.ofNat 11 (bits 26 16 h.ctl.toNat)) else d

/-! ## Sideboard write messages (R169, R170) -/

/-- The header of Table 6-7 in a payload. -/
structure SbHeader where
  off : Nat
  flags : Nat
  counter : Nat
  zero : Bool
deriving DecidableEq, Repr

def sbHeader (p : List Byte) : SbHeader :=
  { off := leNat (p.take 4), flags := leNat ((p.drop 4).take 4), counter := leNat ((p.drop 8).take 4)
    zero := ((p.take 64).drop 12).all (· == 0) }

/-- A message that breaks a rule of Table 6-7 or writes at or beyond the end. -/
def SbHeader.bad (h : SbHeader) (len : Nat) : Bool :=
  let n := len - 64
  let count := bit 1 h.flags
  decide (len < 68) || decide (16320 < n) || n % 4 != 0 || !h.zero || decide (3 < h.flags) ||
    decide (2 ^ 27 ≤ h.off) || h.off % 64 != 0 || decide (sbSize < h.off + n) ||
    (if count then decide (2 ^ 27 ≤ h.counter) || h.counter % 8 != 0 || decide (sbSize < h.counter + 8) else h.counter != 0)

/-- A message that touches the program reserve. -/
def Dev.sbReserved (d : Dev) (c : Nat) (h : SbHeader) (len : Nat) : Bool :=
  let top := sbSize - (d.sb c).reserve * 0x40000
  decide (top < h.off + (len - 64)) || (bit 1 h.flags && decide (top < h.counter + 8))

/-- The counter's increment (R169, R170): not made where the message carried a mark; a marked word is consumed. -/
def Dev.sbCount (d : Dev) (c : Nat) (m : Msg) (at_ : Nat) : Dev :=
  if !m.marks.isEmpty then d else
  let d := d.touchSb c at_ 8
  let sb := d.sb c
  if !sb.filled || sb.mem.anyMark at_ 8 then
    d.unitDiscard 2 c 0 fltPoisonConsumed { endpoint := m.src.toNat, detail := 2 ^ 44 + c * 2 ^ 40 + at_ }
  else d.setSb c { sb with mem := sb.mem.write at_ (leBytes 8 (sb.mem.readNat at_ 8 + 1)) }

/-- NONE or FAILED. -/
def Dev.planIdle (d : Dev) : Bool := d.plan.st == .none || d.plan.st == .failed

/-- A write of SB[c]_AOW[n] (R168). -/
def writeAow (c n v : Nat) (d : Dev) : Dev × Bool :=
  let sb := d.sb c
  let b := bits 26 0 v
  let l := bits 53 27 v
  let meets (lo hi : Nat) : Bool := decide (b < hi) && decide (lo < l)
  let overlap := bit 63 v && (meets (sbSize - sb.reserve * 0x40000) sbSize || ((List.range 16).filter (· != n)).any (fun j =>
    bit 63 (sb.aowOf j) && meets (bits 26 0 (sb.aowOf j)) (bits 53 27 (sb.aowOf j))))
  let bad := overlap || (bit 63 v && (decide (l ≤ b) || decide (sbSize < l))) || b % 64 != 0 || l % 64 != 0 || decide (1 < bits 61 60 v)
  if !(d.planIdle || d.plan.st == .loading) then (d, false)
  else if bad then (d.regRefused 2 c 0 fltSbCfg (0x1000140 + 0x100000 * c + 8 * n), false)
  else (d.setSb c { sb with aow := sb.aow.set n (BitVec.ofNat 64 v) }, true)

/-- The first message from src to the sideboard of cabinet c of another device has been delivered there: its sender waits for it no
longer (R330; log 99). -/
def sideboardWriteAway (d : Dev) (src : BitVec 18) (dev c : Nat) : Dev :=
  match d.away.find? (fun m => m.src == src && epDev m.dest == dev && epCab m.dest == c && epVal m.dest == 0xF0) with
  | some m => { d with away := d.away.erase m }
  | none => d

/-- SIDEBOARD_WRITE_MESSAGE: the first message from src to the sideboard of cabinet c arrives. A sideboard that is not ON, or
fenced, takes none: its router returns it (R20, R433). -/
def sideboardWriteMessage (d : Dev) (src : BitVec 18) (c : Nat) : Dev :=
  match d.net.find? (fun m => m.src == src && m.target == d.epOf c 0xF0) with
  | none => d
  | some m =>
    if d.fenced c then d else
    let d := d.arrive (sbDom c) (d.senderBlock src)
    if !d.domOn (sbDom c) then d else
    let d := { d with net := d.net.erase m }
    let len := m.payload.length
    let h := sbHeader m.payload
    let note : UnitNote := { endpoint := m.src.toNat, detail := m.seq.toNat }
    if h.bad len then d.unitRecord 2 c 0 fltSbMsg note
    else if d.sbReserved c h len then d.unitRecord 2 c 0 fltSbReserve note
    else
      let data := m.payload.drop 64
      let d := d.touchSb c h.off data.length
      let (d, hit) := d.sbWrite c h.off data (fun q => m.marks.contains (q - h.off / 32 + 2)) (bit 0 h.flags)
      let d := match hit with
        | some x => d.unitDiscard 2 c 0 fltPoisonConsumed { endpoint := m.src.toNat, detail := 2 ^ 44 + c * 2 ^ 40 + x }
        | none => d
      if bit 1 h.flags then d.sbCount c m h.counter else d

/-! ## The drawer port's queue (R326) -/

/-- One write leaves the drawer port's queue: unless it replaces, sectors in a region combine (R168). -/
def Dev.performDrawerWrite (d : Dev) (c : Nat) (w : PortWrite) : Dev :=
  let (sb, hit) := (d.sb c).performPort w
  let d := d.setSb c sb
  match hit with
  | some x => d.unitDiscard 2 c 0 fltPoisonConsumed { endpoint := (d.epOf c 0xF1).toNat, detail := 2 ^ 44 + c * 2 ^ 40 + x }
  | none => d

/-- DRAWER_PORT_DRAIN: the oldest write of the queue is performed; a fenced cabinet's sideboard performs none (R20). -/
def drawerPortDrain (d : Dev) (c : Nat) : Dev :=
  let sb := d.sb c
  if d.fenced c then d else
  match sb.dq with
  | [] => d
  | w :: t => (d.setSb c { sb with dq := t }).performDrawerWrite c w

/-- Every write of the queue is performed, oldest first; a fenced cabinet's sideboard performs none (R20). -/
def Dev.drainDrawerPort (d : Dev) (c : Nat) : Dev :=
  if d.fenced c then d else
  let ws := (d.sb c).dq
  ws.foldl (fun d w => d.performDrawerWrite c w) (d.setSb c { d.sb c with dq := [] })

/-! ## Fills (R171–R173) -/

/-- A START that does not find its fill refused. -/
def Dev.fillable (d : Dev) : Bool := (d.plan.st == .none || d.plan.st == .failed) && d.fill.st != 1 && d.fill.stks.isEmpty &&
  d.fill.sideboards.isEmpty

/-- What the fill's own writes leave: every word the pattern, unmarked. A write that the controller holds is placed before the
fill's write of its sector, and lost, or after it (R173): FREE (log 12). -/
def Stack.fillWith (st : Stack) (pattern : BitVec 64) (free : Nat) : Stack :=
  { st with
    mem := Mem.filled pattern
    held := st.held.filter (fun h => Config.arbiter (free * 2 ^ 32 + h.key / 64)) }

/-- The sectors written since the fill's writes: each stays or is overwritten by the fill, as the arbiter places it. -/
def Mem.settle (m : Mem) (free : Nat) : Mem :=
  let stays (x : Nat) : Bool := Config.arbiter (free * 2 ^ 32 + x / 64)
  { m with cells := m.cells.filter (fun c => stays c.1), marks := m.marks.filter (fun k => stays (32 * k)) }

/-- A write of DEV_FILL_CTL (R173, R180): the RW fields are stored; START fills or is refused. The fill's writes reach its domains (R433).
All of them land at START, so that no read of a unit already FILLED finds an old value before FILL_COMPLETE (DESIGN CHOICE, log 111).
Answers whether it was applied. -/
def writeFillCtl (v : Nat) (d : Dev) : Dev × Bool :=
  let d := { d with fill := { d.fill with ctl := BitVec.ofNat 32 (v % 2 ^ 25) } }
  if !bit 25 v then (d, true)
  else if !d.fillable then
    (({ d with fill := { d.fill with st := 3 } } : Dev).unitRecord 11 0 0 fltFillBusy {}, true)
  else
    let ss := (List.range 24).filter (fun s => bit s v && d.active (s / 2) && d.domOn (stkDom s))
    let cs := if bit 24 v then (List.range 12).filter (fun c => d.active c && d.domOn (sbDom c)) else []
    let n := d.free
    let d := cs.foldl (fun d c => d.arrive (sbDom c) ed0Block) (ss.foldl (fun d s => d.arrive (stkDom s) ed0Block) d)
    let d := ss.foldl (fun d s => d.setStk s ((d.stk s).fillWith d.fill.pattern n)) d.fresh
    let d := cs.foldl (fun d c => d.setSb c { d.sb c with mem := Mem.filled d.fill.pattern, dq := [] }) d
    let st : BitVec 2 := if ss.isEmpty && cs.isEmpty then 2 else 1
    ({ d with fill := { d.fill with st := st, done := 0, stks := ss, sideboards := cs } }, true)

/-- STATE becomes DONE with the last unit. -/
def Dev.fillEnd (d : Dev) : Dev :=
  if d.fill.stks.isEmpty && d.fill.sideboards.isEmpty then { d with fill := { d.fill with st := 2 } } else d

/-- FILL_COMPLETE: a stack or sideboard finishes its fill and sets FILLED; one whose cabinet has left 0b01 is skipped. A stack with a channel
held for retraining finishes once the hold ends (R164). -/
def fillComplete (d : Dev) (u : FillUnit) : Dev :=
  match u with
  | .stack s =>
    if !d.fill.stks.contains s.val || (d.active (s.val / 2) && (d.stk s.val).hold) then d else
    let d := { d with fill := { d.fill with stks := nsErase s.val d.fill.stks } }
    if !d.active (s.val / 2) then d.fillEnd else
    let st := d.stk s.val
    let d := (d.setStk s.val { st with mem := st.mem.settle d.free, filled := true }).fresh
    ({ d with fill := { d.fill with done := d.fill.done ||| BitVec.ofNat 24 (2 ^ s.val) } } : Dev).fillEnd
  | .sideboard c =>
    if !d.fill.sideboards.contains c.val then d else
    let d := { d with fill := { d.fill with sideboards := nsErase c.val d.fill.sideboards } }
    if !d.active c.val then d.fillEnd else
    let sb := d.sb c.val
    (d.setSb c.val { sb with mem := sb.mem.settle d.free, filled := true }).fresh.fillEnd

/-! ## Refresh and held writes (R160, R161, R203, R525) -/

/-- A stack whose base die runs. -/
def Dev.stkRuns (d : Dev) (s : Nat) : Bool := d.domOn (stkDom s) && !d.fenced (s / 2)

/-- REFRESH_PERFORM: a refresh falls due. A busy bank postpones it up to 8 times; at the eighth it wins the bank, and every owed
refresh is performed. -/
def refreshPerform (d : Dev) (s n : Nat) (busy : Bool) : Dev :=
  if !d.stkRuns s then d else
  let st := d.stk s
  let k := st.postponed.get 0 n
  d.setStk s { st with postponed := if busy && decide (k + 1 < 8) then st.postponed.set n (k + 1) else st.postponed.erase n }

/-- The held writes of one batch, the oldest of a channel, up to `n` sectors of 64 bytes beside those of `secs`, and the rest. -/
def takeBatch (ch : Nat) : Nat → List Nat → List HeldWrite → List HeldWrite × List HeldWrite
  | _, _, [] => ([], [])
  | n, secs, h :: t =>
    if h.key / chanSize != ch then
      let r := takeBatch ch n secs t
      (r.1, h :: r.2)
    else if secs.contains (h.key / 64) then
      let r := takeBatch ch n secs t
      (h :: r.1, r.2)
    else match n with
      | 0 => ([], h :: t)
      | m + 1 =>
        let r := takeBatch ch m (h.key / 64 :: secs) t
        (h :: r.1, r.2)

/-- A write batch on a channel (R161): it waits while the channel is held (R164). -/
def Dev.writeBatch (d : Dev) (s ch : Nat) : Dev :=
  let st := d.stk s
  if !d.stkRuns s || st.chanHeld ch then d
  else d.performSome s (takeBatch ch (bits 23 16 st.classCtl.toNat) [] st.held)

/-- WRITE_BATCH_DRAIN (R161). -/
def writeBatchDrain (d : Dev) (s ch : Nat) : Dev := d.writeBatch s ch

/-- WRITE_BATCH_AGE (R525): the channel's oldest held write reaches 4 us. -/
def writeBatchAge (d : Dev) (s ch : Nat) : Dev := d.writeBatch s ch

/-! ## Patrol scrub (R353, R354) -/

/-- Inserts a word before the first that the scrub reaches later. -/
def scrubInsert (rank : Nat → Nat) (w : Nat) : List Nat → List Nat
  | [] => [w]
  | v :: t => if rank w < rank v then w :: v :: t else v :: scrubInsert rank w t

/-- The words of `ws`, each with its rank in offset order from `lo`, that a scrub of `total` words passes on its way to `hi`, in that
order. -/
def scrubPassed (total lo hi : Nat) (offset : Nat → Nat) (ws : List Nat) : List Nat :=
  let rank (w : Nat) : Nat := (offset w + total - lo) % total
  (ws.filter (fun w => decide (rank w ≤ (hi + total - lo) % total))).foldl (fun l w => if l.contains w then l else scrubInsert rank w l) []

/-- The scrub reads one word, with the error it shows, and writes it back corrected (R354): its cells hold no error after it. -/
def Dev.scrubWord (d : Dev) (s w : Nat) (e : WordErr) : Dev :=
  let d := (d.touchWords s (fun k => k == w)).stkError s ⟨w, e.first, e.again⟩
  d.setStk s { d.stk s with upsets := (d.stk s).upsets.filter (fun u => u.word != w) }

/-- The latent errors with one more, if it is one. -/
def addUpset (us : List Upset) (w : Nat) (e : WordErr) : List Upset := if e.first.isEmpty then us else us ++ [⟨w, e.first, e.again⟩]

/-- PATROL_SCRUB of a stack: the scrub goes on in offset order from where it stood to `word`. It meets the latent errors of the words
between, reads the word and writes it back. It waits while a channel is held (R164). -/
def scrubStack (d : Dev) (s word : Nat) (now later : WordErr) : Dev :=
  let st := d.stk s
  let total := stkSize / 32
  if !d.stkRuns s || !st.filled || st.hold || !bit 12 st.scrubCtl.toNat || decide (total ≤ word) then d else
  let passed := scrubPassed total st.scrubAt word (fun w => st.offsetOf (32 * w) / 32) (st.upsets.map (fun u => u.word))
  let d := passed.foldl (fun d w => d.scrubWord s w ⟨[], []⟩) d
  let d := d.setStk s { d.stk s with scrubAt := (word + 1) % total }
  if (st.setOf (32 * word)).isNone then d else
  let w := st.key (32 * word) / 32
  let d := d.scrubWord s w now
  d.setStk s { d.stk s with upsets := addUpset (d.stk s).upsets w later }

/-- PATROL_SCRUB of a sideboard, which scrubs itself in the same way (R353). -/
def scrubSideboard (d : Dev) (c word : Nat) (now later : WordErr) : Dev :=
  let sb := d.sb c
  let total := sbSize / 32
  if d.fenced c || !d.domOn (sbDom c) || !sb.filled || decide (total ≤ word) then d else
  let passed := scrubPassed total sb.scrubAt word id (sb.upsets.map (fun u => u.word))
  let d := passed.foldl (fun d w => d.touchSbWords c (fun k => k == w)) d
  let d := d.setSb c { d.sb c with scrubAt := (word + 1) % total }
  let d := (d.touchSbWords c (fun k => k == word)).sbError c ⟨word, now.first, now.again⟩
  d.setSb c { d.sb c with upsets := addUpset (d.sb c).upsets word later }

/-- PATROL_SCRUB. -/
def patrolScrub (d : Dev) (u : FillUnit) (word : Nat) (now later : WordErr) : Dev :=
  match u with
  | .stack s => scrubStack d s.val word now later
  | .sideboard c => scrubSideboard d c.val word now later

/-! ## Channels (R357–R361) -/

/-- The stack is lost with its cabinet (R361, R371). -/
def Dev.loseStack (d : Dev) (s ch : Nat) : Dev :=
  (d.unitDiscard 1 (s / 2) s fltStkLost { detail := ch, lasting := true }).loseCabinet (s / 2) fltStkLost (s % 2 != 0) (s % 2 == 0)

/-- A lasting fault of a channel: the spare takes its addresses with every word written marked; a copy that ran ends (R359, R360). A
stack whose spare is active or lost, or taken by the copy of another channel, is lost instead (R361). `spareBad`: the fault is that of the spare, during the copy to it; the
channel is lost with its words marked, and the spare as well (R359; log 94). -/
def Dev.loseChannel (d : Dev) (s ch : Nat) (spareBad : Bool) : Dev :=
  let st := d.stk s
  let taken := st.copying && st.copyCh.toNat != ch
  let st := { st with holds := st.holds.filter (fun h => h.ch.toNat != ch), copying := false }
  let d := d.setStk s st
  if st.spareActive || st.spareLost || taken then d.loseStack s ch
  else
    let lo := ch * chanSize / 32
    let own := fun (h : HeldWrite) => h.key / chanSize == ch
    let st := { st with
      spareActive := !spareBad, spareLost := spareBad, logical := if spareBad then st.logical else BitVec.ofNat 5 ch
      mem := st.mem.loseRange lo (lo + chanSize / 32), upsets := st.upsets.filter (fun u => 32 * u.word / chanSize != ch) }
    let d := d.setStk s (st.drain own)
    d.unitDiscard 1 (s / 2) s fltChanLost { detail := ch, atRest := true, lasting := true }

/-- CHANNEL_RETRAIN: the channel is held and retrained. It is faulty lastingly when the retraining fails or is the second within
10 ms; `ch` 32 is the spare, which shows a fault only while the copy to it runs. -/
def channelRetrain (d : Dev) (s ch : Nat) (ok within10 : Bool) : Dev :=
  let st := d.stk s
  if !d.stkRuns s then d
  else if ch == 32 then
    if st.copying && (!ok || within10) then d.loseChannel s st.copyCh.toNat true else d
  else
    let d := (d.setStk s { st with
      holds := st.holds.filter (fun h => h.ch.toNat != ch) ++ [⟨BitVec.ofNat 5 ch, ok, !ok || within10⟩] }).interrupts (s / 2)
    let d := d.unitRecord 1 (s / 2) s fltChanRetrain { detail := ch }
    if (!ok || within10) && (st.spareActive || st.spareLost || (st.copying && st.copyCh.toNat != ch)) then d.loseStack s ch else d

/-- A fence marker that waited at the stack for the end of a hold is acknowledged once no channel is held, when the writes are
performed (R331). -/
def Dev.ackHeld (d : Dev) (s : Nat) : Dev :=
  if (d.stk s).hold then d else
  let waits (f : FenceRun) : Bool := f.held.any (fun x => x.val == s)
  let d := if d.benches.any (fun (p : Nat × Bench) => p.2.fence.any waits) then d.drainStk s (fun _ => true) else d
  d.mapBenches (fun _ b => { b with fence := b.fence.map (fun f => if waits f then
    { f with places := f.places.filter (fun p => p != .stack (Fin.ofNat 24 s)), held := f.held.filter (fun x => x.val != s) } else f) })

/-- CHANNEL_HOLD_END: the accesses that channel ch holds go on. A channel that retrained but is faulty lastingly starts its copy to the
spare (R358); a second lasting fault of the channel being copied loses it (R359), and the stack is lost where its spare is taken (R361). -/
def channelHoldEnd (d : Dev) (s ch : Nat) : Dev :=
  let st := d.stk s
  match st.holds.find? (fun h => h.ch.toNat == ch) with
  | none => d
  | some h =>
    let d := d.setStk s { st with holds := st.holds.filter (fun h => h.ch.toNat != ch) }
    let d :=
      if !d.stkRuns s || (h.ok && !h.lasting) then d
      else if !h.ok || st.spareActive || st.spareLost || st.copying then d.loseChannel s ch false
      else (d.setStk s { d.stk s with copying := true, copyCh := BitVec.ofNat 5 ch }).unitRecord 1 (s / 2) s fltChanRepair
        { detail := ch, lasting := true }
    d.ackHeld s

/-- CHANNEL_REPAIR_HANDOVER (Sequence 13-1, steps 3 and 4): the copy has read every word of the channel, whose lasting errors fail rows
(R355), and corrected it or marked it; the map switches to the spare (R358), whose cells hold no error of the channel's; the drawers of
the spare take over when their controller is idle between steps (R213), and what DRW[c]_LOST says of the channel's banks stays (DESIGN
CHOICE, log 128). A copy from a channel that is held for retraining ends after the hold (R164). -/
def channelRepairHandover (d : Dev) (s : Nat) : Dev :=
  let st := d.stk s
  if !d.stkRuns s || !st.copying || st.chanHeld st.copyCh.toNat then d else
  let own (w : Nat) : Bool := 32 * w / chanSize == st.copyCh.toNat
  let d := d.touchWords s own
  let left := (d.stk s).upsets.filter (fun u => !own u.word)
  let d := (d.setStk s { d.stk s with upsets := left, copying := false, spareActive := true, logical := st.copyCh }).interrupts (s / 2)
  if s % 2 == 0 then d.setDrw (s / 2) { d.drw (s / 2) with handover := (d.drw (s / 2)).handover ++ [st.copyCh.toNat] } else d

/-- CHANNEL_LOST: the retraining of a channel has failed outright (R360, R361), or the stack's controller or the cabinet router is
faulty lastingly, and the cabinet is lost (R371; log 93). -/
def channelLost (d : Dev) (s : Nat) (part : LostPart) : Dev :=
  if !d.stkRuns s then d else
  match part with
  | .channel ch => (d.loseChannel s ch.val false).ackHeld s
  | .controller => d.loseStack s 0
  | .router => (d.unitDiscard 4 (s / 2) 0 fltRouterLost { lasting := true }).loseCabinet (s / 2) fltRouterLost false false

/-! ## Fence markers (R331, R332) -/

/-- DRAIN_MARKER: a place performs the writes accepted before the marker and acknowledges. A held channel acknowledges only when its
hold ends: until then the marker waits there (R331). -/
def drainMarker (d : Dev) (k : Nat) (p : Place) : Dev :=
  match (d.bench k).fence with
  | none => d
  | some f =>
    if !f.places.contains p then d else
    let ack (d : Dev) : Dev := d.modBench k (fun b => { b with fence := some { f with places := f.places.filter (· != p) } })
    match p with
    | .sideboard c => if d.fenced c.val then ack d else ack (d.drainDrawerPort c.val)
    | .stack s =>
      if d.fenced (s.val / 2) then ack d
      else if (d.stk s.val).hold then
        let f' := { f with held := if f.held.contains s then f.held else f.held ++ [s] }
        (d.drainStk s.val (fun h => !(d.stk s.val).keyHeld h.key)).modBench k (fun b => { b with fence := some f' })
      else ack (d.drainStk s.val (fun _ => true))

/-- A marker that lost to FENCE_SUITE_TIMEOUT returns: it is discarded and counted in HB_COUNT.LATE (R370; log 103). -/
def Dev.lateMarker (d : Dev) (k : Nat) : Dev :=
  let b := d.bench k
  if b.lateMarkers == 0 then d
  else
    let d := d.setBench k { b with lateMarkers := b.lateMarkers - 1 }
    { d with bridge := { d.bridge with late := satInc16 d.bridge.late } }

/-- FENCE_SUITE_MARKER: the marker has passed the suite head's host bridge and reached this device, which performs the DEVICE
drain. -/
def fenceSuiteMarker (d : Dev) (k : Nat) : Dev :=
  match (d.bench k).fence with
  | some f => if f.suite then d.modBench k (fun b => { b with fence := some { f with suite := false, places := d.places } }) else d.lateMarker k
  | none => d.lateMarker k

/-- FENCE_SUITE_TIMEOUT: where the marker has not returned, the fence ends with FLT_FENCE_SUITE, and the step is discarded (R332). -/
def fenceSuiteTimeout (d : Dev) (k : Nat) : Dev :=
  let b := d.bench k
  match b.fence, b.wait with
  | some f, some w =>
    if f.scope == .suite && f.suite then
      let iss : Issue := ⟨w.bundle.tag, b.arch.pc, (w.bundle.slots.find? (fun s => s.2 == .fence .suite)).elim 0 (fun s => s.1),
        w.bundle.rep.val != 0, b.repIdx⟩
      ((d.waitEnds k w.bundle b.repIdx).modBench k (fun b => { b with fence := none, lateMarkers := b.lateMarkers + 1 })).benchFault k fltFenceSuite iss 0
    else d
  | _, _ => d

end Sys2Proof.Machine
end

