-- ==== Sys2Proof/Machine/Drawer.lean ====
section
/-! DEFINITION. Drawers (07, 08): templates, requests and work lists (R188–R192), the operations ATTEND, APPEND, GATHER and UPDATE
(R193–R199), mirroring (R232, R233), commit and abandon (R197), lost drawers (R209–R212), the activity ceiling (R201). -/

namespace Sys2Proof.Machine

/-! ## Templates and requests (Tables 7-4, 7-5) -/

/-- A drawer template. -/
structure DrwTpl where
  op : Nat
  g : Nat
  dim : Nat
  kfmt : BitVec 4
  qfmt : BitVec 4
  func : Nat
  flags : Nat
  ncol : Nat
  c0 : BitVec 32
  c1 : BitVec 32
  c2 : BitVec 32
deriving DecidableEq, Repr

/-- Byte i, and the little-endian group of n bytes at i, of a record. -/
def at1 (bs : List Byte) (i : Nat) : Nat := (bs.getD i 0).toNat
def atN (bs : List Byte) (i n : Nat) : Nat := leNat ((bs.drop i).take n)

def tplOf (bs : List Byte) : DrwTpl :=
  { op := at1 bs 0, g := at1 bs 1, dim := atN bs 2 2, kfmt := BitVec.ofNat 4 (at1 bs 4), qfmt := BitVec.ofNat 4 (at1 bs 5)
    func := at1 bs 6, flags := at1 bs 7, ncol := at1 bs 8, c0 := BitVec.ofNat 32 (atN bs 12 4)
    c1 := BitVec.ofNat 32 (atN bs 16 4), c2 := BitVec.ofNat 32 (atN bs 20 4) }

/-- Bytes of an element, of a token, tokens of a row (R187). -/
def DrwTpl.es (t : DrwTpl) : Nat := fmtBytes t.kfmt
def DrwTpl.tok (t : DrwTpl) : Nat := t.dim * t.es
def DrwTpl.tr (t : DrwTpl) : Nat := 2048 / t.tok
def DrwTpl.sum (t : DrwTpl) : Bool := t.op == 3 && bit 0 t.flags
def DrwTpl.replace (t : DrwTpl) : Bool := bit 1 t.flags

/-- A request header. -/
structure DrwHdr where
  template : Nat
  flags : Nat
  list : Nat
  count : Nat
  result : Nat
  notify : Nat
  token : Nat
  n : Nat
  zero : Bool
deriving DecidableEq, Repr

def drwHdr (p : List Byte) : DrwHdr :=
  { template := atN p 0 2, flags := at1 p 2, list := atN p 4 4, count := atN p 8 4, result := atN p 12 4, notify := atN p 16 4
    token := atN p 20 4, n := atN p 24 2, zero := at1 p 3 == 0 && ((p.take 64).drop 26).all (· == 0) }

/-- Operand bytes that a request must carry (R189). -/
def DrwTpl.operands (t : DrwTpl) (h : DrwHdr) : Nat :=
  match t.op with
  | 1 => t.g * t.dim * fmtBytes t.qfmt
  | 2 => if bit 1 h.flags then 0 else 2 * h.n * t.tok
  | _ => 0

/-- A header field out of its column, or operands that do not match (R189, Table 7-20). A work list that runs past the sideboard counts as
such a field (DESIGN CHOICE, log 112). -/
def DrwHdr.bad (h : DrwHdr) (t : DrwTpl) (len : Nat) : Bool :=
  decide (len < 64) || !h.zero || decide (3 < h.flags) || (bit 1 h.flags && t.op != 2) ||
    decide (2 ^ 27 ≤ h.list) || h.list % 16 != 0 || decide (sbSize < h.list + 16 * h.count) ||
    h.count == 0 || decide (65536 < h.count) || (t.op == 2 && h.count != 1) ||
    (if t.op == 1 || t.op == 3 then decide (2 ^ 27 ≤ h.result) || h.result % 64 != 0 else h.result != 0) ||
    decide (2 ^ 21 ≤ h.notify) || (if t.op == 2 then h.n == 0 || decide (64 < h.n) else h.n != 0) ||
    len - 64 != t.operands h

/-! ## Work-list entries (Tables 7-6 to 7-8) -/

/-- A work-list entry: its place in the list and its two words. -/
structure WEntry where
  idx : Nat
  w0 : Nat
  w1 : Nat
deriving DecidableEq, Repr

def WEntry.bank (e : WEntry) : Nat := bits 9 0 e.w0
def WEntry.part (e : WEntry) : Nat := bits 9 0 e.w1
def WEntry.krow (e : WEntry) : Nat := bits 31 16 e.w0
def WEntry.vrow (e : WEntry) : Nat := bits 47 32 e.w0
def WEntry.fill (e : WEntry) : Nat := bits 54 48 e.w0
def WEntry.staged (e : WEntry) : Nat := bits 62 56 e.w0

/-- Reads the work list through the drawer port. R166 names no refusal for a drawer's read of the program reserve, so one is answered (DESIGN
CHOICE, log 126). -/
def readList (sb : Sideboard) (off count : Nat) : List WEntry :=
  (List.range count).map (fun i =>
    let r := sb.readDrawer (off + 16 * i) 16
    ⟨i, leNat (r.data.take 8), leNat (r.data.drop 8)⟩)

/-- Row r lies in an interleave set whose granule is 2 KiB (R186). -/
def Stack.rowInSet (st : Stack) (r : Nat) : Bool :=
  (List.range 8).any (fun i =>
    let v := st.ilvOf i
    bit 31 v && bits 30 28 v == 3 && decide (128 * bits 17 8 v ≤ r) && decide (r < 128 * bits 27 18 v))

/-- Faults of the rows an entry uses. -/
def rowFault (st : Stack) (rows : List Nat) : Option (BitVec 16) :=
  if rows.any (fun r => decide (36864 ≤ r)) then some fltDrwEntry
  else if rows.any (fun r => !st.rowInSet r) then some fltDrwSet else none

/-- Rows of n consecutive token slots from slot u: key rows, then value rows. -/
def pageRows (t : DrwTpl) (e : WEntry) (u n : Nat) : List Nat :=
  if n == 0 then [] else
  let rs := (List.range ((u + n - 1) / t.tr - u / t.tr + 1)).map (· + u / t.tr)
  rs.map (· + e.krow) ++ rs.map (· + e.vrow)

/-- The check of one entry (R190, Tables 7-6 to 7-8, 7-20). -/
def entryFault (st : Stack) (t : DrwTpl) (h : DrwHdr) (step : Nat) (e : WEntry) : Option (BitVec 16) :=
  if bits 15 10 e.w0 != 0 then some fltDrwEntry else
  match t.op with
  | 1 =>
    if bits 31 10 e.w1 != 0 || decide (64 < e.fill + e.staged) then some fltDrwEntry
    else rowFault st (pageRows t e 0 (e.fill + e.staged))
  | 2 =>
    let s := if bits 47 32 e.w1 == step then e.staged else 0
    if bits 31 10 e.w1 != 0 || decide (64 < e.fill + s) then some fltDrwEntry
    else if 64 < e.fill + s + h.n then some fltDrwPageFull
    else rowFault st (pageRows t e (e.fill + s) h.n)
  | 3 =>
    let first := bits 20 10 e.w1 * t.es
    if first % 64 != 0 || decide (32 < first / 64 + t.ncol) then some fltDrwEntry else rowFault st [bits 31 16 e.w0]
  | _ =>
    if 2048 / t.es ≤ bits 10 0 e.w1 + bits 21 11 e.w1 then some fltDrwEntry
    else rowFault st ([bits 47 32 e.w0, bits 31 16 e.w0, bits 63 48 e.w1] ++ (if t.func == 2 then [bits 63 48 e.w0] else []))

/-- The first faulty entry of a list, in list order: entries of one PART must name one bank (R190; of GATHER, with SUM only:
log 21). -/
def listFault (st : Stack) (t : DrwTpl) (h : DrwHdr) (step : Nat) (es : List WEntry) : Option (BitVec 16 × Nat) :=
  es.findSome? (fun e =>
    match entryFault st t h step e with
    | some f => some (f, e.bank)
    | none =>
      if (t.op == 1 || t.sum) && (match es.find? (fun x => x.part == e.part) with
          | some x => x.bank != e.bank
          | none => false) then some (fltDrwEntry, e.bank) else none)

/-! ## Faults of a drawer controller (R214, R217) -/

/-- Records a fault in DRW[c]_LAST_FAULT. -/
def Dev.drwNote (d : Dev) (c : Nat) (code : BitVec 16) (bank : Option Nat) : Dev :=
  let w := d.drw c
  d.setDrw c { w with
    faultCode := code, faultBank := BitVec.ofNat 10 (bank.getD 0), faultBankValid := bank.isSome
    faultOverrun := w.faultOverrun || w.faultUnread, faultUnread := true }

/-- A fault that discards the step: DETAIL holds the bank, or the request's SEQ where no bank is concerned. -/
def Dev.drwFault (d : Dev) (c : Nat) (code : BitVec 16) (m : Msg) (bank : Option Nat) (detail : Nat) : Dev :=
  (d.drwNote c code bank).unitDiscard 3 c 0 code { endpoint := m.src.toNat, detail := detail }

/-- A drawer configuration write that is ignored (R202, R212, R234). -/
def Dev.drwRefused (d : Dev) (c off : Nat) : Dev := (d.drwNote c fltDrwCfg none).regRefused 3 c 0 fltDrwCfg off

/-! ## Rows -/

/-- The place in the banks of byte col of row r of bank n (R186). -/
def rowKey (n r col : Nat) : Nat := DramPlace.key ⟨n / 32, n % 32, r, col⟩

/-- Reads n bytes of a row at its bank, errors met first, with the marked sectors (R204, R206). Only the words of these bytes are judged,
although the drawer fetches the row whole (DESIGN CHOICE, log 127). -/
def Dev.readRow (d : Dev) (c key n : Nat) : Dev × List Byte × List Nat :=
  let ks := sectorsOf key n
  let d := d.touchWords (2 * c) (fun w => ks.contains w)
  let st := d.stk (2 * c)
  (d, st.mem.read key n, ks.filter (fun k => !st.filled || st.mem.marked k))

/-- Writes bytes of a row: a word covered in part is a masked write, which counts in RMW, keeps a stored mark, and is written
marked while FILLED is 0 or where the word is uncorrectable twice (Table 7-15). -/
def Dev.writeRow (d : Dev) (c key : Nat) (data : List Byte) (marked : Nat → Bool) : Dev :=
  let part := (sectorsOf key data.length).filter (fun k => !(decide (key ≤ 32 * k) && decide (32 * k + 32 ≤ key + data.length)))
  let before := (d.stk (2 * c)).mem
  let d := d.touchWords (2 * c) (fun w => part.contains w)
  let st := d.stk (2 * c)
  let bad := (part.filter (fun k => st.mem.marked k && !before.marked k)).length
  let d := d.setStk (2 * c) { st with mem := st.mem.store key data (fun k => marked k || (part.contains k && !st.filled)) }
  let w := d.drw c
  d.setDrw c { w with checkRmw := satAdd16 w.checkRmw part.length, poisonWb := satAdd16 w.poisonWb bad }

/-- The device address of a place of a chest. -/
def Dev.chestAddr (d : Dev) (c key : Nat) : Nat := 2 * c * 2 ^ 39 + (d.stk (2 * c)).offsetOf key

/-- A drawer yields before it works on a bank that has postponed 7 refreshes (R203). -/
def Dev.yieldBank (d : Dev) (c n : Nat) : Dev :=
  let st := d.stk (2 * c)
  if 7 ≤ st.postponed.get 0 n then
    let d := d.setStk (2 * c) { st with postponed := st.postponed.erase n }
    d.setDrw c { d.drw c with yields := satInc16 (d.drw c).yields }
  else d

/-- Results enter the sideboard through the drawer port; one that the sideboard refuses is recorded and not written. The answer says
whether it was accepted (R192). -/
def Dev.drwResult (d : Dev) (c off : Nat) (data : List Byte) (marks : List Nat) (replace : Bool) (m : Msg) : Dev × Bool :=
  match d.sbRefusal (c * 2 ^ 40 + off) data.length with
  | some f => (d.unitRecord 3 c 0 f { endpoint := m.src.toNat, detail := m.seq.toNat }, false)
  | none =>
    let sb := d.sb c
    (d.setSb c { sb with dq := sb.dq ++ [⟨off, data, marks, replace⟩] }, true)

/-! ## ATTEND (R193–R195) -/

/-- The running state of one head. -/
structure Head where
  m : BitVec 32
  l : BitVec 32
  o : List (BitVec 32)
  nan : Bool
deriving DecidableEq, Repr

def Head.start (dim : Nat) : Head := { m := infOf true, l := 0, o := List.replicate dim 0#32, nan := false }

/-- The elements of a byte string. -/
def elemsFV (fmt : BitVec 4) : Nat → List Byte → List FV
  | 0, _ => []
  | n + 1, bs => elemFV fmt (leNat (bs.take (fmtBytes fmt))) :: elemsFV fmt n (bs.drop (fmtBytes fmt))

/-- The exact sum of products rounded once; special values as IEEE 754 gives them (R193, R194). -/
def sumProducts (ps : List (FV × FV)) : BitVec 32 :=
  let bad := ps.any (fun p => p.1.isNaN || p.2.isNaN || (p.1.isInf && p.2.isZero) || (p.1.isZero && p.2.isInf))
  let infs (s : Bool) := ps.any (fun p => (p.1.isInf || p.2.isInf) && (p.1.neg != p.2.neg) == s)
  if bad || (infs true && infs false) then canonNaN
  else if infs true then infOf true
  else if infs false then infOf false
  else roundDy (dot ps)

/-- dot: groups of 16 dimensions, each exact sum rounded once, added in ascending order. -/
def dotGroups : Nat → List (FV × FV) → Option (BitVec 32) → BitVec 32
  | 0, _, acc => acc.getD 0
  | n + 1, ps, acc =>
    let s := sumProducts (ps.take 16)
    dotGroups n (ps.drop 16) (some (match acc with
      | none => s
      | some a => fpAdd a s))

/-- One block of tokens for one head. -/
def Head.block (h : Head) (c0 : BitVec 32) (q : List FV) (toks : List (List FV × List FV)) : Head :=
  if h.nan then h else
  let ss := toks.map (fun t => fpMul c0 (dotGroups (q.length / 16) (q.zip t.1) none))
  if ss.any (fun s => (fp32 s).isNaN || s == infOf false) then
    { m := canonNaN, l := canonNaN, o := h.o.map (fun _ => canonNaN), nan := true }
  else
    let mb := ss.foldl fpMax (infOf true)
    let h := if fpKey h.m < fpKey mb && !((fp32 h.m).isZero && (fp32 mb).isZero) then
        let f := drawerExp (fpSub h.m mb)
        { h with m := mb, l := fpMul h.l f, o := h.o.map (fun x => fpMul x f) }
      else h
    let ps := ss.map (fun s => if s == infOf true then 0#32
      else (BitVec.ofNat 16 (toBf16 (fp32 (drawerExp (fpSub s h.m))).dy)) ++ 0#16)
    let l := ps.foldl fpAdd h.l
    let o := (ps.zip toks).foldl (fun o pt => (o.zip pt.2.2).map (fun x => fmaFV (fp32 pt.1) x.2 (fp32 x.1))) h.o
    { h with l := l, o := o }

/-- A partial record (Table 7-10). -/
def partialRecord (hs : List Head) : List Byte :=
  (List.range 16).flatMap (fun i => leBytes 4 (((hs[i]?).elim (infOf true) (fun h => h.m))).toNat) ++
  (List.range 16).flatMap (fun i => leBytes 4 (((hs[i]?).elim 0#32 (fun h => h.l))).toNat) ++
  hs.flatMap (fun h => h.o.flatMap (fun x => leBytes 4 x.toNat))

/-- The rows that a part's blocks read, with the place and bytes of each: the key row of a block is read before the value row of
the block before it (R184); of each row the bytes of its visible tokens (log 127). -/
def partReads (t : DrwTpl) (es : List WEntry) : List (Nat × Nat) :=
  let blocks := es.flatMap (fun e =>
    let n := e.fill + e.staged
    (List.range ((n + t.tr - 1) / t.tr)).map (fun i => (e, i, min t.tr (n - i * t.tr))))
  let key (b : WEntry × Nat × Nat) : Nat × Nat := (rowKey b.1.bank (b.1.krow + b.2.1) 0, b.2.2 * t.tok)
  let val (b : WEntry × Nat × Nat) : Nat × Nat := (rowKey b.1.bank (b.1.vrow + b.2.1) 0, b.2.2 * t.tok)
  match blocks with
  | [] => []
  | b :: rest => key b :: ((b :: rest).zip (rest.map some ++ [none])).flatMap (fun p =>
      (match p.2 with
        | some nx => [key nx]
        | none => []) ++ [val p.1])

/-- The first marked word that a list of reads meets. -/
def firstMarked (d : Dev) (c : Nat) : List (Nat × Nat) → Dev × Option Nat
  | [] => (d, none)
  | (k, n) :: t =>
    let (d, _, ms) := d.readRow c k n
    match ms with
    | w :: _ => (d, some (32 * w))
    | [] => firstMarked d c t

/-- One part of ATTEND: its record, or the place of the marked word that stops it. -/
def attendPart (d : Dev) (c : Nat) (t : DrwTpl) (qs : List (List FV)) (es : List WEntry) : Dev × Except Nat (List Byte) :=
  let (d, hit) := firstMarked d c (partReads t es)
  match hit with
  | some k => (d, .error k)
  | none =>
    let mem := (d.stk (2 * c)).mem
    let hs := es.foldl (fun hs e =>
      let n := e.fill + e.staged
      (List.range ((n + t.tr - 1) / t.tr)).foldl (fun hs i =>
        let cnt := min t.tr (n - i * t.tr)
        let tok (row j : Nat) : List FV := elemsFV t.kfmt t.dim (mem.read (rowKey e.bank (row + i) (j * t.tok)) t.tok)
        let toks := (List.range cnt).map (fun j => (tok e.krow j, tok e.vrow j))
        (hs.zip qs).map (fun x => x.1.block t.c0 x.2 toks)) hs) (qs.map (fun _ => Head.start t.dim))
    (d, .ok (partialRecord hs))

/-- Splits a list into pieces of n. -/
def chunksOf {α : Type} : Nat → Nat → List α → List (List α)
  | 0, _, _ => []
  | k + 1, n, l => l.take n :: chunksOf k n (l.drop n)

/-- The PARTs of entries, each once, in list order. -/
def partsOf (es : List WEntry) : List Nat := es.foldl (fun l e => if l.contains e.part then l else l ++ [e.part]) []

/-- What the work of one bank leaves: the device, the records that the sideboard accepted, the place of a marked word consumed, and
whether every result was accepted. -/
structure BankOut where
  dev : Dev
  parts : Nat
  hit : Option Nat
  ok : Bool
deriving DecidableEq, Repr

/-- Work that has written nothing yet, and work that a marked word stops. -/
def BankOut.start (d : Dev) : BankOut := ⟨d, 0, none, true⟩
def BankOut.stop (o : BankOut) (d : Dev) (place : Nat) : BankOut := { o with dev := d, hit := some place }

/-- One record is offered to the sideboard; only one that it accepts counts in PARTS (Table 7-9). -/
def BankOut.record (o : BankOut) (r : Dev × Bool) : BankOut := ⟨r.1, o.parts + b2n r.2, o.hit, o.ok && r.2⟩

/-- A query byte of a request is marked (Table 7-15). -/
def queryMarked (m : Msg) : Bool := m.marks.any (fun k => decide (2 ≤ k))

/-- ATTEND on one bank: the parts of the bank in list order. A marked query is consumed as a marked row is; it has no place. -/
def attendBank (d : Dev) (c : Nat) (t : DrwTpl) (h : DrwHdr) (m : Msg) (es : List WEntry) : BankOut :=
  let qs := chunksOf t.g t.dim (elemsFV t.qfmt (t.g * t.dim) (m.payload.drop 64))
  if queryMarked m then (BankOut.start d).stop d (2 ^ 60) else
  (partsOf es).foldl (fun s p =>
    match s.hit with
    | some _ => s
    | none =>
      let (d, r) := attendPart s.dev c t qs (es.filter (fun e => e.part == p))
      match r with
      | .error k => s.stop d k
      | .ok bytes => s.record (d.drwResult c (h.result + p * (128 + 4 * t.g * t.dim)) bytes [] t.replace m)) (BankOut.start d)

/-! ## GATHER (R198) -/

/-- GATHER without SUM: bytes and marks of each entry. -/
def gatherPlain (d : Dev) (c : Nat) (t : DrwTpl) (h : DrwHdr) (m : Msg) (es : List WEntry) : BankOut :=
  let len := 64 * t.ncol
  es.foldl (fun s e =>
    let k := rowKey e.bank (bits 31 16 e.w0) (bits 20 10 e.w1 * t.es)
    let (d, bytes, ms) := s.dev.readRow c k len
    let off := h.result + e.idx * len
    let r := d.drwResult c off bytes (ms.map (fun w => w - k / 32 + off / 32)) t.replace m
    { s with dev := r.1, ok := s.ok && r.2 }) (BankOut.start d)

/-- The sum of one part. -/
def gatherSum (d : Dev) (c : Nat) (t : DrwTpl) (es : List WEntry) : Dev × Except Nat (List (BitVec 32)) :=
  let n := 64 * t.ncol / t.es
  es.foldl (fun s e =>
    match s.2 with
    | .error k => (s.1, .error k)
    | .ok acc =>
      let (d, bytes, ms) := s.1.readRow c (rowKey e.bank (bits 31 16 e.w0) (bits 20 10 e.w1 * t.es)) (64 * t.ncol)
      match ms with
      | w :: _ => (d, .error (32 * w))
      | [] =>
        let weight := BitVec.ofNat 32 (bits 63 32 e.w1)
        let xs := (List.range n).map (fun i => toFp32 t.kfmt (leNat ((bytes.drop (i * t.es)).take t.es)))
        (d, .ok ((acc.zip xs).map (fun p => fpAdd p.1 (fpMul p.2 weight))))) (d, .ok (List.replicate n 0#32))

/-- GATHER on one bank. -/
def gatherBank (d : Dev) (c : Nat) (t : DrwTpl) (h : DrwHdr) (m : Msg) (es : List WEntry) : BankOut :=
  if !t.sum then gatherPlain d c t h m es else
  (partsOf es).foldl (fun s p =>
    match s.hit with
    | some _ => s
    | none =>
      let (d, r) := gatherSum s.dev c t (es.filter (fun e => e.part == p))
      match r with
      | .error k => s.stop d k
      | .ok xs => s.record (d.drwResult c (h.result + p * (256 * t.ncol / t.es)) (xs.flatMap (fun x => leBytes 4 x.toNat)) [] t.replace m))
    (BankOut.start d)

/-! ## UPDATE (R199) -/

/-- a / b rounded once. -/
def fpDiv (a b : BitVec 32) : BitVec 32 :=
  match fp32 a, fp32 b with
  | .nan, _ => canonNaN
  | _, .nan => canonNaN
  | .inf s, .inf _ => if s then canonNaN else canonNaN
  | .inf s, y => infOf (s != y.neg)
  | x, .inf s => zeroOf (x.neg != s)
  | .fin s m e, .fin u k f =>
    let sg := s != u
    if k == 0 then (if m == 0 then canonNaN else infOf sg)
    else if m == 0 then zeroOf sg
    else
      let n := m * 2 ^ 80
      roundFp32 sg (2 * (n / k) + b2n (n % k != 0)) (e - f - 81)

/-- √a rounded once. -/
def fpSqrt (a : BitVec 32) : BitVec 32 :=
  match fp32 a with
  | .nan => canonNaN
  | .inf s => if s then canonNaN else infOf false
  | .fin s m e =>
    if m == 0 then zeroOf s
    else if s then canonNaN
    else
      let mo := (if e % 2 == 0 then m else 2 * m) * 2 ^ 80
      let eo := if e % 2 == 0 then e else e - 1
      let r := isqrtBits 64 mo 0
      roundFp32 false (2 * r + b2n (r * r != mo)) (eo / 2 - 41)

/-- One element. -/
def updateFn (t : DrwTpl) (x y z : BitVec 32) : BitVec 32 :=
  match t.func with
  | 0 => fpAdd (fpMul t.c0 x) (fpMul t.c1 y)
  | 1 => fpAdd (fpMul t.c1 y) (fpMul (fpMul t.c0 x) x)
  | _ => fpSub y (fpDiv (fpMul t.c0 x) (fpAdd (fpSqrt z) t.c2))

/-- One entry: every input row is read and checked, in its element range (log 127), before a word of the output row is written. -/
def updateEntry (d : Dev) (c : Nat) (t : DrwTpl) (e : WEntry) : Dev × Option Nat :=
  let first := bits 10 0 e.w1
  let n := bits 21 11 e.w1 + 1
  let col := first * t.es
  let src (row : Nat) : Nat := rowKey e.bank row col
  let rx := src (bits 47 32 e.w0)
  let ry := src (bits 31 16 e.w0)
  let rz := src (bits 63 48 e.w0)
  let (d, hit) := firstMarked d c ([(rx, n * t.es), (ry, n * t.es)] ++ (if t.func == 2 then [(rz, n * t.es)] else []))
  match hit with
  | some k => (d, some k)
  | none =>
    let mem := (d.stk (2 * c)).mem
    let el (k i : Nat) : BitVec 32 := toFp32 t.kfmt (mem.readNat (k + i * t.es) t.es)
    let out := (List.range n).flatMap (fun i =>
      leBytes t.es (fromFp32 t.kfmt (updateFn t (el rx i) (el ry i) (el rz i))).code)
    (d.writeRow c (rowKey e.bank (bits 63 48 e.w1) col) out (fun _ => false), none)

/-- UPDATE on one bank. -/
def updateBank (d : Dev) (c : Nat) (t : DrwTpl) (es : List WEntry) : BankOut :=
  let r := es.foldl (fun (s : Dev × Option Nat) e =>
    match s.2 with
    | some _ => s
    | none => updateEntry s.1 c t e) (d, none)
  ⟨r.1, 0, r.2, true⟩

/-! ## Requests (R191, R192, R210) -/

def Drawer.template (w : Drawer) (i : Nat) : DrwTpl := tplOf (w.templates.getD i [])

/-- Replaces the held request at a position. -/
def Dev.setReq (d : Dev) (c i : Nat) (r : DrwReq) : Dev := d.setDrw c { d.drw c with reqs := (d.drw c).reqs.set i r }

/-- Banks whose work a request still owes. -/
def DrwReq.owes (r : DrwReq) : List Nat := r.banks ++ r.toForward ++ r.forwarded

/-- An earlier request of the same source still owes work on bank n (R191). -/
def Drawer.blocked (w : Drawer) (i n : Nat) : Bool :=
  (w.reqs.take i).any (fun r => (match w.reqs[i]? with
    | some q => r.msg.src == q.msg.src
    | none => false) && (!r.started || r.owes.contains n))

/-- A message of the drawer controller of cabinet c that answers or passes on a request. A completion copies the request's EPOCH (R192);
the field is 0 in every other (R41). -/
def Dev.drwMsg (d : Dev) (c : Nat) (dest : BitVec 18) (queue : Fin 8) (from_ : Msg) (epoch : BitVec 16) (payload : List Byte) (marks : List Nat) : Msg :=
  { dest := dest, target := dest, bcast := false, src := d.epOf c 0xF1, queue := queue, seq := (d.drw c).seq, tag := from_.tag,
    planId := d.plan.planId, epoch := epoch, step := from_.step, payload := payload, marks := marks, issue := none }

/-- Sends it; a destination that cannot be reached is recorded by the controller (R377). -/
def Dev.drwSend (d : Dev) (c : Nat) (m : Msg) : Dev :=
  let d := d.unitSend 3 c 0 m
  d.setDrw c { d.drw c with seq := (d.drw c).seq + 1 }

/-- Replaces bytes of a payload. -/
def patch (p : List Byte) (i : Nat) (bs : List Byte) : List Byte := p.take i ++ bs ++ p.drop (i + bs.length)

/-- FALLBACK_FORWARD (R210): the request goes to the fallback bench for one lost bank. -/
def Dev.forwardBank (d : Dev) (c i n : Nat) : Dev :=
  match (d.drw c).reqs[i]? with
  | none => d
  | some r =>
    let fb := (d.drw c).fallback.toNat
    let d := d.setReq c i { r with toForward := r.toForward.filter (· != n), forwarded := r.forwarded ++ [n] }
    let m := d.drwMsg c (d.epOf c (bits 23 16 fb)) (Fin.ofNat 8 (bits 26 24 fb)) r.msg 0 (patch r.msg.payload 26 (leBytes 2 n)) r.msg.marks
    (d.drwSend c m).voidFloor 4

/-- Forwards every bank that no earlier request of its source holds back. -/
def Dev.forwardAll (d : Dev) (c : Nat) : Dev :=
  (List.range (d.drw c).reqs.length).foldl (fun d i =>
    match (d.drw c).reqs[i]? with
    | none => d
    | some r => if !r.started then d else r.toForward.foldl (fun d n => if (d.drw c).blocked i n then d else d.forwardBank c i n) d) d

/-- A request that has nothing left to do, every record of it written (R192). -/
def DrwReq.finished (r : DrwReq) : Bool := r.started && r.owes.isEmpty && !r.mirrorWait && !r.broken

/-- Requests without NOTIFY leave the controller when they finish. -/
def Dev.drwSweep (d : Dev) (c : Nat) : Dev :=
  let w := d.drw c
  d.setDrw c { w with reqs := w.reqs.filter (fun r => !(r.finished && !bit 0 (drwHdr r.msg.payload).flags && epVal r.msg.src != 0xF1)) }

/-- The drawer of bank n is lost (R211). -/
def Drawer.isLost (w : Drawer) (n : Nat) : Bool := w.lost.contains n

/-- Starts a held request of the current step: the controller reads and checks the work list, and queues its work per bank
(R191). A faulty list discards the request and the step. -/
def Dev.drwOpen (d : Dev) (c i : Nat) : Dev :=
  match (d.drw c).reqs[i]? with
  | none => d
  | some r =>
    let w := d.drw c
    if r.started || r.msg.step != w.step then d else
    let h := drwHdr r.msg.payload
    let t := w.template h.template
    let es := readList (d.sb c) h.list h.count
    let bad := if t.op == 2 then none else listFault (d.stk (2 * c)) t h r.msg.step.toNat es
    match bad with
    | some (f, n) => (d.setDrw c { w with reqs := w.reqs.eraseIdx i }).drwFault c f r.msg (some n) n
    | none =>
      let banks := es.foldl (fun l e => if l.contains e.bank then l else l ++ [e.bank]) []
      let lost := if t.op == 2 then [] else banks.filter w.isLost
      d.setReq c i { r with started := true, banks := banks.filter (fun n => !lost.contains n), toForward := lost }

/-- A 16-byte message that answers a forwarded request (R210, R232). -/
def Dev.drwAnswer (d : Dev) (c : Nat) (m : Msg) : Bool :=
  m.payload.length == 16 && (epVal m.src == 0xF1 ||
    (m.src == d.epOf c (bits 23 16 (d.drw c).fallback.toNat) && bit 31 (d.drw c).fallback.toNat))

/-- The first message from src that has reached the drawer controller of cabinet c: its sideboard domain must be ON (R433). -/
def Dev.drwArrived (d : Dev) (src : BitVec 18) (c : Nat) : Dev × Option Msg :=
  match d.net.find? (fun m => m.src == src && m.target == d.epOf c 0xF1) with
  | none => (d, none)
  | some m =>
    if d.fenced c then (d, none) else
    let d := d.arrive (sbDom c) (d.senderBlock src)
    if d.domOn (sbDom c) then (d, some m) else (d, none)

/-- DRAWER_REQUEST (R191): the 257th request waits in the router; a request of a step that has passed is dropped. -/
def drawerRequest (d : Dev) (src : BitVec 18) (c : Nat) : Dev :=
  match d.drwArrived src c with
  | (d, none) => d
  | (d, some m) =>
    let w := d.drw c
    if d.drwAnswer c m || decide (256 ≤ w.reqs.length) then d else
    let d := { d with net := d.net.erase m }
    let ahead := (m.step - w.step).toNat
    if 32768 ≤ ahead then d else
    let d := (d.arrive (drwDom c) (blockId 3 (drwDom c))).arrive (stkDom (2 * c)) (blockId 3 (drwDom c))
    let h := drwHdr m.payload
    if !d.domOn (drwDom c) || !d.domOn (stkDom (2 * c)) || decide (w.templates.length ≤ h.template) ||
        h.bad (w.template h.template) m.payload.length then
      d.drwFault c fltDrwMsg m none m.seq.toNat
    else
      let d := d.setDrw c { d.drw c with reqs := (d.drw c).reqs ++ [⟨m, false, [], [], [], 0, 0, false, false⟩] }
      (d.drwOpen c ((d.drw c).reqs.length - 1)).forwardAll c

/-- The work of a bank fetches a row or writes an output row (R203): ATTEND only for visible tokens and a query that no mark stops. -/
def touchesRows (op : Nat) (m : Msg) (es : List WEntry) : Bool :=
  if op == 1 then !queryMarked m && es.any (fun e => e.fill + e.staged != 0) else !es.isEmpty

/-- Request i owes work on bank n, whose operation is `op`, and nothing holds it back. -/
def Dev.workReady (d : Dev) (c i n op : Nat) : Bool :=
  match (d.drw c).reqs[i]? with
  | none => false
  | some r =>
    ((d.drw c).template (drwHdr r.msg.payload).template).op == op && r.started && r.banks.contains n && !(d.drw c).blocked i n &&
      !d.fenced c && d.domOn (drwDom c) && d.domOn (stkDom (2 * c))

/-- Runs the work of one bank of a held request (R191), where its operation is `op`. Entries are read again, since an earlier
APPEND may have changed them, and checked before the bank receives any work. -/
def bankWork (d : Dev) (c i n op : Nat) : Dev :=
  match (d.drw c).reqs[i]? with
  | none => d
  | some r =>
    let w := d.drw c
    let h := drwHdr r.msg.payload
    let t := w.template h.template
    if !d.workReady c i n op then d else
    let es := (readList (d.sb c) h.list h.count).filter (fun e => e.bank == n)
    match listFault (d.stk (2 * c)) t h r.msg.step.toNat es with
    | some (f, n) => (d.setDrw c { w with reqs := w.reqs.eraseIdx i }).drwFault c f r.msg (some n) n
    | none =>
      let d := if touchesRows op r.msg es then d.yieldBank c n else d
      let o := if op == 1 then attendBank d c t h r.msg es else if op == 3 then gatherBank d c t h r.msg es
        else updateBank d c t es
      let d := o.dev.setReq c i { r with
        banks := r.banks.filter (· != n), parts := r.parts + o.parts, broken := r.broken || !o.ok || o.hit.isSome }
      match o.hit with
      | some k => d.drwFault c fltPoisonConsumed r.msg (some n) (if k == 2 ^ 60 then 0 else d.chestAddr c k)
      | none => (d.forwardAll c).drwSweep c

/-! ## APPEND (R196, R232) -/

/-- Writes a key or value of slot u: the drawer writes it, or, where the drawer is lost, the controller through the stack controller
(R209), which the step's record shows (R252). -/
def appendToken (d : Dev) (c : Nat) (t : DrwTpl) (e : WEntry) (m : Msg) (row u from_ : Nat) : Dev :=
  let key := rowKey e.bank (row + u / t.tr) (u % t.tr * t.tok)
  let data := (m.payload.drop from_).take t.tok
  let marked (k : Nat) : Bool := m.marks.contains (k - key / 32 + from_ / 32)
  if (d.drw c).isLost e.bank then
    let st := d.stk (2 * c)
    (d.setStk (2 * c) { st with
      held := st.held ++ (cutWords data.length key data).map (fun p => ⟨p.1, p.2, marked (p.1 / 32), none⟩) }).voidFloor 4
  else d.writeRow c key data marked

/-- The update of a page entry: FILL, STAGED and STAGE_STEP, in one write that nothing meets half done. -/
def Dev.putEntry (d : Dev) (c off fill staged step : Nat) : Dev :=
  let d := d.drainDrawerPort c
  let sb := d.sb c
  let w0 := sb.mem.readNat off 8
  let w1 := sb.mem.readNat (off + 8) 8
  let v0 := w0 - bits 62 56 w0 * 2 ^ 56 - bits 54 48 w0 * 2 ^ 48 + staged % 128 * 2 ^ 56 + fill % 128 * 2 ^ 48
  let v1 := w1 - bits 47 32 w1 * 2 ^ 32 + step * 2 ^ 32
  d.setSb c { sb with mem := sb.mem.store off (leBytes 8 v0 ++ leBytes 8 v1) (fun _ => false) }

/-- The update that an APPEND makes, which the sideboard may refuse: a list inside the program reserve (R166). On a mirror the refusal
discards the step, as every fault of a mirrored APPEND does (R232). -/
def Dev.setEntry (d : Dev) (c off fill staged step : Nat) (m : Msg) : Dev × Bool :=
  match d.sbRefusal (c * 2 ^ 40 + off) 16 with
  | some f =>
    let note : UnitNote := { endpoint := m.src.toNat, detail := m.seq.toNat }
    (if epVal m.src == 0xF1 then d.unitDiscard 3 c 0 f note else d.unitRecord 3 c 0 f note, false)
  | none => (d.putEntry c off fill staged step, true)

/-- MIRROR_FORWARD (R232): an accepted APPEND goes to the mirror cabinet's controller with NOTIFY cleared. A mirror cabinet that
cannot be reached discards the step. -/
def Dev.mirrorForward (d : Dev) (c : Nat) (m : Msg) : Dev × Bool :=
  let mc := (d.drw c).mirror.toNat
  if !bit 31 mc || epVal m.src == 0xF1 then (d, false) else
  let dest := d.epOf (bits 3 0 mc) 0xF1
  let f := d.drwMsg c dest m.queue m 0 (patch m.payload 2 [BitVec.ofNat 8 (at1 m.payload 2 - b2n (bit 0 (at1 m.payload 2)))]) m.marks
  let open_ := d.epOpen dest
  let d := d.drwSend c f
  if open_ then (d, true) else (d.discard fltDestFenced, true)

/-- The primary cabinet whose APPEND a mirror carries out, if it does (R232). -/
def Msg.primary (m : Msg) : Option Nat := if epVal m.src == 0xF1 then some (epCab m.src) else none

/-- The fault of an APPEND found in its entry or the staging log: the cabinet's own, or the one kept for the primary cabinet whose
APPEND is mirrored (R196, R233). -/
def appendFault (d : Dev) (c : Nat) (t : DrwTpl) (h : DrwHdr) (step : Nat) (e : WEntry) (primary : Option Nat) : Option (BitVec 16) :=
  match entryFault (d.stk (2 * c)) t h step e with
  | some f => some f
  | none => if 65536 ≤ ((d.drw c).log.filter (fun x => x.primary == primary)).length then some fltDrwStageFull else none

/-- One logged entry: COMMIT advances FILL by STAGED, as read at that moment; both clear STAGED. -/
def Dev.closeEntry (d : Dev) (c : Nat) (commit : Bool) (off : Nat) : Dev :=
  let d := d.drainDrawerPort c
  let w0 := (d.sb c).mem.readNat off 8
  let w1 := (d.sb c).mem.readNat (off + 8) 8
  d.putEntry c off (bits 54 48 w0 + (if commit then bits 62 56 w0 else 0)) 0 (bits 47 32 w1)

/-- The entry joins the staging log (R196). On a mirror whose primary cabinet has already closed the step, the same action is applied
to it at once (R233). -/
def Dev.logStage (d : Dev) (c off : Nat) (step : BitVec 16) (primary : Option Nat) : Dev :=
  let add := d.setDrw c { d.drw c with log := (d.drw c).log ++ [⟨off, step, primary⟩] }
  match primary with
  | none => add
  | some p =>
    match (d.drw p).closed with
    | some (commit, n) => if n == step then d.closeEntry c commit off else add
    | none => add

/-- APPEND (R196): the held request at position i is carried out on its page. A mirror answers the primary's controller (R232), with the
TOKEN in bytes 0 to 3 of the answer and zeros after it (DESIGN CHOICE, log 130). -/
def append (d : Dev) (c i : Nat) : Dev :=
  match (d.drw c).reqs[i]? with
  | none => d
  | some r =>
    let w := d.drw c
    let h := drwHdr r.msg.payload
    let t := w.template h.template
    match r.banks with
    | [] => d
    | n :: _ =>
      if !d.workReady c i n 2 then d else
      match readList (d.sb c) h.list 1 with
      | [] => d
      | e :: _ =>
        let step := r.msg.step.toNat
        let stale := e.staged != 0 && bits 47 32 e.w1 != step
        let staged := if bits 47 32 e.w1 == step then e.staged else 0
        let d := if stale then d.setDrw c { d.drw c with staleStage := satInc16 (d.drw c).staleStage } else d
        let (d, ok) := if stale then d.setEntry c h.list e.fill 0 (bits 47 32 e.w1) r.msg else (d, true)
        let primary := r.msg.primary
        match appendFault d c t h step e primary with
        | some f =>
          (d.setDrw c { d.drw c with reqs := (d.drw c).reqs.eraseIdx i }).drwFault c f r.msg (some e.bank) e.bank
        | none =>
          let d := if bit 1 h.flags || w.isLost e.bank then d else d.yieldBank c e.bank
          let d := if bit 1 h.flags then d else (List.range h.n).foldl (fun d j =>
            let d := appendToken d c t e r.msg e.krow (e.fill + staged + j) (64 + j * t.tok)
            appendToken d c t e r.msg e.vrow (e.fill + staged + j) (64 + (h.n + j) * t.tok)) d
          let (d, ok) := if ok then d.setEntry c h.list e.fill (staged + h.n) step r.msg else (d, false)
          if !ok then d.setReq c i { r with banks := [], broken := true } else
          let d := d.logStage c h.list r.msg.step primary
          let (d, waits) := d.mirrorForward c r.msg
          let d := d.setReq c i { r with banks := [], mirrorWait := waits }
          let d := if primary.isSome then
              let a := d.drwMsg c r.msg.src 0 r.msg 0 (leBytes 4 h.token ++ List.replicate 12 0) []
              (d.drwSend c a).setDrw c { (d.drwSend c a).drw c with reqs := ((d.drwSend c a).drw c).reqs.eraseIdx i }
            else d
          (d.forwardAll c).drwSweep c

/-- The bank of the APPEND at position i. -/
def Dev.appendBank (d : Dev) (c i : Nat) : Nat := (((d.drw c).reqs[i]?).bind (fun r => r.banks.head?)).getD 0

/-- The drawer of bank n itself does the work of request i: its entries pass their checks, and an APPEND writes tokens to a bank whose
drawer is not lost. -/
def Dev.drawerWorks (d : Dev) (c i n op : Nat) : Bool :=
  match (d.drw c).reqs[i]? with
  | none => false
  | some r =>
    let h := drwHdr r.msg.payload
    let t := (d.drw c).template h.template
    let step := r.msg.step.toNat
    d.workReady c i n op && !(d.drw c).isLost n &&
      (if op == 2 then !bit 1 h.flags && (readList (d.sb c) h.list 1).any (fun e => (appendFault d c t h step e r.msg.primary).isNone)
       else (listFault (d.stk (2 * c)) t h step ((readList (d.sb c) h.list h.count).filter (fun e => e.bank == n))).isNone)

/-! ## Completions and answers (R192, R210, R232) -/

/-- DRAWER_COMPLETION: a fenced cabinet sends nothing more (R20); else the finished request at position i leaves, and its completion
(Table 7-9) is sent where NOTIFY is set. PARTS counts the records that the drawers wrote, not those of the fallback bench (DESIGN CHOICE,
log 113). -/
def drawerCompletion (d : Dev) (c i : Nat) : Dev :=
  match (d.drw c).reqs[i]? with
  | none => d
  | some r =>
    if !r.finished || d.fenced c then d else
    let h := drwHdr r.msg.payload
    let d := d.setDrw c { d.drw c with reqs := (d.drw c).reqs.eraseIdx i }
    if !bit 0 h.flags then d else
    d.drwSend c (d.drwMsg c (BitVec.ofNat 18 h.notify) (Fin.ofNat 8 (bits 20 18 h.notify)) r.msg r.msg.epoch
      (leBytes 4 h.token ++ leBytes 2 h.template ++ leBytes 2 r.parts ++ leBytes 2 r.answered ++ List.replicate 6 0) [])

/-- FALLBACK_ANSWER (R210): the fallback bench has done one bank of the request with this TOKEN. -/
def fallbackAnswer (d : Dev) (src : BitVec 18) (c : Nat) : Dev :=
  match d.drwArrived src c with
  | (d, none) => d
  | (d, some m) =>
    if !d.drwAnswer c m || epVal m.src == 0xF1 then d else
    let d := { d with net := d.net.erase m }
    let tok := atN m.payload 0 4
    let n := atN m.payload 4 2
    match (List.range (d.drw c).reqs.length).find? (fun i => match (d.drw c).reqs[i]? with
        | some r => (drwHdr r.msg.payload).token == tok && r.forwarded.contains n && r.msg.step == m.step
        | none => false) with
    | none => d
    | some i =>
      match (d.drw c).reqs[i]? with
      | none => d
      | some r =>
        let d := d.setReq c i { r with forwarded := r.forwarded.filter (· != n), answered := r.answered + 1 }
        (d.forwardAll c).drwSweep c

/-- MIRROR_APPEND_ANSWER (R232): the mirror has carried out the APPEND with this TOKEN: the oldest of its step that waits for an answer,
whichever cabinet answers (DESIGN CHOICE, log 131). -/
def mirrorAppendAnswer (d : Dev) (src : BitVec 18) (c : Nat) : Dev :=
  match d.drwArrived src c with
  | (d, none) => d
  | (d, some m) =>
    if m.payload.length != 16 || epVal m.src != 0xF1 then d else
    let d := { d with net := d.net.erase m }
    let tok := atN m.payload 0 4
    match (List.range (d.drw c).reqs.length).find? (fun i => match (d.drw c).reqs[i]? with
        | some r => (drwHdr r.msg.payload).token == tok && r.mirrorWait && r.msg.step == m.step
        | none => false) with
    | none => d
    | some i =>
      match (d.drw c).reqs[i]? with
      | none => d
      | some r => (d.setReq c i { r with mirrorWait := false }).drwSweep c

/-! ## Commit and abandon (R197, R233) -/

/-- The entries of cabinet c's log that the given cabinet's action concerns, each once. -/
def Drawer.logged (w : Drawer) (primary : Option Nat) : List Nat :=
  ((w.log.filter (fun e => e.primary == primary)).map (fun e => e.off)).dedup

/-- The action of cabinet c for a step on the entries it mirrored elsewhere in that step (R233). A fenced mirror executes nothing (R20). -/
def Dev.closeMirrors (d : Dev) (c : Nat) (commit : Bool) (n : BitVec 16) : Dev :=
  let d := (List.range 12).foldl (fun d j =>
    if d.fenced j then d else
    let mine (e : StageEntry) : Bool := e.primary == some c && e.step == n
    let d := ((((d.drw j).log.filter mine).map (fun e => e.off)).dedup).foldl (fun d o => d.closeEntry j commit o) d
    d.setDrw j { d.drw j with log := (d.drw j).log.filter (fun e => !mine e) }) d
  d.setDrw c { d.drw c with closed := some (commit, n) }

/-- The action of cabinet c: its own entries, and those it mirrored elsewhere. Requests of the step go, and the controller moves on
to the next step. Drawers of a repaired channel take over with DRW[c]_LOST as it stands (DESIGN CHOICE, log 128). -/
def Dev.closeStep (d : Dev) (c : Nat) (commit : Bool) : Dev :=
  let d := ((d.drw c).logged none).foldl (fun d o => d.closeEntry c commit o) d
  let d := d.closeMirrors c commit (d.drw c).step
  let w := d.drw c
  let d := d.setDrw c { w with
    log := w.log.filter (fun e => e.primary.isSome), reqs := w.reqs.filter (fun r => r.msg.step != w.step), step := w.step + 1
    action := none, handover := [] }
  let d := (List.range (d.drw c).reqs.length).foldl (fun d i => d.drwOpen c ((d.drw c).reqs.length - 1 - i)) d
  d.forwardAll c

/-- The sequencer's action that cabinet c has not finished. A cabinet fenced since executes nothing (R20): only what it mirrored elsewhere
is closed (R233). -/
def Dev.drwAction (d : Dev) (c : Nat) (commit : Bool) : Dev :=
  match (d.drw c).action with
  | some (k, n) =>
    if k != commit then d
    else if d.fenced c then
      let d := d.closeMirrors c commit n
      d.setDrw c { d.drw c with action := none }
    else d.closeStep c commit
  | none => d

/-! ## Lost drawers, the ceiling (R201, R209) -/

/-- Drawers lost in a chest. -/
def Drawer.lostCount (w : Drawer) : Nat := w.lost.length

/-- Work that started requests owe on a lost bank goes to the fallback bench; APPEND keeps its bank, which the controller writes
itself (R209). -/
def Drawer.withdraw (w : Drawer) (n : Nat) : Drawer :=
  { w with reqs := w.reqs.map (fun r =>
      if (w.template (drwHdr r.msg.payload).template).op == 2 || !r.banks.contains n then r
      else { r with banks := r.banks.filter (· != n), toForward := r.toForward ++ [n] }) }

/-- A drawer is lost (R209, Sequence 7-2): the step is discarded, the bank's owed refreshes are paid, the bank is marked, and its work goes to
the fallback bench. Without a fallback bench, or with eight lost already, the cabinet is lost. -/
def Dev.loseDrawer (d : Dev) (c n : Nat) : Dev :=
  let w := d.drw c
  if w.isLost n || d.fenced c || !d.domOn (drwDom c) then d
  else
    let d := (d.drwNote c fltDrwLost (some n)).unitDiscard 3 c 0 fltDrwLost { detail := n, lasting := true, retried := true }
    if !bit 31 w.fallback.toNat || decide (8 ≤ w.lostCount) then d.loseCabinet c fltDrwLost true true
    else
      let st := d.stk (2 * c)
      let d := d.setStk (2 * c) { st with postponed := st.postponed.erase n }
      (d.setDrw c ({ d.drw c with lost := nsInsert n w.lost }.withdraw n)).forwardAll c

/-- The chest's limit in milliwatts at a current-limit step: 58 W, lowered by 5 % a step (Table 7-11, R444). -/
def chestLimit (step : Nat) : Nat := 58000 - 2900 * step

/-- ACTIVITY_CEILING_ADJUST at an effective step of the chest. -/
def adjustCeiling (d : Dev) (c step mw : Nat) : Dev :=
  let w := d.drw c
  if !d.domOn (drwDom c) then d
  else if chestLimit step < mw then d.setDrw c { w with ceiling := max 32 (w.ceiling - 32) }
  else if mw + 1750 < chestLimit step then d.setDrw c { w with ceiling := min 1024 (w.ceiling + 32) }
  else d

/-! ## Readings -/

/-- DRW[c]_LOST[k] (Table 7-18). -/
def Drawer.lostWord (w : Drawer) (k : Nat) : Nat := ((List.range 32).map (fun b => b2n (w.isLost (32 * k + b)) * 2 ^ b)).sum

/-- REF_DOUBLE (R160): a chest in coupled mode, or a base die that reached 85 °C and has not fallen below 80 °C. -/
def Dev.refDoubled (d : Dev) (s : Nat) : Bool := (d.dom (stkDom s)).level != 0 || (s % 2 == 0 && bits 1 0 (d.drw (s / 2)).mode.toNat == 2)

/-- DRW[c]_STATUS (Table 7-21): between commands no drawer holds a grant. -/
def readDrwStatus (d : Dev) (c : Nat) : Nat :=
  (d.drw c).ceiling * 2 ^ 10 + (d.drw c).reqs.length * 2 + b2n (d.refDoubled (2 * c))

/-- DRW[c]_LAST_FAULT (Table 7-23). -/
def Drawer.lastFault (w : Drawer) : Nat :=
  b2n w.faultOverrun * 2 ^ 31 + b2n w.faultBankValid * 2 ^ 26 + w.faultBank.toNat * 2 ^ 16 + w.faultCode.toNat

end Sys2Proof.Machine
end

