-- ==== Sys2Proof/Machine/FaultLog.lean ====
section
/-! DEFINITION. The fault log and its registers (R376–R380), and the registers of the host mailbox (R55, R56). A register effect
answers whether the write was applied (Table 16-11). -/

namespace Sys2Proof.Machine

/-- The entry of a record (Table 13-6). -/
def logEntry (lseq : BitVec 48) (r : LogRec) : List Byte :=
  leBytes 8 (lseq.toNat * 2 ^ 16 + r.kind.toNat * 2 ^ 8) ++ List.replicate 8 0 ++ r.record ++ List.replicate 16 0

/-- The oldest offered record takes the next LSEQ; a lasting one is kept in the bureau's ring and sent as telemetry. -/
def Dev.logTake (d : Dev) (r : LogRec) : Dev × List Byte :=
  let e := logEntry d.flog.lseq r
  let d := { d with flog := { d.flog with lseq := d.flog.lseq + 1 } }
  if r.lasting then
    (({ d with flog := { d.flog with keep := d.flog.keep.set (d.flog.keepTotal % 256) e, keepTotal := d.flog.keepTotal + 1 } } : Dev).telemetry
      3 0 0 e, e)
  else (d, e)

/-- A record that is not written. -/
def FaultLog.lose (f : FaultLog) : FaultLog := { f with lost := satInc16 f.lost, logLost := true }

/-- The ring holds 2^SIZE_LOG2 entries that the host has not read. -/
def FaultLog.full (f : FaultLog) : Bool := decide (2 ^ ringLog2 f.base ≤ (f.tail - f.head).toNat)

/-- The log unit's own record of an access with a reserved selector (R11, R377). -/
def LogRec.ownSelector (r : LogRec) : Bool :=
  r.kind == 2 && leNat (r.record.take 2) == fltAddrSelector.toNat && leNat ((r.record.drop 14).take 2) == 0xA000

/-- The log unit's access at a. A reserved selector is refused with FLT_ADDR_SELECTOR, which the log unit records (R11); the refusal
that such a record itself meets there is recorded no further (DESIGN CHOICE, log 114). -/
def Dev.logSelector (d : Dev) (a : Nat) (r : LogRec) : Dev :=
  if decide (4 ≤ bits 47 44 a) && !r.ownSelector then d.unitRecord 10 0 0 fltAddrSelector {} else d

/-- FAULT_LOG_RECORD: the oldest offered record reaches the log unit. Where the ring's place cannot be written (a reserved selector, or stack
space that does not hold the entry or is not served) the record counts in LOST (DESIGN CHOICE, log 114). -/
def faultLogRecord (d : Dev) : Dev :=
  match d.flog.offered with
  | [] => d
  | r :: t =>
    let (d, e) := ({ d with flog := { d.flog with offered := t } } : Dev).logTake r
    let f := d.flog
    let a := ringAddr f.base + 64 * (f.tail.toNat % 2 ^ ringLog2 f.base)
    if !bit 0 f.ctl.toNat || f.full then { d with flog := f.lose }
    else if !d.ringOk a 64 then ({ d with flog := f.lose } : Dev).logSelector a r
    else
      let d := d.putUnit a e false false
      let d := { d with flog := { d.flog with tail := f.tail + 1 } }
      if bit 2 f.ctl.toNat then d.interrupt (BitVec.ofNat 11 (bits 26 16 f.ctl.toNat)) else d

/-- What the bureau keeps of records that had not reached the log unit when its domain went OFF: the lasting ones. -/
def Dev.logSettle (d : Dev) : Dev :=
  d.flog.offered.foldl (fun d r => if r.lasting then (d.logTake r).1 else d) { d with flog := { d.flog with offered := [] } }

/-! ## Ring registers (R55, R56, R378, R379) -/

/-- The new value of a ring's base register: sizes from lo to hi, others leave the field; only the fields given are held. -/
def ringBase (old new : BitVec 64) (lo hi : Nat) : BitVec 64 :=
  let size := ringLog2 new
  BitVec.ofNat 64 (bits 47 12 new.toNat * 2 ^ 12 + (if lo ≤ size ∧ size ≤ hi then size else ringLog2 old))

/-- A write of a read counter that neither passes the tail nor moves backwards. -/
def headOk (old new tail : BitVec 32) : Bool := decide ((new - old).toNat ≤ (tail - old).toNat)

def writeHmbBase (v : BitVec 64) (d : Dev) : Dev × Bool :=
  let h := d.hmb
  if bit 0 h.ctl.toNat then (d, false) else ({ d with hmb := { h with base := ringBase h.base v 10 20, head := 0, tail := 0 } }, true)

def writeHmbHead (v : BitVec 32) (d : Dev) : Dev × Bool :=
  let h := d.hmb
  if headOk h.head v h.tail then ({ d with hmb := { h with head := v } }, true) else (d, false)

/-- The fields of HMB_CTL and FLOG_CTL that hold: VECTOR, IRQ, ENABLE. -/
def ringCtl (v : BitVec 32) : BitVec 32 := v &&& 0x07FF0005#32

def writeHmbCtl (v : BitVec 32) (d : Dev) : Dev × Bool :=
  let h := { d.hmb with ctl := ringCtl v }
  ({ d with hmb := if bit 1 v.toNat then { h with dropped := 0 } else h }, true)

def writeFlogBase (v : BitVec 64) (d : Dev) : Dev × Bool :=
  let f := d.flog
  if bit 0 f.ctl.toNat then (d, false) else ({ d with flog := { f with base := ringBase f.base v 10 20, head := 0, tail := 0 } }, true)

def writeFlogHead (v : BitVec 32) (d : Dev) : Dev × Bool :=
  let f := d.flog
  if headOk f.head v f.tail then ({ d with flog := { f with head := v } }, true) else (d, false)

def writeFlogCtl (v : BitVec 32) (d : Dev) : Dev × Bool :=
  let f := { d.flog with ctl := ringCtl v }
  ({ d with flog := if bit 1 v.toNat then { f with lost := 0 } else f }, true)

end Sys2Proof.Machine
end

