-- ==== Sys2Proof/Machine/Crypto.lean ====
section
/-! DEFINITION. The cryptography the manual names: SHA-384 (R59, R395, R458) and ECDSA over P-384 (R395, R458), as their standards
define them. -/

namespace Sys2Proof.Machine

/-! ## SHA-384 -/

/-- Big-endian number of bytes. -/
def beNat (bs : List Byte) : Nat := bs.foldl (fun a b => 256 * a + b.toNat) 0

/-- The n big-endian bytes of a number. -/
def beBytes (n v : Nat) : List Byte := (leBytes n v).reverse

/-- The round constants. -/
def shaK : List (BitVec 64) :=
  [0x428A2F98D728AE22#64, 0x7137449123EF65CD#64, 0xB5C0FBCFEC4D3B2F#64, 0xE9B5DBA58189DBBC#64,
   0x3956C25BF348B538#64, 0x59F111F1B605D019#64, 0x923F82A4AF194F9B#64, 0xAB1C5ED5DA6D8118#64,
   0xD807AA98A3030242#64, 0x12835B0145706FBE#64, 0x243185BE4EE4B28C#64, 0x550C7DC3D5FFB4E2#64,
   0x72BE5D74F27B896F#64, 0x80DEB1FE3B1696B1#64, 0x9BDC06A725C71235#64, 0xC19BF174CF692694#64,
   0xE49B69C19EF14AD2#64, 0xEFBE4786384F25E3#64, 0x0FC19DC68B8CD5B5#64, 0x240CA1CC77AC9C65#64] ++
  [0x2DE92C6F592B0275#64, 0x4A7484AA6EA6E483#64, 0x5CB0A9DCBD41FBD4#64, 0x76F988DA831153B5#64,
   0x983E5152EE66DFAB#64, 0xA831C66D2DB43210#64, 0xB00327C898FB213F#64, 0xBF597FC7BEEF0EE4#64,
   0xC6E00BF33DA88FC2#64, 0xD5A79147930AA725#64, 0x06CA6351E003826F#64, 0x142929670A0E6E70#64,
   0x27B70A8546D22FFC#64, 0x2E1B21385C26C926#64, 0x4D2C6DFC5AC42AED#64, 0x53380D139D95B3DF#64,
   0x650A73548BAF63DE#64, 0x766A0ABB3C77B2A8#64, 0x81C2C92E47EDAEE6#64, 0x92722C851482353B#64] ++
  [0xA2BFE8A14CF10364#64, 0xA81A664BBC423001#64, 0xC24B8B70D0F89791#64, 0xC76C51A30654BE30#64,
   0xD192E819D6EF5218#64, 0xD69906245565A910#64, 0xF40E35855771202A#64, 0x106AA07032BBD1B8#64,
   0x19A4C116B8D2D0C8#64, 0x1E376C085141AB53#64, 0x2748774CDF8EEB99#64, 0x34B0BCB5E19B48A8#64,
   0x391C0CB3C5C95A63#64, 0x4ED8AA4AE3418ACB#64, 0x5B9CCA4F7763E373#64, 0x682E6FF3D6B2B8A3#64,
   0x748F82EE5DEFB2FC#64, 0x78A5636F43172F60#64, 0x84C87814A1F0AB72#64, 0x8CC702081A6439EC#64] ++
  [0x90BEFFFA23631E28#64, 0xA4506CEBDE82BDE9#64, 0xBEF9A3F7B2C67915#64, 0xC67178F2E372532B#64,
   0xCA273ECEEA26619C#64, 0xD186B8C721C0C207#64, 0xEADA7DD6CDE0EB1E#64, 0xF57D4F7FEE6ED178#64,
   0x06F067AA72176FBA#64, 0x0A637DC5A2C898A6#64, 0x113F9804BEF90DAE#64, 0x1B710B35131C471B#64,
   0x28DB77F523047D84#64, 0x32CAAB7B40C72493#64, 0x3C9EBE0A15C9BEBC#64, 0x431D67C49C100D4C#64,
   0x4CC5D4BECB3E42B6#64, 0x597F299CFC657E2A#64, 0x5FCB6FAB3AD6FAEC#64, 0x6C44198C4A475817#64]

/-- The initial value of SHA-384. -/
def shaInit : List (BitVec 64) :=
  [0xCBBB9D5DC1059ED8#64, 0x629A292A367CD507#64, 0x9159015A3070DD17#64, 0x152FECD8F70E5939#64,
   0x67332667FFC00B31#64, 0x8EB44A8768581511#64, 0xDB0C2E0D64F98FA7#64, 0x47B5481DBEFA4FA4#64]

/-- The message schedule: the last 16 words, newest first; answers the next word. -/
def shaNext (w : List (BitVec 64)) : BitVec 64 :=
  let a := w.getD 14 0
  let b := w.getD 1 0
  w.getD 15 0 + (a.rotateRight 1 ^^^ a.rotateRight 8 ^^^ (a >>> 7)) + w.getD 6 0 + (b.rotateRight 19 ^^^ b.rotateRight 61 ^^^ (b >>> 6))

/-- One round on the working variables a to h. -/
def shaRound (s : List (BitVec 64)) (k w : BitVec 64) : List (BitVec 64) :=
  let v (i : Nat) : BitVec 64 := s.getD i 0
  let t1 := v 7 + ((v 4).rotateRight 14 ^^^ (v 4).rotateRight 18 ^^^ (v 4).rotateRight 41) + ((v 4 &&& v 5) ^^^ (~~~(v 4) &&& v 6)) + k + w
  let t2 := ((v 0).rotateRight 28 ^^^ (v 0).rotateRight 34 ^^^ (v 0).rotateRight 39) + ((v 0 &&& v 1) ^^^ (v 0 &&& v 2) ^^^ (v 1 &&& v 2))
  [t1 + t2, v 0, v 1, v 2, v 3 + t1, v 4, v 5, v 6]

/-- The rounds of one block: `w` holds the schedule's next words, oldest first for the 16 of the block, then computed. -/
def shaRounds : List (BitVec 64) → List (BitVec 64) → List (BitVec 64) → List (BitVec 64) → List (BitVec 64)
  | [], _, _, s => s
  | k :: ks, w :: ws, past, s => shaRounds ks ws ((w :: past).take 16) (shaRound s k w)
  | k :: ks, [], past, s =>
    let w := shaNext past
    shaRounds ks [] ((w :: past).take 16) (shaRound s k w)

/-- One block of 128 bytes. -/
def shaBlock (h : List (BitVec 64)) (block : List Byte) : List (BitVec 64) :=
  let ws := (List.range 16).map (fun i => BitVec.ofNat 64 (beNat ((block.drop (8 * i)).take 8)))
  List.zipWith (· + ·) h (shaRounds shaK ws [] h)

/-- The blocks of a padded message; the fuel is their number. -/
def shaBlocks : Nat → List (BitVec 64) → List Byte → List (BitVec 64)
  | 0, h, _ => h
  | n + 1, h, bs => shaBlocks n (shaBlock h (bs.take 128)) (bs.drop 128)

/-- SHA-384: 48 bytes. -/
def sha384 (m : List Byte) : List Byte :=
  let n := m.length
  let zeros := (240 - (n + 1) % 128) % 128
  let p := m ++ [0x80#8] ++ List.replicate zeros 0 ++ beBytes 16 (8 * n)
  ((shaBlocks (p.length / 128) shaInit p).take 6).flatMap (fun w => beBytes 8 w.toNat)

/-- SHA-384 as a number, first byte most significant. -/
def hash384 (m : List Byte) : BitVec 384 := BitVec.ofNat 384 (beNat (sha384 m))

/-- The first four bytes of a SHA-384, as a register holds them (Table 14-15, R520). -/
def hashTag (h : BitVec 384) : BitVec 32 := BitVec.ofNat 32 (leNat ((beBytes 48 h.toNat).take 4))

/-! ## P-384 -/

def ecP : Nat := 2 ^ 384 - 2 ^ 128 - 2 ^ 96 + 2 ^ 32 - 1
def ecN : Nat := 0xffffffffffffffffffffffffffffffffffffffffffffffffc7634d81f4372ddf581a0db248b0a77aecec196accc52973
def ecB : Nat := 0xb3312fa7e23ee7e4988e056be3f82d19181d9c6efe8141120314088f5013875ac656398d8a2ed19d2a85c8edd3ec2aef
def ecGx : Nat := 0xaa87ca22be8b05378eb1c71ef320ad746e1d3b628ba79b9859f741e082542a385502f25dbf55296c3a545e3872760ab7
def ecGy : Nat := 0x3617de4a96262c6f5d9e98bf9292dc29f8f41dbd289a147ce9da3113b5f0b8c00a60b1ce1d7e819d7a431d7c90ea0e5f

/-- b^e mod m over the low n bits of e. -/
def powMod (m : Nat) : Nat → Nat → Nat → Nat → Nat
  | 0, _, _, acc => acc
  | n + 1, b, e, acc => powMod m n (b * b % m) (e / 2) (if e % 2 == 1 then acc * b % m else acc)

/-- The inverse modulo a prime. -/
def invMod (m a : Nat) : Nat := powMod m 384 (a % m) (m - 2) 1

/-- A point in Jacobian coordinates; z = 0 is the point at infinity. -/
structure EcPoint where
  x : Nat
  y : Nat
  z : Nat
deriving DecidableEq, Repr

def subMod (a b : Nat) : Nat := (a + ecP - b % ecP) % ecP

def EcPoint.dbl (p : EcPoint) : EcPoint :=
  if p.z == 0 || p.y == 0 then ⟨1, 1, 0⟩ else
  let z2 := p.z * p.z % ecP
  let m := 3 * (subMod p.x z2) * (p.x + z2) % ecP
  let y2 := p.y * p.y % ecP
  let s := 4 * p.x * y2 % ecP
  let x := subMod (m * m % ecP) (2 * s)
  ⟨x, subMod (m * (subMod s x) % ecP) (8 * (y2 * y2 % ecP)), 2 * p.y * p.z % ecP⟩

def EcPoint.add (p q : EcPoint) : EcPoint :=
  if p.z == 0 then q else if q.z == 0 then p else
  let z1 := p.z * p.z % ecP
  let z2 := q.z * q.z % ecP
  let u1 := p.x * z2 % ecP
  let u2 := q.x * z1 % ecP
  let s1 := p.y * z2 * q.z % ecP
  let s2 := q.y * z1 * p.z % ecP
  if u1 == u2 then (if s1 == s2 then p.dbl else ⟨1, 1, 0⟩)
  else
    let h := subMod u2 u1
    let r := subMod s2 s1
    let h2 := h * h % ecP
    let h3 := h2 * h % ecP
    let v := u1 * h2 % ecP
    let x := subMod (subMod (r * r % ecP) h3) (2 * v)
    ⟨x, subMod (r * (subMod v x) % ecP) (s1 * h3 % ecP), h * p.z * q.z % ecP⟩

/-- k times a point over the low n bits of k. -/
def EcPoint.mul : Nat → Nat → EcPoint → EcPoint → EcPoint
  | 0, _, _, acc => acc
  | n + 1, k, p, acc => EcPoint.mul n (k / 2) p.dbl (if k % 2 == 1 then acc.add p else acc)

/-- ECDSA with SHA-384: key X then Y and signature r then s, 48 bytes each, big-endian. -/
def ecdsaVerify (key msg sig : List Byte) : Bool :=
  let x := beNat (key.take 48)
  let y := beNat ((key.drop 48).take 48)
  let r := beNat (sig.take 48)
  let s := beNat ((sig.drop 48).take 48)
  let onCurve := decide (x < ecP) && decide (y < ecP) && y * y % ecP == (x * x * x + 3 * (ecP - x) + ecB) % ecP
  if key.length != 96 || sig.length != 96 || !onCurve || r == 0 || s == 0 || decide (ecN ≤ r) || decide (ecN ≤ s) then false
  else
    let z := beNat (sha384 msg)
    let w := invMod ecN s
    let p := (EcPoint.mul 384 (z * w % ecN) ⟨ecGx, ecGy, 1⟩ ⟨1, 1, 0⟩).add (EcPoint.mul 384 (r * w % ecN) ⟨x, y, 1⟩ ⟨1, 1, 0⟩)
    if p.z == 0 then false
    else
      let zi := invMod ecP p.z
      (p.x * (zi * zi % ecP) % ecP) % ecN == r

/-- The affine point of a scalar times the generator. -/
def ecMulG (k : Nat) : Nat × Nat :=
  let p := EcPoint.mul 384 k ⟨ecGx, ecGy, 1⟩ ⟨1, 1, 0⟩
  let zi := invMod ecP p.z
  let z2 := zi * zi % ecP
  (p.x * z2 % ecP, p.y * (z2 * zi % ecP) % ecP)

/-- The ECDSA signature of a message under a private key with the per-message secret k (R395): r then s, 48 bytes each, big-endian. -/
def ecdsaSign (key k : Nat) (msg : List Byte) : List Byte :=
  let k := k % ecN
  let r := (ecMulG k).1 % ecN
  beBytes 48 r ++ beBytes 48 (invMod ecN k * (beNat (sha384 msg) + r * key) % ecN)

/-! ## The identity key (R463) -/

/-- HMAC-SHA-384 under a key of at most 128 bytes. -/
def hmac384 (key msg : List Byte) : List Byte :=
  let pad := key ++ List.replicate (128 - key.length) 0
  sha384 (pad.map (· ^^^ 0x5C#8) ++ sha384 (pad.map (· ^^^ 0x36#8) ++ msg))

/-- HKDF-SHA-384 with no salt and one block of output. -/
def hkdf384 (secret label : List Byte) : List Byte := hmac384 (hmac384 (List.replicate 48 0) secret) (label ++ [1])

/-- "AK9 identity". -/
def identityLabel : List Byte := [0x41, 0x4B, 0x39, 0x20, 0x69, 0x64, 0x65, 0x6E, 0x74, 0x69, 0x74, 0x79]

/-- The identity private key, which nothing reads out. -/
def identityPrivate : Nat := beNat (hkdf384 (beBytes 48 Config.deviceSecret.toNat) identityLabel) % ecN

/-- The identity public key, X then Y. -/
def identityBytes : List Byte :=
  let p := ecMulG identityPrivate
  beBytes 48 p.1 ++ beBytes 48 p.2

/-- The certificate chain of slot 0, which names DEV_SERIAL and the identity public key. -/
def certChain : List Byte := Config.certChain Config.serial identityBytes

end Sys2Proof.Machine
end

