-- ==== Sys2Proof/Machine/Links.lean ====
section
/-! DEFINITION. Triundoc Link ports (R388–R403, R317–R319): frames and their replay, lanes, failure and alternates, the checks on
arriving traffic (Table 14-7), training and authentication (Sequence 14-1). Port states are those of Table 14-14. -/

namespace Sys2Proof.Machine

def Dev.modPort (d : Dev) (p : Nat) (f : Port → Port) : Dev := d.setPort p (f (d.port p))

/-- A port in service: TRUSTED or UNTRUSTED. -/
def Port.up (x : Port) : Bool := x.st == 4 || x.st == 5

/-- PORT[p]_CTL.ENABLE. -/
def Port.enabled (x : Port) : Bool := bit 0 x.ctl.toNat

/-- A record of port p (kind 7). -/
def Dev.portRecord (d : Dev) (p : Nat) (code : BitVec 16) (n : UnitNote) : Dev := d.unitRecord 7 0 p code n

/-! ## Failure and alternates (R398) -/

/-- The port leaves service: nothing is in flight at it any more and no lane is in use (Table 14-14). -/
def Port.drop (x : Port) : Port :=
  { x with
    lanes := 0, out := [], unacked := [], last := none, rxCredit := (0, 0, 0), rx := [], rxDrop := false, expiries := 0, lost := 0, nakked := false
    badFrame := none }

/-- A suite route that uses port p moves on. -/
def Dev.moveSuiteRoute (d : Dev) (p : Nat) (r : SuiteRoute) : SuiteRoute :=
  match r.cur with
  | some k => if r.ports.getD k 64 == p then { r with cur := nextAlt (fun i => d.trusted (r.ports.getD i 64)) k r.ports.length } else r
  | none => r

/-- Routes that use port p move on; a plan route between cabinets of this device uses none. -/
def Dev.moveRoutes (d : Dev) (p : Nat) : Dev :=
  let d := d.movePlanRoutes (fun key a => decide (64 ≤ key % 128) && bits 5 0 a.toNat == p)
  { d with suite := { d.suite with routes := d.suite.routes.map (fun (e : Nat × SuiteRoute) => (e.1, d.moveSuiteRoute p e.2)) } }

/-- A current route uses port p. -/
def Dev.carries (d : Dev) (p : Nat) : Bool :=
  d.suite.planRoutes.any (fun (e : Nat × Route) => decide (64 ≤ e.1 % 128) && (match e.2.cur with
    | some k => bits 5 0 (e.2.alts.getD k 0).toNat == p
    | none => false)) ||
  d.suite.routes.any (fun (e : Nat × SuiteRoute) => match e.2.cur with
    | some k => e.2.ports.getD k 64 == p
    | none => false)

/-- A port failure (R398): the port leaves service in state st, routes move, flits in flight are discarded and so is the step. An ISOLATED
port trains again only on RETRAIN (R403). -/
def Dev.failPort (d : Dev) (p : Nat) (st : BitVec 4) : Dev :=
  let x := d.port p
  let d := d.setPort p { x.drop with st := st, needRetrain := x.needRetrain || st == 7 }
  let d := { d with away := d.away.filter (fun m => (d.planRoute (min (epCab m.src) 12) (epDev m.dest)).bind Route.port != some p) }
  (d.moveRoutes p).unitDiscard 7 0 p fltLinkPort {}

/-- A port leaves service on request: as a failure where it carries a current route (R398). -/
def Dev.takeDown (d : Dev) (p : Nat) (st : BitVec 4) : Dev :=
  if d.carries p then d.failPort p st else d.setPort p { (d.port p).drop with st := st }

/-! ## Lanes (R397) -/

def laneCount (l : BitVec 4) : Nat := ((List.range 4).filter (fun i => bit i l.toNat)).length

/-- The lanes a port keeps when it loses some: at TDL 1.2 three lanes fall to two (Table 14-4), the lowest two (log 24). -/
def keepLanes (version : BitVec 8) (l : BitVec 4) : BitVec 4 :=
  if version == 0x12 && laneCount l == 3 then
    BitVec.ofNat 4 ((((List.range 4).filter (fun i => bit i l.toNat)).take 2).map (fun i => 2 ^ i)).sum
  else l

/-- The port goes on with fewer lanes: it sends LANE_DROP and then the frames it keeps again, which is no replay of R390 and is not counted
(Sequence 14-2, steps 2 to 4; log 119). -/
def Port.narrow (x : Port) (left : BitVec 4) : Port :=
  let x := { x with lanes := left, degraded := true }
  let f := x.frame x.txSeq [] (0, 0, 0) 1
  { x with laneFrame := some f, last := (x.unacked.getLast?.map (fun g => x.frame g.fseq g.flits (0, 0, 0) 0)).or (some f) }

/-- Lanes in use are dropped, each with its record: below two lanes the port fails. -/
def Dev.dropLanes (d : Dev) (p : Nat) (lanes : BitVec 4) : Dev :=
  let x := d.port p
  let bad := lanes &&& x.lanes
  if !x.up || bad == 0 then d else
  let d := (List.range (laneCount bad)).foldl (fun d _ => d.portRecord p fltLinkLane { lasting := true }) d
  let left := keepLanes x.version (x.lanes &&& ~~~bad)
  if laneCount left < 2 then (d.setPort p { x with degraded := true }).failPort p 6
  else (d.setPort p (x.narrow left)).voidFloor 2

/-- LANE_DROP: the partner's control unit names a lane. -/
def laneDrop (d : Dev) (p lane : Nat) : Dev := d.dropLanes p (BitVec.ofNat 4 (2 ^ lane))

/-- LANE_LOCK_LOSS: three or more lanes at once fail the port (R398). -/
def laneLockLoss (d : Dev) (p : Nat) (lanes : BitVec 4) : Dev :=
  let x := d.port p
  if !x.up then d
  else if 3 ≤ laneCount (lanes &&& x.lanes) then d.failPort p 6
  else d.dropLanes p lanes

/-! ## Replay (R390, R391) -/

/-- A replay starts: the frames kept are sent again, the newest last. -/
def Port.replay (x : Port) : Port :=
  let again := x.unacked.getLast?.map (fun f => x.frame f.fseq f.flits (0, 0, 0) 0)
  { x with replays := satInc16 x.replays, last := again.or x.last }

/-- How far ACKSEQ advances: frames acknowledged of those that are not yet. -/
def Port.ackAdvance (x : Port) (ack : BitVec 48) : Nat :=
  let n := (ack - (x.txSeq - BitVec.ofNat 48 x.unacked.length)).toNat
  if n ≤ x.unacked.length then n else 0

/-- An ACKSEQ arrives. One that has lost to the replay timer is counted in LATE and discarded, and the replay proceeds (R370, R391); an
advance of ACKSEQ ends the row of expiries (R398). -/
def Port.ack (x : Port) (late : Bool) (ack : BitVec 48) : Port :=
  let n := x.ackAdvance ack
  if n == 0 then x
  else if late then { x with late := satInc16 x.late, lost := x.lost - 1 }
  else Port.pump 48 { x with unacked := x.unacked.drop n, expiries := 0, lost := 0 }

/-- Port p takes an ACKSEQ. After an expiry it acknowledges the transmission that has lost, or its replay: nothing in it says which (log 48). -/
def Dev.takeAck (d : Dev) (p : Nat) (ack : BitVec 48) : Dev :=
  let x := d.port p
  if x.lost == 0 then d.setPort p (x.ack false ack) else (d.setPort p (x.ack (Config.arbiter d.free) ack)).fresh

/-- NAK: replay from the oldest unacknowledged frame. -/
def nak (d : Dev) (p : Nat) (ackSeq : BitVec 48) : Dev := if (d.port p).up then (d.takeAck p ackSeq).modPort p Port.replay else d

/-- REPLAY_TIMEOUT: the fourth expiry in a row fails the port (R398). -/
def replayTimeout (d : Dev) (p : Nat) : Dev :=
  let x := d.port p
  if !x.up || x.unacked.isEmpty then d
  else
    let d := d.setPort p { x.replay with expiries := x.expiries + 1, lost := x.lost + 1 }
    if x.expiries + 1 == 4 then d.failPort p 6 else d

/-! ## Arriving traffic (Table 14-7) -/

/-- A protocol violation: the sixteenth in one millisecond isolates the port (R403). -/
def Dev.protocol (d : Dev) (p : Nat) : Dev :=
  let x := d.port p
  let d := d.setPort p { x with protocol := satInc16 x.protocol, burst := x.burst + 1 }
  if 16 ≤ x.burst + 1 then d.failPort p 7 else d

def Dev.countDropped (d : Dev) (p : Nat) : Dev := d.modPort p (fun x => { x with dropped := satInc16 x.dropped })

/-- Check 4: FLT_LINK_AUTH once per training. -/
def Dev.tellAuth (d : Dev) (p : Nat) : Dev :=
  if (d.port p).authTold then d else (d.modPort p (fun x => { x with authTold := true })).portRecord p fltLinkAuth {}

/-- Check 5: FLT_LINK_RATE at most once per millisecond. -/
def Dev.tellRate (d : Dev) (p : Nat) : Dev :=
  if (d.port p).rateTold then d else (d.modPort p (fun x => { x with rateTold := true })).portRecord p fltLinkRate {}

/-- The limit of a class in PORT[p]_RATE (R421). -/
def Port.limit (x : Port) (cls : Nat) : Nat :=
  if cls == 1 then bits 9 0 x.rate.toNat else if cls == 2 then bits 19 10 x.rate.toNat else bits 29 20 x.rate.toNat

/-- A further flit of the class would exceed its limit (R401). -/
def Port.over (x : Port) (cls : Nat) : Bool := x.limit cls != 0 && decide (x.limit cls ≤ creditOf x.window cls)

def Port.countFlit (x : Port) (cls : Nat) : Port :=
  { x with window := addCredit x.window (b2n (cls == 1)) (b2n (cls == 2)) (b2n (cls == 3)) }

/-- A header flit that breaks check 6: reserved bits (Table 2-3) or an endpoint that R9 does not route. -/
def headerBad (h : List Byte) (m : Msg) : Bool :=
  bits 9 0 (atN h 0 8) != 0 || bits 15 0 (atN h 16 8) != 0 || (h.drop 24).any (· != 0) || !epValid m.dest || !epValid m.src

/-- A device of the suite: this one, or one with a suite route. -/
def Dev.inSuite (d : Dev) (n : Nat) : Bool := n == d.number.toNat || (d.suite.routes.find n).isSome

/-- [lo, hi) lies wholly inside one open window with the permission bit given (1 READ, 2 WRITE) (R402, R423). -/
def Dev.windowOpen (d : Dev) (perm lo hi : Nat) : Bool :=
  (List.range 16).any (fun n =>
    let w := (d.suite.wins.get 0#64 n).toNat
    bit 0 w && bit perm w && decide (bits 47 12 w * 4096 ≤ lo) && decide (hi ≤ bits 47 12 (d.suite.limits.get 0#64 n).toNat * 4096))

/-- Check 11 for a sideboard write message: every byte it writes lies inside an open window. -/
def Dev.sbWindow (d : Dev) (m : Msg) : Bool :=
  let h := sbHeader m.payload
  let base := 2 ^ 44 + epCab m.dest * 2 ^ 40
  d.windowOpen 2 (base + h.off) (base + h.off + (m.payload.length - 64)) &&
    (!bit 1 h.flags || d.windowOpen 2 (base + h.counter) (base + h.counter + 8))

/-- A whole class M message has arrived at port p: checks 6 to 11, then delivery or transit (R409). -/
def Dev.rxMessage (d : Dev) (p : Nat) (h : List Byte) (m : Msg) : Dev :=
  let note : UnitNote := { endpoint := m.src.toNat }
  if headerBad h m then d.protocol p
  else if !d.inSuite (epDev m.src) then d.countDropped p
  else if !(d.plan.st == .loaded || d.plan.st == .running || d.plan.st == .unloading) || m.planId != d.plan.planId then d.countDropped p
  else if epDev m.dest != d.number.toNat then
    match (d.planRoute 12 (epDev m.dest)).bind Route.port with
    | some q => d.pushMsg q m
    | none => (d.countDropped p).portRecord p fltMsgNoRoute { note with detail := m.seq.toNat }
  else if epVal m.dest == 0xF0 && !d.sbWindow m then (d.countDropped p).portRecord p fltLinkWindow note
  else { d with net := d.net ++ d.expand m }

/-- The credits that the ingress buffers of a port are worth, in flits of 64 bytes (Table 14-3): class H is not carried at TDL 1.2. -/
def creditCap (version : BitVec 8) : Nat × Nat × Nat := (128, 3072, if version == 0x12 then 0 else 896)

/-- Check 3: no credit is left for a flit of the class. Before credits are issued, only class H at TDL 1.2 is known to have none (log 47). -/
def Port.uncredited (x : Port) (cls : Nat) : Bool := if x.st == 4 then creditOf x.rxCredit cls == 0 else cls == 3 && x.version == 0x12

/-- A flit enters its ingress buffer. -/
def Port.useCredit (x : Port) (cls : Nat) : Port :=
  let c := x.rxCredit
  { x with rxCredit := (c.1 - b2n (cls == 1), c.2.1 - b2n (cls == 2), c.2.2 - b2n (cls == 3)) }

/-- The port answers with a frame of no flits: it acknowledges, and returns the credits of the flits that have left the buffers; those of a message
that is arriving have not. -/
def Port.reply (x : Port) : Port :=
  let cap := creditCap x.version
  let give := if x.st == 4 then (cap.1 - x.rxCredit.1, cap.2.1 - x.rxCredit.2.1 - x.rx.length, cap.2.2 - x.rxCredit.2.2) else (0, 0, 0)
  { x with rxCredit := addCredit x.rxCredit give.1 give.2.1 give.2.2, last := some (x.frame x.txSeq [] give 0) }

/-- A whole class M message is in: its coded pieces are decoded (R318, R319), then it is checked. -/
def Dev.rxWhole (d : Dev) (p : Nat) (h : List Byte) (ps : List (Option Entry × List Flit)) : Dev :=
  let x := d.port p
  if !x.rxCmp && ps.any (fun q => q.1.isSome) then d.setPort p { x with wireReject := satInc16 x.wireReject }
  else
    let blocks := ps.zipIdx.map (fun q => match d.cmp.piece q.1 with
      | some b => (b, false)
      | none => (poisonBlock d.free q.2, true))
    let bad := (blocks.filter (fun b => b.2)).length
    let d := if bad == 0 then d else (d.setPort p { x with wirePoisoned := satAdd16 x.wirePoisoned bad }).fresh
    d.rxMessage p h (msgOf h (blocks.flatMap (fun b => b.1)))

/-- A flit of class M joins the message that is arriving; a dropped message is followed to its end. -/
def Dev.rxMsgFlit (d : Dev) (p : Nat) (f : Flit) : Dev :=
  let x := d.port p
  let drop (d : Dev) : Dev := d.modPort p (fun x => { x with rxDrop := true })
  let d := if x.rxDrop && !x.rx.isEmpty then d
    else if x.uncredited 2 then drop (d.protocol p)
    else if x.st == 5 then drop ((d.countDropped p).tellAuth p)
    else if x.over 2 then drop ((d.countDropped p).tellRate p)
    else d.modPort p (fun x => { x.countFlit 2 with rxDrop := x.rxDrop && !x.rx.isEmpty })
  let x := (d.port p).useCredit 2
  if !x.up then d else
  match x.rx ++ [f] with
  | [] => d
  | h :: body =>
    match arrivedPieces 5 (bits 24 11 (atN h.data 0 8) + 1) body with
    | none => d.setPort p { x with rx := x.rx ++ [f] }
    | some ps =>
      let d := d.setPort p { x with rx := [], rxDrop := false }
      if x.rxDrop then d else d.rxWhole p h.data ps

/-- The port of the suite route in use to device n for a class (R407): class H crosses no port at TDL 1.2 (Table 14-4). -/
def Dev.suitePort (d : Dev) (cls n : Nat) : Option Nat :=
  match d.suite.routes.find n with
  | none => none
  | some r => r.cur.bind (fun k =>
      ((List.range r.ports.length).map (fun i => r.ports.getD ((k + i) % r.ports.length) 64)).find? (fun p =>
        d.trusted p && (cls != 3 || (d.port p).version != 0x12)))

/-- A flit of class D or H goes on to the device that it is bound for (R409). What one for this device says comes as the command it stands for,
which applies the checks of Table 14-7 from the fourth on to the whole: the contents of these classes are not laid down (log 47). -/
def Dev.onward (d : Dev) (f : Flit) : Dev :=
  let n := Config.flitDest f.data
  if n == d.number then d
  else match d.suitePort f.cls n.toNat with
    | some q => d.modPort q (fun x => x.push [f])
    | none => d

/-- One flit of an accepted frame. -/
def Dev.rxFlit (d : Dev) (p : Nat) (f : Flit) : Dev :=
  let x := d.port p
  if !x.up then d
  else if f.cls == 2 then d.rxMsgFlit p f
  else if x.uncredited f.cls then d.protocol p
  else if f.cls == 3 && Config.flitDest f.data == d.number then d.setPort p (x.useCredit 3)
  else if f.cls == 3 && x.st == 5 then (d.countDropped p).tellAuth p
  else if x.over f.cls then ((d.setPort p (x.useCredit f.cls)).countDropped p).tellRate p
  else (d.setPort p ((x.countFlit f.cls).useCredit f.cls)).onward f

/-! ## Frames (R389, R390) -/

/-- One step of the CRC-64 of ECMA-182, most significant bit first. -/
def crcBits : Nat → BitVec 64 → BitVec 64
  | 0, c => c
  | n + 1, c => crcBits n (if c.msb then (c <<< 1) ^^^ 0x42F0E1EBA9EA3693#64 else c <<< 1)

def crcBytes : List Byte → BitVec 64 → BitVec 64
  | [], c => c
  | b :: t, c => crcBytes t (crcBits 8 (c ^^^ (b.setWidth 64 <<< 56)))

/-- The CRC of a frame: control-unit bytes 0 to 55 and the 25 flit slots (log 25). -/
def frameCrc (f : List Byte) : BitVec 64 := crcBytes (f.take 56 ++ (f.drop 64).take 1600) 0

/-- Control-unit bytes 0 to 55 of a frame (Table 14-2). -/
def controlBytes (f : TxFrame) : List Byte :=
  let two (g : Flit → Nat) : Nat := ((List.range 25).map (fun i => g (f.flits.getD i ⟨0, [], 0, false⟩) * 4 ^ i)).sum
  leBytes 6 f.fseq.toNat ++ leBytes 6 f.ack.toNat ++ leBytes 2 f.credits.1 ++ leBytes 2 f.credits.2.1 ++ leBytes 2 f.credits.2.2 ++
    leBytes 7 (two (fun x => x.cls)) ++ leBytes 1 f.op ++ leBytes 7 (two (fun x => x.marks)) ++ List.replicate 23 0

/-- The 28 units of a frame as a port puts them on the wire (R389). -/
def frameBytes (f : TxFrame) : List Byte :=
  let ctl := controlBytes f
  let slots := (List.range 25).flatMap (fun i => let x := (f.flits.getD i ⟨0, [], 0, false⟩).data; x ++ List.replicate (64 - x.length) 0)
  let body := ctl ++ leBytes 8 (crcBytes (ctl ++ slots) 0).toNat ++ slots
  body ++ Config.frameParity body

/-- Byte i of a frame belongs to codeword i mod 8; a codeword with more than 8 changed symbols is left as it arrived (R389, log 25). -/
def uncorrected (errors : List (Nat × Byte)) : List (Nat × Byte) :=
  let n (k : Nat) : Nat := ((errors.filter (fun e => e.1 % 8 == k && e.2 != 0)).map (fun e => e.1)).dedup.length
  errors.filter (fun e => e.2 != 0 && decide (8 < n (e.1 % 8)))

/-- A frame after FEC. -/
def fecFrame (f : List Byte) (errors : List (Nat × Byte)) : List Byte := (uncorrected errors).foldl (fun f e => f.modify e.1 (· ^^^ e.2)) f

/-- The lanes that carried symbols: bytes are dealt to the active lanes in turn (R389). -/
def lanesOf (active : BitVec 4) (errors : List (Nat × Byte)) : BitVec 4 :=
  let ls := (List.range 4).filter (fun i => bit i active.toNat)
  BitVec.ofNat 4 (((errors.map (fun e => ls.getD (e.1 % ls.length) 0)).dedup).map (fun l => 2 ^ l)).sum

/-- A frame of 28 units whose CRC holds. -/
def frameIntact (f : List Byte) : Bool := f.length == 1792 && (frameCrc f).toNat == atN f 56 8

/-- The flits of a frame's slots in order; `pieces` are the slots whose flit begins a coded piece (log 46). -/
def frameFlits (f : List Byte) (pieces : BitVec 25) : List Flit :=
  (List.range 25).flatMap (fun i =>
    let cls := bits (2 * i + 1) (2 * i) (atN f 18 7)
    if cls == 0 then [] else [⟨cls, (f.drop (64 + 64 * i)).take 64, bits (2 * i + 1) (2 * i) (atN f 26 7), pieces.getLsbD i⟩])

/-- A frame that fails its CRC (check 1) is answered with NAK; later ones are only discarded until the replayed frame comes. When that one fails
again, the lanes that were bad both times are lasting (R390, R397). `awaited` says that it was sent as the next frame with flits: a frame
without flits, or a duplicate, that fails is not the first failure of another. -/
def Dev.badFrame (d : Dev) (p : Nat) (awaited : Bool) (lanes : BitVec 4) : Dev :=
  let x := d.port p
  if x.nakked && !awaited then d
  else
    let d := d.setPort p { x with
      replays := satInc16 x.replays, nakked := true, badFrame := if awaited then some lanes else x.badFrame
      last := some (x.frame x.txSeq [] (0, 0, 0) 2) }
    match awaited, x.badFrame with
    | true, some l => d.dropLanes p (l &&& lanes)
    | _, _ => d

/-- The control unit of an accepted frame: credits, then ACKSEQ, then a NAK. -/
def Dev.takeControl (d : Dev) (p : Nat) (f : List Byte) : Dev :=
  let x := d.port p
  let x := Port.pump 48 { x with txCredit := addCredit x.txCredit (atN f 12 2) (atN f 14 2) (atN f 16 2) }
  let d := (d.setPort p x).takeAck p (BitVec.ofNat 48 (atN f 6 6))
  if at1 f 25 == 2 then d.modPort p Port.replay else d

/-- An intact frame (checks 2 to 11): the next in order is delivered and answered, of a frame without flits the control unit counts, and a
duplicate (R391) or any other is discarded whole. -/
def Dev.goodFrame (d : Dev) (p : Nat) (f : List Byte) (pieces : BitVec 25) : Dev :=
  let x := d.port p
  let fseq := BitVec.ofNat 48 (atN f 0 6)
  let fs := frameFlits f pieces
  if !fs.isEmpty && fseq == x.rxSeq + 1 then
    let d := (d.takeControl p f).modPort p (fun x => { x with rxSeq := fseq, nakked := false, badFrame := none })
    let d := fs.foldl (fun d f => d.rxFlit p f) d
    if (d.port p).up then d.modPort p Port.reply else d
  else if (x.rxSeq - fseq).toNat < 2 ^ 47 then (if fs.isEmpty then d.takeControl p f else d)
  else if x.nakked then d
  else d.protocol p

/-- FRAME_RECEIVE: FEC, the CRC, and the checks of Table 14-7. -/
def frameReceive (d : Dev) (p : Nat) (f : List Byte) (errors : List (Nat × Byte)) (pieces : BitVec 25) : Dev :=
  let x := d.port p
  let g := fecFrame f errors
  if !x.up then d
  else if frameIntact g then d.goodFrame p g pieces
  else d.badFrame p (atN f 0 6 == (x.rxSeq + 1).toNat && !(frameFlits f pieces).isEmpty) (lanesOf x.lanes (uncorrected errors))

/-- RATE_WINDOW_RESTART (R401): the counts restart each microsecond; 1,000 of them make the millisecond of Table 14-7 and R403. -/
def rateWindowRestart (d : Dev) (p : Nat) : Dev :=
  d.modPort p (fun x =>
    let x := { x with window := (0, 0, 0) }
    if 999 ≤ x.ticks then { x with ticks := 0, burst := 0, rateTold := false } else { x with ticks := x.ticks + 1 })

/-! ## Training and authentication (Sequence 14-1) -/

/-- What training clears (R397, R420, R422, R325). -/
def Port.train (x : Port) : Port :=
  { x.drop with
    version := 0, lanes := 0, degraded := false, pNumber := none, pPort := 0, pTag := 0, pIdentity := 0, replays := 0,
    protocol := 0, dropped := 0, late := 0, burst := 0, rateTold := false, authTold := false, partnerVersions := 0, txCmp := false,
    rxCmp := false, wireReject := 0, wirePoisoned := 0, needRetrain := false, apart := false, laneFrame := none, authSent := none,
    cmpActive := x.cmpCtl }

/-- The highest version both ranges hold (R394). The device holds 2.0 and 1.2. -/
def commonVersion (allowV12 : Bool) (lo hi : BitVec 8) : Option (BitVec 8) :=
  if lo.toNat ≤ 0x20 && 0x20 ≤ hi.toNat then some 0x20
  else if allowV12 && lo.toNat ≤ 0x12 && 0x12 ≤ hi.toNat then some 0x12
  else none

/-- Fields of a credential blob (Table 14-5). -/
def blobRoot (b : List Byte) : List Byte := (b.drop 0x20).take 96
def blobCert (b : List Byte) : List Byte := (b.drop 0x80).take 256

/-- The SUBJECT_KEY of a certificate (Table 14-6). -/
def certKey (c : List Byte) : List Byte := (c.drop 0x10).take 96

/-- A certificate that verifies under the root key of a blob. -/
def certSigned (blob c : List Byte) : Bool := c.length == 256 && ecdsaVerify (blobRoot blob) (c.take 0x70) ((c.drop 0x70).take 96)

/-- The partner's certificate is accepted (R395). -/
def certOk (blob c : List Byte) : Bool :=
  certSigned blob c && c.take 8 == (blob.drop 8).take 8 && decide (atN blob 0x10 4 ≤ atN c 8 4)

/-- The data whose SHA-384 is the transcript (R395): a pair is ordered by the hashes of the subject keys. -/
def transcript (version : BitVec 8) (n1 c1 n2 c2 : List Byte) : List Byte :=
  if (hash384 (certKey c1)).toNat ≤ (hash384 (certKey c2)).toNat then version :: (n1 ++ n2 ++ c1 ++ c2)
  else version :: (n2 ++ n1 ++ c2 ++ c1)

/-- The 32-byte record of a table (Table 11-2). -/
def tableRecord (slot : Nat) (t : CodeTable) : List Byte :=
  [BitVec.ofNat 8 slot, BitVec.ofNat 8 t.fmt.toNat] ++ leBytes 2 t.gen.toNat ++
    (List.range 8).map (fun i => BitVec.ofNat 8 (t.lens.getD (2 * i) 0 + 16 * t.lens.getD (2 * i + 1) 0)) ++
    (List.range 16).map (fun i => BitVec.ofNat 8 (t.vals.getD i 0)) ++ List.replicate 4 0

/-- Compression offers (R317), by what PORT[p]_CMP_CTL held when the port trained. -/
def Dev.offerCmp (d : Dev) (x : Port) (q : Partner) : Port :=
  let slot := bits 7 4 x.cmpActive.toNat
  let shared := x.version == 0x20 && bit 1 q.cmpVersions.toNat
  let held := ((d.cmp.newest.find slot).toList ++ (d.cmp.prev.find slot).toList).map (tableRecord slot)
  let tx := match d.cmp.newest.find slot with
    | some t => q.cmpHeld.contains (tableRecord slot t)
    | none => false
  { x with
    partnerVersions := q.cmpVersions
    txCmp := shared && bit 0 x.cmpActive.toNat && q.cmpRx && tx
    rxCmp := shared && bit 1 x.cmpActive.toNat && q.cmpTx && held.contains q.cmpRecord }

/-- A failed authentication. -/
def Dev.authFail (d : Dev) (p : Nat) : Dev :=
  let x := d.port p
  let d := d.setPort p { x with st := 5, authFails := if x.authFails == 15 then 15 else x.authFails + 1, authTold := true }
  d.portRecord p fltLinkAuth {}

/-- Steps 3 to 5: the port sends its nonce and certificate, checks the partner's, signs the transcript with the device's identity key
(R395, R463), verifies the partner's signature, and settles compression and credits, with the credential blob that applied when the port
trained (R396). -/
def Dev.authenticate (d : Dev) (p : Nat) (q : Partner) : Dev :=
  let x := d.port p
  if x.authFails == 15 then d.setPort p { x with st := 5 }
  else
    let nonce := Config.randomBytes d.free 48
    let k := beNat (Config.randomBytes (d.free + 1) 48)
    let d := d.fresh.fresh
    match x.cred with
    | none => d.authFail p
    | some blob =>
      let text := transcript x.version nonce (blobCert blob) q.nonce q.cert
      let signs := q.answers && q.nonce.length == 48 && certOk blob q.cert
      let x := { x with authSent := some ⟨nonce, blobCert blob, if signs then some (ecdsaSign identityPrivate k text) else none⟩ }
      let d := d.setPort p x
      if !q.answers || q.cert.length != 256 then d.authFail p
      else
        let key := hash384 (certKey q.cert)
        let x := { x with pNumber := q.number, pPort := q.port, pTag := hashTag key, pIdentity := key }
        let d := d.setPort p x
        if signs && ecdsaVerify (certKey q.cert) text q.signature then
          d.setPort p { d.offerCmp x q with st := 4, txCredit := creditCap x.version, rxCredit := creditCap x.version, txSeq := 0, rxSeq := 0 }
        else d.authFail p

/-- Steps 1 and 2, then the rest. -/
def Dev.trainPort (d : Dev) (p : Nat) (q : Partner) : Dev :=
  let x := { (d.port p).train with cred := d.suite.cred }
  if laneCount q.lanes < 2 then d.setPort p { x with st := 0 }
  else
    let x := { x with partnerMax := q.maxVersion }
    match commonVersion (bit 1 x.ctl.toNat) q.minVersion q.maxVersion with
    | none => (d.setPort p { x with st := 8, lanes := q.lanes, needRetrain := true }).portRecord p fltLinkVersion {}
    | some v => (d.setPort p { x with version := v, lanes := keepLanes v q.lanes, st := 3 }).authenticate p q

/-- The port's domain is not OFF: its edge-die core is ON (Table 15-5), and in RECOVERY it is one of ports 0 to 3 (R460). -/
def Dev.portCore (d : Dev) (p : Nat) : Bool := d.domOn (164 + p / 9) && (d.boot.stage != 9 || decide (p < 4))

/-- Ports 0 to 3 of the suite head (R404). -/
def Dev.pcieGroup (d : Dev) (p : Nat) : Bool := decide (p < 4) && (d.suite.head || bit 0 d.bridge.ctl.toNat)

/-- The generation and width at which port group 0 trains as PCIe (Table 14-10), none where the link shows neither. -/
def pcieLink (q : Partner) : Option (BitVec 4 × BitVec 5) :=
  match ([6, 5, 4] : List (BitVec 4)).find? (fun r => decide (r.toNat ≤ q.pcieRate.toNat)),
    ([16, 8, 4] : List (BitVec 5)).find? (fun w => decide (w.toNat ≤ q.pcieWidth.toNat)) with
  | some r, some w => some (r, w)
  | _, _ => none

/-- Port group 0 trains as one PCIe endpoint (R404, R411), four lanes to a port from port 0 on (log 26); where it carried TDL traffic, that is
a port failure for its routes (R416). -/
def Dev.trainPcie (d : Dev) (q : Partner) : Dev :=
  match pcieLink q with
  | none => d
  | some (rate, width) =>
    let d := (List.range 4).foldl (fun d p => (d.takeDown p 1).modPort p (fun x =>
      { x.train with st := 9, lanes := if 4 * p < width.toNat then 0xF else 0 })) d
    { d with suite := { d.suite with head := true }, bridge := { d.bridge with linkUp := true, rate := rate, width := width } }

/-- The PCIe endpoint trains only while PERST_N is high (R495). -/
def Dev.trainEndpoint (d : Dev) (q : Partner) : Dev := if d.boot.perstLow then d else d.trainPcie q

/-- PORT_TRAIN: training that is due, after cold reset, ENABLE or RETRAIN. -/
def portTrain (d : Dev) (p : Nat) (q : Partner) : Dev :=
  let x := d.port p
  if !(x.st == 0 || x.st == 1) || x.needRetrain || !x.enabled || !d.portCore p then d
  else if d.pcieGroup p then d.trainEndpoint q
  else d.trainPort p q

/-- FAILED_PORT_RETRY: a FAILED port trains once per local-oscillator second. -/
def failedPortRetry (d : Dev) (p : Nat) (q : Partner) : Dev :=
  let x := d.port p
  if x.st != 6 || x.needRetrain || !x.enabled || !d.portCore p then d
  else if d.pcieGroup p then d.trainEndpoint q
  else d.trainPort p q

/-- AUTH_TIMEOUT: the reply of an exchange that is due does not come within 10 ms. A port that trains shows that in PORT_TRAIN. -/
def authTimeout (d : Dev) (p : Nat) : Dev :=
  let x := d.port p
  if !x.enabled || !d.portCore p || d.pcieGroup p then d
  else if x.st == 3 || (x.st == 5 && x.authFails != 15 && !x.apart) then d.authFail p
  else d

/-- AUTH_RETRY: an UNTRUSTED port repeats the exchange while AUTH_FAILS is below 15, but for one whose partner took no number (R406). -/
def authRetry (d : Dev) (p : Nat) (q : Partner) : Dev :=
  let x := d.port p
  if x.st == 5 && x.authFails != 15 && !x.apart then d.authenticate p q else d

/-! ## PORT[p]_CTL (R418) -/

/-- A reset of the host endpoint (R416): reads in flight are dropped and the window returns to its reset size; Memory Space Enable is 0
again (log 118). -/
def Bridge.dropReads (b : Bridge) : Bridge :=
  { b with
    w2Log2 := 34, w2Next := 34, memSpace := false, reads := [], cpl := none
    parked := b.parked.filter (fun a => match a with
      | .read w _ _ _ => w != .w0 && w != .w2 && w != .w4
      | .regRead _ => false
      | .page _ _ _ => false
      | _ => true) }

/-- Link-down of the host link (R416). -/
def Bridge.linkDown (b : Bridge) : Bridge := { b.dropReads with linkUp := false, rate := 0, width := 0 }

/-- RETRAIN: AUTH_FAILS restarts and the port leaves service to train. Ports of a PCIe endpoint train together. -/
def Dev.retrainPort (d : Dev) (p : Nat) : Dev :=
  if (d.port p).st == 9 then
    let d := (List.range 4).foldl (fun d i => d.modPort i (fun x => { x.train with st := 1, authFails := 0 })) d
    { d with bridge := d.bridge.linkDown }
  else (d.takeDown p 1).modPort p (fun x => { x.train with st := 1, authFails := 0 })

/-- CLR_COUNTS. -/
def portClr (d : Dev) (p : Nat) : Dev := d.modPort p (fun x => { x with replays := 0, protocol := 0, dropped := 0, late := 0 })

/-- ENABLE = 0: the port is DISABLED; with it port group 0 of a PCIe endpoint goes down as one link. -/
def Dev.disablePort (d : Dev) (p : Nat) : Dev :=
  let d := if (d.port p).st == 9 then
      (List.range 4).foldl (fun d i => d.modPort i (fun x => { x.drop with st := 0 })) { d with bridge := d.bridge.linkDown }
    else d
  d.takeDown p 10

/-- A write of PORT[p]_CTL. ENABLE from 0 to 1 makes training due, but for a port that trains again only on RETRAIN (R394, R403), which is DOWN. -/
def writePortCtl (p v : Nat) (d : Dev) : Dev × Bool :=
  let x := d.port p
  let was := x.enabled
  let now := bit 0 v
  let d := d.setPort p { x with ctl := BitVec.ofNat 32 (v % 4) }
  let d := if bit 3 v then portClr d p else d
  let d := if was && !now then d.disablePort p
    else if !was && now then d.modPort p (fun x => if x.needRetrain then { x with st := 0 } else { x.train with st := 1 })
    else d
  (if bit 2 v && now then d.retrainPort p else d, true)

/-- PORT[p]_TRAIN_STATE. -/
def readTrainState (x : Port) : Nat :=
  x.st.toNat * 2 ^ 28 + x.version.toNat * 2 ^ 20 + x.partnerMax.toNat * 2 ^ 12 + x.lanes.toNat * 2 ^ 8 + x.authFails.toNat * 2 ^ 4 + b2n x.degraded

/-- PORT[p]_PARTNER. -/
def readPartner (x : Port) : Nat :=
  (match x.pNumber with
    | some n => n.toNat * 2 ^ 58 + 2 ^ 57
    | none => 0) + x.pPort.toNat * 2 ^ 50 + x.pTag.toNat

def readPortErr (x : Port) : Nat := x.replays.toNat * 2 ^ 48 + x.protocol.toNat * 2 ^ 32 + x.dropped.toNat * 2 ^ 16 + x.late.toNat

def readPortCmp (x : Port) : Nat :=
  x.wirePoisoned.toNat * 2 ^ 48 + x.wireReject.toNat * 2 ^ 32 + x.partnerVersions.toNat * 2 ^ 24 + 2 * b2n x.rxCmp + b2n x.txCmp

end Sys2Proof.Machine
end

