-- ==== Sys2Proof/Machine/BenchControl.lean ====
section
/-! DEFINITION. Control of benches from outside their programs: the bench registers' effects (R57, R58, R64–R68, R127, R140,
R143–R150, R295, R474, R475), release into a step (R101, R327, R365), and the discard of a step at a bench (R52, R145, R293,
R333, R364, R365). A register effect answers whether the write was applied (Table 16-11). -/

namespace Sys2Proof.Machine

/-- Offset of a bench register (R516). -/
def benchReg (k o : Nat) : Nat := 0x1000000 + 0x100000 * (k / 96) + 0x10000 + 0x100 * (k % 96) + o

/-! ## BENCH_CTL (Table 2-10) -/

/-- HALT_REQ (R58, R63): at a bundle boundary the bench halts at once, else at the next. -/
def benchHaltReq (k : Nat) (d : Dev) : Dev :=
  let b := d.bench k
  if b.st != .running then d
  else if b.wait.isNone && !b.atStepEnd && !b.awaitDiscard then (d.setBench k { b with st := .halted, haltReq := false }).noteHalt
  else d.setBench k { b with haltReq := true }

/-- RESUME: HALTED to RUNNING. -/
def benchResume (k : Nat) (d : Dev) : Dev :=
  let b := d.bench k
  if b.st == .halted then d.setBench k { b with st := .running } else d

/-- x1 to x30 of the checkpoint; x31 stands as it is (R365). -/
def Bench.restore (b : Bench) : Bench :=
  let x31 := b.arch.x.get XReg.reset 31
  { b with arch := { b.arch with pc := b.checkpoint.pc, x := b.checkpoint.x.set 31 x31, a := b.checkpoint.a, n := b.checkpoint.n, vl := b.checkpoint.vl }
           repIdx := 0, wait := none }

/-- CLEAR_FAULT (R64, R365): FAULTED to READY at the checkpoint. -/
def benchClearFault (k : Nat) (d : Dev) : Dev :=
  let b := d.bench k
  if b.st == .faulted then (d.setBench k { b.restore with st := .ready }).tellHeld else d

/-- INBOX_FLUSH: accepted in HALTED or FAULTED; every queued message counts in STALE. -/
def benchInboxFlush (k : Nat) (d : Dev) : Dev :=
  let b := d.bench k
  if b.st == .halted || b.st == .faulted then d.setBench k (b.dropMsgs (fun _ => true)) else d

/-- CLR_COUNTS: STALE and OVERSIZE. -/
def benchClrCounts (k : Nat) (d : Dev) : Dev := d.modBench k (fun b => { b with stale := 0, oversize := 0 })

/-- A write of BENCH_CTL: several bits act in the order clear counts, flush, CLEAR_FAULT, RESUME, HALT_REQ (log 17). It is applied where
one of the bits set is accepted, or none is set (log 120). -/
def writeBenchCtl (k v : Nat) (d : Dev) : Dev × Bool :=
  let st (d : Dev) : BenchSt := (d.bench k).st
  let r := actBit (bit 4 v) (fun _ => true) (benchClrCounts k) (d, bits 4 0 v == 0)
  let r := actBit (bit 3 v) (fun d => st d == .halted || st d == .faulted) (benchInboxFlush k) r
  let r := actBit (bit 2 v) (fun d => st d == .faulted) (benchClearFault k) r
  let r := actBit (bit 1 v) (fun d => st d == .halted) (benchResume k) r
  actBit (bit 0 v) (fun d => st d == .running) (benchHaltReq k) r

/-! ## INBOX_Q (R51, R68) -/

/-- A write of INBOX_Q[q]: EPOCH and EPOCH_CHK are always written; a CAPACITY that breaks R68 is ignored and recorded.
One that breaks it twice, by the sum and by the bench's state, records FLT_INBOX_CFG alone (DESIGN CHOICE, log 100). -/
def writeInboxQ (k q v : Nat) (d : Dev) : Dev × Bool :=
  let b := d.bench k
  let old := b.queue q
  let cap := bits 7 0 v
  let others := (((List.range 8).filter (· != q)).map (fun i => (b.queue i).cap.toNat)).sum
  let free := b.st == .loading || b.st == .halted || b.st == .faulted
  let tooMuch := decide (128 < others + cap)
  let busy := !tooMuch && cap != old.cap.toNat && !free
  let b := b.writeEpoch q (BitVec.ofNat 16 (bits 31 16 v)) (bit 15 v)
  let b := if tooMuch || busy then b else { b with queues := b.queues.set q { b.queue q with cap := BitVec.ofNat 8 cap } }
  let d := d.setBench k b
  let off := benchReg k (0x20 + 4 * q)
  (if tooMuch then d.regRefused 12 (k / 96) (k % 96) fltInboxCfg off
   else if busy then d.regRefused 12 (k / 96) (k % 96) fltBenchBusy off else d, true)

/-! ## FAULT (R66) -/

/-- A read of BENCH_FAULT clears FAULT_PENDING. -/
def benchFaultRead (k : Nat) (d : Dev) : Dev := d.modBench k (fun b => { b with faultPending := false })

/-- OVERRUN is cleared by writing 1. -/
def writeBenchFault (k v : Nat) (d : Dev) : Dev × Bool :=
  (if bit 31 v then d.modBench k (fun b => { b with faultOverrun := false }) else d, true)

/-! ## Counters -/

/-- MAT_CTL.CLR_COUNTS (R127). -/
def matClrCounts (k : Nat) (d : Dev) : Dev := d.modBench k (fun b => { b with sat := 0, nan := 0 })

/-- COPY_CTL.CLR_COUNTS (R295). -/
def copyClrCounts (k : Nat) (d : Dev) : Dev := d.modBench k (fun b => { b with skipped := 0, poisonSectors := 0 })

/-- SHELF_CTL.CLR_COUNTS (R148). -/
def shelfClrCounts (k : Nat) (d : Dev) : Dev :=
  d.modBench k (fun b => { b with shelf := { b.shelf with overruns := 0, dropped := 0 } })

/-! ## The shelf from outside (R140, R142–R144) -/

/-- A waiting MPUSH or VPOP of bench k goes on with its bundle. -/
def retryShelf (k : Nat) (p : SlotOp → Bool) (d : Dev) : Dev :=
  match (d.bench k).wait with
  | some w => if w.kind == 5#3 && w.bundle.slots.any (fun s => p s.2) && d.issues k then execBundle d k w.bundle else d
  | none => d

/-- MPUSH_BACKPRESSURE_ADMIT (R142). -/
def admitMpush (k : Nat) (d : Dev) : Dev := if (d.bench k).shelf.bpWait then retryShelf k SlotOp.isMpush d else d

/-- VPOP_ROWS_ARRIVE (R139): rows reach a VPOP that waits on an empty shelf. -/
def vpopRows (k : Nat) (d : Dev) : Dev := if (d.bench k).shelf.items.length ≤ (d.bench k).shelf.own then d else retryShelf k SlotOp.isVpop d

/-- Whether a step is in flight on this device. -/
def Dev.inStep (d : Dev) : Bool := d.seq.run.isSome

/-- The oldest unretired bundle of a bench, as its records name it: the one that waits, else the one at the PC (R104). -/
def Bench.oldestIssue (b : Bench) : Issue :=
  match b.wait with
  | some w => ⟨w.bundle.tag, b.arch.pc, 0, w.bundle.rep.val != 0, b.repIdx⟩
  | none =>
    let h := b.program.readNat b.arch.pc 4
    ⟨BitVec.ofNat 16 (bits 23 8 h), b.arch.pc, 0, bits 7 4 h != 0, b.repIdx⟩

/-- FLUSH (R143, R144): every item is dropped, a waiting MPUSH is admitted into the empty shelf, and for a bench RUNNING or
HALTED in a step the step is discarded with FLT_SHELF_FLUSHED; the record describes the oldest unretired bundle (R104). Until the
discard reaches the bench it goes on (Table 5-4). -/
def shelfFlush (k : Nat) (d : Dev) : Dev :=
  let b := d.bench k
  let hit := (b.st == .running || b.st == .halted) && d.inStep
  let empty : Shelf := { b.shelf with items := [], headPair := 0, dropped := satAdd16 b.shelf.dropped b.shelf.items.length, own := 0 }
  let d := admitMpush k (d.setBench k { b with shelf := empty })
  if hit then d.benchFault k fltShelfFlushed b.oldestIssue 0 else d

/-- A write of SHELF_CTL: MODE changes only in LOADING, HALTED or FAULTED (R140); CLR_COUNTS before FLUSH. A MODE bit equal to the
current mode writes no MODE and records nothing in any state (DESIGN CHOICE, log 110). A write that the state keeps from MODE is applied
where it sets another bit (Table 16-11, log 120). -/
def writeShelfCtl (k v : Nat) (d : Dev) : Dev × Bool :=
  let b := d.bench k
  let free := b.st == .loading || b.st == .halted || b.st == .faulted
  let d := if bit 2 v then shelfClrCounts k d else d
  let d := if bit 1 v == b.shelf.mode then d
    else if free then d.modBench k (fun b => { b with shelf := { b.shelf with mode := bit 1 v } })
    else d.regRefused 12 (k / 96) (k % 96) fltBenchBusy (benchReg k 0x44)
  (if bit 0 v then shelfFlush k d else d, free || bit 0 v || bit 2 v)

/-- SHELF_STATUS.OVERRUN is cleared by writing 1 (Table 5-6). -/
def writeShelfStatus (k v : Nat) (d : Dev) : Dev × Bool :=
  (if bit 0 v then d.modBench k (fun b => { b with shelf := { b.shelf with overrun := false } }) else d, true)

/-! ## TRACE_CTL (R474, R475, Table 16-18) -/

/-- The stored bits of TRACE_CTL. -/
def traceRw : BitVec 64 := 0xFFFFFFFFFFFFC37F#64

/-- A write of TRACE_CTL: TRIG_ARM arms the trigger. -/
def writeTraceCtl (k : Nat) (v : BitVec 64) (armHalf : Bool) (d : Dev) : Dev × Bool :=
  (d.modBench k (fun b =>
    let t := b.trace.enable (v &&& traceRw)
    { b with trace := { t with armed := b.trace.armed || (armHalf && bit 13 v.toNat) } }), true)

/-! ## Release and discard -/

/-- The checkpoint taken at a release (R365). -/
def Bench.mark (b : Bench) : Bench :=
  { b with checkpoint := { pc := b.arch.pc, x := b.arch.x.erase 31, a := b.arch.a, n := b.arch.n, vl := b.arch.vl } }

/-- Release into a step (R101, R246, R327, R365): a bench at STEPEND retires it and goes on; a READY bench starts; the checkpoint
is taken, the read-staging buffer emptied, and messages of the discarded step are admitted no longer to be discarded (R52). -/
def Dev.release (d : Dev) (k : Nat) : Dev :=
  let b := d.bench k
  let d := match b.st, b.atStepEnd, b.wait with
    | .ready, _, _ => d.setBench k { b with st := .running, atStepEnd := false, wait := none }
    | _, true, some w =>
      let d := d.waitEnds k w.bundle 0
      (d.modBench k (fun b => { b with atStepEnd := false })).retire k w.bundle (b.arch.pc + (if w.bundle.fetched then 4 * (w.bundle.words + 1) else 0))
    | _, true, none => (d.trace k 6 b.oldestIssue 0 3).modBench k (fun b =>
        { b with atStepEnd := false, st := if b.haltReq then .halted else b.st, haltReq := false })
    | _, false, _ => d
  d.modBench k (fun b => { b.mark with staging := [], dropStep := none })

/-- The discard of a step at a bench (R52, R145, R293, R327, R333, R364, R365): messages of the step, the shelf, transfers and
waits go; the bench is restored to its checkpoint and waits as if at STEPEND. A FAULTED bench stays FAULTED. -/
def Bench.discardStep (b : Bench) (step : BitVec 16) : Bench :=
  let b := b.dropMsgs (fun m => m.step == step)
  let b := { b with
    dropStep := some step, shelf := b.shelf.flush, transfers := [], staging := [], fence := none, wait := none,
    awaitDiscard := false, mustDiscard := false }
  if b.st == .running || b.st == .halted then { b.restore with atStepEnd := true } else b

/-- BENCH_STEP_DISCARD: acts on a bench that the sequencer's ABANDON has reached. Its wait ends, and the wait as if at STEPEND, with
the bundle at the checkpoint, begins (R105, Table 16-18; log 98); one that waited so already waits on. -/
def benchStepDiscard (k : Nat) (d : Dev) : Dev :=
  let b := d.bench k
  if b.mustDiscard then
    let d := match b.wait with
      | some w => d.waitEnds k w.bundle b.repIdx
      | none => d
    let d := d.modBench k (fun b => b.discardStep (BitVec.ofNat 16 d.step.toNat))
    let b' := d.bench k
    if b'.atStepEnd && !(b.atStepEnd && b.wait.isNone) then d.trace k 6 b'.oldestIssue 0 11 else d
  else d

/-! ## Readings of the bench registers -/

/-- BENCH_STATUS (Table 2-11); a KiB of the outbox used in part counts (log 100). -/
def readBenchStatus (d : Dev) (k : Nat) : Nat :=
  let b := d.bench k
  let st := match b.st with
    | .off => 0
    | .spare => 1
    | .loading => 2
    | .ready => 3
    | .running => 4
    | .halted => 5
    | .faulted => 6
    | .unused => 7
  if d.domOn (d.benchDom k) then
    b.inboxUsed * 2 ^ 24 + (d.outboxBytes k + 1023) / 1024 * 2 ^ 16 + d.physColOf k * 2 ^ 12 + b.csv.toNat * 2 ^ 8 +
      8 * b2n b.faultPending + st
  else st

/-- BENCH_FAULT (Table 2-12). -/
def readBenchFault (b : Bench) : Nat := b2n b.faultOverrun * 2 ^ 31 + b.faultCode.toNat

/-- BENCH_PC (Table 3-17). -/
def readBenchPc (b : Bench) : Nat :=
  b2n (b.waitKind != 0) * 2 ^ 31 + b.waitKind.toNat * 2 ^ 28 + b.arch.pc % 2 ^ 18

/-- INBOX_Q (Table 2-14). -/
def readInboxQ (b : Bench) (q : Nat) : Nat :=
  let c := b.queue q
  c.epoch.toNat * 2 ^ 16 + b2n c.chk * 2 ^ 15 + c.cap.toNat

/-- SHELF_STATUS (Table 5-6): a step leaves no MPUSH half written, so WRITING reads 0. -/
def readShelfStatus (b : Bench) : Nat :=
  b.shelf.headPair * 2 ^ 8 + b.shelf.held * 2 ^ 3 + 2 * b2n b.shelf.bpWait + b2n b.shelf.overrun

/-- TRACE_STATUS (Table 16-19). -/
def readTraceStatus (b : Bench) : Nat :=
  b.trace.dropped.toNat * 2 ^ 48 + b2n b.trace.armed * 2 ^ 33 + b2n b.trace.stopped * 2 ^ 32 + b.trace.seq.toNat % 2 ^ 32

end Sys2Proof.Machine
end

