-- ==== Sys2Proof/Machine/Sequencer.lean ====
section
/-! DEFINITION. The step sequencer (R236–R264, R363, R369, R370): result records, ring commands, admission, slot tables, token
reports, commit decisions, tile phases, prefixes, adapters, leader and follower, and the end of an unload (R63, R264). -/

namespace Sys2Proof.Machine

/-! ## Result records (R239, R253, R254) -/

/-- Units of a record of n bytes. -/
def unitsOf (n : Nat) : Nat := (n + 63) / 64

/-- Bytes padded with zeros to whole units. -/
def padUnits (bs : List Byte) : List Byte := bs ++ List.replicate (64 * unitsOf bs.length - bs.length) 0

/-- Units of the result ring that hold records the host has not read. -/
def Seq.used (q : Seq) : Nat := (q.resultTail - q.resultHead).toNat

/-- Free units of the result ring, beside those that waiting records and the step in flight hold. -/
def Seq.room (q : Seq) : Nat :=
  2 ^ ringLog2 q.resultBase - (q.used + (q.records.map (fun r => unitsOf r.bytes.length)).sum +
    (match q.run with
    | some r => unitsOf r.reserve
    | none => 0))

/-- The header of Table 9-10. -/
structure RecHead where
  kind : Nat
  outcome : Nat := 0
  floorVoid : Nat := 0
  template : Nat := 0xFFFE
  fault : Nat := 0
  entries : Nat := 0
  gens : Nat := 0
  prompt : Nat := 0
deriving DecidableEq, Repr

def RecHead.bytes (h : RecHead) (units step : Nat) (rseq : BitVec 48) : List Byte :=
  leBytes 1 h.kind ++ leBytes 1 h.outcome ++ leBytes 1 h.floorVoid ++ [0] ++ leBytes 4 units ++ leBytes 8 (rseq.toNat * 2 ^ 16) ++
    leBytes 8 step ++ leBytes 2 h.template ++ leBytes 2 h.fault ++ leBytes 4 h.entries ++ leBytes 4 h.gens ++ leBytes 4 h.prompt ++
    List.replicate 24 0

/-- Adds a record to those to be written. -/
def Dev.addRecord (d : Dev) (h : RecHead) (body : List Byte) (frees : List Nat) : Dev :=
  let b := padUnits body
  let r := h.bytes (1 + b.length / 64) d.step.toNat d.seq.rseq ++ b
  { d with seq := { d.seq with records := d.seq.records ++ [⟨r, frees⟩], rseq := d.seq.rseq + 1 } }

/-- A notice (Table 9-14). -/
def Dev.notice (d : Dev) (n code cmd arg : Nat) : Dev :=
  d.addRecord { kind := 3 } (leBytes 2 n ++ leBytes 2 code ++ leBytes 4 cmd ++ leBytes 8 arg ++ List.replicate 48 0) []

/-- A reference to a prefix ends (R257): a released prefix with none left is freed, and its notice follows. -/
def Dev.unref (d : Dev) (handle : BitVec 64) : Dev :=
  match d.seq.prefixes.find? (fun p => p.handle == handle) with
  | none => d
  | some p =>
    let p := { p with refs := p.refs - 1 }
    if p.released && p.refs == 0 then
      ({ d with seq := { d.seq with prefixes := d.seq.prefixes.filter (fun q => q.handle != handle) } } : Dev).notice 2 0 0 handle.toNat
    else { d with seq := { d.seq with prefixes := d.seq.prefixes.map (fun q => if q.handle == handle then p else q) } }

def Seq.req (q : Seq) (i : Nat) : Req := q.reqs.get Req.reset i
def Dev.setRq (d : Dev) (i : Nat) (r : Req) : Dev := { d with seq := { d.seq with reqs := d.seq.reqs.set i r } }

/-- A record that carries retirements: the slots leave with it, and their prefixes lose a reference (R257). -/
def Dev.putRecord (d : Dev) (h : RecHead) (body : List Byte) (frees : List Nat) : Dev :=
  frees.foldl (fun d i =>
    let r := d.seq.req i
    (d.setRq i { r with st := .retired }).unref r.handle) (d.addRecord h body frees)

/-- One record is written, the tail advances, and the vector is raised (R239). -/
def Dev.writeRecord (d : Dev) (r : SeqRec) : Dev :=
  let q := d.seq
  let n := unitsOf r.bytes.length
  let d := (List.range n).foldl (fun d i =>
    d.putUnit (ringAddr q.resultBase + 64 * ((q.resultTail.toNat + i) % 2 ^ ringLog2 q.resultBase)) ((r.bytes.drop (64 * i)).take 64)
      false false) d
  let d := { d with seq := { d.seq with
    resultTail := q.resultTail + BitVec.ofNat 32 n, reqs := r.frees.foldl (fun t i => t.erase i) d.seq.reqs } }
  if bit 2 q.ctl.toNat then d.interrupt (BitVec.ofNat 11 (bits 26 16 q.ctl.toNat)) else d

/-- Writes waiting records in order while they fit. -/
def Dev.writeRecords : List SeqRec → Dev → Dev
  | [], d => { d with seq := { d.seq with records := [] } }
  | r :: t, d =>
    let q := d.seq
    if d.ringOk (ringAddr q.resultBase) (64 * 2 ^ ringLog2 q.resultBase) &&
        decide (q.used + unitsOf r.bytes.length ≤ 2 ^ ringLog2 q.resultBase) then (d.writeRecord r).writeRecords t
    else { d with seq := { q with records := r :: t } }

/-- Records are written once the decision has been carried out everywhere (R335), and a follower says that it has. -/
def Dev.flush (d : Dev) : Dev := if d.actionsPending then d else (d.writeRecords d.seq.records).tellActed

/-! ## Entries (Tables 9-11, 9-17) -/

/-- A request entry. -/
def reqEntry (i : Nat) (r : Req) (status token logprob position : Nat) : List Byte :=
  leBytes 2 i ++ leBytes 2 status ++ leBytes 4 r.len ++ leBytes 4 token ++ leBytes 4 logprob ++ leBytes 8 r.clientId.toNat ++
    leBytes 4 position ++ leBytes 4 r.generated

/-- STATUS of a retirement (Table 9-11). -/
def retireStatus (reason : Nat) (passed : Bool) : Nat := 8 + 16 * reason + 4 * b2n passed

/-- A tile entry. -/
def tileEntry (t : TileTask) (status : Nat) : List Byte :=
  leBytes 4 t.task.toNat ++ leBytes 2 status ++ [0, 0] ++ leBytes 8 t.clientId.toNat ++ List.replicate 16 0

/-- Whether a request is in the step in flight. -/
def Seq.inRun (q : Seq) (i : Nat) : Bool :=
  match q.run with
  | some r => r.gens.any (fun f => f.req == i) || r.chunks.any (fun f => f.req == i)
  | none => false

/-! ## Eligibility and choice (R243, R244) -/

/-- A deadline that step n meets. -/
def Req.due (r : Req) (n : Nat) : Bool := r.deadline != 0 && decide (r.deadline.toNat ≤ n)

/-- Generating requests eligible for step n, by step last served, then slot. -/
def Seq.eligGen (q : Seq) (n : Nat) (excl : List Nat) : List Nat :=
  let c := (q.reqs.filter (fun (p : Nat × Req) => p.2.st == .generating && !p.2.due n && !excl.contains p.1 &&
    decide (p.2.len + 1 ≤ 64 * p.2.readySets))).map (fun p => (p.2.served.toNat, p.1))
  (c.insertionSort (fun a b => a.1 ≤ b.1)).map (fun p => p.2)

/-- Prompt tokens available. -/
def Req.avail (r : Req) : Nat := min r.promptLen (64 * r.readySets) - r.len

/-- Prompt requests eligible for step n, in the order of their SUBMITs. -/
def Seq.eligPrompt (q : Seq) (n : Nat) (excl : List Nat) : List Nat :=
  let c := (q.reqs.filter (fun (p : Nat × Req) => p.2.st == .prompt && !p.2.due n && !excl.contains p.1 &&
    decide (0 < p.2.avail))).map (fun p => (p.2.order, p.1))
  (c.insertionSort (fun a b => a.1 ≤ b.1)).map (fun p => p.2)

/-- place_chunks of R244. -/
def placeChunks (q : Seq) (chunks tokens : Nat) : List Nat → Nat → List SlotFill
  | [], _ => []
  | i :: t, s =>
    if chunks ≤ s then [] else
    let r := q.req i
    let k := min r.avail ((chunks - s) * tokens)
    let n := (k + tokens - 1) / tokens
    (List.range n).map (fun j =>
      let count := min tokens (k - j * tokens)
      { slot := s + j, req := i, pos := r.len + j * tokens, count := count, last := r.len + j * tokens + count == r.promptLen }) ++
      placeChunks q chunks tokens t (s + n)

/-- Keeps the better of two candidates: larger fill, then smaller floor time, then lower index. -/
def betterFill (a b : Nat × Nat × List SlotFill) : Bool :=
  let f (x : Nat × Nat × List SlotFill) : Nat := (x.2.2.map (fun s => s.count)).sum
  decide (f a < f b) || (f a == f b && decide (b.2.1 < a.2.1))

/-- The choice of R244: template, generation slots, chunk slots. -/
def Seq.choose (q : Seq) (n : Nat) (excl : List Nat) : Option (Nat × List Nat × List SlotFill) :=
  let ts := q.sec.templates
  let gmax := ts.foldl (fun m t => max m t.gen) 0
  let g := (q.eligGen n excl).take gmax
  let p := q.eligPrompt n excl
  let cand := (List.range ts.length).filterMap (fun i => match ts[i]? with
    | some t => if g.length ≤ t.gen then some (i, t) else none
    | none => none)
  let lim := cand.filter (fun c => decide (c.2.floorNs ≤ q.stepLimit.toNat))
  let least := cand.foldl (fun m c => min m c.2.floorNs) (2 ^ 32)
  let cand := if g.isEmpty then cand else if lim.isEmpty then cand.filter (fun c => c.2.floorNs == least) else lim
  let fills := cand.map (fun c => (c.1, c.2.floorNs, placeChunks q c.2.chunks c.2.chunkTokens p 0))
  match fills with
  | [] => none
  | f :: t =>
    let best := t.foldl (fun a b => if betterFill a b then b else a) f
    if g.isEmpty && best.2.2.isEmpty then none else some (best.1, g, best.2.2)

/-! ## Prompt token ids (R243) -/

/-- Reads token ids at a device memory address through the narrow path; marks do not bite here (R350). -/
def Dev.readIds (d : Dev) (a count : Nat) : Option (Dev × List Nat) :=
  if bits 47 44 a != 0 || (d.stkRefusal a (4 * count) .device false).isSome then none
  else
    let (d, bs, _) := d.readUnit ed0Block a (4 * count)
    some (d, (List.range count).map (fun i => leNat ((bs.drop (4 * i)).take 4)))

/-- L0 of a request: its prefix's TOKENS, or 0. -/
def Seq.base (q : Seq) (r : Req) : Nat := ((q.prefixes.find? (fun p => p.handle == r.handle)).map (fun p => p.tokens)).getD 0

/-- Reads the ids of every chunk slot; the first request with an id of VOCAB or above, or with ids that cannot be read, is
answered instead. -/
def Dev.readChunks : List SlotFill → Dev → Dev × Except Nat (List (SlotFill × List Nat))
  | [], d => (d, .ok [])
  | f :: t, d =>
    let r := d.seq.req f.req
    match d.readIds (r.promptAddr.toNat + 4 * (f.pos - d.seq.base r)) f.count with
    | none => (d, .error f.req)
    | some (d, ids) =>
      if ids.any (fun x => decide (d.seq.sec.vocab ≤ x)) then (d, .error f.req)
      else match d.readChunks t with
      | (d, .error i) => (d, .error i)
      | (d, .ok rest) => (d, .ok ((f, ids) :: rest))

/-- The choice for step n with its ids, and the requests that leave with INPUT; the fuel bounds their number. -/
def Dev.chooseStep (n : Nat) : Nat → List Nat → Dev → Dev × List Nat × Option (Nat × List Nat × List (SlotFill × List Nat))
  | 0, excl, d => (d, excl, none)
  | k + 1, excl, d =>
    match d.seq.choose n excl with
    | none => (d, excl, none)
    | some (t, g, fs) =>
      match d.readChunks fs with
      | (d, .error i) => d.chooseStep n k (excl ++ [i])
      | (d, .ok cs) => (d, excl, some (t, g, cs))

/-! ## The slot table (R245) -/

/-- The header of Table 9-7. -/
def slotHeader (step template gens chunks tokens : Nat) : List Byte :=
  leBytes 8 step ++ leBytes 2 template ++ leBytes 2 gens ++ leBytes 2 chunks ++ [0, 0] ++ leBytes 4 tokens ++ List.replicate 44 0

/-- An entry of Table 9-8. -/
def Seq.slotEntry (q : Seq) (i : Nat) (r : Req) (last : Bool) (pos value : Nat) : List Byte :=
  let buf := match q.adapters.find r.adapter.toNat with
    | some a => r.useAdapter && a.current
    | none => false
  leBytes 2 i ++ leBytes 2 (1 + 2 * b2n last + 4 * b2n r.logprobs + 8 * b2n r.useAdapter) ++ leBytes 4 pos ++ leBytes 4 value ++
    [r.adapter, BitVec.ofNat 8 (b2n buf)] ++ leBytes 2 r.topK.toNat ++ leBytes 4 r.temperature.toNat ++ leBytes 4 r.topP.toNat ++
    leBytes 8 r.seed.toNat

/-- The table of a serving step. -/
def Seq.slotTable (q : Seq) (n : Nat) (ti : Nat) (t : Template) (g : List Nat) (cs : List (SlotFill × List Nat)) : List Byte :=
  let empty := List.replicate 32 (0 : Byte)
  slotHeader n ti g.length cs.length ((cs.map (fun c => c.1.count)).sum) ++
    (g.flatMap (fun i => let r := q.req i; q.slotEntry i r false r.len r.token.toNat)) ++
    ((List.replicate (t.gen - g.length) empty).flatMap id) ++
    (cs.flatMap (fun c => q.slotEntry c.1.req (q.req c.1.req) c.1.last c.1.pos c.1.count)) ++
    ((List.replicate (t.chunks - cs.length) empty).flatMap id) ++
    (cs.flatMap (fun c => c.2.flatMap (leBytes 4) ++ List.replicate (4 * (t.chunkTokens - c.1.count)) 0)) ++
    List.replicate (4 * t.chunkTokens * (t.chunks - cs.length)) 0

/-- Writes the table in every cabinet of the plan. -/
def Dev.writeSlots (d : Dev) (table : List Byte) : Dev :=
  d.planCabs.foldl (fun d c =>
    let d := d.arrive (sbDom c) ed0Block
    if d.domOn (sbDom c) then
      let sb := d.sb c
      d.setSb c { sb with mem := sb.mem.store d.seq.sec.slotArea table (fun _ => false) }
    else d) d

/-- Releases every bench of the plan (R101, R246). -/
def Dev.releaseAll (d : Dev) : Dev := d.planBenches.foldl (fun d k => d.release k) d

/-! ## Routes restored at a step boundary (R399) -/

/-- A route on its lowest-numbered usable alternate. -/
def Dev.bestAlt (d : Dev) (key : Nat) (r : Route) : Option Nat :=
  (List.range r.alts.length).find? (fun i => d.altUsable key (r.alts.getD i 0))

/-- RESTORE_ROUTES takes effect. -/
def Dev.applyRestore (d : Dev) : Dev :=
  if !d.suite.restore then d else
  let move (p : Nat × Route) : Nat × Route := (p.1, { p.2 with cur := (d.bestAlt p.1 p.2).or p.2.cur })
  let back (p : Nat × SuiteRoute) : Nat × SuiteRoute :=
    (p.1, { p.2 with cur := ((List.range p.2.ports.length).find? (fun i => (d.port (p.2.ports.getD i 0)).st == 4)).or p.2.cur })
  { d with suite := { d.suite with restore := false, planRoutes := d.suite.planRoutes.map move, routes := d.suite.routes.map back } }

/-! ## Admission (R236, R243–R246) -/

/-- Conditions beside the room for a record (R236, R264, R365, R373): no bench or cabinet of the plan, on this device or on a follower,
holds admissions. -/
def Dev.canAdmit (d : Dev) : Bool :=
  d.plan.st == .running && d.leader && d.seq.run.isNone && !bit 0 d.seq.ctl.toNat && !d.holdsAdmission && d.seq.heldBy.isEmpty &&
    d.planBenches.all (fun k => !(d.bench k).mustDiscard)

/-- The step in flight as it is admitted. -/
def StepRun.start (template : Nat) (gens chunks : List SlotFill) (retired : List (Nat × List Byte)) (reserve : Nat) (floorVoid mult : BitVec 8)
    (followers idle : List Nat) : StepRun :=
  { template := template, gens := gens, chunks := chunks, promptTokens := (chunks.map (fun f => f.count)).sum, retired := retired
    reports := [], reserve := reserve, abandon := none, floorVoid := floorVoid, mult := mult, followers := followers, idle := idle
    running := [], ended := [], tiles := [], stopping := false, reported := false }

/-- The slot table goes to each follower (R237). -/
def Dev.sendTables (d : Dev) (n template : Nat) (table : List Byte) : Dev :=
  if !d.leader then d else
  let ts := d.followers.map (fun f => SuiteOut.slotTable f (BitVec.ofNat 48 n) (BitVec.ofNat 16 template) table)
  { d with suite := { d.suite with sent := d.suite.sent ++ ts } }

/-- Step n begins: number, template, slot table, release. -/
def Dev.begin_ (d : Dev) (n template : Nat) (table : List Byte) (run : StepRun) : Dev :=
  let d := { d with
    step := BitVec.ofNat 48 n, template := BitVec.ofNat 16 template
    seq := { d.seq with run := some run, lateStep := false, admitNeeds := 0 } }
  ((d.writeSlots table).sendTables n template table).releaseAll

/-- The seats that a tile phase releases, in ascending order: the plan's benches on every device of the plan, each of which runs the
same bench map (log 45). -/
def Dev.seats (d : Dev) : List Nat :=
  ((List.range 64).filter (fun i => bit i d.seq.sec.devices.toNat)).flatMap (fun i => d.planBenches.map (fun k => 1152 * i + k))

/-- Retirements made at admission: DEADLINE for requests that step n meets, then INPUT. A deadline met outside the request's step also carries
DEADLINE_PASSED, here and in a housekeeping record (DESIGN CHOICE, log 132). -/
def Dev.retireAt (d : Dev) (n : Nat) (inputs : List Nat) : List (Nat × List Byte) :=
  let due := (d.seq.reqs.filter (fun (p : Nat × Req) => (p.2.st == .prompt || p.2.st == .generating) && p.2.due n)).map (fun p => p.1)
  due.map (fun i => (i, reqEntry i (d.seq.req i) (retireStatus 4 true) 0 0 0)) ++
    inputs.map (fun i => (i, reqEntry i (d.seq.req i) (retireStatus 6 false) 0 0 0))

/-- Slots that leave with the step's record take no further part. -/
def Dev.markRetired (d : Dev) (rs : List (Nat × List Byte)) : Dev := rs.foldl (fun d r => d.setRq r.1 { d.seq.req r.1 with st := .retired }) d

/-- An admission, and a command or the end of an unload, wait for n units of the result ring (R254). -/
def Dev.waitRoom (d : Dev) (n : Nat) : Dev := { d with seq := { d.seq with admitNeeds := n } }
def Dev.waitCmd (d : Dev) (n : Nat) : Dev := { d with seq := { d.seq with cmdNeeds := n } }

/-- An admission waits to read prompt ids from a channel that is held (R357): those of the chunks it places, or of a request that it found
without a usable id. -/
def Dev.idsWait (d : Dev) (inputs : List Nat) (cs : List (SlotFill × List Nat)) : Bool :=
  inputs.any (fun i => d.readWaits (d.seq.req i).promptAddr.toNat (4 * (d.seq.req i).promptLen)) ||
    cs.any (fun c => d.readWaits ((d.seq.req c.1.req).promptAddr.toNat + 4 * (c.1.pos - d.seq.base (d.seq.req c.1.req))) (4 * c.1.count))

/-- STEP_ADMISSION. -/
def stepAdmission (d : Dev) : Dev :=
  if !d.canAdmit then d else
  let d := d.applyRestore
  let n := d.step.toNat + 1
  let (e, inputs, choice) := d.chooseStep n (d.seq.reqs.length + 1) []
  if d.idsWait inputs (choice.elim [] (fun c => c.2.2)) then d else
  let gone := e.retireAt n inputs
  let slowBit : BitVec 8 := if d.slow then 1 else 0
  match choice with
  | some (ti, g, cs) =>
    match e.seq.sec.templates[ti]? with
    | none => d
    | some t =>
      let reserve := 64 + 96 * (t.gen + t.chunks) + 32 * gone.length
      if e.seq.room < unitsOf reserve then d.waitRoom (unitsOf reserve)
      else
        let gens := (List.range g.length).map (fun i =>
          let r := g.getD i 0
          ({ slot := i, req := r, pos := (e.seq.req r).len, count := 1, last := true } : SlotFill))
        let table := e.seq.slotTable n ti t g cs
        (e.markRetired gone).begin_ n ti table
          (StepRun.start ti gens (cs.map (fun c => c.1)) gone reserve slowBit e.wdCtl e.followers [])
  | none =>
    if !e.seq.tiles.isEmpty then
      let reserve := 64 + 32 * gone.length
      if e.seq.room < unitsOf reserve then d.waitRoom (unitsOf reserve)
      else
        (e.markRetired gone).begin_ n 0xFFFF (slotHeader n 0xFFFF 0 0 0)
          (StepRun.start 0xFFFF [] [] gone reserve slowBit e.wdCtl e.followers e.seats)
    else if gone.isEmpty then { d with seq := { d.seq with admitNeeds := 0 } }
    else if e.seq.room < unitsOf (64 + 32 * gone.length) then d.waitRoom (unitsOf (64 + 32 * gone.length))
    else (({ e with seq := { e.seq with admitNeeds := 0 } } : Dev).putRecord { kind := 2, entries := gone.length } (gone.flatMap (fun r => r.2)) (gone.map (fun r => r.1))).flush

/-! ## Tile phases (R259–R263) -/

/-- The set of a kind holds the bench of a seat, on every device of the plan (Table 9-3). -/
def TileKind.has (t : TileKind) (seat : Nat) : Bool :=
  let k := seat % 1152
  bit (k / 96) t.cabs.toNat && decide (t.first ≤ k % 96) && decide (k % 96 ≤ t.last)

/-- The endpoint of a seat, and the seat of a bench's endpoint. -/
def seatEp (seat : Nat) : BitVec 18 := BitVec.ofNat 18 (seat / 1152 * 4096 + seat % 1152 / 96 * 256 + seat % 96)
def epSeat (e : BitVec 18) : Nat := 1152 * epDev e + 96 * epCab e + epVal e

/-- The preference of R260: the affinity cabinet, its compute die, its device, any device. A task without affinity has none (log 45). -/
def TileTask.rank (t : TileTask) (seat : Nat) : Nat :=
  let c := seat % 1152 / 96
  let a := t.affinity.toNat
  if a == 0xFF || t.affDevice.toNat != seat / 1152 then 3 else if c == a then 0 else if c / 3 == a / 3 then 1 else 2

/-- The idle seat that a task goes to, if any: seats are in the order of device, cabinet and bench, the lowest first. -/
def Dev.tileBench (d : Dev) (r : StepRun) (t : TileTask) : Option Nat :=
  match d.seq.sec.kinds[t.kind]? with
  | none => none
  | some kd =>
    let c := r.idle.filter kd.has
    (List.range 4).findSome? (fun q => c.find? (fun k => t.rank k == q))

/-- The first queued task with an idle bench, in queue order. -/
def Dev.nextTile (d : Dev) (r : StepRun) : Option (TileTask × Nat) :=
  d.seq.tiles.findSome? (fun t => (d.tileBench r t).map (fun k => (t, k)))

/-- An epoch value no queue of the device holds (R52): the first after the last one issued. -/
def Dev.freshEpoch (d : Dev) : BitVec 16 :=
  let held := d.benches.flatMap (fun (p : Nat × Bench) => (List.range 8).map (fun q => (p.2.queue q).epoch))
  let c := (List.range (held.length + 1)).map (fun i => d.seq.epoch + 1 + BitVec.ofNat 16 i)
  (c.find? (fun e => !held.contains e)).getD (d.seq.epoch + 1)

/-- The fresh epoch is written to queue q of a seat: here, or by word to its device (log 44). -/
def Dev.seatEpoch (d : Dev) (seat : Nat) (q : Fin 8) (e : BitVec 16) : Dev :=
  if seat / 1152 == d.number.toNat then d.modBench (seat % 1152) (fun b => b.writeEpoch q.val e (b.queue q.val).chk)
  else { d with suite := { d.suite with sent := d.suite.sent ++ [.epoch (seatEp seat) q e] } }

/-- A message of the sequencer to a bench of any device of the plan; one to another device takes the transit routes of the edge die
(log 99). -/
def Dev.seqSend (d : Dev) (m : Msg) : Dev :=
  if epDev m.dest == d.number.toNat then { d with net := d.net ++ [m] }
  else match (d.planRoute 12 (epDev m.dest)).bind Route.port with
  | some _ => d.emit 12 m
  | none => d.unitRecord 5 0 0 fltMsgNoRoute { endpoint := m.dest.toNat, detail := m.seq.toNat }

/-- A dispatch to queue q of a seat (R260, R261): the fresh epoch is written to the queue, then the message leaves. -/
def Dev.dispatch (d : Dev) (seat : Nat) (q : Fin 8) (task : BitVec 32) (args : List Byte) : Dev × BitVec 16 :=
  let e := d.freshEpoch
  let d := d.seatEpoch seat q e
  let m : Msg := {
    dest := seatEp seat, target := seatEp seat, bcast := false, src := d.epOf 12 0xF2, queue := q, seq := d.seq.msgSeq, tag := 0
    planId := d.plan.planId, epoch := e, step := d.step.setWidth 16
    payload := leBytes 4 task.toNat ++ leBytes 2 e.toNat ++ List.replicate 18 0 ++ args, marks := [], issue := none }
  (({ d with seq := { d.seq with epoch := e, msgSeq := d.seq.msgSeq + 1 } } : Dev).seqSend m, e)

/-- END goes to each idle seat of a kind's set, once, on the queue of the lowest such kind (R262). -/
def Dev.sendEnds : List Nat → Dev → Dev
  | [], d => d
  | k :: t, d =>
    match d.seq.run with
    | none => d
    | some r =>
      match d.seq.sec.kinds.find? (fun kd => kd.has k) with
      | some kd =>
        if r.ended.contains k then d.sendEnds t
        else
          let (d, _) := d.dispatch k kd.queue 0xFFFFFFFF#32 (List.replicate 104 0)
          ({ d with seq := { d.seq with run := some { r with ended := r.ended ++ [k], idle := r.idle.filter (· != k) } } } : Dev).sendEnds t
      | none => d.sendEnds t

/-- A tile phase in flight. -/
def Dev.tilePhase (d : Dev) : Option StepRun :=
  match d.seq.run with
  | some r => if r.template == 0xFFFF && d.leader && r.abandon.isNone then some r else none
  | none => none

/-- The check of R262, made after each completion, command and dispatch. -/
def Dev.tileCheck (d : Dev) : Dev :=
  match d.tilePhase with
  | none => d
  | some r =>
    let stop := r.stopping || d.seq.tiles.isEmpty || (d.seq.choose (d.step.toNat + 1) []).isSome || d.plan.st == .unloading
    if !stop then d
    else ({ d with seq := { d.seq with run := some { r with stopping := true } } } : Dev).sendEnds r.idle

/-- TILE_DISPATCH: room for the task's entry is reserved with it. -/
def tileDispatch (d : Dev) : Dev :=
  match d.tilePhase with
  | none => d
  | some r =>
    if r.stopping then d else
    match d.nextTile r with
    | none => d
    | some (t, k) =>
      match d.seq.sec.kinds[t.kind]? with
      | none => d
      | some kd =>
        if d.seq.room == 0 && unitsOf (r.reserve + 32) != unitsOf r.reserve then d.waitRoom 1 else
        let (d, e) := d.dispatch k kd.queue t.task t.args
        let d := { d with seq := { d.seq with admitNeeds := 0 } }
        let r := { r with idle := r.idle.filter (· != k), running := r.running ++ [⟨t, k, e⟩], reserve := r.reserve + 32 }
        ({ d with seq := { d.seq with run := some r, tiles := d.seq.tiles.filter (fun x => x.task != t.task) } } : Dev).tileCheck

/-- The first message from src that reached the sequencer of this device. -/
def Dev.toSeq (d : Dev) (src : BitVec 18) : Option Msg :=
  d.net.find? (fun m => m.src == src && epVal m.target == 0xF2 && epDev m.target == d.number.toNat)

/-- Such a message, as it is taken out of the network where ED0's core is ON (R433). -/
def Dev.takeSeq (d : Dev) (src : BitVec 18) (p : Msg → Bool) : Dev × Option Msg :=
  match d.toSeq src with
  | none => (d, none)
  | some m =>
    let d := d.arrive ed0Dom (d.senderBlock src)
    if d.domOn ed0Dom && p m then ({ d with net := d.net.erase m }, some m) else (d, none)

/-- Counts a report or completion dropped (R249, R261). -/
def Dev.seqStale (d : Dev) : Dev := { d with seq := { d.seq with stale := satInc16 d.seq.stale } }

/-- TILE_COMPLETION (R261): accepted for the task's current placement, late after the watchdog (R370), else stale. Its STATUS goes into the
entry as it stands, whatever its value (DESIGN CHOICE, log 136). -/
def tileCompletion (d : Dev) (src : BitVec 18) : Dev :=
  match d.takeSeq src (fun m => atN m.payload 0 2 == 2) with
  | (d, none) => d
  | (d, some m) =>
    let task := BitVec.ofNat 32 (atN m.payload 4 4)
    let epoch := BitVec.ofNat 16 (atN m.payload 8 2)
    let late := d.seq.timedOut.contains (task, epoch)
    let gone (d : Dev) : Dev :=
      let q := { d.seq with timedOut := d.seq.timedOut.filter (fun t => t != (task, epoch)) }
      { d with lateCount := satInc16 d.lateCount, seq := q }
    match d.tilePhase with
    | none => if late then gone d else d.seqStale
    | some r =>
      match r.running.find? (fun x => x.task.task == task && x.epoch == epoch) with
      | some x =>
        let r := { r with
          running := r.running.filter (fun y => y.task.task != task), idle := nsInsert x.seat r.idle
          tiles := r.tiles ++ [tileEntry x.task (atN m.payload 2 2)] }
        ({ d with seq := { d.seq with run := some r } } : Dev).tileCheck
      | none =>
        if late then
          let d := gone d
          let r := { r with idle := if epVal src < 96 && !r.ended.contains (epSeat src) then nsInsert (epSeat src) r.idle else r.idle }
          ({ d with seq := { d.seq with run := some r } } : Dev).tileCheck
        else d.seqStale

/-- A discarded placement (R263): the task returns to the head of the queue, or is reported with STATUS 2 the second time. -/
def requeue (ts : List TileRun) : List TileTask × List (List Byte) :=
  ((ts.filter (fun x => x.task.discards == 0)).map (fun x => { x.task with discards := 1 }),
   (ts.filter (fun x => x.task.discards != 0)).map (fun x => tileEntry x.task 2))

/-! ## Token reports (R248, R249) -/

/-- What the step samples for a request: the position that its report must name, and whether it wants TOP8. -/
def Seq.samples (q : Seq) (r : StepRun) (i : Nat) : Option (Nat × Bool) :=
  match r.gens.find? (fun f => f.req == i) with
  | some f => some (f.pos + 1, (q.req i).logprobs)
  | none => (r.chunks.find? (fun f => f.req == i && f.last)).map (fun f => (f.pos + f.count, (q.req i).logprobs))

/-- The entries of a report, or none where one of them is faulty; a payload that does not have the layout of R248 is faulty. -/
def Seq.readReport (q : Seq) (r : StepRun) : Nat → List Byte → List Report → Option (List Report)
  | 0, _, acc => some acc
  | n + 1, bs, acc =>
    let i := atN bs 0 2
    let flags := atN bs 2 2
    match q.samples r i with
    | none => none
    | some (pos, top8) =>
      if acc.any (fun x => x.req == i) || decide (1 < flags) || atN bs 4 4 != pos || decide (q.sec.vocab ≤ atN bs 8 4) ||
          (top8 && !bit 0 flags) then none
      else q.readReport r n (bs.drop 80) (acc ++ [⟨i, BitVec.ofNat 32 (atN bs 8 4), BitVec.ofNat 32 (atN bs 12 4), (bs.drop 16).take 64⟩])

/-- The step in flight is abandoned with a code, unless one already is; a fault interrupted it (R252). -/
def Dev.abandonWith (d : Dev) (code : BitVec 16) : Dev :=
  match d.seq.run with
  | some r => { d with seq := { d.seq with run := some { r with abandon := r.abandon.or (some code), floorVoid := r.floorVoid ||| 2#8 } } }
  | none => d

/-- FLT_SEQ_REPORT (R249). -/
def Dev.badReport (d : Dev) : Dev := (d.unitRecord 5 0 0 fltSeqReport { discard := true }).abandonWith fltSeqReport

/-- TOKEN_REPORT. -/
def tokenReport (d : Dev) (src : BitVec 18) : Dev :=
  match d.takeSeq src (fun m => atN m.payload 0 2 != 2) with
  | (d, none) => d
  | (d, some m) =>
    match d.seq.run with
    | none => d.seqStale
    | some r =>
      let n := atN m.payload 2 2
      let formed := atN m.payload 0 2 == 1 && decide (1 ≤ n) && decide (n ≤ 204) && m.payload.length == 16 + 80 * n &&
        ((m.payload.take 16).drop 4).all (· == 0)
      if r.template == 0xFFFF || !d.leader || m.step != d.step.setWidth 16 then d.seqStale
      else match (if formed then d.seq.readReport r n (m.payload.drop 16) r.reports else none) with
      | some rs => { d with seq := { d.seq with run := some { r with reports := rs } } }
      | none => d.badReport

/-! ## The end of an unload (R63, R264) -/

/-- A bench of an unloaded plan: UNUSED, its domain in RETENTION (R431), its store undefined, its shelf emptied (R145). -/
def Dev.unuse (d : Dev) (k : Nat) : Dev :=
  let b := d.bench k
  let d := d.setBench k { b with
    st := .unused, inPlan := false, wait := none, atStepEnd := false, awaitDiscard := false, mustDiscard := false, haltReq := false
    transfers := [], staging := [], fence := none, inbox := [], dropStep := none, csv := 0, store := Mem.undefined d.free, shelf := b.shelf.flush }
  let d := d.fresh
  let m := d.dom (d.benchDom k)
  d.setDom (d.benchDom k) { m with st := if m.st == 0 then 0 else 2, entering := none }

/-- Every bench of the plan becomes UNUSED, and the plan is gone with STATE as given; sideboard contents of its cabinets are undefined
(R63) or, after a load that failed, as they stand (R62). An unload empties the coding-table slots (R312). -/
def Dev.dropPlan (d : Dev) (st : PlanSt) (lose : Bool) : Dev :=
  let cabs := d.planCabs
  let d := d.planBenches.foldl (fun d k => d.unuse k) d
  let d := if lose then cabs.foldl (fun d c => (d.setSb c { d.sb c with mem := Mem.undefined d.free, dq := [] }).fresh) d else d
  let d := cabs.foldl (fun d c =>
    let d := d.setDrw c { d.drw c with reqs := [], log := [], templates := [], action := none, closed := none }
    d.setSb c { d.sb c with reserve := 0 }) d
  { d with
    plan := { d.plan with st := st, planId := 0, cabSet := 0, image := [], stepTimer := false, held := false }
    suite := { d.suite with planRoutes := [] }
    away := []
    cmp := if lose then d.cmp.emptied else d.cmp
    discards := []
    seq := { d.seq with
      sec := Section7.reset, run := none, admitNeeds := 0, cmdNeeds := 0, lateFollowers := [], timedOut := [], acting := [], heldBy := []
      fromLeader := [], closing := false, toldHeld := (false, false), unloaded := false }
    net := d.net.filter (fun m => epDev m.target != d.number.toNat || decide (0xFE ≤ epVal m.target)) }

/-- The housekeeping record of R264, with the notices that its retirements bring (R257); until there is room for it the unload waits. -/
def Dev.retireAll (d : Dev) : Dev :=
  let q := d.seq
  let live := (q.reqs.filter (fun (p : Nat × Req) => p.2.st != .free)).map (fun p => p.1)
  let body := live.flatMap (fun i => reqEntry i (q.req i) (retireStatus 7 false) 0 0 0) ++ q.tiles.flatMap (fun t => tileEntry t 3)
  let n := 1 + unitsOf body.length
  if q.room < n then d.waitCmd n
  else (({ d with seq := { q with unloaded := true, tiles := [] } } : Dev).putRecord { kind := 2, entries := live.length + q.tiles.length } body live).flush

/-- Ends an unload once no step is in flight and its decision has been carried out (R335): the record of the step, the record of R264 with
its notices, then the tables are cleared and STATE is NONE. A result ring that cannot take records any more does not hold the unload
up. -/
def Dev.endUnload (d : Dev) : Dev :=
  let q := d.seq
  if d.plan.st != .unloading || q.run.isSome || d.actionsPending then d
  else if !d.leader || !d.ringOk (ringAddr q.resultBase) (64 * 2 ^ ringLog2 q.resultBase) then
    ({ d with seq := { q with prefixes := [], adapters := [], tiles := [], reqs := [], records := [], cmdHead := q.cmdTail } } : Dev).dropPlan
      .none true
  else if !q.records.isEmpty then d
  else
    let d := if q.unloaded then d else d.retireAll
    if !d.seq.unloaded || !d.seq.records.isEmpty then d
    else ({ d with seq := { d.seq with prefixes := [], adapters := [], cmdHead := d.seq.cmdTail } } : Dev).dropPlan .none true

/-! ## The commit decision (R250–R252) -/

/-- Every bench of the plan has reported STEPEND, and nothing it sent before is still on its way to the sequencer. -/
def Dev.allReported (d : Dev) (r : StepRun) : Bool :=
  d.planBenches.all (fun k => (d.bench k).atStepEnd) && r.followers.isEmpty && r.running.isEmpty &&
    d.net.all (fun m => epVal m.target != 0xF2 || epDev m.target != d.number.toNat)

/-- Requests of the step, in record order: generation slots, then chunk requests by slot. -/
def StepRun.members (r : StepRun) : List Nat := r.gens.map (fun f => f.req) ++ (r.chunks.map (fun f => f.req)).dedup

/-- The reason a token retires a request (R250), 0 for none. -/
def Req.tokenReason (r : Req) (x : BitVec 32) (generated q : Nat) : Nat :=
  if r.stops.contains x then 1 else if generated == r.maxNew then 2 else if q == 2097152 then 3 else 0

/-- The reason that came from outside during the step (R255): CANCELLED, or a deadline that step n meets. -/
def Req.outside (r : Req) (n : Nat) : Nat × Bool := if r.cancelled then (5, false) else if r.due n then (4, true) else (0, false)

/-- A member after a committed step: its new value, its entry, and whether it retires. TOP8 of a request without LOGPROBS is dropped (DESIGN
CHOICE, log 134), and a request counts as served where a committed step delivers its token (DESIGN CHOICE, log 135). -/
def commitMember (run : StepRun) (n i : Nat) (r : Req) : Req × List Byte × Bool :=
  let moved := match run.gens.find? (fun f => f.req == i) with
    | some f => f.pos + 1
    | none => r.len + ((run.chunks.filter (fun f => f.req == i)).map (fun f => f.count)).sum
  let out := r.outside n
  let rep := run.reports.find? (fun x => x.req == i)
  match rep with
  | none =>
    let r := { r with len := moved }
    (r, reqEntry i r (if out.1 == 0 then 0 else retireStatus out.1 out.2) 0 0 0, out.1 != 0)
  | some x =>
    let r := { r with st := .generating, len := moved, generated := r.generated + 1, token := x.token, served := BitVec.ofNat 48 n }
    let why := if out.1 != 0 then out.1 else r.tokenReason x.token r.generated moved
    let status := 1 + 256 * b2n r.logprobs + (if why == 0 then 0 else retireStatus why out.2)
    (r, reqEntry i r status x.token.toNat x.logprob.toNat moved ++ (if r.logprobs then x.top8 else []), why != 0)

/-- A member of an abandoned step: HELD with REISSUE, or retired (R251, R255). -/
def abandonMember (n i : Nat) (r : Req) : Req × List Byte × Bool :=
  let out := r.outside n
  if out.1 == 0 then ({ r with st := .held, heldFrom := r.st }, reqEntry i r 2 0 0 0, false)
  else (r, reqEntry i r (2 + retireStatus out.1 out.2) 0 0 0, true)

/-- The step is over for the units: drawers act, what a cabinet that can act no more has mirrored is closed at once (R233), the leader sends
the decision to its followers (R237), and on ABANDON every bench discards (R251). -/
def Dev.sendDecision (d : Dev) (commit : Bool) : Dev :=
  let n : BitVec 16 := d.step.setWidth 16
  let d := d.planCabs.foldl (fun d c =>
    if d.fenced c || !d.domOn (sbDom c) then d.closeMirrors c commit n else d.setDrw c { d.drw c with action := some (commit, n) }) d
  let ds := d.followers.map (fun f => SuiteOut.decision f d.step commit)
  let d : Dev := if d.leader then { d with suite := { d.suite with sent := d.suite.sent ++ ds }, seq := { d.seq with acting := d.followers } }
    else { d with seq := { d.seq with closing := true } }
  if commit then d else d.planBenches.foldl (fun d k => d.modBench k (fun b => { b with mustDiscard := true })) d

/-- DRAINING buffers become FREE at the end of the step, each with its notice (R258). -/
def Dev.freeAdapters (d : Dev) : Dev :=
  d.seq.adapters.foldl (fun d (p : Nat × Adapter) =>
    let a := p.2
    if !a.draining then d else
    let gen := if a.current then a.gen0 else a.gen1
    ({ d with seq := { d.seq with adapters := d.seq.adapters.set p.1 { a with draining := false } } } : Dev).notice 3 0 0
      (p.1 + gen.toNat * 2 ^ 8 + b2n (!a.current) * 2 ^ 16)) d

/-- The record of the step and its consequences. Routes to restore are restored at this boundary (R399). -/
def Dev.finishStep (d : Dev) (run : StepRun) (abandon : Option (BitVec 16)) : Dev :=
  let n := d.step.toNat
  let fv := run.floorVoid.toNat ||| b2n d.slow
  let (back, twice) := if abandon.isSome then requeue run.running else ([], [])
  let ms := run.members.map (fun i => (i, match abandon with
    | none => commitMember run n i (d.seq.req i)
    | some _ => abandonMember n i (d.seq.req i)))
  let d := ms.foldl (fun d m => d.setRq m.1 { m.2.1 with cancelled := false }) d
  let tiles := run.tiles ++ twice
  let d := { d with seq := { d.seq with run := none, tiles := back ++ d.seq.tiles } }
  let d := d.sendDecision abandon.isNone
  let body := (ms.flatMap (fun m => m.2.2.1)) ++ tiles.flatMap id ++ run.retired.flatMap (fun r => r.2)
  let h : RecHead := {
    kind := 1, outcome := b2n abandon.isSome, floorVoid := fv, template := run.template, fault := (abandon.getD 0).toNat
    entries := ms.length + tiles.length + run.retired.length, gens := run.gens.length, prompt := run.promptTokens }
  let d := d.putRecord h body (((ms.filter (fun m => m.2.2.2)).map (fun m => m.1)) ++ run.retired.map (fun r => r.1))
  d.freeAdapters.applyRestore.flush.endUnload

/-- STEP_COMMIT_DECISION: a step whose previous decision has not been carried out waits. -/
def stepCommitDecision (d : Dev) : Dev :=
  match d.seq.run with
  | none => d
  | some r =>
    if !d.leader || d.actionsPending then d
    else match r.abandon with
    | some code => d.finishStep r (some code)
    | none =>
      if !d.allReported r then d
      else if r.members.any (fun i => (d.seq.samples r i).isSome && r.reports.all (fun x => x.req != i)) then
        d.badReport.finishStep { r with floorVoid := r.floorVoid ||| 2#8 } (some fltSeqReport)
      else d.finishStep r none

/-- A follower tells its leader of a discard, unless one of the step in flight has been told: the leader's arbiter places it, before or
after this device has reported the step's end, or between two steps (R251). -/
def Dev.tellDiscard (d : Dev) (code : BitVec 16) : Dev :=
  if d.leader || !(d.plan.st == .running || d.plan.st == .unloading) || d.seq.run.any (fun r => r.abandon.isSome) then d
  else d.tell d.step (.discard code)

/-- STEP_DISCARD (R251, R363): the oldest report reaches the sequencer; with no step in flight it is only recorded. -/
def stepDiscard (d : Dev) : Dev :=
  match d.discards with
  | [] => d
  | x :: t => ((({ d with discards := t } : Dev).tellDiscard x.code).abandonWith x.code).tellHeld

/-! ## The leader's word at a follower (R237) -/

/-- A follower can begin the leader's next step: it is started, has none in flight, holds no admission (R365, R373), and no bench has a
discard to carry out. -/
def Dev.canFollow (d : Dev) : Bool :=
  d.plan.st == .running && d.seq.run.isNone && !d.holdsAdmission && !d.planBenches.any (fun k => (d.bench k).mustDiscard)

/-- The follower takes the oldest of the leader's words, or leaves it where it must wait. A slot table goes into its cabinets and releases
its benches; a decision goes to its drawer controllers and benches once they have carried out the one before, and ends the step here. A decision on a step that
has ended here is answered as carried out, one on any other step is ignored (DESIGN CHOICE, log 44). -/
def Dev.heedWord (d : Dev) : Dev :=
  match d.seq.fromLeader with
  | [] => d
  | w :: rest =>
    let e : Dev := { d with seq := { d.seq with fromLeader := rest } }
    match w with
    | .table n template table =>
      if !d.canFollow then d else
      (e.applyRestore.begin_ n.toNat template.toNat table (StepRun.start template.toNat [] [] [] 0 0 d.wdCtl [] [])).voidFloor
        (if d.slow then 1 else 0)
    | .decision n commit =>
      if d.seq.run.isNone then
        (if n == d.step then ({ e with seq := { e.seq with closing := true } } : Dev).flush else e)
      else if n != d.step then e
      else if d.drawersActing then d
      else (({ e with seq := { e.seq with run := none } } : Dev).sendDecision commit).applyRestore.flush

/-- The follower takes what words it can, in their order. -/
def Dev.heedLeader (d : Dev) : Dev := d.seq.fromLeader.foldl (fun d _ => d.heedWord) d

/-- What waits for a decision to be carried out goes on (R237, R264, R335). -/
def Dev.settle (d : Dev) : Dev := d.flush.heedLeader.endUnload

/-- COMMIT and ABANDON at a drawer controller (R197), and what waits for them (R335). -/
def drwCommit (d : Dev) (c : Nat) (commit : Bool) : Dev := (d.drwAction c commit).settle

/-- BENCH_STEP_DISCARD (R365), and what waits for it (R335). -/
def benchDiscard (k : Nat) (d : Dev) : Dev := (benchStepDiscard k d).settle

/-! ## The watchdog (R369, R370) -/

/-- STEP_WATCHDOG_EXPIRY: of the serving step, or of a tile task. -/
def stepWatchdogExpiry (d : Dev) (task : Option (BitVec 32)) : Dev :=
  match d.seq.run, task with
  | none, _ => d
  | some r, none =>
    if r.template == 0xFFFF || r.mult == 0 || r.abandon.isSome || !d.leader then d
    else
      let d := (d.unitRecord 10 0 0 fltStepTimeout { discard := true }).abandonWith fltStepTimeout
      { d with seq := { d.seq with lateStep := true, lateFollowers := r.followers, run := d.seq.run.map (fun r => { r with followers := [] }) } }
  | some r, some t =>
    match r.running.find? (fun x => x.task.task == t) with
    | none => d
    | some x =>
      if r.mult == 0 || r.abandon.isSome then d else
      let d := d.unitRecord 10 0 0 fltStepTimeout {}
      let (back, twice) := requeue [x]
      let r := { r with
        running := r.running.filter (fun y => y.task.task != t), tiles := r.tiles ++ twice, floorVoid := r.floorVoid ||| 2#8 }
      let q := { d.seq with run := some r, tiles := back ++ d.seq.tiles, timedOut := d.seq.timedOut ++ [(t, x.epoch)] }
      ({ d with seq := q } : Dev).tileCheck

/-! ## Leader and follower (R237) -/

/-- A word of the leader reaches a follower, which takes it once it can; without a plan there is no follower. -/
def leaderSays (d : Dev) (w : LeaderWord) : Dev :=
  if d.leader || !d.planLoaded then d
  else (({ d with seq := { d.seq with fromLeader := d.seq.fromLeader ++ [w] } } : Dev).heedLeader).endUnload

/-- FOLLOWER_SLOT_TABLE: a follower writes the leader's table into its cabinets and releases its benches. -/
def followerSlotTable (d : Dev) (step : BitVec 48) (template : BitVec 16) (table : List Byte) : Dev :=
  leaderSays d (.table step template table)

/-- FOLLOWER_DECISION: at a follower, the decision goes to its drawer controllers and benches. -/
def followerDecision (d : Dev) (step : BitVec 48) (commit : Bool) : Dev := leaderSays d (.decision step commit)

/-- A follower's part of step n has ended, with the first fault that discarded any of it there, or 0, and its FLOOR_VOID bits (R252). A
report that lost to the watchdog is discarded and counts as late (R370). -/
def Dev.followerEnded (d : Dev) (dev : Nat) (n : BitVec 48) (fault : BitVec 16) (floorVoid : BitVec 8) : Dev :=
  match d.seq.run.filter (fun r => r.followers.contains dev && n == d.step) with
  | some r =>
    let r := { r with followers := r.followers.filter (· != dev), floorVoid := r.floorVoid ||| floorVoid }
    let d := { d with seq := { d.seq with run := some r } }
    if fault == 0 then d else d.abandonWith fault
  | none =>
    if d.seq.lateFollowers.contains dev then
      { d with lateCount := satInc16 d.lateCount, seq := { d.seq with lateFollowers := d.seq.lateFollowers.filter (· != dev) } }
    else d

/-- FLOOR_VOID bits set in a step record that waits to be written: byte 2 of the header (Table 9-10). -/
def SeqRec.void (r : SeqRec) (n : BitVec 48) (b : BitVec 8) : SeqRec :=
  if at1 r.bytes 0 == 1 && atN r.bytes 16 8 == n.toNat then { r with bytes := patch r.bytes 2 [BitVec.ofNat 8 (at1 r.bytes 2) ||| b] } else r

/-- FLOOR_VOID bits of step n that come from a follower (R252): into the step in flight, or into its record while that waits for the
follower to carry the decision out (R335). -/
def Dev.followerVoid (d : Dev) (n : BitVec 48) (b : BitVec 8) : Dev :=
  if d.seq.run.isSome && n == d.step then d.voidFloor b
  else { d with seq := { d.seq with records := d.seq.records.map (fun r => r.void n b) } }

/-- FOLLOWER_REPORT: the leader receives what a follower tells of step n. A discard there that arrives after the decision belongs to the
next step (R251). -/
def followerReport (d : Dev) (dev : BitVec 6) (n : BitVec 48) (tell : FollowerTell) : Dev :=
  let f := dev.toNat
  if !d.leader || !d.followers.contains f then d else
  match tell with
  | .stepEnd fault floorVoid => d.followerEnded f n fault floorVoid
  | .discard fault => if fault == 0 then d.abandonBare else d.abandonWith fault
  | .floorVoid b => d.followerVoid n b
  | .acted =>
    if n == d.decided then (({ d with seq := { d.seq with acting := d.seq.acting.filter (· != f) } } : Dev).flush).endUnload else d
  | .held on fenced =>
    let rest := d.seq.heldBy.filter (fun h => h.1 != f)
    { d with seq := { d.seq with heldBy := if on then rest ++ [(f, fenced)] else rest } }

/-! ## Ring commands (R239, R241) -/

/-- A command ring entry: opcode, SLOT, and whether its reserved header bytes are 0. -/
def cmdSlot (e : List Byte) : Nat := atN e 2 2
def cmdZero (e : List Byte) : Bool := at1 e 1 == 0 && atN e 4 4 == 0

/-- Bytes from `i` on that carry no field are reserved: 0 (log 42). -/
def cmdTailZero (e : List Byte) (i : Nat) : Bool := (e.drop i).all (· == 0)

/-- The sequencer can process a command: START has been accepted, one is in the ring, and the ring can be read. -/
def Dev.cmdReady (d : Dev) : Bool :=
  d.plan.st == .running && d.leader && d.seq.cmdHead != d.seq.cmdTail &&
    d.ringOk (ringAddr d.seq.cmdBase) (128 * 2 ^ ringLog2 d.seq.cmdBase)

/-- Refuses the command at the head (Table 9-15): a notice, and REFUSED. -/
def Dev.refuseCmd (d : Dev) (cmd : BitVec 32) (code : Nat) (e : List Byte) : Dev :=
  ({ d with seq := { d.seq with refused := satInc16 d.seq.refused } } : Dev).notice 1 code cmd.toNat (cmdSlot e)

/-- What a command does: its outcome code (0 for none), the units its records need, its effect. -/
structure CmdMeaning where
  code : Dev → List Byte → Nat
  units : Dev → List Byte → Nat
  act : Dev → List Byte → Dev

/-- Processes the command at the head of the ring, where its opcode is one that `op` names. A command that needs a record waits for
room (R254). -/
def ringCommand (op : Nat → Bool) (m : CmdMeaning) (d : Dev) : Dev :=
  let q := d.seq
  if !d.cmdReady || d.readWaits (ringAddr q.cmdBase + 128 * (q.cmdHead.toNat % 2 ^ ringLog2 q.cmdBase)) 128 then d else
  let (r, e, _) := d.readUnit ed0Block (ringAddr q.cmdBase + 128 * (q.cmdHead.toNat % 2 ^ ringLog2 q.cmdBase)) 128
  if !op (at1 e 0) then d else
  let code := m.code r e
  let n := if code == 0 then m.units r e else 2
  if r.seq.room < n then d.waitCmd n
  else
    let r := { r with seq := { r.seq with cmdHead := q.cmdHead + 1, cmdNeeds := 0 } }
    ((if code == 0 then m.act r e else r.refuseCmd q.cmdHead code e).tileCheck).flush

/-- The first of the codes whose condition holds, or 0. -/
def firstCode (cs : List (Nat × Bool)) : Nat := ((cs.find? (fun c => c.2)).map (fun c => c.1)).getD 0

/-- A slot that holds no request a command could name: FREE, or of a request whose retirement is not written yet (DESIGN CHOICE, log 133). -/
def Req.absent (r : Req) : Bool := r.st == .free || r.st == .retired

/-- The fields of a SUBMIT (Table 9-5) in their ranges; L0 is the prefix's TOKENS. -/
def submitFields (sec : Section7) (l0 : Nat) (e : List Byte) : Bool :=
  let f (i n : Nat) : Nat := atN e i n
  let stops := (List.range 4).all (fun k => if k < f 72 2 then decide (f (76 + 4 * k) 4 < sec.vocab) else f (76 + 4 * k) 4 == 0)
  cmdZero e && decide (f 24 8 < 24 * 2 ^ 39) && f 24 8 % 4 == 0 && decide (l0 + 1 ≤ f 32 4) && decide (f 32 4 ≤ 2097152) &&
    decide (1 ≤ f 36 4) && decide (f 36 4 ≤ 2097152) && f 46 2 == 0 &&
    (f 56 4 == 0x80000000 || decide (f 56 4 < 0x7F800000)) && decide (0 < f 60 4) && decide (f 60 4 ≤ 0x3F800000) &&
    decide (f 64 2 ≤ min sec.vocab 65535) && decide (f 67 1 < 4) && decide (f 68 4 ≤ 32768) && decide (f 72 2 ≤ 4) && f 74 2 == 0 && stops &&
    cmdTailZero e 92

/-- The live prefix of a handle. -/
def Seq.prefixOf (q : Seq) (h : BitVec 64) : Option Prefix := q.prefixes.find? (fun p => p.handle == h && !p.released)

def submitMeaning : CmdMeaning where
  code d e :=
    let h := BitVec.ofNat 64 (atN e 16 8)
    let l0 := if h == 0 then 0 else ((d.seq.prefixOf h).map (fun p => p.tokens)).getD 0
    firstCode [(2, decide (8191 < cmdSlot e)), (3, (d.seq.req (cmdSlot e)).st != .free), (5, !submitFields d.seq.sec l0 e),
      (6, h != 0 && (d.seq.prefixOf h).isNone), (9, bit 0 (at1 e 67) && (d.seq.adapters.find (at1 e 66)).isNone)]
  units _ _ := 0
  act d e :=
    let f (i n : Nat) : Nat := atN e i n
    let h := BitVec.ofNat 64 (f 16 8)
    let l0 := if h == 0 then 0 else ((d.seq.prefixOf h).map (fun p => p.tokens)).getD 0
    let r : Req := {
      st := .prompt, clientId := BitVec.ofNat 64 (f 8 8), handle := h, len := l0, promptAddr := BitVec.ofNat 48 (f 24 8)
      promptLen := f 32 4, maxNew := f 36 4, deadline := BitVec.ofNat 48 (f 40 8), seed := BitVec.ofNat 64 (f 48 8)
      temperature := BitVec.ofNat 32 (f 56 4), topP := BitVec.ofNat 32 (f 60 4), topK := BitVec.ofNat 16 (f 64 2)
      adapter := BitVec.ofNat 8 (f 66 1), useAdapter := bit 0 (f 67 1), logprobs := bit 1 (f 67 1), readySets := f 68 4
      stops := (List.range (f 72 2)).map (fun k => BitVec.ofNat 32 (f (76 + 4 * k) 4)), generated := 0, token := 0, served := 0
      order := d.seq.orders, heldFrom := .free, cancelled := false }
    let q := d.seq
    { d with seq := { q with
      reqs := q.reqs.set (cmdSlot e) r, orders := q.orders + 1
      prefixes := if h == 0 then q.prefixes else q.prefixes.map (fun p => if p.handle == h then { p with refs := p.refs + 1 } else p) } }

/-- SUBMIT. -/
def submit (d : Dev) : Dev := ringCommand (· == 1) submitMeaning d

def readyMeaning : CmdMeaning where
  code d e := firstCode [(2, decide (8191 < cmdSlot e)), (4, (d.seq.req (cmdSlot e)).absent), (5, !cmdZero e || decide (32768 < atN e 8 4) || !cmdTailZero e 12),
    (11, decide (atN e 8 4 < (d.seq.req (cmdSlot e)).readySets))]
  units _ _ := 0
  act d e := d.setRq (cmdSlot e) { d.seq.req (cmdSlot e) with readySets := atN e 8 4 }

/-- READY. -/
def ready (d : Dev) : Dev := ringCommand (· == 2) readyMeaning d

def reissueMeaning : CmdMeaning where
  code d e := firstCode [(2, decide (8191 < cmdSlot e)), (4, (d.seq.req (cmdSlot e)).absent), (12, (d.seq.req (cmdSlot e)).st != .held)]
  units _ _ := 0
  act d e :=
    let r := d.seq.req (cmdSlot e)
    d.setRq (cmdSlot e) { r with st := r.heldFrom }

/-- REISSUE. -/
def reissue (d : Dev) : Dev := ringCommand (· == 3) reissueMeaning d

/-- Units of the housekeeping record that retires request i, and of the notice that follows where its retirement frees a released prefix
(R254, R257). -/
def Dev.retireUnits (d : Dev) (i : Nat) : Nat :=
  2 + (if d.seq.prefixes.any (fun p => p.handle == (d.seq.req i).handle && p.released && p.refs == 1) then 2 else 0)

/-- Retires one request in a housekeeping record. -/
def Dev.retireNow (d : Dev) (i : Nat) (status : Nat) : Dev :=
  d.putRecord { kind := 2, entries := 1 } (reqEntry i (d.seq.req i) status 0 0 0) [i]

def cancelMeaning : CmdMeaning where
  code d e := firstCode [(2, decide (8191 < cmdSlot e)), (4, (d.seq.req (cmdSlot e)).absent)]
  units d e := if d.seq.inRun (cmdSlot e) then 0 else d.retireUnits (cmdSlot e)
  act d e :=
    let i := cmdSlot e
    if d.seq.inRun i then d.setRq i { d.seq.req i with cancelled := true } else d.retireNow i (retireStatus 5 false)

/-- CANCEL (R255). -/
def cancel (d : Dev) : Dev := ringCommand (· == 4) cancelMeaning d

def deadlineMeaning : CmdMeaning where
  code d e := firstCode [(2, decide (8191 < cmdSlot e)), (4, (d.seq.req (cmdSlot e)).absent), (5, !cmdZero e || atN e 14 2 != 0 || !cmdTailZero e 16)]
  units d e := if !d.seq.inRun (cmdSlot e) && atN e 8 6 != 0 && decide (atN e 8 6 ≤ d.step.toNat) then d.retireUnits (cmdSlot e) else 0
  act d e :=
    let i := cmdSlot e
    let v := atN e 8 6
    let d := d.setRq i { d.seq.req i with deadline := BitVec.ofNat 48 v }
    if !d.seq.inRun i && v != 0 && decide (v ≤ d.step.toNat) then d.retireNow i (retireStatus 4 true) else d

/-- DEADLINE (R255). -/
def deadline (d : Dev) : Dev := ringCommand (· == 5) deadlineMeaning d

def prefixDefineMeaning : CmdMeaning where
  code d e := firstCode [(5, !cmdZero e || cmdSlot e != 0 || atN e 8 8 == 0 || atN e 16 4 == 0 || decide (2097151 < atN e 16 4) || !cmdTailZero e 20),
    (7, d.seq.prefixes.any (fun p => p.handle.toNat == atN e 8 8)), (8, decide (65536 ≤ d.seq.prefixes.length))]
  units _ _ := 0
  act d e := { d with seq := { d.seq with prefixes := d.seq.prefixes ++ [⟨BitVec.ofNat 64 (atN e 8 8), atN e 16 4, 0, false⟩] } }

/-- PREFIX_DEFINE (R256). -/
def prefixDefine (d : Dev) : Dev := ringCommand (· == 6) prefixDefineMeaning d

def prefixReleaseMeaning : CmdMeaning where
  code d e := firstCode [(6, (d.seq.prefixOf (BitVec.ofNat 64 (atN e 8 8))).isNone)]
  units d e := match d.seq.prefixOf (BitVec.ofNat 64 (atN e 8 8)) with
    | some p => if p.refs == 0 then 2 else 0
    | none => 0
  act d e :=
    let h := BitVec.ofNat 64 (atN e 8 8)
    match d.seq.prefixOf h with
    | none => d
    | some p =>
      if p.refs == 0 then
        ({ d with seq := { d.seq with prefixes := d.seq.prefixes.filter (fun x => x.handle != h) } } : Dev).notice 2 0 0 h.toNat
      else { d with seq := { d.seq with prefixes := d.seq.prefixes.map (fun x => if x.handle == h then { x with released := true } else x) } }

/-- PREFIX_RELEASE (R257). -/
def prefixRelease (d : Dev) : Dev := ringCommand (· == 7) prefixReleaseMeaning d

/-- The buffer that an ADAPTER_LOAD names is current or draining. -/
def Adapter.busy (a : Adapter) (buf : Bool) : Bool := a.current == buf || a.draining

def adapterLoadMeaning : CmdMeaning where
  code d e := firstCode [(2, decide (255 < cmdSlot e)), (5, !cmdZero e || decide (1 < at1 e 9) || !cmdTailZero e 10),
    (10, match d.seq.adapters.find (cmdSlot e) with
      | some a => a.busy (at1 e 9 == 1)
      | none => false)]
  units d e := if (d.seq.adapters.find (cmdSlot e)).isSome && d.seq.run.isNone then 2 else 0
  act d e :=
    let i := cmdSlot e
    let buf := at1 e 9 == 1
    let gen := BitVec.ofNat 8 (at1 e 8)
    match d.seq.adapters.find i with
    | none => { d with seq := { d.seq with adapters := d.seq.adapters.set i ⟨buf, if buf then 0 else gen, if buf then gen else 0, false⟩ } }
    | some a =>
      let a := { a with current := buf, gen0 := if buf then a.gen0 else gen, gen1 := if buf then gen else a.gen1, draining := true }
      let d := { d with seq := { d.seq with adapters := d.seq.adapters.set i a } }
      if d.seq.run.isSome then d else d.freeAdapters

/-- ADAPTER_LOAD (R258). -/
def adapterLoad (d : Dev) : Dev := ringCommand (· == 8) adapterLoadMeaning d

/-- The TASK is queued or running. -/
def Seq.hasTask (q : Seq) (t : Nat) : Bool :=
  q.tiles.any (fun x => x.task.toNat == t) || (match q.run with
    | some r => r.running.any (fun x => x.task.task.toNat == t)
    | none => false)

def tileMeaning : CmdMeaning where
  code d e :=
    let sec := d.seq.sec
    let aff := at1 e 13
    firstCode [(5, !cmdZero e || cmdSlot e != 0 || atN e 8 4 == 0xFFFFFFFF || decide (sec.kinds.length ≤ at1 e 12) ||
        (decide (11 < aff) && aff != 0xFF) || !bit (at1 e 14) sec.devices.toNat || at1 e 15 != 0 || d.seq.hasTask (atN e 8 4)),
      (13, decide (4096 ≤ d.seq.tiles.length))]
  units _ _ := 0
  act d e := { d with seq := { d.seq with tiles := d.seq.tiles ++ [{
    task := BitVec.ofNat 32 (atN e 8 4), kind := at1 e 12, affinity := BitVec.ofNat 8 (at1 e 13), affDevice := BitVec.ofNat 8 (at1 e 14)
    clientId := BitVec.ofNat 64 (atN e 16 8), args := (e.drop 24).take 104, discards := 0 }] } }

/-- TILE (R259). -/
def tile (d : Dev) : Dev := ringCommand (· == 9) tileMeaning d

def tileCancelMeaning : CmdMeaning where
  code d e := firstCode [(14, d.seq.tiles.all (fun x => x.task.toNat != atN e 8 4))]
  units _ _ := 2
  act d e :=
    let t := atN e 8 4
    match d.seq.tiles.find? (fun x => x.task.toNat == t) with
    | none => d
    | some x =>
      ({ d with seq := { d.seq with tiles := d.seq.tiles.filter (fun y => y.task.toNat != t) } } : Dev).putRecord { kind := 2, entries := 1 }
        (tileEntry x 3) []

/-- TILE_CANCEL (R263). -/
def tileCancel (d : Dev) : Dev := ringCommand (· == 10) tileCancelMeaning d

/-- BAD_OPCODE: an opcode not in Table 9-4. -/
def badOpcode (d : Dev) : Dev :=
  ringCommand (fun o => o == 0 || decide (10 < o)) { code := fun _ _ => 1, units := fun _ _ => 0, act := fun d _ => d } d

/-! ## Doorbells (R237, R239, R272) -/

/-- A doorbell that is ignored (FLT_SEQ_DOORBELL). -/
def Dev.badDoorbell (d : Dev) : Dev := d.unitRecord 5 0 0 fltSeqDoorbell {}

/-- A doorbell of a follower. -/
def Dev.follower (d : Dev) : Bool := d.planLoaded && !d.leader

/-- SEQ_DB_CMD_TAIL. -/
def writeCmdTail (d : Dev) (v : BitVec 32) : Dev :=
  let q := d.seq
  let old := (q.cmdTail - q.cmdHead).toNat
  let new := (v - q.cmdHead).toNat
  if d.follower || decide (new < old) || decide (2 ^ ringLog2 q.cmdBase < new) then d.badDoorbell
  else { d with seq := { q with cmdTail := v } }

/-- SEQ_DB_RESULT_HEAD: room may let waiting records go on. -/
def writeResultHead (d : Dev) (v : BitVec 32) : Dev :=
  let q := d.seq
  if d.follower || decide ((q.resultTail - q.resultHead).toNat < (v - q.resultHead).toNat) then d.badDoorbell
  else (({ d with seq := { q with resultHead := v } } : Dev).flush).endUnload

/-! ## START and UNLOAD (R63, R72, R240) -/

/-- A ring that START accepts: in the stack space of an active cabinet, in one stack, at an address other than 0. -/
def Dev.ringSet (d : Dev) (base : BitVec 64) (n : Nat) : Bool := ringAddr base != 0 && d.ringOk (ringAddr base) n

/-- The smallest result ring in bytes (R240). -/
def Seq.resultBound (q : Seq) : Nat := 64 + 96 * q.sec.templates.foldl (fun m t => max m (t.gen + t.chunks)) 0 + 262144

/-- START is accepted (R72, R240): a plan is LOADED and, of a leader, the rings are set and large enough. -/
def Dev.startable (d : Dev) : Bool :=
  let q := d.seq
  d.plan.st == .loaded && (!d.leader || (d.ringSet q.cmdBase (128 * 2 ^ ringLog2 q.cmdBase) &&
    d.ringSet q.resultBase (64 * 2 ^ ringLog2 q.resultBase) && decide (q.resultBound ≤ 64 * 2 ^ ringLog2 q.resultBase)))

/-- DEV_PLAN_CTL.START. A follower's rings stay unused (R265) and are not looked at; a table that waits for START begins its step. While STATE
is not LOADED it is ignored and LAST_FAULT stays, for which no rule gives a code (DESIGN CHOICE, log 125). -/
def planStart (d : Dev) : Dev :=
  if d.plan.st != .loaded then d
  else if d.startable then ({ d with plan := { d.plan with st := .running } } : Dev).heedLeader
  else ({ d with plan := { d.plan with lastFault := fltSeqCfg } } : Dev).unitRecord 5 0 0 fltSeqCfg {}

/-- DEV_PLAN_CTL.UNLOAD (R63, R264): a bench HALTED at the write abandons the step in flight. -/
def planUnload (d : Dev) : Dev :=
  match d.plan.st with
  | .none => d
  | .failed => { d with plan := { d.plan with st := .none }, cmp := d.cmp.emptied }
  | .loading => (({ d with plan := { d.plan with lastFault := fltPlanBusy } } : Dev).unitRecord 6 0 0 fltPlanBusy {}).dropPlan .none true
  | .loaded => ({ d with seq := { d.seq with cmdHead := d.seq.cmdTail } } : Dev).dropPlan .none true
  | .unloading => d
  | .running =>
    let d := { d with
      plan := { d.plan with st := .unloading, stepTimer := d.seq.run.isSome }
      seq := { d.seq with cmdHead := d.seq.cmdTail } }
    let d := d.tileCheck
    (if d.planBenches.any (fun k => (d.bench k).st == .halted) then d.abandonBare else d).endUnload

/-- UNLOAD_STEP_TIMEOUT (R63): the step in flight has not ended within its bound, and is abandoned with FAULT 0: at once, or, where the
decision on the step before is still being carried out, with its own decision (R335). A follower says so to its leader, which makes the
decision (R237). -/
def unloadStepTimeout (d : Dev) : Dev :=
  match d.seq.run with
  | some r =>
    if d.plan.st != .unloading || !d.plan.stepTimer then d
    else if r.abandon.isSome then d
    else
      let d : Dev := { d with plan := { d.plan with stepTimer := false } }
      if d.leader && !d.actionsPending then d.finishStep r (some 0) else d.abandonBare
  | none => d

/-! ## Readings (Tables 9-19, 9-23) -/

/-- RESULT_WAIT (R254, Table 9-19): a record, an admission that is not paused, or a command waits for room in the result ring. -/
def Dev.resultWait (d : Dev) : Bool :=
  let q := d.seq
  (!q.records.isEmpty && !d.actionsPending) || (!bit 0 q.ctl.toNat && decide (q.room < q.admitNeeds)) || decide (q.room < q.cmdNeeds)

/-- A cabinet of the plan is fenced, here or at a follower (R373). -/
def Dev.planFenced (d : Dev) : Bool := d.planLoaded && (d.planCabs.any d.fenced || d.seq.heldBy.any (fun h => h.2))

/-- SEQ_STATUS. A fenced cabinet of the loaded plan shows as STATE 4 whatever else goes on, but for an unload (R373). -/
def readSeqStatus (d : Dev) : Nat :=
  let q := d.seq
  let active := (q.reqs.filter (fun (p : Nat × Req) => p.2.st != .free)).length
  let role := if !d.planLoaded then 0 else if d.leader then 1 else 2
  let st := if d.plan.st == .unloading then 5 else if d.planFenced then 4 else if d.plan.st != .running then 0
    else match q.run with
    | some r => if r.template == 0xFFFF then 3 else 2
    | none => if bit 0 q.ctl.toNat then 4 else 1
  active * 2 ^ 14 + role * 2 ^ 12 + 8 * b2n d.resultWait + st

/-- SEQ_COUNT. -/
def readSeqCount (q : Seq) : Nat := q.stale.toNat * 2 ^ 16 + q.refused.toNat

end Sys2Proof.Machine
end

