-- ==== Sys2Proof/Machine/Power.lean ====
section
/-! DEFINITION. Power (R430–R454): domain requests, refusals and entries, what a domain loses when it goes OFF, the cabinet states
that follow (R23), regulators, sensors and thresholds, shutdown, throttling and the power cap. Ids are those of Tables 15-3, 15-8
and 15-9, as 256 × cabinet field + index. -/

namespace Sys2Proof.Machine

/-! ## Ids -/

def domId : DomainId → Nat
  | .bench c row col => 256 * c.val + 13 * row.val + col.val
  | .sideboard c => sbDom c.val
  | .drawer c => drwDom c.val
  | .chest c => 256 * c.val + 106
  | .plain c => 256 * c.val + 107
  | .port p => 128 + p.val
  | .edge e => 164 + e.val

def sensorId : SensorId → Nat
  | .bench c row col => 256 * c.val + 13 * row.val + col.val
  | .sideboard c k => 256 * c.val + 104 + k.val
  | .chest c k => 256 * c.val + 108 + k.val
  | .plain c k => 256 * c.val + 110 + k.val
  | .edge e k => 128 + 8 * e.val + k.val
  | .substrate k => 160 + k.val

def regulId : RegulatorId → Nat
  | .cabinet c => 256 * c.val + 240
  | .chest c => 256 * c.val + 241
  | .plain c => 256 * c.val + 242
  | .edge e => 244 + e.val
  | .ports e => 248 + e.val
  | .alwaysOn => 252

/-- The kinds of domain by index (Table 15-3). -/
def isBenchDom (id : Nat) : Bool := decide (id % 256 < 104)
def isPortDom (id : Nat) : Bool := decide (128 ≤ id % 256) && decide (id % 256 < 164)
def isEdgeDom (id : Nat) : Bool := decide (164 ≤ id % 256) && decide (id % 256 < 168)
def isStkDom (id : Nat) : Bool := id % 256 == 106 || id % 256 == 107
def isCabDom (id : Nat) : Bool := decide (id % 256 < 108)

/-- The stack of a stack domain. -/
def domStk (id : Nat) : Nat := 2 * (id / 256) + (id % 256 - 106)

/-- The block of a domain (Table 15-6). -/
def domBlock (id : Nat) : BitVec 16 :=
  let i := id % 256
  if i < 104 then blockId 1 id
  else if i == 104 then blockId 2 id
  else if i == 105 then blockId 3 id
  else if i < 108 then blockId 4 id
  else if i < 164 then blockId 5 id
  else blockId 6 id

/-- The always-on controller. -/
def alwaysOnBlock : BitVec 16 := blockId 8 168

/-- What a physical bench serves (R38): a logical bench, the row's spare position, or none. -/
inductive PhysUse where
  | logical (k : Nat)
  | spare
  | steeredOut
deriving DecidableEq, Repr

def Dev.physUse (d : Dev) (id : Nat) : PhysUse :=
  let c := id / 256
  let r := id % 256 / 13
  let col := id % 256 % 13
  let f := (d.cab c).steer r
  if f ≤ 11 then
    if col == f then .steeredOut else .logical (96 * c + 12 * r + (if col < f then col else col - 1))
  else if col == 12 then (if f == 0xF then .spare else .steeredOut)
  else .logical (96 * c + 12 * r + col)

/-! ## What a domain loses (Tables 15-4 and 15-7) -/

/-- A stack that goes OFF: the save set of Table 15-7 remains as its shadow. -/
def Stack.turnOff (s : Stack) : Stack :=
  { Stack.reset with
    ilv := s.ilv, classCtl := s.classCtl, scrubCtl := s.scrubCtl, spareLost := s.spareLost, spareActive := s.spareActive
    logical := s.logical, banks := s.banks, badChannels := s.badChannels }

/-- A sideboard that goes OFF: its AOW registers are in the save set, and the repair map holds its spare lines. -/
def Sideboard.turnOff (s : Sideboard) : Sideboard := { Sideboard.reset with aow := s.aow, spares := s.spares }

/-- The drawer controller goes OFF with the sideboard domain (Table 15-1): its requests, log and step; the drawer domain's registers
stay. -/
def Drawer.controllerOff (w : Drawer) : Drawer :=
  { w with reqs := [], log := [], step := 0, templates := [], seq := 0, action := none, closed := none, handover := [] }

/-- The drawer domain goes OFF: of its registers (Table 18-6) those of the save set remain. The files' contents are those of requests,
which no domain that is OFF serves (R433). -/
def Drawer.turnOff (w : Drawer) : Drawer :=
  { Drawer.reset with
    mode := w.mode, fallback := w.fallback, mirror := w.mirror, lost := w.lost, reqs := w.reqs, log := w.log, step := w.step
    templates := w.templates, seq := w.seq, action := w.action, closed := w.closed, handover := w.handover }

/-- A port whose edge-die core goes OFF: the save set of Table 15-7 remains, and it trains as after cold reset once it may. -/
def Port.turnOff (x : Port) : Port :=
  { Port.reset with st := if bit 0 x.ctl.toNat then 0 else 10, ctl := x.ctl, rate := x.rate, cmpCtl := x.cmpCtl }

/-- The nine ports of edge die e go OFF with its core. -/
def Dev.turnOffPorts (d : Dev) (e : Nat) : Dev := ((List.range 9).map (fun i => 9 * e + i)).foldl (fun d p => d.modPort p Port.turnOff) d

/-- ED0 goes OFF: of the registers that its core serves (Table 18-2), those of the save set remain. The credential blob and
HB_CTL are the always-on domain's, and HEAD_SEL_N has been sampled (R494): the suite head stays what it is. -/
def Dev.turnOffEd0 (d : Dev) : Dev :=
  let d := d.logSettle
  { d with
    plan := Plan.reset
    hmb := { Mailbox.reset with base := d.hmb.base, ctl := d.hmb.ctl }
    flog := { d.flog with head := 0, tail := 0, lost := 0, logLost := false }
    cmp := Cmp.reset
    fill := Fill.reset
    bridge := { Bridge.reset with ctl := d.bridge.ctl, headSel := d.bridge.headSel, segs := d.bridge.segs }
    seq := { Seq.reset with ctl := d.seq.ctl, stepLimit := d.seq.stepLimit, cmdBase := d.seq.cmdBase, resultBase := d.seq.resultBase }
    lateCount := 0
    suite := { Suite.reset with
      cred := d.suite.cred, credState := d.suite.credState, credBuf := d.suite.credBuf, wins := d.suite.wins, limits := d.suite.limits
      head := d.suite.head }
    boot := { d.boot with selftest := 0 }
    obs := Obs.reset
    number := 0
    step := 0
    template := 0
    discards := [] }

/-- A fill that runs no longer waits for unit u, whose contents are gone: it ends unfilled (R171). -/
def Dev.unfill (d : Dev) (u : FillUnit) : Dev :=
  let f := d.fill
  if f.stks.isEmpty && f.sideboards.isEmpty then d else
  match u with
  | .stack s => ({ d with fill := { f with stks := nsErase s.val f.stks } } : Dev).fillEnd
  | .sideboard c => ({ d with fill := { f with sideboards := nsErase c.val f.sideboards } } : Dev).fillEnd

/-- A domain has gone OFF. A sideboard domain that goes OFF loses what its cabinet's self-test showed: the cabinet restarts with a new one
when the domain leaves OFF, for ON or for RETENTION, for R23 names only the first (DESIGN CHOICE, log 31). -/
def Dev.lost (d : Dev) (id : Nat) : Dev :=
  let c := id / 256
  let i := id % 256
  if i < 104 then
    match d.physUse id with
    | .logical k => d.setBench k Bench.reset
    | _ => d
  else if i == 104 then
    let d := d.setSb c (d.sb c).turnOff
    let d := (d.setDrw c (d.drw c).controllerOff).unfill (.sideboard (Fin.ofNat 12 c))
    d.setCab c { d.cab c with tested := false }
  else if i == 105 then d.setDrw c (d.drw c).turnOff
  else if i < 108 then (d.setStk (domStk id) (d.stk (domStk id)).turnOff).unfill (.stack (Fin.ofNat 24 (domStk id)))
  else if i == 164 then d.turnOffEd0.turnOffPorts 0
  else if isEdgeDom id then d.turnOffPorts (i - 164)
  else d

/-- Training of a stack (R456, R458): a channel that fails goes to the spare without a copy, or the stack is lost (R361), as it is where
the spare itself fails (32) while it serves a channel. -/
def Dev.trainStack (d : Dev) (s : Nat) : Dev :=
  let st := d.stk s
  let d := d.setStk s { st with mem := Mem.undefined d.free, filled := false, trained := true, badChannels := [] }
  st.badChannels.foldl (fun d ch =>
    let st := d.stk s
    if ch == 32 then
      if st.spareActive then (d.setStk s { st with trained := false }).loseStack s 32 else d.setStk s { st with spareLost := true }
    else if st.spareActive && st.logical.toNat == ch then d
    else if st.spareActive || st.spareLost then (d.setStk s { st with trained := false }).loseStack s ch
    else (d.setStk s { st with spareActive := true, logical := BitVec.ofNat 5 ch }).unitRecord 1 (s / 2) s fltChanRepair
      { detail := ch, lasting := true }) d.fresh

/-- A domain has come from OFF to ON or RETENTION: contents undefined (Table 15-4); a stack trains, with the channels `bad` failing. -/
def Dev.gained (d : Dev) (id : Nat) (bad : List Nat) : Dev :=
  let c := id / 256
  let i := id % 256
  if i < 104 then
    match d.physUse id with
    | .logical k => (d.setBench k { Bench.reset with
        st := .unused, store := Mem.undefined d.free, program := Mem.undefined (d.free + 1), traceMem := Mem.undefined (d.free + 2) }).fresh.fresh.fresh
    | _ => d
  else if i == 104 then (d.setSb c { d.sb c with mem := Mem.undefined d.free }).fresh
  else if i == 106 || i == 107 then
    let st := d.stk (domStk id)
    (d.setStk (domStk id) { st with badChannels := st.badChannels ++ bad }).trainStack (domStk id)
  else d

/-- The cabinet's state follows its domains (R23): 0b00 while its sideboard is OFF, 0b01 once its self-test has passed and sideboard and
stacks are ON and trained, else 0b11; that also of a cabinet whose sideboard went from OFF to RETENTION and then ON before a self-test
(DESIGN CHOICE, log 31). -/
def Dev.followCab (d : Dev) (c : Nat) : Dev :=
  let sb := (d.dom (sbDom c)).st
  let ch := (d.dom (256 * c + 106)).st
  let pl := (d.dom (256 * c + 107)).st
  if d.fenced c then d
  else if sb == 0 then d.setCabSt c 0
  else if sb == 1 && ch == 1 && pl == 1 && (d.cab c).tested && (d.stk (2 * c)).trained && (d.stk (2 * c + 1)).trained then d.setCabSt c 1
  else d.setCabSt c 3

/-! ## Requests (R431–R433) -/

/-- A domain takes a state. -/
def Dev.place (d : Dev) (id : Nat) (st : BitVec 2) (bad : List Nat) : Dev :=
  let m := d.dom id
  let d := d.setDom id { m with st := st, entering := none }
  if m.st != 0 && st == 0 then d.lost id else if m.st == 0 && st != 0 then d.gained id bad else d

/-- While a plan is loaded, cabinet state 0b00 puts all domains of the cabinet OFF (R431). -/
def Dev.darken (d : Dev) (c : Nat) : Dev :=
  if d.plan.st == .none || d.plan.st == .failed || (d.cab c).st != 0 then d
  else (List.range 108).foldl (fun d i =>
    let m := d.dom (256 * c + i)
    if m.st == 0 && m.entering.isNone then d else d.place (256 * c + i) 0 []) d

/-- A domain changes state, and its cabinet's follows. -/
def Dev.enter (d : Dev) (id : Nat) (st : BitVec 2) (bad : List Nat) : Dev :=
  let d := d.place id st bad
  if isCabDom id then (d.followCab (id / 256)).darken (id / 256) else d

/-- The lowest bench domain of cabinet c that is ON. -/
def Dev.benchOnDom (d : Dev) (c : Nat) : Option Nat := ((List.range 104).map (fun i => 256 * c + i)).find? d.domOn

/-- The lowest enabled port of edge die e. -/
def Dev.edgePort (d : Dev) (e : Nat) : Option Nat := ((List.range 9).map (fun i => 9 * e + i)).find? (fun p => (d.port p).enabled)

/-- The refuser of a request of state st (1 ON, 2 RETENTION, 0 OFF), if any (Table 15-5). In the hold after a shutdown every domain stays OFF
(Sequence 15-2, step 4): a request for another state is refused by the always-on controller (DESIGN CHOICE, log 31). -/
def Dev.refuser (d : Dev) (id : Nat) (st : BitVec 2) : Option (BitVec 16) :=
  let c := id / 256
  let m := d.dom id
  let down := st != 1
  let entering := m.entering.isSome && m.entering != some 1
  if !(d.plan.st == .none || d.plan.st == .failed) then some loaderBlock
  else if d.pwr.hold && st != 0 then some alwaysOnBlock
  else if isCabDom id && (d.cab c).st == 3 then some alwaysOnBlock
  else if entering then some (domBlock id)
  else if isBenchDom id then
    match d.physUse id with
    | .steeredOut => if st == 0 then none else some alwaysOnBlock
    | .spare => if st == 1 && !d.domOn (sbDom c) then some (domBlock (sbDom c)) else none
    | .logical k =>
      let b := (d.bench k).st
      if down && !(b == .off || b == .spare || b == .unused) then some (domBlock id)
      else if st == 1 && !d.domOn (sbDom c) then some (domBlock (sbDom c))
      else none
  else if id % 256 == 104 then
    match (if down then d.benchOnDom c else none) with
    | some b => some (domBlock b)
    | none => if st == 0 && (d.sb c).filled && !m.discard then some (domBlock id) else none
  else if isStkDom id then
    if down && id % 256 == 106 && d.domOn (drwDom c) then some (domBlock (drwDom c))
    else if st == 0 && (d.stk (domStk id)).filled && !m.discard then some (domBlock id)
    else none
  else if id % 256 == 105 then (if st == 1 && !d.domOn (256 * c + 106) then some (domBlock (256 * c + 106)) else none)
  else if isEdgeDom id then
    let e := id % 256 - 164
    match (if down then d.edgePort e else none) with
    | some p => some (domBlock (128 + p))
    | none =>
      if down && e == 0 && d.pwr.doms.any (fun (p : Nat × Dom) => isCabDom p.1 && p.2.st == 1) then some alwaysOnBlock else none
  else if st == 1 && !d.portCore (id % 256 - 128) then some (domBlock (164 + (id % 256 - 128) / 9))
  else none

/-- The domain on which a request for ON depends (Table 15-5): the request aborts an entry of it (R433). -/
def domNeeds (id : Nat) : Option Nat :=
  let c := id / 256
  if isBenchDom id then some (sbDom c)
  else if id % 256 == 105 then some (256 * c + 106)
  else if isPortDom id then some (164 + (id % 256 - 128) / 9)
  else none

/-- A request for state st. A domain in that state already stays; a port's domain follows its ENABLE (R431). -/
def Dev.request (d : Dev) (id : Nat) (st : BitVec 2) : Dev :=
  let open_ := d.plan.st == .none || d.plan.st == .failed
  let d := match (if st == 1 && open_ then domNeeds id else none) with
    | some n => d.arrive n (domBlock id)
    | none => d
  match d.refuser id st with
  | some b =>
    let m := d.dom id
    d.setDom id { m with refused := satInc16 m.refused, lastRefuser := b }
  | none =>
    let m := d.dom id
    if isPortDom id then d
    else d.setDom id { m with entering := if m.st == st then none else some st }

/-- DOMAIN_ENTRY_COMPLETE: an entry into RETENTION or OFF ends. -/
def domainEntryComplete (d : Dev) (id : Nat) (bad : List Nat) : Dev :=
  match (d.dom id).entering with
  | some st => if st == 1 then d else d.enter id st bad
  | none => d

/-- DOMAIN_ON_COMPLETE: a domain reaches ON. -/
def domainOnComplete (d : Dev) (id : Nat) (bad : List Nat) : Dev :=
  match (d.dom id).entering with
  | some st => if st == 1 then d.enter id 1 bad else d
  | none => d

/-! ## Below the floor corner (R446) -/

/-- The domain is below the floor corner now. Ports never are. -/
def Dev.below (d : Dev) (id : Nat) : Bool := !isPortDom id && (decide (0 < d.effStep id) || d.weakDoms.contains id)

/-- Latches BELOW_FLOOR in every domain that is below the floor corner, and FLOOR_VOID bit 0 where a step uses one. -/
def Dev.floorCheck (d : Dev) : Dev :=
  let weak := d.weakDoms
  let mark (p : Nat × Dom) : Nat × Dom :=
    if !isPortDom p.1 && (decide (0 < d.effStep p.1) || weak.contains p.1) then (p.1, { p.2 with belowFloor := true }) else p
  let d := { d with pwr := { d.pwr with doms := d.pwr.doms.map mark } }
  let d := weak.foldl (fun d id => d.setDom id { d.dom id with belowFloor := true }) d
  if d.slow then d.voidFloor 1 else d

/-! ## PWR_DOM registers (R447–R449) -/

/-- The largest step of a domain (R442). -/
def maxStep (id : Nat) : Nat :=
  let i := id % 256
  if i ≤ 104 || (164 ≤ i && i < 168) then 10 else if i < 108 then 8 else 0

/-- A write of PWR_DOM[c][i]_CTL. A refusal that meets CLR_COUNTS is counted before or after it, as the arbiter says. -/
def writeDomCtl (id v : Nat) (d : Dev) : Dev × Bool :=
  let m := d.dom id
  let cap := bits 7 4 v
  let req := bits 1 0 v
  let d := d.setDom id { m with capStep := if cap ≤ maxStep id then BitVec.ofNat 4 cap else m.capStep, discard := bit 2 v }
  let clear (d : Dev) : Dev := if bit 3 v then d.setDom id { d.dom id with aborted := 0, refused := 0 } else d
  let first := bit 3 v && req != 0 && Config.arbiter d.free
  let d := if first then clear d else d
  let d := if req == 0 then d else d.request id (if req == 3 then 0 else BitVec.ofNat 2 req)
  let d := if first then d else clear d
  ((if bit 3 v && req != 0 then d.fresh else d).floorCheck, true)

/-- The state of a domain: a port's is OFF with its edge-die core, and else follows ENABLE; the always-on domain is ON. -/
def Dev.domSt (d : Dev) (id : Nat) : Nat :=
  let p := id % 256 - 128
  if isPortDom id then (if (d.dom (164 + p / 9)).st == 0 || (d.boot.stage == 9 && decide (4 ≤ p)) then 0 else if (d.port p).enabled then 1 else 2)
  else if id % 256 == 168 then 1 else (d.dom id).st.toNat

/-- PWR_DOM[c][i]_STATUS. -/
def readDomStatus (d : Dev) (id : Nat) : Nat :=
  let m := d.dom id
  if id % 256 == 168 then 1 else
  let entering := m.entering.isSome && m.entering != some 1
  let loop := if id % 256 == 105 then (d.dom (id + 1)).loopStep else m.loopStep
  let pcap := if isBenchDom id then d.pwr.pcapStep.toNat else 0
  let step := if isPortDom id then 0 else d.effStep id
  m.lastRefuser.toNat * 2 ^ 16 + step * 2 ^ 12 + loop.toNat * 2 ^ 8 + pcap * 2 ^ 4 + 8 * b2n (m.belowFloor || d.below id) +
    4 * b2n entering + d.domSt id

/-! ## Shutdown and reset: every domain OFF (Sequence 15-2, R455) -/

/-- A stack after a reset keeps its part of the repair map (R466). -/
def Stack.restart (s : Stack) : Stack :=
  { Stack.reset with
    spareLost := s.spareLost, spareActive := s.spareActive, logical := s.logical
    banks := s.banks.map (fun (p : Nat × BankRows) => (p.1, { p.2 with watch := [] })) }

/-- Every domain but always-on goes OFF; the step in flight is abandoned without a record, and what the repair map holds stays. -/
def Dev.allOff (d : Dev) : Dev :=
  let d := (List.range 12).foldl (fun d c => if d.fenced c then d else d.setCabSt c 0) d.logSettle
  { d with
    benches := []
    cabs := d.cabs.map (fun (p : Nat × Cabinet) => (p.1, { p.2 with tested := false }))
    stks := d.stks.map (fun (p : Nat × Stack) => (p.1, p.2.restart))
    sbs := d.sbs.map (fun (p : Nat × Sideboard) => (p.1, { Sideboard.reset with spares := p.2.spares }))
    drawers := d.drawers.map (fun (p : Nat × Drawer) => (p.1, { Drawer.reset with lost := p.2.lost }))
    plan := Plan.reset
    hmb := Mailbox.reset
    flog := { FaultLog.reset with lseq := d.flog.lseq, keep := d.flog.keep, keepTotal := d.flog.keepTotal, unitSeq := d.flog.unitSeq }
    cmp := Cmp.reset
    fill := Fill.reset
    ports := []
    suite := { Suite.reset with cred := d.suite.cred, credState := d.suite.credState }
    bridge := { Bridge.reset with ctl := d.bridge.ctl, headSel := d.bridge.headSel }
    seq := Seq.reset
    wdCtl := 4
    lateCount := 0
    net := []
    away := []
    discards := []
    obs := Obs.reset
    number := 0
    step := 0
    template := 0
    pwr := { d.pwr with doms := d.pwr.doms.map (fun (p : Nat × Dom) => (p.1, { p.2 with st := 0, entering := none })) } }

/-- Boot stage (sensor 0x3010 of Table 16-9). -/
def Dev.setStage (d : Dev) (st : BitVec 4) : Dev :=
  if d.boot.stage == st then d else ({ d with boot := { d.boot with stage := st } } : Dev).telemetry 2 0x3010 st.toNat []

/-- Device shutdown (Sequence 15-2): recorded by the unit of the given kind and id. -/
def Dev.shutdown (d : Dev) (kind id : Nat) (cause : BitVec 16) : Dev :=
  if d.pwr.hold then d else
  let d := d.unitRecord kind (id / 256) (id % 256) cause { lasting := true }
  let d := { d with pwr := { d.pwr with cause := cause, hold := true } }
  (d.allOff).setStage 11

/-! ## Regulators (R435, R436) -/

/-- Phases fitted and needed (Table 15-8). -/
def regFitted (id : Nat) : Nat :=
  let i := id % 256
  if i == 240 then 7 else if i == 241 then 5 else if i == 242 then 4 else if i < 248 then 4 else if i < 252 then 5 else 3
def regNeeded (id : Nat) : Nat :=
  let i := id % 256
  if i == 240 then 5 else if i == 241 then 3 else if i == 242 then 2 else if i < 248 then 2 else if i < 252 then 3 else 1

def Dev.regul (d : Dev) (id : Nat) : Regul := d.pwr.regs.get Regul.reset id
def Dev.setRegul (d : Dev) (id : Nat) (r : Regul) : Dev := { d with pwr := { d.pwr with regs := d.pwr.regs.set id r } }

/-- Some load of the regulator is not OFF: no phase of a regulator that feeds nothing is lost because it carries no current (log 32). -/
def Dev.regRuns (d : Dev) (id : Nat) : Bool :=
  let c := id / 256
  let i := id % 256
  if i == 240 then (List.range 105).any (fun k => (d.dom (256 * c + k)).st != 0)
  else if i == 241 then (d.dom (256 * c + 105)).st != 0 || (d.dom (256 * c + 106)).st != 0
  else if i == 242 then (d.dom (256 * c + 107)).st != 0
  else if i < 248 then (d.dom (164 + (i - 244))).st != 0
  else if i < 252 then (d.dom (164 + (i - 248))).st != 0
  else true

/-- A port that has failed already, or is disabled. -/
def Dev.portGone (d : Dev) (p : Nat) : Bool := (d.port p).st == 6 || (d.port p).st == 10

/-- The nine ports of edge die e fail; of a PCIe endpoint the host link goes down with them. -/
def Dev.failEdgePorts (d : Dev) (e : Nat) : Dev :=
  let d := if e == 0 && (d.port 0).st == 9 then { d with bridge := d.bridge.linkDown } else d
  ((List.range 9).map (fun i => 9 * e + i)).foldl (fun d p => if d.portGone p then d else d.failPort p 6) d

/-- FLT_REG_LIMIT discards the step (R363): the regulator's cabinet is not fenced yet, or one of its ports has not failed yet. -/
def Dev.limitDiscards (d : Dev) (id : Nat) : Bool :=
  let i := id % 256
  if i < 244 then !d.fenced (id / 256) else (List.range 9).any (fun k => !d.portGone (9 * ((i - 244) % 4) + k))

/-- The effect of FLT_REG_LIMIT. In the hold after a shutdown the device is shut down already. -/
def Dev.regLimit (d : Dev) (id : Nat) : Dev :=
  let c := id / 256
  let i := id % 256
  if i == 244 || i == 252 then
    if d.pwr.hold then d.unitRecord 8 c i fltRegLimit { lasting := true } else d.shutdown 8 id fltRegLimit
  else
    let d := d.unitRecord 8 c i fltRegLimit { lasting := true, discard := d.limitDiscards id }
    if i == 240 then d.loseCabinet c fltRegLimit false false
    else if i == 241 then d.loseCabinet c fltRegLimit false true
    else if i == 242 then d.loseCabinet c fltRegLimit true false
    else if i < 248 then d.failEdgePorts (i - 244)
    else d.failEdgePorts (i - 248)

/-- A phase reads more than 20 % away from the mean of the regulator's other phases. -/
def phaseOff (amps : List Nat) (live : List Nat) (i : Nat) : Bool :=
  let others := live.filter (· != i)
  let n := others.length
  let sum := (others.map (fun k => amps.getD k 0)).sum
  let x := amps.getD i 0
  n != 0 && (decide (5 * n * x < 4 * sum) || decide (6 * sum < 5 * n * x))

/-- REGULATOR_SAMPLE: the phase currents, in A, are read. CURRENT is the average of the last two readings, in whole A (log 32). -/
def regulatorSample (d : Dev) (id : Nat) (amps : List Nat) : Dev :=
  let r := d.regul id
  let runs := d.regRuns id
  let live := (List.range (regFitted id)).filter (fun i => !r.lost.contains i)
  let streak (i : Nat) : Nat := if phaseOff amps live i then r.streaks.get 0 i + 1 else 0
  let gone := live.filter (fun i => (runs && amps.getD i 0 == 0) || decide (16 ≤ streak i))
  let total := (live.map (fun i => amps.getD i 0)).sum
  let d := d.setRegul id {
    current := BitVec.ofNat 12 (min 4095 ((r.prev.getD total + total) / 2)), prev := some total, lost := r.lost ++ gone
    streaks := (live.filter (fun i => streak i != 0 && !gone.contains i)).map (fun i => (i, streak i)) }
  let d := gone.foldl (fun d i => (d.unitRecord 8 (id / 256) (id % 256) fltRegPhase { lasting := true }).telemetry 4 (0x2000 + id) i []) d
  let left (l : List Nat) : Nat := regFitted id - l.length
  if left (r.lost ++ gone) < regNeeded id && regNeeded id ≤ left r.lost then d.regLimit id else d

/-- REG[c][r]_STATUS (R451). -/
def readReg (d : Dev) (id : Nat) : Nat :=
  let r := d.regul id
  r.current.toNat * 2 ^ 20 + regFitted id * 2 ^ 16 + regNeeded id * 2 ^ 12 + r.lost.length * 2 ^ 8 + (r.lost.map (fun i => 2 ^ i)).sum

/-! ## Sensors (R437–R441) -/

def Dev.sensor (d : Dev) (id : Nat) : Sensor := d.pwr.sensors.get Sensor.reset id
def Dev.setSensor (d : Dev) (id : Nat) (x : Sensor) : Dev := { d with pwr := { d.pwr with sensors := d.pwr.sensors.set id x } }

/-- Cabinets adjacent in number on the same compute die, three to a die (R18). -/
def cabBeside (c : Nat) : List Nat := (List.range 12).filter (fun x => x / 3 == c / 3 && (x + 1 == c || c + 1 == x))

/-- The neighbours of a sensor (Table 15-9). -/
def neighbours (id : Nat) : List Nat :=
  let c := id / 256
  let i := id % 256
  if i < 104 then
    (List.range 104).filterMap (fun j =>
      let dr := (if i / 13 < j / 13 then j / 13 - i / 13 else i / 13 - j / 13)
      let dc := (if i % 13 < j % 13 then j % 13 - i % 13 else i % 13 - j % 13)
      if dr + dc == 1 then some (256 * c + j) else none)
  else if i < 108 then ([104, 105, 106, 107].filter (· != i)).map (fun j => 256 * c + j)
  else if i < 112 then
    let base := if i < 110 then 108 else 110
    (256 * c + (if i == base then base + 1 else base)) :: (cabBeside c).flatMap (fun x => [256 * x + base, 256 * x + base + 1])
  else if i < 160 then ((List.range 8).map (fun k => 128 + 8 * ((i - 128) / 8) + k)).filter (· != i)
  else [160 + (i - 160 + 15) % 16, 160 + (i - 160 + 1) % 16]

/-- The sensors of the same kind on the same die (R438). -/
def sameKind (id : Nat) : List Nat :=
  let c := id / 256
  let i := id % 256
  let cabs := (List.range 12).filter (fun x => x / 3 == c / 3)
  if i < 104 then cabs.flatMap (fun x => (List.range 104).map (fun j => 256 * x + j))
  else if i < 108 then cabs.flatMap (fun x => [104, 105, 106, 107].map (fun j => 256 * x + j))
  else if i < 112 then (if i < 110 then [256 * c + 108, 256 * c + 109] else [256 * c + 110, 256 * c + 111])
  else if i < 160 then (List.range 8).map (fun k => 128 + 8 * ((i - 128) / 8) + k)
  else (List.range 16).map (fun k => 160 + k)

/-- Inserts in ascending order. -/
def insInt (x : Int) : List Int → List Int
  | [] => [x]
  | y :: t => if x ≤ y then x :: y :: t else y :: insInt x t

def sortInts (l : List Int) : List Int := l.foldr insInt []

/-- Twice the median. -/
def median2 (l : List Int) : Int :=
  let s := sortInts l
  let n := s.length
  if n % 2 == 1 then 2 * s.getD (n / 2) 0 else s.getD (n / 2 - 1) 0 + s.getD (n / 2) 0

/-- Thresholds and hysteresis in 0.25 °C (Table 15-10): warning, throttle, shutdown. Base dies are Stacks, all else Logic. -/
def stackSensor (id : Nat) : Bool := decide (108 ≤ id % 256) && decide (id % 256 < 112)
def threshold (stk : Bool) (lvl : Nat) : Int :=
  match lvl with
  | 1 => if stk then 340 else 380
  | 2 => if stk then 360 else 400
  | _ => if stk then 400 else 460
def hysteresis (lvl : Nat) : Int := if lvl == 3 then 40 else 20

/-- The level after a reading, entered at a threshold and left below it by more than its hysteresis (R440). Substrate sensors only
warn. -/
def levelOf (id old : Nat) (v : Int) : Nat :=
  let at_ (l : Nat) : Bool := decide (threshold (stackSensor id) l ≤ v) || (decide (l ≤ old) && decide (threshold (stackSensor id) l - hysteresis l ≤ v))
  let top := if 160 ≤ id % 256 then 1 else 3
  (((List.range top).map (fun i => top - i)).find? at_).getD 0

/-- The used value of a suspect sensor (R438). -/
def Dev.usedSuspect (d : Dev) (id : Nat) (raw : Int) (good : List Nat) : Int :=
  if 2 ≤ good.length then median2 (good.map (fun n => (d.sensor n).raw.toInt)) / 2
  else match (((sameKind id).filter (fun n => n != id && !(d.sensor n).suspect)).map (fun n => (d.sensor n).raw.toInt)) with
    | [] => raw
    | x :: t => t.foldl max x

/-- The sensors that govern a domain (R439). -/
def governors (id : Nat) : List Nat :=
  let c := id / 256
  let i := id % 256
  if i < 104 then [id]
  else if i == 104 then [104, 105, 106, 107].map (fun j => 256 * c + j)
  else if i == 105 || i == 106 then [256 * c + 108, 256 * c + 109]
  else if i == 107 then [256 * c + 110, 256 * c + 111]
  else if i < 164 then (List.range 8).map (fun k => 128 + 8 * ((i - 128) / 9) + k)
  else if i < 168 then (List.range 8).map (fun k => 128 + 8 * (i - 164) + k)
  else (List.range 8).map (fun k => 128 + k)

def Dev.governing (d : Dev) (id : Nat) : Int :=
  match (governors id).map (fun n => (d.sensor n).temp.toInt) with
  | [] => 0
  | x :: t => t.foldl max x

/-- The domain whose `level` follows the governing value to which a sensor belongs: a chest's stands in its stack domain, an edge die's in its
core. A substrate sensor governs none. -/
def levelDom (sensor : Nat) : Option Nat :=
  let base := sensor - sensor % 256
  let i := sensor % 256
  if i < 104 then some sensor
  else if i < 108 then some (base + 104)
  else if i < 112 then some (base + (if i < 110 then 106 else 107))
  else if i < 160 then some (164 + (i - 128) / 8)
  else none

/-- The level of the governing value to which a sensor belongs (R440): from warning on, a stack doubles its refresh (R160). -/
def Dev.follow (d : Dev) (sensor : Nat) : Dev :=
  match levelDom sensor with
  | some id => d.setDom id { d.dom id with level := BitVec.ofNat 2 (levelOf sensor (d.dom id).level.toNat (d.governing id)) }
  | none => d

/-- The highest level of any sensor (sensor 0x3011 of Table 16-9). -/
def Dev.thermalLevel (d : Dev) : Nat := d.pwr.sensors.foldl (fun m (p : Nat × Sensor) => max m p.2.level.toNat) 0

/-- A sensor is read: checking, used value, level, and shutdown at the second confirmed reading (R441). -/
def readSensor (d : Dev) (id : Nat) (raw : BitVec 16) : Dev :=
  let x := d.sensor id
  let good := (neighbours id).filter (fun n => !(d.sensor n).suspect)
  let unchecked := decide (good.length < 2)
  let med2 := median2 (good.map (fun n => (d.sensor n).raw.toInt))
  let far := !unchecked && decide (64 < (2 * raw.toInt - med2).natAbs)
  let streak := if x.suspect then x.streak else if far then x.streak + 1 else 0
  let newly := !x.suspect && decide (16 ≤ streak)
  let suspect := x.suspect || newly
  let used := if suspect then d.usedSuspect id raw.toInt good else raw.toInt
  let lvl := levelOf id x.level.toNat used
  let confirmed := !unchecked && !far && decide (threshold (stackSensor id) 3 ≤ used) && decide (id % 256 < 160)
  let before := d.thermalLevel
  let d := d.setSensor id {
    raw := raw, median := if unchecked then 0 else BitVec.ofInt 16 (med2 / 2), suspect := suspect, unchecked := unchecked
    level := BitVec.ofNat 2 lvl, streak := min 16 streak, temp := BitVec.ofInt 16 used, hot := confirmed }
  let d := if newly then d.unitRecord 9 (id / 256) (id % 256) fltSensorSuspect { lasting := true } else d
  let d := if lvl != x.level.toNat then d.telemetry 1 id lvl [] else d
  let d := if d.thermalLevel != before then d.telemetry 2 0x3011 d.thermalLevel [] else d
  let d := (d.follow id).floorCheck
  if confirmed && x.hot then d.shutdown 9 id fltThermalShutdown else d

/-- Writing 1 to SUSPECT (R438): checking starts afresh. -/
def suspectClear (id : Nat) (d : Dev) : Dev :=
  let x := d.sensor id
  if x.suspect then d.setSensor id { x with suspect := false, streak := 0 } else d

/-- SNS[c][i]_STATUS (R450). -/
def readSns (d : Dev) (id : Nat) : Nat :=
  let x := d.sensor id
  x.raw.toNat * 2 ^ 48 + x.median.toNat * 2 ^ 32 + b2n x.suspect * 2 ^ 31 + b2n x.unchecked * 2 ^ 30 + x.level.toNat * 2 ^ 28 +
    x.streak * 2 ^ 16 + x.temp.toNat

/-! ## Throttling and the power cap (R439, R442, R445) -/

/-- THROTTLE_LOOP: the loop step follows the governing value; `underVolt` is what the domain's supply monitor shows, which counts for
clockless domains (R446; log 104). A drawer domain has the loop of its chest; a port has none. -/
def throttleLoop (d : Dev) (id : Nat) (underVolt : Bool) : Dev :=
  if isPortDom id || id % 256 == 105 then d else
  let stk := isStkDom id
  let v := d.governing id
  let m := d.dom id
  let step := m.loopStep.toNat
  let next := if threshold stk 2 ≤ v then min (maxStep id) (step + 1)
    else if v < threshold stk 2 - hysteresis 2 then step - 1
    else step
  (d.setDom id { m with loopStep := BitVec.ofNat 4 next, underVolt := underVolt && clockless id }).floorCheck

/-- POWER_CAP_LOOP: the cap step of every bench domain follows the current, in units of 0.1 A. The other readings of
DEV_PWR_STATUS are free (log 27). -/
def powerCapLoop (d : Dev) (deciAmps : Nat) : Dev :=
  let p := d.pwr
  let limit := 10 * p.limit.toNat
  let step := p.pcapStep.toNat
  let next := if limit < deciAmps then min 10 (step + 1) else if deciAmps + 100 < limit then step - 1 else step
  let d := { d with pwr := { p with
    pcapStep := BitVec.ofNat 4 next, current := BitVec.ofNat 16 (min 0xFFFF deciAmps), vinMv := Config.supplyReading 0 d.free
    vauxMv := Config.supplyReading 1 d.free, watts := Config.supplyReading 2 d.free } }
  d.fresh.floorCheck

/-- DEV_PWR_CAP (R453). -/
def writePwrCap (v : Nat) (d : Dev) : Dev × Bool :=
  let l := bits 8 0 v
  if 100 ≤ l ∧ l ≤ 380 then ({ d with pwr := { d.pwr with limit := BitVec.ofNat 9 l } }, true) else (d, false)

/-- DEV_PWR_STATUS (R454). -/
def readPwr (d : Dev) : Nat :=
  d.pwr.vinMv.toNat * 2 ^ 48 + d.pwr.current.toNat * 2 ^ 32 + d.pwr.vauxMv.toNat * 2 ^ 16 + d.pwr.watts.toNat

/-- Every throttleable domain (R442). -/
def throttleable : List Nat := (List.range 12).flatMap (fun c => (List.range 108).map (fun i => 256 * c + i)) ++ [164, 165, 166, 167]

/-- Every sensor of Table 15-9, in ascending order. -/
def allSensors : List Nat :=
  (List.range 112) ++ (List.range 48).map (fun i => 128 + i) ++
    ((List.range 12).drop 1).flatMap (fun c => (List.range 112).map (fun i => 256 * c + i))

/-- The hottest used value with the lowest id (R452); a sensor not read yet shows 0. -/
def Dev.hottest (d : Dev) : Nat × Int :=
  let rest := (allSensors.find? (fun i => (d.pwr.sensors.find i).isNone)).toList.map (fun i => (i, (0 : Int)))
  (d.pwr.sensors.map (fun (p : Nat × Sensor) => (p.1, p.2.temp.toInt)) ++ rest).foldl (fun (b : Nat × Int) (p : Nat × Int) =>
    if b.2 < p.2 || (b.2 == p.2 && decide (p.1 < b.1)) then p else b) (match d.pwr.sensors with
      | [] => (0, 0)
      | p :: _ => (p.1, p.2.temp.toInt))

/-- DEV_THERM_STATUS (R452). -/
def readTherm (d : Dev) : Nat :=
  let h := d.hottest
  let any (f : Nat × Sensor → Bool) : Nat := b2n (d.pwr.sensors.any f)
  let hot := (throttleable.filter (fun id => decide (0 < d.effStep id))).length
  d.pwr.cause.toNat * 2 ^ 48 + h.1 * 2 ^ 32 + (BitVec.ofInt 16 h.2).toNat * 2 ^ 16 + hot * 2 ^ 4 + 8 * any (fun p => p.2.suspect) +
    4 * b2n (d.pwr.pcapStep != 0) + 2 * b2n (d.pwr.doms.any (fun (p : Nat × Dom) => decide (2 ≤ p.2.level.toNat))) +
    any (fun p => p.2.level != 0)

/-- ALERT_N is asserted (R440, R460). -/
def Dev.alert (d : Dev) : Bool :=
  d.pwr.sensors.any (fun (p : Nat × Sensor) => p.2.level != 0) || d.pwr.pcapStep != 0 ||
    d.pwr.doms.any (fun (p : Nat × Dom) => !isPortDom p.1 && decide (0 < d.effStep p.1)) ||
    d.pwr.regs.any (fun (p : Nat × Regul) => !p.2.lost.isEmpty) || d.boot.stage == 10

/-- THERMTRIP_N is asserted (R440, R441). -/
def Dev.thermtrip (d : Dev) : Bool := d.pwr.hold

end Sys2Proof.Machine
end

