-- ==== Sys2Proof/Machine/Suite.lean ====
section
/-! DEFINITION. The suite (R396, R402–R407, R416, R423–R425): credentials, discovery and numbering, suite routes, and
interrupt requests. -/

namespace Sys2Proof.Machine

/-! ## Credentials (R396) -/

/-- SUITE_CRED_BUF as bytes. -/
def Suite.buffer (s : Suite) : List Byte := (List.range 1024).flatMap (fun k => leBytes 4 (s.credBuf.get 0#32 k).toNat)

/-- The hash that names this device (R406). -/
def identityHash : BitVec 384 := hash384 identityBytes

/-- Number entries of a blob (Table 14-5): hash and number. -/
def blobNumbers (b : List Byte) : List (BitVec 384 × Nat) :=
  (List.range (min 80 (atN b 4 2))).map (fun i =>
    let e := (b.drop (0x180 + 52 * i)).take 52
    (BitVec.ofNat 384 (beNat (e.take 48)), at1 e 48))

/-- A blob that breaks a rule of R396. -/
def blobBad (b : List Byte) : Bool :=
  let ns := blobNumbers b
  atN b 0 2 != 0x7C31 || atN b 2 2 != 1 || !certSigned b (blobCert b) || certKey (blobCert b) != identityBytes ||
    !decide ((ns.map (fun e => e.1)).Nodup) || !decide ((ns.map (fun e => e.2)).Nodup) || ns.any (fun e => decide (63 < e.2)) ||
    decide (64 < atN b 4 2)

/-- CRED_COMMIT: the blob in the buffer goes to the bureau, or is refused. -/
def credCommit (d : Dev) : Dev × Bool :=
  let b := d.suite.buffer
  if blobBad b then ({ d with suite := { d.suite with credState := 2 } }, false)
  else ({ d with suite := { d.suite with credState := 1, cred := some (b.take (0x180 + 52 * atN b 4 2)) } }, true)

/-! ## Discovery at the head (R404–R407) -/

/-- The committed certificate has the HEAD role. -/
def Suite.mayHead (s : Suite) : Bool :=
  match s.cred with
  | some b => bit 0 (at1 (blobCert b) 0x0C)
  | none => false

/-- Sends to other devices in a form whose layout is not given. -/
def Dev.sendSuite (d : Dev) (ms : List SuiteOut) : Dev := { d with suite := { d.suite with sent := d.suite.sent ++ ms } }

/-- DISCOVER goes out on every TRUSTED port but those given (R405). -/
def Dev.sendDiscover (d : Dev) (but : List Nat) (head : BitVec 384) (round : BitVec 16) : Dev :=
  d.sendSuite (((List.range 36).filter (fun p => d.trusted p && !but.contains p)).map (fun p => .discover p head round))

/-- Discovery begins at the suite head, or fails (R404). -/
def Dev.discover (d : Dev) : Dev :=
  if !d.suite.head then d
  else if !d.suite.mayHead then { d with suite := { d.suite with noHeadRole := true, discovery := 3 } }
  else
    let round := d.suite.round + 1
    ({ d with suite := { d.suite with
        noHeadRole := false, discovery := 1, reports := [], assigning := [], assignFailed := false, round := round } } : Dev).sendDiscover
      [] identityHash round

/-- DISCOVERY_START: 100 ms after the last port settled. -/
def discoveryStart (d : Dev) : Dev := d.discover

/-- This device's own report: the state of each port (Table 14-14), its partner's id tag and port. -/
def Dev.ownPorts (d : Dev) : List (BitVec 4 × BitVec 32 × BitVec 6) :=
  (List.range 36).map (fun p => ((d.port p).st, (d.port p).pTag, (d.port p).pPort))

/-- The id tags of the TRUSTED partners in a list of ports. -/
def trustedTags (ps : List (BitVec 4 × BitVec 32 × BitVec 6)) : List (BitVec 32) := ps.filterMap (fun p => if p.1 == 4 then some p.2.1 else none)

/-- Every device that a TRUSTED port shows has reported. -/
def Dev.allReports (d : Dev) : Bool :=
  let have_ := hashTag identityHash :: d.suite.reports.map (fun r => hashTag r.identity)
  (trustedTags d.ownPorts ++ d.suite.reports.flatMap (fun r => trustedTags r.ports)).all (fun t => have_.contains t)

/-- Devices of the suite by identity, with the numbers given so far. -/
abbrev Numbers := List (BitVec 384 × Nat)

def Numbers.of (ns : Numbers) (h : BitVec 384) : Option Nat := (ns.find? (fun e => e.1 == h)).map (fun e => e.2)

/-- The lowest number not in use. -/
def Numbers.lowest (ns : Numbers) : Option Nat := (List.range 64).find? (fun i => !ns.any (fun e => e.2 == i))

/-- Discovery order (R406): hop count, number of the forwarding device, ingress port. -/
def orderKey (ns : Numbers) (r : DiscReport) : Nat := r.hops * 8192 + (ns.of r.via).getD 64 * 64 + r.ingress.toNat

/-- Numbers the devices that have no entry, in discovery order. The fuel is the number of reports. -/
def numberRest : Nat → List DiscReport → Numbers → Numbers
  | 0, _, ns => ns
  | n + 1, rs, ns =>
    let todo := rs.filter (fun r => (ns.of r.identity).isNone)
    match todo with
    | [] => ns
    | r0 :: t =>
      let r := t.foldl (fun m r => if orderKey ns r < orderKey ns m then r else m) r0
      match ns.lowest with
      | some i => numberRest n rs (ns ++ [(r.identity, i)])
      | none => ns

/-- The numbers of R406: the head's own entry or 0, the entries of the devices found, then the rest. -/
def Dev.numbers (d : Dev) : Numbers :=
  let entries := match d.suite.cred with
    | some b => blobNumbers b
    | none => []
  let own : Nat := (Numbers.of entries identityHash).getD 0
  let named := d.suite.reports.filterMap (fun r => (Numbers.of entries r.identity).map (fun i => (r.identity, i)))
  numberRest d.suite.reports.length d.suite.reports ((identityHash, own) :: named)

/-- The devices one hop from those given, by id tag. -/
def Dev.beside (d : Dev) (tags : List (BitVec 32)) : List (BitVec 32) :=
  let nodes := (hashTag identityHash, trustedTags d.ownPorts) :: d.suite.reports.map (fun r => (hashTag r.identity, trustedTags r.ports))
  nodes.filterMap (fun n => if n.2.any (fun t => tags.contains t) then some n.1 else none)

/-- Breadth-first distances to a device: sets of id tags by hop count, farther sets last. The fuel is 64 hops. -/
def Dev.rings (d : Dev) : Nat → List (List (BitVec 32)) → List (BitVec 32) → List (List (BitVec 32))
  | 0, acc, _ => acc
  | n + 1, acc, front =>
    let seen := acc.flatten
    let next := (d.beside front).filter (fun t => !seen.contains t)
    if next.isEmpty then acc else d.rings n (acc ++ [next]) next

/-- The suite route to the device `dest` of the device `self`, which reports the ports given (R407): hops, and up to 4 ports whose TRUSTED partner
lies one hop closer. -/
def Dev.routeTo (d : Dev) (self : BitVec 32) (ports : List (BitVec 4 × BitVec 32 × BitVec 6)) (dest : BitVec 32) : Option (Nat × List Nat) :=
  let rs := d.rings 64 [[dest]] [dest]
  match (List.range rs.length).find? (fun h => (rs.getD h []).contains self) with
  | some (h + 1) =>
    let closer := rs.getD h []
    some (h + 1, ((List.range ports.length).filter (fun p => let x := ports.getD p (0, 0, 0); x.1 == 4 && closer.contains x.2.1)).take 4)
  | _ => none

/-- The suite route of the head to a device. -/
def Dev.headRoute (d : Dev) (tag : BitVec 32) : Option SuiteRoute :=
  (d.routeTo (hashTag identityHash) d.ownPorts tag).map (fun r => { hops := r.1, ports := r.2, cur := if r.2.isEmpty then none else some 0 })

/-- SUITE_DEV (Table 14-20). -/
def suiteDev (hops trusted : Nat) (tag : BitVec 32) : BitVec 64 :=
  BitVec.ofNat 64 (2 ^ 63 + (min 15 hops) * 2 ^ 52 + trusted * 2 ^ 32 + tag.toNat)

/-- The devices that were found, by id tag, with the number that each took, if any (R406). -/
abbrev Census := List (BitVec 32 × Option Nat)

/-- A device's partners among those found, by port (R406, R420). -/
def Census.partners (c : Census) (ports : List (BitVec 4 × BitVec 32 × BitVec 6)) : List (Nat × Option (BitVec 6)) :=
  ports.zipIdx.filterMap (fun p => if p.1.1 == 4 then (c.find? (fun n => n.1 == p.1.2.1)).map (fun n => (p.2, n.2.map (BitVec.ofNat 6))) else none)

/-- The partners of this device take their numbers; the ports of one that took none are treated as UNTRUSTED (R406, R420). -/
def Dev.namePartners (d : Dev) (partners : List (Nat × Option (BitVec 6))) : Dev :=
  partners.foldl (fun d p => d.modPort p.1 (fun x => if x.st != 4 then x else match p.2 with
    | some n => { x with pNumber := some n }
    | none => { x with pNumber := none, st := 5, apart := true })) d

/-- The suite as the numbered devices make it. -/
def Dev.numberedView (d : Dev) (ns : Numbers) : Dev :=
  { d with suite := { d.suite with reports := d.suite.reports.filter (fun r => (ns.of r.identity).isSome) } }

/-- ASSIGN to a device (R405): its number, its suite routes to every other device, and its partners' numbers. -/
def Dev.assignTo (view : Dev) (c : Census) (n : Nat) (r : DiscReport) : SuiteOut :=
  .assign r.identity n (c.filterMap (fun t => t.2.bind (fun m => if m == n then none else
    (view.routeTo (hashTag r.identity) r.ports t.1).map (fun e => (m, e.1, e.2))))) (c.partners r.ports)

/-- The head numbers the devices, computes the suite routes of every one and sends ASSIGN. With a plan loaded the head refuses a change of its own
number, and keeps its routes with it. -/
def Dev.assignAll (d : Dev) : Dev :=
  let ns := d.numbers
  let census : Census := (identityHash :: d.suite.reports.map (fun r => r.identity)).map (fun h => (hashTag h, ns.of h))
  let ports := d.ownPorts
  let own := (ns.of identityHash).getD 0
  let others := d.suite.reports.filterMap (fun r => (ns.of r.identity).map (fun i => (i, r)))
  let clash := d.planLoaded && own != d.number.toNat
  let d := if clash then d else d.namePartners (census.partners ports)
  let view := d.numberedView ns
  let routes := others.foldl (fun (t : Tab SuiteRoute) o => match view.headRoute (hashTag o.2.identity) with
    | some r => t.set o.1 r
    | none => t) []
  let devs := others.foldl (fun (t : Tab (BitVec 64)) o => t.set o.1 (suiteDev o.2.hops (trustedTags o.2.ports).length (hashTag o.2.identity)))
    ([(own, suiteDev 0 (trustedTags ports).length (hashTag identityHash))] : Tab (BitVec 64))
  let assigning := others.map (fun o => o.1)
  let d := d.sendSuite (others.map (fun o => view.assignTo census o.1 o.2))
  { d with
    number := if clash then d.number else BitVec.ofNat 6 own
    suite := { d.suite with
      numbered := d.suite.numbered || !clash, devices := BitVec.ofNat 7 (others.length + 1), devs := devs
      routes := if clash then d.suite.routes else routes, assigning := assigning
      assignFailed := clash, discovery := if assigning.isEmpty then (if clash then 3 else 2) else 1 } }

/-- DISCOVERY_REPORT: a device's report reaches the head. -/
def discoveryReport (d : Dev) (r : DiscReport) : Dev :=
  let s := d.suite
  if !s.head || s.discovery != 1 || !s.assigning.isEmpty || s.reports.any (fun x => x.identity == r.identity) then d
  else
    let d := { d with suite := { s with reports := s.reports ++ [r] } }
    if d.allReports then d.assignAll else d

/-- DISCOVERY_REPORT_TIMEOUT: 1 ms without a report. -/
def discoveryReportTimeout (d : Dev) : Dev :=
  let s := d.suite
  if !s.head || s.discovery != 1 || !s.assigning.isEmpty then d else d.assignAll

/-- ASSIGN_ACKNOWLEDGEMENT: a device has taken or refused its number. -/
def assignAcknowledgement (d : Dev) (dev : BitVec 6) (ok : Bool) : Dev :=
  let s := d.suite
  if !s.assigning.contains dev.toNat then d
  else
    let left := s.assigning.filter (· != dev.toNat)
    let failed := s.assignFailed || !ok
    { d with suite := { s with
        assigning := left, assignFailed := failed, discovery := if left.isEmpty then (if failed then 3 else 2) else s.discovery } }

/-! ## Discovery at the other devices -/

/-- DISCOVER_MESSAGE: the first of a discovery is answered and forwarded; later ones of it are alternate paths; a suite head only notes
the conflict. Of two heads the first alone is answered. -/
def discoverMessage (d : Dev) (p : Nat) (head : BitVec 384) (round : BitVec 16) : Dev :=
  let s := d.suite
  if !d.trusted p then d
  else if s.head then { d with suite := { s with conflict := true } }
  else if s.answered == some (head, round) then { d with suite := { s with alternatePaths := s.alternatePaths ++ [p] } }
  else if s.answered.any (fun a => a.1 != head) then d
  else
    (({ d with suite := { s with answered := some (head, round), alternatePaths := [] } } : Dev).sendSuite
      [.discReport p identityHash d.ownPorts]).sendDiscover [p] head round

/-- ASSIGN: number, suite routes and the partners' numbers, refused where a loaded plan's number would change. The head hears whether it was
taken (R405, R406). -/
def assign (d : Dev) (number : BitVec 6) (routes : List (Nat × Nat × List Nat)) (partners : List (Nat × Option (BitVec 6))) : Dev :=
  let s := d.suite
  if s.head then d
  else if d.planLoaded && number != d.number then d.sendSuite [.assignAck false]
  else
    let d := d.namePartners partners
    let table := routes.foldl (fun (t : Tab SuiteRoute) r =>
      let ports := r.2.2.take 4
      t.set r.1 { hops := r.2.1, ports := ports, cur := (List.range ports.length).find? (fun i => d.trusted (ports.getD i 64)) }) []
    ({ d with number := number, suite := { d.suite with numbered := true, routes := table } } : Dev).sendSuite [.assignAck true]

/-! ## Restoring routes and DEV_SUITE_CTL (R399, R424) -/

/-- RESTORE_ROUTES: at once where no step is in flight, else when the step in flight ends. -/
def restoreRoutes (d : Dev) : Dev :=
  let d := { d with suite := { d.suite with restore := true } }
  if d.seq.run.isSome then d else d.applyRestore

/-- A write of DEV_SUITE_CTL: the bits act from bit 0 up. -/
def writeSuiteCtl (v : Nat) (d : Dev) : Dev × Bool :=
  let (d, a) := if bit 0 v then credCommit d else (d, false)
  let (d, b) := if bit 1 v then (d.discover, d.suite.head) else (d, false)
  let d := if bit 2 v then restoreRoutes d else d
  (d, a || b || bit 2 v || bits 2 0 v == 0)

/-- DEV_SUITE_STATUS. -/
def readSuiteStatus (d : Dev) : Nat :=
  let s := d.suite
  d.number.toNat * 2 ^ 26 + b2n s.numbered * 2 ^ 25 + b2n s.head * 2 ^ 24 + s.devices.toNat * 2 ^ 17 + b2n s.conflict * 2 ^ 16 +
    b2n s.noHeadRole * 2 ^ 15 + s.credState.toNat * 2 ^ 13 + s.discovery.toNat

end Sys2Proof.Machine
end

