-- ==== Sys2Proof/Machine/Firmware.lean ====
section
/-! DEFINITION. Firmware copies, boot checks, updates and fuses (R459–R464, R480, R481). -/

namespace Sys2Proof.Machine

/-! ## Firmware copies (R459, R460) -/

/-- A flash area erased. -/
def erased : Mem := Mem.filled 0xFFFFFFFFFFFFFFFF#64

/-- Where a copy's last 4 KiB begin, which hold its boot record: BOOT_SEQ and its complement (R459). -/
def recordAt : Nat := 0x1FFF000
def recordBytes (seq : BitVec 32) : List Byte := leBytes 4 seq.toNat ++ leBytes 4 (~~~seq).toNat

/-- A copy's header and boot record are erased (R464). -/
def eraseEnds (m : Mem) : Mem := (m.write 0 (List.replicate 4096 0xFF#8)).write recordAt (List.replicate 4096 0xFF#8)

/-- Fields of a written copy's header (Table 16-3). -/
def fwByte (m : Mem) (o : Nat) : Nat := (m.byte o).toNat
def fwLength (m : Mem) : Nat := m.readNat 0x10 8

/-- Check 1 of R460: MAGIC, HDR_VERSION and LENGTH. -/
def fwFormat (m : Mem) : Bool :=
  m.read 0 8 == [0x47, 0x53, 0x46, 0x57, 0x41, 0x4B, 0x39, 0x00] && m.readNat 8 2 == 1 && decide (fwLength m ≤ 0x1FFE000)

/-- Chunks of the image that a reset cut short hold what nothing states: whether the digest still holds is open. -/
def fwTorn (m : Mem) (torn : List Nat) : Bool := torn.any (fun k => decide (65536 * k < 0x1000 + fwLength m))

/-- Check 2: body digest and signature. -/
def fwSigned (m : Mem) : Bool :=
  sha384 (m.read 0x1000 (fwLength m)) == m.read 0x80 48 && ecdsaVerify (m.read 0x20 96) (m.read 0 0x100) (m.read 0x100 96)

/-- What a copy shows to the checks of R460: the code of FW_STATUS (Table 16-16) that fails it, or its SVN and key slot. `luck` is the
open outcome for a torn image. -/
def FwImage.check (im : FwImage) (f : Fw) (luck : Bool) : Except (BitVec 8) (BitVec 8 × BitVec 2) :=
  let late (svn : Nat) (slot : BitVec 2) : Except (BitVec 8) (BitVec 8 × BitVec 2) :=
    if bit slot.toNat f.revoked.toNat then .error 5
    else if svn < f.counter then .error 6
    else .ok (BitVec.ofNat 8 svn, slot)
  match im with
  | .delivered svn slot _ => late svn.toNat slot
  | .written m torn =>
    if !fwFormat m then .error 9
    else if (fwTorn m torn && !luck) || !fwSigned m then .error 3
    else if 3 < fwByte m 0x0A || hash384 (m.read 0x20 96) != Config.keyHash (fwByte m 0x0A) then .error 4
    else late (m.readNat 0x0C 4) (BitVec.ofNat 2 (fwByte m 0x0A))

/-- Number a is larger than b, in serial arithmetic modulo 2^32 (R460). -/
def seqNewer (a b : BitVec 32) : Bool := decide (0 < (a - b).toNat) && decide ((a - b).toNat < 2 ^ 31)

/-- BOOT_SEQ of a copy whose boot record is valid: its complement matches (R460). -/
def FwImage.record : FwImage → Option (BitVec 32)
  | .delivered _ _ r => r
  | .written m _ =>
    let seq := BitVec.ofNat 32 (m.readNat recordAt 4)
    if BitVec.ofNat 32 (m.readNat (recordAt + 4) 4) == ~~~seq then some seq else none

/-- Copy B is tried first. -/
def Fw.firstB (f : Fw) : Bool :=
  match f.copyA.record, f.copyB.record with
  | some a, some b => seqNewer b a
  | none, some _ => true
  | _, _ => false

def Fw.copy (f : Fw) (b : Bool) : FwImage := if b then f.copyB else f.copyA
def Fw.setCopy (f : Fw) (b : Bool) (c : FwImage) : Fw := if b then { f with copyB := c } else { f with copyA := c }

/-- What boots: copy, whether the first one failed, SVN and key slot. -/
def Dev.bootChoice (d : Dev) : Option (Bool × Bool × BitVec 8 × BitVec 2) :=
  let b := d.fw.firstB
  match (d.fw.copy b).check d.fw (Config.arbiter d.free) with
  | .ok r => some (b, false, r)
  | .error _ =>
    match (d.fw.copy (!b)).check d.fw (Config.arbiter (d.free + 1)) with
    | .ok r => some (!b, true, r)
    | .error _ => none

/-! ## Updates (R464) -/

def Dev.setFw (d : Dev) (f : Fw) : Dev := { d with fw := f }

/-- Refuses an operation with a code. -/
def Dev.fwRefuse (d : Dev) (code : BitVec 8) : Dev × Bool := (d.setFw { d.fw with st := 3, code := code }, false)

/-- An operation starts. -/
def Fw.begin_ (f : Fw) (op : FwOp) : Fw := { f with st := 1, code := 0, op := some op }

/-- The update is open on another path. -/
def Fw.foreign (f : Fw) (p : Path) : Bool :=
  match f.owner with
  | some q => q != p
  | none => false

/-- The staging buffer. -/
def Fw.staging (f : Fw) : List Byte := (List.range 16384).flatMap (fun k => leBytes 4 (f.stage.get 0#32 k).toNat)

/-- The bytes of a copy as flash holds them; those of the delivered image are not printed. -/
def FwImage.bytes (im : FwImage) (free : Nat) : Mem × List Nat :=
  match im with
  | .delivered _ _ _ => (Mem.undefined free, [])
  | .written m torn => (m, torn)

/-- PROGRAM: the staging buffer goes to the chunk of the copy that is not running; the first one erases header and boot record. From the
sideband this and the operations below are what PLDM for Firmware Update asks for (R464; log 121). -/
def fwProgram (d : Dev) (p : Path) : Dev × Bool :=
  let f := d.fw
  if f.op.isSome || f.foreign p then d.fwRefuse 1
  else
    let b := !d.boot.copy
    let (m, torn) := (f.copy b).bytes d.free
    let m := if f.owner.isNone then eraseEnds m else m
    let k := f.chunk.toNat
    let f := f.setCopy b (.written (m.write (65536 * k) f.staging) (torn.filter (· != k)))
    (d.fresh.setFw ({ f with owner := some p }.begin_ (.program k)), true)

/-- FINISH: the checks of R460 on the written copy; then its boot record is written. It closes the update whatever they show (log 61). -/
def fwFinish (d : Dev) (p : Path) : Dev × Bool :=
  let f := d.fw
  if f.op.isSome || f.foreign p then d.fwRefuse 1
  else if f.owner.isNone then d.fwRefuse 2
  else match (f.copy (!d.boot.copy)).check f (Config.arbiter d.free) with
  | .error code => (d.fresh.setFw { f with owner := none }).fwRefuse code
  | .ok _ => (d.fresh.setFw (f.begin_ .finish), true)

/-- ABORT: closes an open update; header and boot record are erased, so that the copy does not boot. -/
def fwAbort (d : Dev) (p : Path) : Dev × Bool :=
  let f := d.fw
  if f.op.isSome || f.foreign p then d.fwRefuse 1
  else if f.owner.isNone then (d, false)
  else
    let b := !d.boot.copy
    let (m, torn) := (f.copy b).bytes d.free
    (d.fresh.setFw { f.setCopy b (.written (eraseEnds m) torn) with owner := none, st := 0, code := 0 }, true)

/-! ## Fuses (R461, R462) -/

/-- ADVANCE_SVN: raises the counter to the SVN of the running image. -/
def fwAdvance (d : Dev) : Dev × Bool :=
  let f := d.fw
  if f.op.isSome then d.fwRefuse 1
  else if d.boot.stage == 9 || d.boot.stage == 10 || d.boot.svn.toNat ≤ f.counter then d.fwRefuse 2
  else (d.setFw (f.begin_ (.advance d.boot.svn.toNat)), true)

/-- The code that refuses a revocation token (Table 16-4), if any. -/
def tokenFault (f : Fw) (t : List Byte) : Option (BitVec 8) :=
  let target := at1 t 0
  let signer := at1 t 1
  if 3 < target || 3 < signer || atN t 2 6 != 0 || target == signer then some 7
  else if bit target f.revoked.toNat || bit signer f.revoked.toNat then some 5
  else if hash384 ((t.drop 0x10).take 96) != Config.keyHash signer then some 4
  else if atN t 8 8 != Config.serial.toNat then some 8
  else if !ecdsaVerify ((t.drop 0x10).take 96) (t.take 0x70) ((t.drop 0x70).take 96) then some 3
  else none

/-- REVOKE: revokes a slot on the authority of another. -/
def fwRevoke (d : Dev) : Dev × Bool :=
  let f := d.fw
  if f.op.isSome then d.fwRefuse 1
  else
    let t := f.staging.take 208
    match tokenFault f t with
    | some code => d.fwRefuse code
    | none => (d.setFw (f.begin_ (.revoke (BitVec.ofNat 2 (at1 t 0)))), true)

/-- What a fuse operation leaves when it is complete. -/
def Fw.blown (f : Fw) : Fw :=
  match f.op with
  | some (.advance t) => { f with counter := max f.counter t, op := none, st := 2, code := 0 }
  | some (.revoke s) => { f with revoked := f.revoked ||| BitVec.ofNat 4 (2 ^ s.toNat), op := none, st := 2, code := 0 }
  | _ => f

/-- FUSE_OPERATION_COMPLETE. -/
def fuseOperationComplete (d : Dev) : Dev := d.setFw d.fw.blown

/-! ## Repair map and credential blob in flash (R458, R466) -/

/-- What the repair map holds. -/
def Dev.repairMap (d : Dev) : RepairMap :=
  { cabs := (List.range 12).map (fun c =>
      let x := d.cab c
      (c, { steer := x.rowSteer, fence := if x.st == 2 then some (x.cause, x.salvageChest, x.salvagePlain) else none,
            lost := (d.drw c).lost, lines := (d.sb c).spares }))
    stks := (List.range 24).map (fun s =>
      let x := d.stk s
      let used := x.banks.filter (fun (p : Nat × BankRows) => !p.2.entries.isEmpty || p.2.pending)
      (s, { active := x.spareActive, lost := x.spareLost, logical := x.logical
            rows := used.map (fun (p : Nat × BankRows) => (p.1, (p.2.entries, p.2.pending))) })) }

/-- The units take what a repair map says of them (R458, R466). -/
def Dev.setMap (d : Dev) (m : RepairMap) : Dev :=
  let d := m.cabs.foldl (fun d (p : Nat × MapCab) =>
    let d := (d.setDrw p.1 { d.drw p.1 with lost := p.2.lost }).setSb p.1 { d.sb p.1 with spares := p.2.lines }
    let d := d.setCab p.1 { d.cab p.1 with rowSteer := p.2.steer }
    match p.2.fence with
    | some (cause, chest, plain) =>
      let d := d.setCabSt p.1 2
      d.setCab p.1 { d.cab p.1 with cause := cause, salvageChest := chest, salvagePlain := plain }
    | none => d) d
  m.stks.foldl (fun d (p : Nat × MapStk) => d.setStk p.1 { d.stk p.1 with
    spareActive := p.2.active, spareLost := p.2.lost, logical := p.2.logical
    banks := p.2.rows.map (fun (e : Nat × (List (BitVec 16) × Bool)) => (e.1, { BankRows.reset with entries := e.2.1, pending := e.2.2 })) }) d

/-- Generation A is the newer one whose digest checks; generation numbers compare as BOOT_SEQ values do (DESIGN CHOICE, log 122). -/
def FlashPair.newestA {α : Type} (p : FlashPair α) : Bool := p.a.good && !(p.b.good && seqNewer p.b.gen p.a.gen)

/-- The newer generation whose digest checks. -/
def FlashPair.newest {α : Type} (p : FlashPair α) : Option (FlashGen α) :=
  if p.newestA then some p.a else if p.b.good then some p.b else none

/-- The older generation is written with the next number; `whole` says that its digest checks then. -/
def FlashPair.save {α : Type} (p : FlashPair α) (x : α) (whole : Bool) : FlashPair α :=
  let g : FlashGen α := ⟨p.newest.elim 1 (fun n => n.gen + 1), x, whole⟩
  if p.newestA then { p with b := g } else { p with a := g }

/-- The bureau's repair map differs from the one in flash; so does its credential blob. -/
def Dev.mapChanged (d : Dev) : Bool := d.fw.map.newest.elim RepairMap.empty (fun g => g.content) != d.repairMap
def Dev.credChanged (d : Dev) : Bool := d.suite.cred.isSome && d.fw.cred.newest.map (fun g => g.content) != d.suite.cred

/-- Firmware's write of a changed repair map, or of a changed credential blob, ends, whole or not (R466; log 122). Firmware runs from step 4
of bring-up to READY. -/
def Dev.saveCopies (d : Dev) (whole : Bool) : Dev :=
  if !d.boot.copies || d.boot.stage.toNat < 4 || 8 < d.boot.stage.toNat || d.fw.op.isSome then d
  else if d.mapChanged then d.setFw { d.fw with map := d.fw.map.save d.repairMap whole }
  else if d.credChanged then d.setFw { d.fw with cred := d.fw.cred.save (d.suite.cred.getD []) whole }
  else d

/-- Step 4 of Sequence 16-1: where the bureau's copies are not valid, they are read from flash. -/
def Dev.loadCopies (d : Dev) : Dev :=
  if d.boot.copies then d else
  let d := d.fw.map.newest.elim d (fun g => d.setMap g.content)
  { d with
    suite := { d.suite with cred := d.fw.cred.newest.map (fun g => g.content) }
    boot := { d.boot with copies := true } }

/-- VAUX33 is lost: a write of the repair map or of the credential blob that was due has not begun, is cut, or is complete (log 122). -/
def Dev.cutCopies (d : Dev) : Dev :=
  (if Config.arbiter d.free then d.saveCopies (Config.arbiter (d.free + 1)) else d).fresh.fresh

/-- FLASH_OPERATION_COMPLETE: a program ends, or the boot record is written with the running copy's BOOT_SEQ + 1; with no operation of an
update, firmware's write of a changed repair map or credential blob ends (log 122). -/
def flashOperationComplete (d : Dev) : Dev :=
  let f := d.fw
  match f.op with
  | some (.program _) => d.setFw { f with op := none, st := 2, code := 0 }
  | some .finish =>
    let b := !d.boot.copy
    let next := ((f.copy d.boot.copy).record.getD 0) + 1
    let (m, torn) := (f.copy b).bytes d.free
    d.fresh.setFw { f.setCopy b (.written (m.write recordAt (recordBytes next)) torn) with op := none, st := 2, code := 0, owner := none }
  | some _ => d
  | none => d.saveCopies true

/-- A reset: the staging buffer and an open update are gone, a chunk being programmed is cut short (of chunk 511 the boot record's bytes are
`junk`), and a boot record being written is not there. A fuse operation completes first (Table 17-5); where VAUX33 went it is over, with
its old value or its new one (R461). -/
def Fw.restart (f : Fw) (running : Bool) (powerOn luck : Bool) (junk : List Byte) : Fw :=
  let f := match f.op with
    | some (.program k) =>
      let im : FwImage := match f.copy (!running) with
        | .written m torn => .written (if k == 511 then m.write recordAt junk else m) (k :: torn)
        | im => im
      f.setCopy (!running) im
    | some .finish => f
    | some _ => if powerOn && !luck then f else f.blown
    | none => f
  { f with stage := [], chunk := 0, st := 0, code := 0, owner := none, op := none }

/-- A write of FW_CTL: CHUNK, then the operations in the order ABORT, ADVANCE_SVN, REVOKE, PROGRAM, FINISH. -/
def writeFwCtl (p : Path) (v : Nat) (d : Dev) : Dev × Bool :=
  let d := d.setFw { d.fw with chunk := BitVec.ofNat 9 (bits 31 23 v) }
  let d := if bit 0 v then (fwAbort d p).1 else d
  let d := if bit 1 v then (fwAdvance d).1 else d
  let d := if bit 2 v then (fwRevoke d).1 else d
  let d := if bit 3 v then (fwProgram d p).1 else d
  (if bit 4 v then (fwFinish d p).1 else d, true)

/-- FW_STATUS (Table 16-16). -/
def readFwStatus (d : Dev) : Nat :=
  let f := d.fw
  f.st.toNat * 2 ^ 30 + b2n f.owner.isSome * 2 ^ 29 + b2n (f.copy (!d.boot.copy)).record.isSome * 2 ^ 28 + f.code.toNat

/-- DEV_BOOT_STATUS (Table 16-14). -/
def readBootStatus (d : Dev) : Nat :=
  let b := d.boot
  b.lastReset.toNat * 2 ^ 30 + b2n b.copy * 2 ^ 29 + b2n b.fallback * 2 ^ 28 + b.svn.toNat * 2 ^ 20 + d.fw.counter * 2 ^ 12 +
    d.fw.revoked.toNat * 2 ^ 8 + b.stage.toNat

end Sys2Proof.Machine
end

