-- ==== Sys2Proof/Machine/Plan.lean ====
section
/-! DEFINITION. The plan loader (R26, R59–R63, R71–R74, R107, R166, R188, R238, R315, R408): the checks of a plan image, its
placement, and the end of a load. -/

namespace Sys2Proof.Machine

/-! ## The image (R59, R60) -/

/-- A section-table entry (Table 2-7). -/
structure Section where
  type : Nat
  cab : Nat
  zero : Bool
  off : Nat
  size : Nat
  dest : Nat
deriving DecidableEq, Repr

/-- An image and its sections. -/
structure Image where
  bytes : List Byte
  secs : List Section
deriving DecidableEq, Repr

def sectionAt (img : List Byte) (i : Nat) : Section :=
  let b := (img.drop (0x80 + 32 * i)).take 32
  { type := atN b 0 2, cab := atN b 2 2, zero := atN b 4 4 == 0, off := atN b 8 8, size := atN b 16 8, dest := atN b 24 8 }

def imageOf (img : List Byte) : Image := { bytes := img, secs := (List.range (atN img 14 2)).map (sectionAt img) }

def Image.planId (m : Image) : BitVec 16 := BitVec.ofNat 16 (atN m.bytes 10 2)
def Image.cabSet (m : Image) : Nat := atN m.bytes 12 2
def Image.body (m : Image) (s : Section) : List Byte := (m.bytes.drop s.off).take s.size
def Image.ofType (m : Image) (t : Nat) : List Section := m.secs.filter (fun s => s.type == t)
def Image.cabs (m : Image) : List Nat := (List.range 12).filter (fun c => bit c m.cabSet)

/-- Cuts a body into records of n bytes. -/
def recordsOf (n : Nat) (bs : List Byte) : List (List Byte) := (List.range (bs.length / n)).map (fun i => (bs.drop (n * i)).take n)

/-- Header fields in their ranges (Table 2-6). -/
def headerOk (h : List Byte) : Bool :=
  decide (1 ≤ atN h 14 2) && decide (atN h 14 2 ≤ 4096) && decide (atN h 12 2 < 4096) && atN h 0x18 8 == 0 &&
    ((h.drop 0x50).take 48).all (· == 0) && decide (0x80 + 32 * atN h 14 2 ≤ atN h 16 8)

/-- A section-table entry in its ranges. -/
def Section.ok (s : Section) (len : Nat) : Bool :=
  decide (1 ≤ s.type) && decide (s.type ≤ 9) && (decide (s.cab < 12) || s.cab == 0xFFFF) && s.zero && decide (s.off + s.size ≤ len) &&
    (s.type == 4 || s.dest == 0) && (s.type != 2 || decide (s.size ≤ 262144)) && (s.type != 7 || s.cab == 0xFFFF) &&
    (s.type != 8 || s.cab == 0xFFFF) && (s.type != 6 || decide (s.cab < 12))

/-! ## Footprint (R26, R60) -/

/-- Units of 4 KiB: bench store 4 MiB, sideboard 96 MiB, stacks 72 GiB. -/
def footprintFits (r : List Byte) : Bool :=
  decide (atN r 0 4 ≤ 1024) && decide (atN r 4 4 ≤ 24576) && decide (atN r 8 4 ≤ 18874368) && decide (atN r 12 4 ≤ 18874368)

/-! ## Bench map (R61, Table 2-9) -/

structure MapEntry where
  bench : Nat
  prog : Nat
  csv : Nat
  backPressure : Bool
  epoch : Nat
  entry : Nat
  caps : List Nat
  chk : Nat
  ok : Bool
deriving DecidableEq, Repr

def mapEntry (b : List Byte) : MapEntry :=
  let caps := (List.range 8).map (fun q => at1 b (16 + q))
  { bench := 96 * at1 b 0 + at1 b 1, prog := atN b 2 2, csv := at1 b 4, backPressure := bit 0 (at1 b 5), epoch := atN b 6 2
    entry := atN b 8 4, caps := caps, chk := at1 b 24
    ok := decide (at1 b 0 < 12) && decide (at1 b 1 < 96) && decide (at1 b 5 < 2) && atN b 8 4 % 4 == 0 && decide (atN b 8 4 < 262144) &&
      atN b 12 4 == 0 && decide (caps.sum ≤ 128) && (b.drop 25).all (· == 0) }

def Image.map (m : Image) : List MapEntry := (m.ofType 3).flatMap (fun s => (recordsOf 32 (m.body s)).map mapEntry)

/-- The programs that cabinet c uses, ascending (R166). -/
def Image.progs (m : Image) (c : Nat) : List Nat :=
  (m.map.filter (fun e => e.bench / 96 == c)).foldl (fun l e => nsInsert e.prog l) []

def Image.mapOk (m : Image) : Bool :=
  (m.ofType 3).all (fun s => s.size % 32 == 0) && m.map.all (fun e => e.ok && m.cabs.contains (e.bench / 96) && decide (e.prog < (m.ofType 2).length)) &&
    decide ((m.map.map (fun e => e.bench)).Nodup)

/-! ## Initialisation sections -/

/-- The code that refuses the place an initialisation section names, if any: a reserved selector (R11), then what an access there
breaks (R20, R36, R165, R166, R433), then a place that is no bench store or sideboard of the plan. A bench without a map entry has left ON
(R61, R431). That these codes end the load, and that the last is FLT_PLAN_SECTION, is the model's choice (log 102). -/
def Dev.destFault (d : Dev) (m : Image) (s : Section) : Option (BitVec 16) :=
  let a := s.dest
  let c := bits 43 40 a
  let mine := m.cabs.contains c
  if decide (2 ^ 48 ≤ a) then some fltPlanSection
  else if 4 ≤ bits 47 44 a then some fltAddrSelector
  else match bits 47 44 a with
  | 1 =>
    if decide (12 ≤ c) || bits 39 27 a != 0 || decide (sbSize < bits 26 0 a + s.size) then some fltSbAddr
    else if d.fenced c then some fltDestFenced
    else if !mine then some (if d.domOn (sbDom c) then fltPlanSection else fltSbAddr)
    else if decide (sbSize - 0x40000 * (m.progs c).length < bits 26 0 a + s.size) then some fltSbReserve
    else none
  | 2 =>
    let size := match bits 23 22 a with
      | 0 => 0x400000
      | 1 => 0x40000
      | _ => 0
    if decide (12 ≤ c) || decide (96 ≤ bits 39 32 a) || bits 31 24 a != 0 || decide (size < bits 21 0 a + s.size) then some fltBenchAddr
    else if d.fenced c then some fltDestFenced
    else if !m.map.any (fun e => e.bench == 96 * c + bits 39 32 a) then some fltBenchAddr
    else if !mine || bits 23 22 a != 0 then some fltPlanSection
    else none
  | _ => some fltPlanSection

/-! ## Drawer sections (R188) -/

def drwTplOk (b : List Byte) : Bool :=
  let t := tplOf b
  let f := t.kfmt.toNat
  let cache := f == 1 || f == 2 || f == 8
  let dimOk := t.dim == 64 || t.dim == 128 || t.dim == 256
  let pad := decide (at1 b 4 < 16) && decide (at1 b 5 < 16) && atN b 9 3 == 0 && (b.drop 24).all (· == 0) && decide (t.flags < 4) &&
    (t.op == 3 || !bit 0 t.flags)
  let q := t.qfmt.toNat
  pad && (match t.op with
    | 1 => decide (1 ≤ t.g) && decide (t.g ≤ 16) && dimOk && cache && (q == 1 || q == 2 || q == 8) && t.func == 0 && t.ncol == 0 &&
        decide (t.g * t.dim ≤ 2048)
    | 2 => t.g == 0 && dimOk && cache && q == 0 && t.func == 0 && t.ncol == 0
    | 3 => t.g == 0 && t.dim == 0 && (cache || f == 10 || f == 12) && q == 0 && t.func == 0 && decide (1 ≤ t.ncol) && decide (t.ncol ≤ 32)
    | 4 => t.g == 0 && t.dim == 0 && (f == 8 || f == 12) && q == 0 && decide (t.func < 3) && t.ncol == 0
    | _ => false)

/-- The section of cabinet c. -/
def Image.drwSection (m : Image) (c : Nat) : List (List Byte) := ((m.ofType 6).filter (fun s => s.cab == c)).map m.body

def drwSectionOk (b : List Byte) : Bool :=
  let n := atN b 2 2
  decide (32 ≤ b.length) && decide (at1 b 0 < 3) && at1 b 1 == 0 && decide (1 ≤ n) && decide (n ≤ 256) && (decide (at1 b 4 < 96) || at1 b 4 == 0xFF) &&
    decide (at1 b 5 < 8) && ((b.take 32).drop 6).all (· == 0) && b.length == 32 + 32 * n && (recordsOf 32 (b.drop 32)).all drwTplOk

/-! ## The template section (R238) -/

def templateOf (b : List Byte) : Template := { gen := atN b 0 2, chunks := atN b 2 2, chunkTokens := atN b 4 2, floorNs := atN b 8 4 }

def kindOf (b : List Byte) : TileKind :=
  { queue := Fin.ofNat 8 (at1 b 1), cabs := BitVec.ofNat 16 (atN b 2 2), first := at1 b 4, last := at1 b 5, floorNs := atN b 8 4 }

def section7 (b : List Byte) : Section7 :=
  let n := atN b 0 2
  { templates := ((recordsOf 16 (b.drop 64)).take n).map templateOf, kinds := ((recordsOf 16 (b.drop 64)).drop n).map kindOf
    leader := at1 b 4, devices := BitVec.ofNat 64 (atN b 8 8), slotArea := atN b 16 4, slotSize := atN b 20 4, vocab := atN b 24 4
    tileFloor := atN b 28 4 }

def templateOk (b : List Byte) : Bool :=
  let t := templateOf b
  let tokens := t.gen + t.chunks * t.chunkTokens
  decide (t.gen ≤ 8192) && decide (t.chunks ≤ 256) && (if t.chunks == 0 then t.chunkTokens == 0
    else decide (64 ≤ t.chunkTokens) && decide (t.chunkTokens ≤ 16384) && t.chunkTokens % 64 == 0) && atN b 6 2 == 0 && decide (1 ≤ t.floorNs) &&
    atN b 12 4 == 0 && decide (1 ≤ tokens) && decide (tokens ≤ 16384)

def kindOk (tileFloor i : Nat) (b : List Byte) : Bool :=
  at1 b 0 == i && decide (at1 b 1 < 8) && decide (atN b 2 2 < 4096) && decide (at1 b 4 < 96) && decide (at1 b 5 < 96) && decide (at1 b 4 ≤ at1 b 5) &&
    atN b 6 2 == 0 && decide (atN b 8 4 ≤ tileFloor) && atN b 12 4 == 0

/-- Bytes of a template's slot table (R245). -/
def Template.slotBytes (t : Template) : Nat := 64 + 32 * (t.gen + t.chunks) + 4 * t.chunks * t.chunkTokens

/-- Two ranges overlap. -/
def overlaps (a n b m : Nat) : Bool := decide (a < b + m) && decide (b < a + n) && decide (0 < n) && decide (0 < m)

/-- FREE (log 88): region n of cabinet c as the plan's placement has it, where it has one; else as it stands. -/
def Dev.regionAfter (d : Dev) (image : List Byte) (c n : Nat) : BitVec 64 := (Config.planAow image c n).getD ((d.sb c).aow.get 0#64 n)

def Dev.section7Ok (d : Dev) (m : Image) (b : List Byte) : Bool :=
  let n := atN b 0 2
  let k := atN b 2 2
  let s := section7 b
  let recs := recordsOf 16 (b.drop 64)
  decide (64 ≤ b.length) && decide (1 ≤ n) && decide (n ≤ 32) && decide (k ≤ 64) && b.length == 64 + 16 * n + 16 * k && decide (s.leader < 64) &&
    atN b 5 3 == 0 && bit s.leader s.devices.toNat && bit d.number.toNat s.devices.toNat && decide (s.slotArea < 2 ^ 27) && s.slotArea % 64 == 0 &&
    decide (2 ≤ s.vocab) && decide (s.vocab ≤ 2 ^ 31) && ((b.take 64).drop 32).all (· == 0) && (recs.take n).all templateOk &&
    (List.range k).all (fun i => kindOk s.tileFloor i (recs.getD (n + i) [])) &&
    s.templates.all (fun t => decide (t.slotBytes ≤ s.slotSize)) &&
    m.cabs.all (fun c => decide (s.slotArea + s.slotSize ≤ sbSize - 0x40000 * (m.progs c).length) &&
      (List.range 16).all (fun r =>
        let v := (d.regionAfter m.bytes c r).toNat
        !bit 63 v || !overlaps s.slotArea s.slotSize (bits 26 0 v) (bits 53 27 v - bits 26 0 v)))

/-! ## Route sections (R408, Table 14-8) -/

/-- The compute dies bridged to an edge die (Table 1-2). -/
def bridgedDies (e : Nat) : List Nat :=
  match e with
  | 0 => [0, 1]
  | 1 => [1, 3]
  | 2 => [2, 3]
  | _ => [0, 2]

/-- An alternate of source cabinet `src` (12: transit) to entry `dst` (cabinet, or 64 + device). VIA and PORT of one that is not VALID may
hold anything (log 41). -/
def altOk (head : Bool) (src dst : Nat) (a : BitVec 16) : Bool :=
  let v := a.toNat
  let via := bits 11 8 v
  let port := bits 5 0 v
  if bits 14 12 v != 0 || bits 7 6 v != 0 then false
  else if !a.msb then true
  else if src == 12 then via == 15 && decide (port < 36) && !(head && decide (port < 4))
  else if dst < 64 then port == 0 && (if diagonal (src / 3) (dst / 3) then decide (via < 4) && via != src / 3 && via != dst / 3 else via == 15)
  else decide (port < 36) && !(head && decide (port < 4)) && (bridgedDies (port / 9)).contains via && !diagonal via (src / 3)

/-- The alternates of one table entry. -/
def altsOf (v : Nat) : List (BitVec 16) := (List.range 4).map (fun k => BitVec.ofNat 16 (v >>> (16 * k)))

/-- A route section as table entries: source and destination in one key, and the alternates. -/
def routeEntries (s : Section) (b : List Byte) : List (Nat × List (BitVec 16)) :=
  let src := if s.cab == 0xFFFF then 12 else s.cab
  let es := recordsOf 8 (b.drop 16)
  (List.range es.length).map (fun i =>
    (128 * src + (if src == 12 then 64 + i else if i < 12 then i else 64 + (i - 12)), altsOf (leNat (es.getD i []))))

def Image.routes (m : Image) : List (Nat × List (BitVec 16)) := (m.ofType 5).flatMap (fun s => routeEntries s (m.body s))

/-- A valid alternate on a TRUSTED port. -/
def Dev.reaches (d : Dev) (alts : List (BitVec 16)) : Bool := alts.any (fun a => a.msb && (d.port (bits 5 0 a.toNat)).st == 4)

def Dev.routesOk (d : Dev) (m : Image) (devices : Nat) : Bool :=
  let rs := m.routes
  (m.ofType 5).all (fun s =>
    let b := m.body s
    b.length == (if s.cab == 0xFFFF then 16 + 8 * 64 else 16 + 8 * 76) && at1 b 0 == d.number.toNat && ((b.take 16).drop 1).all (· == 0)) &&
  decide (((m.ofType 5).map (fun s => s.cab)).Nodup) &&
  rs.all (fun r => r.2.all (altOk d.suite.head (r.1 / 128) (r.1 % 128))) &&
  m.cabs.all (fun c => (List.range 64).all (fun i =>
    !bit i devices || i == d.number.toNat || (match rs.find? (fun r => r.1 == 128 * c + 64 + i) with
      | some r => d.reaches r.2
      | none => false)))

/-! ## Coding tables (R315) -/

/-- Applies records in order to emptied slots. -/
def cmpApply : List (List Byte) → Cmp → Option Cmp
  | [], c => some c
  | r :: t, c =>
    match tableOf r with
    | none => none
    | some (slot, tb) => (c.load slot tb).bind (cmpApply t)

/-- The tables of the image, from empty slots, or the code that refuses them. -/
def Dev.planTables (d : Dev) (m : Image) : Except (BitVec 16) Cmp :=
  let empty := d.cmp.emptied
  match m.ofType 8 with
  | [] => .ok empty
  | s :: t =>
    let b := m.body s
    let n := atN b 2 2
    if atN b 0 2 != 1 then .error fltCmpVersion
    else if !t.isEmpty || atN b 4 4 != 0 || n == 0 || decide (32 < n) || b.length != 8 + 32 * n then .error fltPlanSection
    else match cmpApply (recordsOf 32 (b.drop 8)) empty with
    | some c => .ok c
    | none => .error fltPlanSection

/-! ## The checks of a load (Sequence 2-2, steps 2 and 3, and the sections) -/

/-- What the template section fixes; an image without one names this device alone and no template (log 41). -/
def Dev.planSteps (d : Dev) (m : Image) : Section7 :=
  match (m.ofType 7).map m.body with
  | b :: _ => section7 b
  | [] => { Section7.reset with
      leader := d.number.toNat
      devices := BitVec.ofNat 64 (2 ^ d.number.toNat) }

/-- The code that refuses an image, if any: header, version, cabinets, the section table, footprint, digest, then what the sections
hold. Sequence 2-2 orders header, version, cabinets and footprint before the digest; where the section table comes, and in which order
the checks of the sections come, it does not say (DESIGN CHOICE, log 102). A section that an image leaves out is no reason to refuse it,
but for those of R188 (log 41). -/
def Dev.imageFault (d : Dev) (h img : List Byte) : Option (BitVec 16) :=
  let m := imageOf img
  let foot := (m.ofType 1).map m.body
  let steps := (m.ofType 7).map m.body
  if h.take 8 != [0x47, 0x53, 0x50, 0x4C, 0x41, 0x4E, 0x41, 0x4B] then some fltPlanFormat
  else if atN h 8 2 != 2 then some fltPlanVersion
  else if !headerOk h || img.isEmpty then some fltPlanFormat
  else if m.cabs.any (fun c => !d.active c) then some fltPlanCabinet
  else if !m.secs.all (fun s => s.ok img.length) || decide (1 < foot.length) || foot.any (fun f => f.length != 16 * m.cabs.length) then
    some fltPlanSection
  else if foot.any (fun f => !(recordsOf 16 f).all footprintFits) then some fltPlanFootprint
  else if (h.drop 0x20).take 48 != sha384 (img.drop 0x80) then some fltPlanDigest
  else if m.map.any (fun e => decide (e.csv < 2) || decide (3 < e.csv)) then some fltCsvVersion
  else match d.planTables m with
  | .error code => some code
  | .ok _ => match (m.ofType 4).findSome? (d.destFault m) with
  | some code => some code
  | none =>
    if decide (steps.length ≤ 1) && steps.all (fun t => d.section7Ok m t) && m.mapOk &&
        (m.ofType 6).all (fun s => m.cabs.contains s.cab) && m.cabs.all (fun c => match m.drwSection c with
          | [b] => drwSectionOk b
          | _ => false) &&
        d.routesOk m (d.planSteps m).devices.toNat then none
    else some fltPlanSection

/-- A load that is refused or fails after it has started (R62): STATE FAILED, the code, every bench UNUSED. The coding tables stand as they
are, since step 6 has not emptied their slots (R312). -/
def Dev.failLoad (d : Dev) (code : BitVec 16) : Dev :=
  let d := d.dropPlan .failed false
  ({ d with plan := { d.plan with lastFault := code } } : Dev).unitRecord 6 0 0 code {}

/-- Reads stack space as the loader does; nothing where it is refused. -/
def Dev.readPlan (d : Dev) (a n : Nat) : Option (Dev × List Byte) :=
  if bits 47 44 a != 0 || (d.stkRefusal a n .device false).isSome then none
  else
    let (d, bs, _) := d.readUnit loaderBlock a n
    some (d, bs)

/-- The code of a load whose image the loader cannot read: a reserved selector gives FLT_ADDR_SELECTOR (R11). R62 names no code for an
image in another space, or in stack space that cannot be read; DESIGN CHOICE: FLT_PLAN_FORMAT, as for header fields out of their ranges
(log 102). -/
def unreadablePlan (base : Nat) : BitVec 16 := if 4 ≤ bits 47 44 base then fltAddrSelector else fltPlanFormat

/-! ## Placement (Sequence 2-2, steps 4 and 5) -/

/-- A bench enters LOADING: its domain is taken to ON (R23), and an entry that runs there is aborted (R433); from OFF its contents are
undefined (Table 15-4). -/
def Dev.benchOn (d : Dev) (k : Nat) : Dev :=
  let id := d.benchDom k
  let d := d.arrive id loaderBlock
  let m := d.dom id
  let d := if m.st == 0 then
      (d.setBench k { Bench.reset with
        store := Mem.undefined d.free, program := Mem.undefined (d.free + 1), traceMem := Mem.undefined (d.free + 2) }).fresh.fresh.fresh
    else d
  d.setDom id { m with st := 1, entering := none }

/-- The program memory of a bench: the image at offset 0, and zeros over the rest (R75). -/
def programMem (bytes : List Byte) : Mem := (Mem.filled 0).write 0 bytes

/-- The initialisation section of a bench store or sideboard is copied to its destination. -/
def Dev.placeInit (d : Dev) (m : Image) (s : Section) : Dev :=
  let c := bits 43 40 s.dest
  if bits 47 44 s.dest == 1 then
    let d := d.arrive (sbDom c) loaderBlock
    let sb := d.sb c
    d.setSb c { sb with mem := sb.mem.store (bits 26 0 s.dest) (m.body s) (fun _ => false) }
  else d.modBench (96 * c + bits 39 32 s.dest) (fun b => { b with store := b.store.store (bits 21 0 s.dest) (m.body s) (fun _ => false) })

/-- The program of index `prog` as the program reserve of cabinet c holds it (R166). -/
def Dev.readReserve (d : Dev) (m : Image) (c prog : Nat) : Dev × List Byte :=
  let ps := m.progs c
  let x := sbSize - 0x40000 * ps.length + 0x40000 * ps.idxOf prog
  let n := match (m.ofType 2)[prog]? with
    | some s => s.size
    | none => 0
  let d := (d.arrive (sbDom c) loaderBlock).touchSb c x n
  (d, ((d.sb c).mem.read x n))

/-- One bench of the map: LOADING, with its program, which comes from its cabinet's program reserve (Sequence 2-2). -/
def Dev.placeBench (d : Dev) (m : Image) (e : MapEntry) : Dev :=
  let (d, prog) := (d.benchOn e.bench).readReserve m (e.bench / 96) e.prog
  d.modBench e.bench (fun b => { b with
    st := .loading, inPlan := true, csv := BitVec.ofNat 4 e.csv, entry := e.entry, prog := e.prog, program := programMem prog
    inbox := [], wait := none, atStepEnd := false, awaitDiscard := false, mustDiscard := false, haltReq := false })

/-- The programs of cabinet c in its program reserve (R166). -/
def Dev.placeReserve (d : Dev) (m : Image) (c : Nat) : Dev :=
  let ps := m.progs c
  let d := d.arrive (sbDom c) loaderBlock
  let sb := d.sb c
  let mem := (List.range ps.length).foldl (fun mm i => match (m.ofType 2)[ps.getD i 0]? with
    | some s => mm.store (sbSize - 0x40000 * ps.length + 0x40000 * i) (m.body s) (fun _ => false)
    | none => mm) sb.mem
  d.setSb c { sb with reserve := ps.length, mem := mem }

/-- The accumulate-on-write regions of cabinet c as the plan's placement has them (R168; log 88). -/
def Dev.placeRegions (d : Dev) (img : List Byte) (c : Nat) : Dev :=
  (List.range 16).foldl (fun d n => match Config.planAow img c n with
    | some v => (writeAow c n v.toNat d).1
    | none => d) d

/-- The domain state that a bench state maps to (R431). -/
def benchDomSt (b : BenchSt) : BitVec 2 :=
  match b with
  | .off => 0
  | .spare => 2
  | .unused => 2
  | _ => 1

/-- The state of a physical bench's domain under the steering. -/
def Dev.physSt (d : Dev) (id : Nat) : BitVec 2 :=
  match d.physUse id with
  | .logical k => benchDomSt (d.bench k).st
  | .spare => 2
  | .steeredOut => 0

/-- The domains of a row follow its steering. -/
def Dev.syncRow (d : Dev) (c r : Nat) : Dev :=
  (List.range 13).foldl (fun d col =>
    let id := 256 * c + 13 * r + col
    d.setDom id { d.dom id with st := d.physSt id, entering := none }) d

/-- From the moment a load begins every bench domain follows its bench's state, and the domains of a cabinet in 0b00 are OFF (R431). An entry
into RETENTION or OFF that was accepted before runs to its end (R433); one into ON ends there (DESIGN CHOICE, log 31). -/
def Dev.syncDomains (d : Dev) : Dev :=
  let follow (d : Dev) (id : Nat) : Dev :=
    let st := d.physSt id
    match (d.dom id).entering with
    | none => if (d.dom id).st == st then d else d.place id st []
    | some e => if e == 1 then d.place id st [] else d
  let d := ((List.range 12).filter (fun c => (d.cab c).st != 0)).foldl (fun d c =>
    (List.range 104).foldl (fun d i => follow d (256 * c + i)) d) d
  (List.range 12).foldl (fun d c => d.darken c) d

/-- From here on every bench domain follows its bench's state (R431): benches of active cabinets that have no entry become UNUSED (R61), in
RETENTION as the rows' held spares are. The mapped ones are taken to ON as they are placed. -/
def Dev.idleOthers (d : Dev) (m : Image) : Dev :=
  let used := m.map.map (fun e => e.bench)
  ((List.range 12).filter (fun c => (d.cab c).st != 0)).foldl (fun d c => (List.range 104).foldl (fun d i =>
    let id := 256 * c + i
    match d.physUse id with
    | .logical k =>
      if used.contains k then d else
      let d := if d.active c then d.modBench k (fun b => { b with st := .unused }) else d
      d.place id (d.physSt id) []
    | _ => d.place id (d.physSt id) []) d) d

/-- The image of a load lies, as far as its header says, in a channel that is held: the loader's read waits (R357). -/
def Dev.imageWaits (d : Dev) (base : Nat) : Bool :=
  match d.readPlan base 128 with
  | some (_, h) => d.readWaits base 128 || (headerOk h && d.readWaits base (atN h 16 8))
  | none => false

/-- Steps 2 to 5 of Sequence 2-2: the image is read, checked and placed. OFFERED_VERSION takes the version of an image whose MAGIC
matches; of another it keeps what it held, because R73 does not say that such an image has one (DESIGN CHOICE, log 102). -/
def Dev.loadImage (d : Dev) (base : Nat) : Dev :=
  match d.readPlan base 128 with
  | none => d.failLoad (unreadablePlan base)
  | some (d, h) =>
    let d := if h.take 8 == [0x47, 0x53, 0x50, 0x4C, 0x41, 0x4E, 0x41, 0x4B] then
        { d with plan := { d.plan with offered := BitVec.ofNat 16 (atN h 8 2) } } else d
    let (d, img) := if headerOk h then match d.readPlan base (atN h 16 8) with
        | some (d, bs) => (d, bs)
        | none => (d, [])
      else (d, [])
    match d.imageFault h img with
    | some code => d.failLoad code
    | none =>
      let m := imageOf img
      let d := { d with plan := { d.plan with st := .loading, image := img, cabSet := BitVec.ofNat 12 m.cabSet } }
      let d := d.idleOthers m
      let d := m.cabs.foldl (fun d c => (d.placeReserve m c).placeRegions img c) d
      let d := m.map.foldl (fun d e => d.placeBench m e) d
      (m.ofType 4).foldl (fun d s => d.placeInit m s) d

/-- A load may start (R62). -/
def Dev.loadable (d : Dev) : Bool := (d.plan.st == .none || d.plan.st == .failed) && d.boot.stage == 8

/-- DEV_PLAN_CTL.LOAD (R62): refused unless STATE is NONE or FAILED and the device READY; otherwise the load begins, and waits where its image
lies in a held channel. The domains follow from then on, whether the load waits, fails or goes through. -/
def planLoad (d : Dev) : Dev :=
  if !d.loadable then
    ({ d with plan := { d.plan with lastFault := fltPlanBusy } } : Dev).unitRecord 6 0 0 fltPlanBusy {}
  else
    let base := bits 47 12 d.plan.base.toNat * 4096
    let d := ({ d with plan := { d.plan with st := .loading } } : Dev).syncDomains
    if d.imageWaits base then { d with plan := { d.plan with image := [], held := true } } else d.loadImage base

/-- A load that waited for a held channel goes on once it can. -/
def Dev.resumeLoad (d : Dev) : Dev :=
  let base := bits 47 12 d.plan.base.toNat * 4096
  if d.plan.st != .loading || !d.plan.held || d.imageWaits base then d
  else ({ d with plan := { d.plan with held := false } } : Dev).loadImage base

/-! ## The end of a load (Sequence 2-2, steps 6 and 7) -/

/-- The bench-map entry applied: queues, epochs, ENTRY, shelf mode, registers (R80), sequence numbers (R339, R483), the bench event
count (Table 3-16) and the counters that a plan load clears (R127, R145, R150, R297, R344, R483); the bench is READY. -/
def applyEntry (e : MapEntry) (b : Bench) : Bench :=
  let arch := { Arch.reset with pc := e.entry }
  { b with
    st := .ready, arch := arch, repIdx := 0, wait := none, atStepEnd := false, awaitDiscard := false, mustDiscard := false, haltReq := false
    queues := (List.range 8).foldl (fun t q => t.set q ⟨BitVec.ofNat 16 e.epoch, bit q e.chk, BitVec.ofNat 8 (e.caps.getD q 0)⟩) []
    checkpoint := { pc := e.entry, x := [], a := [], n := [], vl := 128 }, msgSeq := 0, faultSeq := 0
    shelf := { Shelf.reset with mode := e.backPressure }
    transfers := [], staging := [], fence := none, dropStep := none, sat := 0, nan := 0, skipped := 0, poisonSectors := 0
    fenceBench := 0, fenceDevice := 0, fenceSuite := 0, trace := { b.trace with seq := 0, dropped := 0, events := 0 } }

/-- The drawer section of cabinet c delivered (R188, R212), with the drawer counters cleared (R207, R208). The counters of a cabinet that is not
the plan's stay (DESIGN CHOICE, log 129). -/
def Dev.applyDrw (d : Dev) (m : Image) (c : Nat) : Dev :=
  match m.drwSection c with
  | b :: _ =>
    let w := d.drw c
    let fb := (if at1 b 4 == 0xFF then 0 else 2 ^ 31) + at1 b 5 * 2 ^ 24 + at1 b 4 * 2 ^ 16
    d.setDrw c { w with
      mode := BitVec.ofNat 32 (at1 b 0), fallback := BitVec.ofNat 32 fb, templates := recordsOf 32 (b.drop 32), reqs := [], log := [], step := 1
      poisonWb := 0, checkRmw := 0, yields := 0, staleStage := 0, action := none, closed := none }
  | [] => d

/-- PLAN_LOAD_COMPLETE. -/
def planLoadComplete (d : Dev) : Dev :=
  if d.plan.st != .loading || d.plan.held then d else
  let m := imageOf d.plan.image
  if m.cabs.any (fun c => !d.active c) then d.failLoad fltPlanCabinet
  else match d.planTables m with
  | .ok tables =>
    let d := m.cabs.foldl (fun d c => d.applyDrw m c) d
    let d := m.map.foldl (fun d e => d.modBench e.bench (applyEntry e)) d
    let routes := m.routes.foldl (fun (t : Tab Route) r => t.set r.1 ⟨r.2, none⟩) []
    let routes := routes.map (fun (p : Nat × Route) => (p.1, { p.2 with cur := d.bestAlt p.1 p.2 }))
    let q := d.seq
    { d with
      plan := { d.plan with st := .loaded, planId := m.planId }
      suite := { d.suite with planRoutes := routes }
      cmp := { tables with decodePoisoned := 0, rawFallback := 0 }
      seq := { q with
        sec := d.planSteps m, cmdHead := 0, cmdTail := 0, resultHead := 0, resultTail := 0, stale := 0, refused := 0, rseq := 0, reqs := []
        prefixes := [], adapters := [], tiles := [], run := none, admitNeeds := 0, cmdNeeds := 0, records := [], lateStep := false
        lateFollowers := [], timedOut := [], acting := [], heldBy := [], fromLeader := [], closing := false
        toldHeld := (false, false), unloaded := false }
      step := 0, template := 0, lateCount := 0, discards := [], free := d.free + 1 }
  | .error _ => d.failLoad fltPlanSection

/-! ## DEV_PLAN_BASE (R71) and readings -/

/-- A write of DEV_PLAN_BASE; answers whether it was applied. -/
def writePlanBase (v : BitVec 64) (d : Dev) : Dev × Bool :=
  if d.plan.st == .none || d.plan.st == .failed then ({ d with plan := { d.plan with base := v &&& 0x0000FFFFFFFFF000#64 } }, true) else (d, false)

/-- DEV_PLAN_CTL: LOAD, UNLOAD, START in that order (log 17). It is applied where one of the bits set is accepted, or none is set (Table
16-11, log 120). -/
def writePlanCtl (v : Nat) (d : Dev) : Dev × Bool :=
  let r := actBit (bit 0 v) Dev.loadable planLoad (d, bits 2 0 v == 0)
  let r := actBit (bit 1 v) (fun d => d.plan.st != .none && d.plan.st != .unloading) planUnload r
  actBit (bit 2 v) Dev.startable planStart r

/-- DEV_PLAN_STATUS (Table 2-19). -/
def readPlanStatus (d : Dev) : Nat :=
  let st := match d.plan.st with
    | .none => 0
    | .loading => 1
    | .loaded => 2
    | .running => 3
    | .unloading => 4
    | .failed => 5
  d.plan.planId.toNat * 2 ^ 48 + d.plan.lastFault.toNat * 2 ^ 32 + d.plan.offered.toNat * 2 ^ 16 + st

end Sys2Proof.Machine
end

