-- ==== Sys2Proof/Machine/Sram.lean ====
section
/-! DEFINITION. Errors of a bench's SRAM that a bundle meets (R147, R347–R349): the sector read and its retry, and the mark of one that is
uncorrectable on both reads. -/

namespace Sys2Proof.Machine

/-- A list with the entries from `at_` on replaced; missing entries before them are `pad`. -/
def overlay {α : Type} (pad : α) (l : List α) (at_ : Nat) (new : List α) : List α :=
  l.take at_ ++ List.replicate (at_ - l.length) pad ++ new ++ l.drop (at_ + new.length)

/-- The bytes of a 32-byte sector of a list, short ones filled with zero. -/
def sectorOf (l : List Byte) (k : Nat) : List Byte := (List.range 32).map (fun i => l.getD (32 * k + i) 0)

/-- The bytes of a sector of 32-bit words, and the words with it replaced. -/
def wordSector (l : List (BitVec 32)) (k : Nat) : List Byte := (List.range 8).flatMap (fun i => leBytes 4 (l.getD (8 * k + i) 0).toNat)
def setWordSector (l : List (BitVec 32)) (k : Nat) (s : List Byte) : List (BitVec 32) :=
  overlay 0 l (8 * k) ((List.range 8).map (fun i => BitVec.ofNat 32 (leNat ((s.drop (4 * i)).take 4))))

/-- Sector k of a payload is delivered as it is read and marked (R41). -/
def Msg.spoil (m : Msg) (k : Nat) (s : List Byte) : Msg :=
  { m with payload := (overlay 0 m.payload (32 * k) s).take m.payload.length, marks := nsInsert k m.marks }

/-- The data and the mark of a sector of bench k, or none where it has no such sector. -/
def Dev.sramSector (d : Dev) (k : Nat) (p : SramPlace) : Option (List Byte × Bool) :=
  let b := d.bench k
  let payload (m : Msg) (s : Nat) : Option (List Byte × Bool) :=
    if 32 * s < m.payload.length then some (sectorOf m.payload s, m.marks.contains s) else none
  match p with
  | .store s => some (b.store.read (32 * s.val) 32, b.store.marked s.val)
  | .program s => some (b.program.read (32 * s.val) 32, b.program.marked s.val)
  | .inbox n s => (b.inbox[n]?).bind (fun m => payload m s)
  | .outbox n s => ((d.net.filter (fun m => m.src == d.benchEp k))[n]?).bind (fun m => payload m s)
  | .loader second scales s =>
    let l := if second then b.arch.lb else b.arch.la
    let bytes := if scales then l.scales else l.tile
    if 32 * s < bytes.length then some (sectorOf bytes s, (if scales then l.scaleMarks else l.tileMarks).contains s) else none
  | .acc n s => some (wordSector (b.arch.acc.get [] n.val) s.val, false)
  | .shelf n s => (b.shelf.items[n]?).map (fun i => (wordSector i.tile s.val, i.marks.contains s.val))

/-- The sector is delivered as it is read: marked, but for an accumulator's, which never holds poison (R102). In the store it stays so
(Table 13-2). -/
def Dev.sramSpoil (d : Dev) (k : Nat) (p : SramPlace) (s : List Byte) : Dev :=
  let b := d.bench k
  match p with
  | .store n => d.setBench k { b with store := b.store.store (32 * n.val) s (fun _ => true) }
  | .program n => d.setBench k { b with program := b.program.store (32 * n.val) s (fun _ => true) }
  | .inbox n i => d.setBench k { b with inbox := b.inbox.modify n (fun m => m.spoil i s) }
  | .outbox n i =>
    match (d.net.filter (fun m => m.src == d.benchEp k))[n]? with
    | some m => { d with net := d.net.map (fun x => if x == m then x.spoil i s else x) }
    | none => d
  | .loader second scales n =>
    let f (l : Loader) : Loader :=
      if scales then { l with scales := (overlay 0 l.scales (32 * n) s).take l.scales.length, scaleMarks := nsInsert n l.scaleMarks }
      else { l with tile := (overlay 0 l.tile (32 * n) s).take l.tile.length, tileMarks := nsInsert n l.tileMarks }
    let r := b.arch
    d.setBench k { b with arch := if second then { r with lb := f r.lb } else { r with la := f r.la } }
  | .acc n i =>
    let r := b.arch
    d.setBench k { b with arch := { r with acc := r.acc.set n.val (setWordSector (r.acc.get [] n.val) i.val s) } }
  | .shelf n i =>
    let f (x : ShelfItem) : ShelfItem := { tile := setWordSector x.tile i.val s, marks := nsInsert i.val x.marks }
    d.setBench k { b with shelf := { b.shelf with items := b.shelf.items.modify n f } }

/-- An error of a sector that the bundle reads (R348): a corrected or a transient one leaves nothing; one that is uncorrectable on both
reads is delivered as read and marked. -/
def Dev.sramError (d : Dev) (k : Nat) (e : SramErr) : Dev :=
  match d.sramSector k e.place with
  | some (data, mark) =>
    let o := retryRead (sramRead data mark) e.err.first e.err.again
    if o.lost then d.sramSpoil k e.place o.word.data else d
  | none => d

/-- The retry shows an error of the sector again, which is a lasting fault of the bench (R147, R348, R362). -/
def Dev.sramLasting (d : Dev) (k : Nat) (e : SramErr) : Bool :=
  match d.sramSector k e.place with
  | some (data, mark) => (retryRead (sramRead data mark) e.err.first e.err.again).lasting
  | none => false

end Sys2Proof.Machine
end

