-- ==== Sys2Proof/Machine/Bringup.lean ====
section
/-! DEFINITION. Resets and bring-up (R455–R458, R490–R495, R499), self-test (R352, R387), the spare swap (Sequence 2-1) and the
loss of a drawer (Sequence 7-2), with the errors of SRAM that lead to them (R347–R349). -/

namespace Sys2Proof.Machine

/-! ## The change journal's entries (R472, R473) -/

/-- Adds an entry to the ring. -/
def Dev.journalPut (d : Dev) (e : List Byte) : Dev :=
  let j := d.journal
  { d with journal := { j with ring := j.ring.set (j.total % 4096) e, total := j.total + 1 } }

/-- A marker entry on path 3. -/
def Dev.journalMark (d : Dev) (mark : BitVec 4) : Dev :=
  let d := d.journalPut (markerEntry d.journal.marker mark)
  { d with journal := { d.journal with marker := d.journal.marker + 1 } }

/-! ## Self-test (R352, R387) -/

/-- The rows of a lost repair: what RESET_MAP empties (R466). -/
def Dev.emptyMap (d : Dev) : Dev :=
  { d with
    cabs := []
    stks := d.stks.map (fun (p : Nat × Stack) => (p.1, { p.2 with spareLost := false, spareActive := false, logical := 0, banks := [] }))
    sbs := d.sbs.map (fun (p : Nat × Sideboard) => (p.1, { p.2 with spares := [] }))
    drawers := d.drawers.map (fun (p : Nat × Drawer) => (p.1, { p.2 with lost := [] })) }

/-- Writes the steering field of a row. -/
def Dev.setSteer (d : Dev) (c r f : Nat) : Dev :=
  let x := d.cab c
  let w := x.rowSteer.toNat
  d.setCab c { x with rowSteer := BitVec.ofNat 32 (w - bits (4 * r + 3) (4 * r) w * 2 ^ (4 * r) + f * 2 ^ (4 * r)) }

/-- The logical column that names a physical bench in its FLT_SELFTEST record: the one it serves under the steering (R38); a bench that
serves none is named by the nearest column (DESIGN CHOICE, log 35). -/
def testColumn (f col : Nat) : Nat := min (if f ≤ 11 && f < col then col - 1 else col) 11

/-- The benches of a row whose steering field was `old` (R38, R431): one that is steered out now is OFF; a logical bench that another
physical bench serves now has that one's contents, which are undefined. -/
def Dev.resteerRow (d : Dev) (c r old : Nat) : Dev :=
  if (d.cab c).steer r == old then d else
  (List.range 13).foldl (fun d col =>
    let id := 256 * c + 13 * r + col
    match d.physUse id with
    | .steeredOut => d.setDom id { d.dom id with st := 0, entering := none }
    | .spare => d
    | .logical k => if physCol old (k % 12) == col then d else if (d.dom id).st == 0 then d.setBench k Bench.reset else d.gained id []) d

/-- The FLT_SELFTEST record of a physical bench: kind 12 with a logical bench as its index (Table 13-8). -/
def Dev.benchTest (d : Dev) (c r col : Nat) : Dev :=
  d.unitRecord 12 c (12 * r + testColumn ((d.cab c).steer r) col) fltSelftest { lasting := true }

/-- A unit whose checker fails its self-test. -/
def Dev.failUnit (d : Dev) : TestUnit → Dev
  | .bench c r col =>
    let d := d.benchTest c.val r.val col.val
    let f := (d.cab c.val).steer r.val
    if f == 0xF then (d.setSteer c.val r.val (if col.val == 12 then 0xC else col.val)).syncRow c.val r.val
    else if f == col.val || (f == 0xC && col.val == 12) then d
    else (d.unitRecord 4 c.val 0 fltBenchLost { lasting := true }).loseCabinet c.val fltBenchLost true true
  | .drawer c n =>
    let d := d.unitRecord 3 c.val 0 fltSelftest { detail := n.val, lasting := true }
    let w := d.drw c.val
    if w.isLost n.val then d
    else if !bit 31 w.fallback.toNat || decide (8 ≤ w.lostCount) then d.loseCabinet c.val fltDrwLost true true
    else d.setDrw c.val { w with lost := nsInsert n.val w.lost }
  | .channel s ch =>
    let d := d.unitRecord 1 (s.val / 2) s.val fltSelftest { detail := ch.val, lasting := true }
    let st := d.stk s.val
    d.setStk s.val { st with badChannels := st.badChannels ++ [ch.val] }
  | .sideboard c =>
    ((d.unitRecord 2 c.val 0 fltSelftest { lasting := true }).unitDiscard 2 c.val 0 fltSbLost { lasting := true }).loseCabinet c.val fltSbLost true true
  | .router c =>
    ((d.unitRecord 4 c.val 0 fltSelftest { lasting := true }).unitDiscard 4 c.val 0 fltRouterLost { lasting := true }).loseCabinet c.val fltRouterLost false false
  | .port p =>
    let d := d.portRecord p.val fltSelftest { lasting := true }
    d.modPort p.val (fun x => { x with needRetrain := true })

/-- DEV_SELFTEST_STATUS after a test (Table 13-18). -/
def selftestOf (fs : List TestUnit) : BitVec 32 :=
  let n (p : TestUnit → Bool) (cap : Nat) : Nat := min cap (fs.filter p).length
  let benches := n (fun u => match u with
    | .bench _ _ _ => true
    | _ => false) 255
  let drawers := n (fun u => match u with
    | .drawer _ _ => true
    | _ => false) 255
  let channels := n (fun u => match u with
    | .channel _ _ => true
    | _ => false) 255
  let ports := n (fun u => match u with
    | .port _ => true
    | _ => false) 63
  let cab := n (fun u => match u with
    | .sideboard _ => true
    | .router _ => true
    | _ => false) 1
  BitVec.ofNat 32 (benches * 2 ^ 24 + drawers * 2 ^ 16 + channels * 2 ^ 8 + ports * 2 ^ 2 + cab * 2 + 1)

/-- A checker self-test ends: its status is written and each unit that fails meets the consequence of R352. -/
def Dev.selftest (d : Dev) (fs : List TestUnit) : Dev :=
  fs.foldl (fun d u => d.failUnit u) { d with boot := { d.boot with selftest := selftestOf fs } }

/-- The unit lies in cabinet c. -/
def unitInCab (u : TestUnit) (c : Nat) : Bool :=
  match u with
  | .bench x _ _ => x.val == c
  | .drawer x _ => x.val == c
  | .channel s _ => s.val / 2 == c
  | .sideboard x => x.val == c
  | .router x => x.val == c
  | .port _ => false

/-! ## Bring-up (Sequence 16-1) -/

/-- READY: at once, or on the suite head when DISCOVERY reads done or failed (R457). -/
def Dev.bootAdvance (d : Dev) : Dev :=
  if d.boot.stage == 7 && (!d.suite.head || d.suite.discovery == 2 || d.suite.discovery == 3) then d.setStage 8 else d

/-- The domains of a cabinet that starts: sideboard, drawer and stacks ON, benches as their states say. -/
def Dev.cabDoms (d : Dev) (c : Nat) : List (Nat × Dom) :=
  (List.range 108).map (fun i =>
    let id := 256 * c + i
    let st : BitVec 2 := if d.fenced c then 0 else if 104 ≤ i then 1 else d.physSt id
    (id, { d.dom id with st := st, entering := none }))

/-- The benches of cabinet c at its start: UNUSED, with undefined stores (Table 15-4). -/
def Dev.cabBenches (d : Dev) (c : Nat) : List (Nat × Bench) :=
  if d.fenced c then [] else
  (List.range 96).map (fun i =>
    let k := 96 * c + i
    let n := d.free + 3 * k
    (k, { Bench.reset with st := .unused, store := Mem.undefined n, program := Mem.undefined (n + 1), traceMem := Mem.undefined (n + 2) }))

/-- Step 5: cabinet, stack and edge-die domains ON; the repair map's fences, steering and lost drawers stand. -/
def Dev.startDomains (d : Dev) : Dev :=
  let d := { d with benches := (List.range 12).flatMap d.cabBenches, free := d.free + 3456 }
  let d := (List.range 12).foldl (fun d c => if d.fenced c then d else d.setCabSt c 3) d
  let edges : List (Nat × Dom) := [164, 165, 166, 167].map (fun id => (id, { d.dom id with st := 1, entering := none }))
  let ports : List (Nat × Dom) := d.pwr.doms.filter (fun (p : Nat × Dom) => isPortDom p.1)
  let doms := d.cabDoms 0 ++ ports ++ edges ++ ((List.range 12).drop 1).flatMap d.cabDoms
  let d := { d with pwr := { d.pwr with doms := doms } }
  (List.range 12).foldl (fun d c =>
    if d.fenced c then d else (d.setSb c { d.sb c with mem := Mem.undefined d.free, filled := false }).fresh) d

/-- Step 7: the stacks of a cabinet train, and its state follows. -/
def Dev.trainCab (d : Dev) (c : Nat) : Dev :=
  if d.fenced c then d else
  let d := (d.trainStack (2 * c)).trainStack (2 * c + 1)
  (d.setCab c { d.cab c with tested := true }).followCab c

/-- Steps 1 to 7 of Sequence 16-1, with the self-test failures met and the channels that fail training, where the supplies are valid
and nothing holds the device in reset. Ports train by their own commands; READY follows as R457 says. -/
def Dev.bringUp (d : Dev) (up : StartUp) : Dev :=
  if !d.boot.vin12 || !d.boot.vaux33 || d.boot.resetLow || d.boot.scanHold || d.pwr.hold || d.boot.stage != 0 then d
  else
    let d := (d.setDom 164 { d.dom 164 with st := 1, entering := none }).setStage 1
    let d := d.setFw { d.fw with fuseBad := up.fuseFault }
    if up.fuseFault then d.setStage 10
    else match d.bootChoice with
    | none => ({ d.fresh.fresh with
        suite := { d.suite with head := d.bridge.headSel || bit 0 d.bridge.ctl.toNat }, boot := { d.boot with fallback := true } } : Dev).setStage 9
    | some (b, fallback, svn, slot) =>
      let d := d.fresh.fresh
      let d := { d with boot := { d.boot with copy := b, fallback := fallback, svn := svn, keySlot := slot } }
      let d := ((d.setStage 2).setStage 3).loadCopies
      let d := { d with suite := { d.suite with
        head := d.bridge.headSel || bit 0 d.bridge.ctl.toNat, credState := if d.suite.cred.isSome then 1 else 0 } }
      let d := ((d.setStage 4).startDomains.setStage 5).selftest up.failures
      let d := up.badChannels.foldl (fun d e => d.setStk e.1.val { d.stk e.1.val with badChannels := (d.stk e.1.val).badChannels ++ [e.2.val] }) d
      let d := d.setStage 6
      (((List.range 12).foldl (fun d c => d.trainCab c) d).setStage 7).bootAdvance

/-- CHECKER_SELFTEST_COMPLETE: the self-test of a cabinet that restarts ends (R23). -/
def checkerSelftestComplete (d : Dev) (c : Nat) (fs : List TestUnit) : Dev :=
  let x := d.cab c
  if x.st != 3 || x.tested || !d.domOn (sbDom c) then d
  else
    let d := d.selftest (fs.filter (fun u => unitInCab u c))
    let d := [2 * c, 2 * c + 1].foldl (fun d s =>
      if (d.stk s).badChannels.isEmpty || !(d.stk s).trained then d else d.trainStack s) d
    (d.setCab c { d.cab c with tested := true }).followCab c

/-! ## Resets (Table 16-1) -/

/-- What a reset does to the repair map and the credential blob: at power-on the bureau's copies are lost, and with them a RESET_MAP that
waits (log 122); a cold reset carries RESET_MAP out, in flash too (R466, R480). -/
def Dev.resetCopies (d : Dev) (kind : BitVec 2) : Dev :=
  if kind == 0 then
    let d := d.emptyMap
    { d with suite := { d.suite with cred := none, credState := 0 }, boot := { d.boot with copies := false } }
  else if kind == 1 && d.boot.resetMap then d.emptyMap.setFw { d.fw with map := FlashPair.blank RepairMap.empty }
  else d

/-- What a reset leaves: kind 0 power-on, 1 cold, 2 warm. -/
def Dev.resetTo (d : Dev) (kind : BitVec 2) : Dev :=
  let warm := kind == 2
  let running := d.boot.copy
  let d := (d.allOff.setStage 0).resetCopies kind
  let p := d.pwr
  let counts := p.doms.filterMap (fun (e : Nat × Dom) =>
    if e.2.aborted == 0 && e.2.refused == 0 && e.2.level == 0 then none
    else some (e.1, { Dom.reset with aborted := e.2.aborted, refused := e.2.refused, level := e.2.level }))
  let m := d.mgmt
  let j := d.journal
  let f := d.flog
  let d := { d with
    pwr := { Power.reset with
      doms := if warm then counts else [], sensors := if warm then p.sensors else [], regs := if warm then p.regs else []
      cause := if warm then p.cause else 0 }
    bridge := { Bridge.reset with ctl := if warm then d.bridge.ctl else 0, headSel := if warm then d.bridge.headSel else !d.boot.headSelN }
    flog := if warm then f else { f with
      lseq := 0, unitSeq := [], keep := if kind == 0 then [] else f.keep, keepTotal := if kind == 0 then 0 else f.keepTotal }
    fw := d.fw.restart running (kind == 0) (Config.arbiter d.free) ((List.range 8).map (Config.undefByte d.free))
    mgmt := if warm then { m with doe := SpdmConn.reset, mctp := SpdmConn.reset } else Mgmt.reset
    boot := { Boot.reset with
      lastReset := kind, vin12 := d.boot.vin12, vaux33 := d.boot.vaux33, resetLow := d.boot.resetLow, scanHold := d.boot.scanHold
      headSelN := d.boot.headSelN, perstLow := d.boot.perstLow, resetMap := d.boot.resetMap && warm, copies := d.boot.copies }
    journal := if warm then j else if kind == 0 then { j with ring := [], total := 0, host := 0, sideband := 0, firmware := 0, marker := 0 }
      else { j with host := 0, sideband := 0, firmware := 0 } }
  d.fresh.journalMark (if kind == 0 then 3 else if kind == 1 then 1 else 2)

/-- Every used value is below its shutdown threshold minus hysteresis (R441). -/
def Dev.cool (d : Dev) : Bool :=
  d.pwr.sensors.all (fun (p : Nat × Sensor) =>
    decide (160 ≤ p.1 % 256) || decide (p.2.temp.toInt < threshold (stackSensor p.1) 3 - hysteresis 3))

/-- A cold or warm reset: held pending after a shutdown until the device is cool, the stronger one prevailing (R441, R491). A device that a
reset holds takes a weaker or an equal one as part of that one. -/
def Dev.reset_ (d : Dev) (kind : BitVec 2) (up : StartUp) : Dev :=
  if d.pwr.hold && !d.cool then
    { d with pwr := { d.pwr with resetPending := if d.pwr.resetPending == some 1 then some 1 else some kind } }
  else if d.boot.stage == 0 && decide (d.boot.lastReset.toNat ≤ kind.toNat) then d.bringUp up
  else (d.resetTo kind).bringUp up

/-- SENSOR_READING: after a shutdown a pending reset is honoured once the device is cool. -/
def sensorReading (d : Dev) (id : Nat) (raw : BitVec 16) (up : StartUp) : Dev :=
  let d := readSensor d id raw
  match d.pwr.resetPending with
  | some k => if d.pwr.hold && d.cool then (d.resetTo k).bringUp up else d
  | none => d

/-- WARM. -/
def warmReset (d : Dev) (up : StartUp) : Dev := d.reset_ 2 up

/-- VAUX33_LOSS: every regulator stops and the bureau is lost. -/
def vaux33Loss (d : Dev) : Dev :=
  let d := d.cutCopies
  ({ d with boot := { d.boot with vaux33 := false } } : Dev).resetTo 0

/-- VAUX33_RISE: a power-on reset. The test access port starts with IDCODE, which ends a hold (R503). -/
def vaux33Rise (d : Dev) : Dev := ({ d with boot := { d.boot with vaux33 := true, scanHold := false }, tap := Tap.reset } : Dev).resetTo 0

/-- VIN12_LOSS: a cold reset while VAUX33 stays. -/
def vin12Loss (d : Dev) : Dev :=
  let d := { d with boot := { d.boot with vin12 := false } }
  if d.boot.vaux33 then d.reset_ 1 .clean else d

/-- SUPPLY_VALID: the supplies as they stand; bring-up starts when the later of the two becomes valid. -/
def supplyValid (d : Dev) (vin12 vaux33 : Bool) (up : StartUp) : Dev :=
  ({ d with boot := { d.boot with vin12 := vin12, vaux33 := vaux33 } } : Dev).bringUp up

/-- RESET_N_ASSERT (R493): the arbiter decides a pulse between 0.5 and 1 µs. -/
def resetNAssert (d : Dev) (len : PulseLen) : Dev :=
  let hit := match len with
    | .short => false
    | .between => Config.arbiter d.free
    | .long => true
  let d := d.fresh
  if hit then ({ d with boot := { d.boot with resetLow := true } } : Dev).reset_ 1 .clean else d

/-- RESET_N_RELEASE. -/
def resetNRelease (d : Dev) (up : StartUp) : Dev := ({ d with boot := { d.boot with resetLow := false } } : Dev).bringUp up

/-! ## Host link and clocks (R416, R495, R499) -/

/-- PCIE_RESET: Function Level Reset, hot reset or link-down of the suite head's endpoint. -/
def pcieReset (d : Dev) : Dev := if d.suite.head then { d with bridge := d.bridge.dropReads } else d

/-- The endpoint of the suite head goes down with the effects of a hot reset; its ports, with no lane in use, wait for training. -/
def Dev.endpointDown (d : Dev) : Dev :=
  if !d.suite.head then d
  else
    let d := (List.range 4).foldl (fun d p => if (d.port p).st == 9 then d.modPort p (fun x => { x.drop with st := 1 }) else d) d
    { d with bridge := d.bridge.linkDown }

/-- PERST_N_ASSERT: PERST_N is low, which only the suite head heeds (R495). -/
def perstNAssert (d : Dev) : Dev := ({ d with boot := { d.boot with perstLow := true } } : Dev).endpointDown

/-- PERST_N_RELEASE: the endpoint trains, but for ports that train again only on RETRAIN (R499). -/
def perstNRelease (d : Dev) (q : Partner) : Dev :=
  let d := { d with boot := { d.boot with perstLow := false } }
  if d.suite.head && d.portCore 0 && (List.range 4).all (fun p =>
      (d.port p).enabled && !(d.port p).needRetrain && ((d.port p).st == 1 || (d.port p).st == 0)) then
    d.trainPcie q
  else d

/-- LREFCLK_LOSS: every port of the edge die fails and trains again only on RETRAIN. -/
def lrefclkLoss (d : Dev) (e : Nat) : Dev :=
  let d := d.failEdgePorts e
  ((List.range 9).map (fun i => 9 * e + i)).foldl (fun d p => d.modPort p (fun x => { x with needRetrain := true })) d

/-- PREFCLK_LOSS: the PCIe link goes down. -/
def prefclkLoss (d : Dev) : Dev := d.endpointDown

/-! ## The spare swap (Sequence 2-1, R39, R40) -/

/-- The bench restarts on its new physical column: store zero, initialisation sections, program and map entry. Its messages and records
keep their numbers, which restart at plan load only (R339). -/
def Dev.restartBench (d : Dev) (k : Nat) : Dev :=
  let b := d.bench k
  let fresh := { Bench.reset with
    st := .unused, store := Mem.filled 0, program := Mem.undefined d.free, traceMem := Mem.undefined (d.free + 1), csv := b.csv
    entry := b.entry, prog := b.prog, inPlan := b.inPlan }
  let d := d.fresh.fresh.setBench k fresh
  if !b.inPlan then d
  else
    let m := imageOf d.plan.image
    match m.map.find? (fun e => e.bench == k) with
    | none => d
    | some e =>
      let d := d.placeBench m e
      let d := (m.ofType 4).foldl (fun d s => if bits 47 44 s.dest == 1 || 96 * bits 43 40 s.dest + bits 39 32 s.dest != k then d else d.placeInit m s) d
      d.modBench k (fun x => { applyEntry e x with
        st := if d.plan.st == .loading then .loading else .ready, msgSeq := b.msgSeq, faultSeq := b.faultSeq, trace := { Trace.reset with seq := b.trace.seq } })

/-- Logical bench k has failed lastingly: the record, and the discard of the step (R39, R363). -/
def Dev.benchLost (d : Dev) (k : Nat) : Dev := d.unitDiscard 4 (k / 96) 0 fltBenchLost { lasting := true, retried := true }

/-- The spare of its row takes over from failed logical bench k, or its cabinet is lost (R39, Sequence 2-1). The logical benches of the
columns above the failed one, which another physical bench serves from then on, keep their stores, programs, registers and queues (DESIGN
CHOICE, log 70). -/
def Dev.takeSpare (d : Dev) (k : Nat) (spareOk : Bool) : Dev :=
  let c := k / 96
  let r := k % 96 / 12
  let failed := d.physColOf k
  if (d.cab c).steer r != 0xF then d.loseCabinet c fltBenchLost true true
  else if !spareOk then
    let d := ({ d with boot := { d.boot with selftest := selftestOf [.bench (Fin.ofNat 12 c) (Fin.ofNat 8 r) 12] } } : Dev).benchTest c r 12
    ((d.setSteer c r 0xC).syncRow c r).loseCabinet c fltBenchLost true true
  else
    let loop := (d.dom (d.benchDom k)).loopStep
    let d := { d with boot := { d.boot with selftest := selftestOf [] } }
    let d := ((d.setSteer c r failed).restartBench k).syncRow c r
    let spare := 256 * c + 13 * r + 12
    (d.setDom spare { d.dom spare with loopStep := loop }).floorCheck

/-- SPARE_SWAP: a lasting failure of logical bench k. -/
def spareSwap (d : Dev) (k : Nat) (spareOk : Bool) : Dev :=
  if d.fenced (k / 96) || (d.dom (d.benchDom k)).st == 0 then d else (d.benchLost k).takeSpare k spareOk

/-- BUNDLE_ISSUE with the errors of the bench's SRAM that the bundle meets, before its first slot (log 95). A lasting one is recorded as it
marks the data, and the failed bench is replaced once the bundle has gone on with what was delivered (R348, R349, R362). -/
def bundleWithErrors (d : Dev) (k : Nat) (errs : List SramErr) (spareOk : Bool) : Dev :=
  if !d.issues k then d else
  let t := errs.foldl (fun d e => d.sramError k e) d
  if errs.any (fun e => d.sramLasting k e) then (bundleIssue (t.benchLost k) k).takeSpare k spareOk else bundleIssue t k

/-! ## The loss of a drawer (Sequence 7-2) -/

/-- A unit of cabinet c whose checker fails while a plan may run: a lasting fault of that unit (R352). -/
def Dev.failLive (d : Dev) (u : TestUnit) : Dev :=
  match u with
  | .bench c r col =>
    match d.physUse (256 * c.val + 13 * r.val + col.val) with
    | .logical k => spareSwap (d.benchTest c.val r.val col.val) k true
    | _ => d.failUnit u
  | .drawer c n => (d.unitRecord 3 c.val 0 fltSelftest { detail := n.val, lasting := true }).loseDrawer c.val n.val
  | .channel s ch => (d.unitRecord 1 (s.val / 2) s.val fltSelftest { detail := ch.val, lasting := true }).loseChannel s.val ch.val false
  | _ => d.failUnit u

/-- DRAWER_LOST: where the fallback path takes the drawer's work over, the checkers of that path are tested first (R352, R387), and each
unit of the cabinet that fails meets its consequence. -/
def drawerLost (d : Dev) (c n : Nat) (fails : List TestUnit) : Dev :=
  let t := d.loseDrawer c n
  if (d.drw c).isLost n || !(t.drw c).isLost n then t
  else
    let fs := fails.filter (fun u => unitInCab u c)
    fs.foldl (fun d u => d.failLive u) { t with boot := { t.boot with selftest := selftestOf fs } }

/-- The work of request i on bank n with the errors of the drawer's files that it meets. One that the retry shows again loses the drawer: its
row operations are cut, so that nothing of the work is written, and the fallback path has it (R209, R348, Sequence 7-2). -/
def drawerWork (d : Dev) (c i n op : Nat) (f : FileErrs) (work : Dev) : Dev :=
  if fileLasting f && d.drawerWorks c i n op then drawerLost d c n f.fails else work

end Sys2Proof.Machine
end

