-- ==== Sys2Proof/Machine/Scan.lean ====
section
/-! DEFINITION. The test access port (R502, R503) and the boundary register, whose cells follow the land map (R486–R488). -/

namespace Sys2Proof.Machine

/-! ## The land map (R486–R488) -/

/-- A low-speed signal (Table 17-6) that has a boundary cell. -/
inductive Pin where
  | xspiClk | xspiDqs | xspiCsN | xspiRstN | xspiDq (n : Nat) | i3cScl | i3cSda | resetN | perstN | pwrgood | headSelN | alertN
  | thermtripN | obs (n : Nat) | obsReq | obsAck
deriving DecidableEq, Repr

/-- A land with a boundary cell: a lane's, a reference clock's, or a low-speed signal's (Table 17-2). -/
inductive Land where
  | tx (port lane : Nat) (positive : Bool)
  | rx (port lane : Nat) (positive : Bool)
  | lrefclk (e : Nat) (positive : Bool)
  | prefclk (positive : Bool)
  | pin (p : Pin)
deriving DecidableEq, Repr

/-- The lane land at a depth and an along coordinate of the band of edge die e (R487). -/
def laneAt (e depth along : Nat) : Option Land :=
  let k := (along - 13) / 10
  let o := (along - 13) % 10
  if along < 13 || 8 < k || o == 0 || o == 9 then none
  else if depth == 3 then some (.tx (9 * e + k) ((o - 1) / 2) (o % 2 == 1))
  else if depth == 7 then some (.rx (9 * e + k) ((o - 1) / 2) (o % 2 == 1))
  else none

/-- The reference clocks' lands (Table 17-2). -/
def clockAt (y x : Nat) : Option Land :=
  match y, x with
  | 5, 11 => some (.lrefclk 0 true)
  | 5, 12 => some (.lrefclk 0 false)
  | 5, 103 => some (.prefclk true)
  | 5, 104 => some (.prefclk false)
  | 11, 110 => some (.lrefclk 1 true)
  | 12, 110 => some (.lrefclk 1 false)
  | 110, 11 => some (.lrefclk 2 true)
  | 110, 12 => some (.lrefclk 2 false)
  | 11, 5 => some (.lrefclk 3 true)
  | 12, 5 => some (.lrefclk 3 false)
  | _, _ => none

/-- The signals of the corners but for the test access port and VSNS (Table 17-3). -/
def cornerAt (y x : Nat) : Option Pin :=
  if y == 6 && x ≤ 10 then
    (match x with
      | 1 => some .xspiClk
      | 2 => some .xspiDqs
      | 3 => some .xspiCsN
      | 4 => some .xspiRstN
      | _ => some (.xspiDq (x - 5)))
  else if y == 7 && x ≤ 10 then
    (match x with
      | 1 => some (.xspiDq 6)
      | 2 => some (.xspiDq 7)
      | 4 => some .i3cScl
      | 5 => some .i3cSda
      | _ => none)
  else if y == 8 && x ≤ 10 then
    (match x with
      | 3 => some .resetN
      | 4 => some .perstN
      | 5 => some .pwrgood
      | 6 => some .headSelN
      | 7 => some .alertN
      | 8 => some .thermtripN
      | _ => none)
  else if 105 ≤ x && x ≤ 112 && (y == 2 || y == 4 || y == 6 || y == 8) then some (.obs (8 * (y / 2 - 1) + (x - 105)))
  else if y == 10 && x == 105 then some .obsReq
  else if y == 10 && x == 106 then some .obsAck
  else none

/-- The land y:x, where it has a boundary cell. -/
def landAt (y x : Nat) : Option Land :=
  let mid (v : Nat) : Bool := decide (11 ≤ v) && decide (v ≤ 104)
  let lane : Option Land :=
    if mid x && decide (y ≤ 10) then laneAt 0 y x
    else if mid y && decide (105 ≤ x) then laneAt 1 (115 - x) y
    else if mid x && decide (105 ≤ y) then laneAt 2 (115 - y) x
    else if mid y && decide (x ≤ 10) then laneAt 3 x y
    else none
  (lane.or (clockAt y x)).or ((cornerAt y x).map Land.pin)

/-! ## The boundary register (R502) -/

/-- What a cell of a land holds: the level of an input, the data of an output, or the control of an output. -/
inductive CellKind where
  | input | output | control
deriving DecidableEq, Repr

/-- The cells of a land in their order. -/
def Land.cells : Land → List CellKind
  | .tx _ _ _ => [.output]
  | .rx _ _ _ => [.input]
  | .lrefclk _ _ => [.input]
  | .prefclk _ => [.input]
  | .pin p =>
    match p with
    | .xspiDq _ => [.input, .output, .control]
    | .xspiDqs => [.input, .output, .control]
    | .i3cSda => [.input, .output, .control]
    | .xspiClk => [.output, .control]
    | .xspiCsN => [.output, .control]
    | .xspiRstN => [.output, .control]
    | .alertN => [.output, .control]
    | .thermtripN => [.output, .control]
    | .obs _ => [.output, .control]
    | .obsReq => [.output, .control]
    | _ => [.input]

/-- The lands with cells in ascending order of row and then column, each with its cells. -/
def boundaryCells : List (Land × CellKind) :=
  (List.range 114).flatMap (fun y => (List.range 114).flatMap (fun x =>
    ((landAt (y + 1) (x + 1)).elim [] (fun l => l.cells.map (fun k => (l, k))))))

/-- The level that a cell captures, where State holds it: inputs and outputs of the low-speed signals. Of every other cell it is none. -/
def Dev.cellLevel (d : Dev) (c : Land × CellKind) : Option Bool :=
  match c with
  | (.pin .resetN, _) => some (!d.boot.resetLow)
  | (.pin .perstN, _) => some (!d.boot.perstLow)
  | (.pin .headSelN, _) => some d.boot.headSelN
  | (.pin .alertN, .output) => some (!d.alert)
  | (.pin .thermtripN, .output) => some (!d.thermtrip)
  | (.pin (.obs n), .output) => some (bit n d.obs.out.toNat)
  | (.pin .obsReq, .output) => some d.obs.req
  | (.pin .obsAck, _) => some d.obs.ack
  | _ => none

/-- What the boundary register captures: cell i, counted in the order of the lands, is bit i (DEDUCED, log 28); of lands whose level is no
state of the device, and of control cells, a free value. -/
def Dev.capture (d : Dev) : BitVec 698 :=
  let free := (Config.padSample d.free).toNat
  BitVec.ofNat 698 ((boundaryCells.zipIdx.map (fun (c : (Land × CellKind) × Nat) =>
    b2n ((d.cellLevel c.1).getD (bit c.2 free)) * 2 ^ c.2)).sum)

/-! ## Instructions (Table 17-10) -/

/-- Instructions that hold the device in cold reset. -/
def TapIr.holds (i : TapIr) : Bool :=
  match i with
  | .extest => true
  | .clamp => true
  | .highz => true
  | .extestPulse => true
  | .extestTrain => true
  | _ => false

/-- The data register of an instruction: CLAMP and HIGHZ put the bypass register between TDI and TDO, as IEEE 1149.1 says (PRESUMED, log
28). -/
def TapIr.dataRegister (i : TapIr) : TapDr :=
  match i with
  | .idcode => .identification tapIdcode
  | .bypass => .bypass
  | .clamp => .bypass
  | .highz => .bypass
  | _ => .boundary

/-- An instruction is loaded: a holding one puts the device in cold reset; IDCODE, BYPASS and SAMPLE/PRELOAD end the hold. -/
def Dev.loadIr (d : Dev) (i : TapIr) (up : StartUp) : Dev :=
  let held := d.boot.scanHold
  let d := { d with tap := { d.tap with ir := i, dr := i.dataRegister } }
  if i.holds then
    let d := { d with boot := { d.boot with scanHold := true } }
    if held then d else d.reset_ 1 up
  else if held then ({ d with boot := { d.boot with scanHold := false } } : Dev).bringUp up
  else d

/-- SAMPLE_PRELOAD: the boundary register captures the pads. -/
def samplePreload (d : Dev) (up : StartUp) : Dev :=
  let d := { d with tap := { d.tap with boundary := d.capture } }
  d.fresh.loadIr .samplePreload up

/-- A code of the instruction register (Table 17-10). -/
def tapOf (code : BitVec 8) : TapIr :=
  match code.toNat with
  | 0x00 => .extest
  | 0x01 => .idcode
  | 0x02 => .samplePreload
  | 0x04 => .clamp
  | 0x05 => .highz
  | 0x0C => .extestPulse
  | 0x0D => .extestTrain
  | _ => .bypass

/-- BYPASS: 0xFF or an unlisted code; a code that Table 17-10 lists is the instruction it lists. -/
def loadCode (d : Dev) (code : BitVec 8) (up : StartUp) : Dev :=
  if tapOf code == .samplePreload then samplePreload d up else d.loadIr (tapOf code) up

/-- TRST_N_ASSERT: the port is reset, with IDCODE in its instruction register, and a hold ends. -/
def trstNAssert (d : Dev) (up : StartUp) : Dev := d.loadIr .idcode up

end Sys2Proof.Machine
end

