-- ==== Sys2Proof/Machine/Mgmt.lean ====
section
/-! DEFINITION. Attestation (R467, R468), the sideband's management commands (R469–R471), and the test multiplexer (R476, R477, R484).
Where another standard lays down the bytes of an answer, the model holds its content (log 29). -/

namespace Sys2Proof.Machine

/-! ## Measurements (Table 16-7) -/

/-- What the repair map holds (R466), in a fixed order. -/
def RepairMap.words (m : RepairMap) : List Nat :=
  m.cabs.flatMap (fun (p : Nat × MapCab) =>
    [p.2.steer.toNat] ++ p.2.fence.elim [0] (fun f => [1, f.1.toNat, b2n f.2.1, b2n f.2.2]) ++ (p.2.lost.length :: p.2.lost) ++
      (p.2.lines.length :: p.2.lines.flatMap (fun (e : Nat × List (BitVec 16)) => e.1 :: e.2.length :: e.2.map BitVec.toNat))) ++
  m.stks.flatMap (fun (p : Nat × MapStk) =>
    [b2n p.2.active, b2n p.2.lost, p.2.logical.toNat, p.2.rows.length] ++
      p.2.rows.flatMap (fun (e : Nat × (List (BitVec 16) × Bool)) => e.1 :: b2n e.2.2 :: e.2.1.length :: e.2.1.map BitVec.toNat))

/-- The running image: header bytes 0x000 to 0x15F, then the body. -/
def FwImage.digest (im : FwImage) : BitVec 384 :=
  match im with
  | .delivered _ _ _ => Config.deliveredDigest
  | .written m _ => hash384 (m.read 0 0x160 ++ m.read 0x1000 (fwLength m))

/-- Measurement i, computed as the request is served. -/
def Dev.measure (d : Dev) (i : Nat) : BitVec 384 :=
  match i with
  | 1 => Config.bootRomDigest
  | 2 => (d.fw.copy d.boot.copy).digest
  | 3 => hash384 ([BitVec.ofNat 8 d.fw.counter, d.fw.revoked.setWidth 8, d.boot.keySlot.setWidth 8] ++ List.replicate 13 0)
  | 4 => hash384 (d.suite.cred.getD [])
  | 5 => Config.mapDigest d.repairMap.words
  | 6 => if d.planLoaded then hash384 (leBytes 2 d.plan.planId.toNat ++ (d.plan.image.drop 0x20).take 48) else hash384 (List.replicate 50 0)
  | _ => hash384 (leBytes 6 d.journal.host.toNat ++ leBytes 6 d.journal.sideband.toNat ++ leBytes 6 d.journal.firmware.toNat)

/-! ## SPDM (R467, Table 16-6) -/

def Mgmt.conn (m : Mgmt) (t : SpdmTransport) : SpdmConn :=
  match t with
  | .doe => m.doe
  | .mctp => m.mctp

/-- Sets a transport's connection and its answer. -/
def Dev.spdmSet (d : Dev) (t : SpdmTransport) (c : SpdmConn) (a : SpdmAnswer) : Dev :=
  match t with
  | .doe => { d with mgmt := { d.mgmt with doe := c, doeAnswer := some a } }
  | .mctp => { d with mgmt := { d.mgmt with mctp := c, mctpAnswer := some a } }

/-- SPDM error codes of the SPDM 1.3 specification (log 29). -/
def spdmInvalid : BitVec 8 := 0x01
def spdmBusy : BitVec 8 := 0x03
def spdmUnexpected : BitVec 8 := 0x04
def spdmUnsupported : BitVec 8 := 0x07
def spdmVersionMismatch : BitVec 8 := 0x41

/-- A signature of a response by the identity key (R463); the secret of the signature is fresh. -/
def Dev.sign (d : Dev) : List Byte := ecdsaSign identityPrivate (beNat (Config.randomBytes d.free 48)) (Config.spdmText d.free)

/-- SPDM_REQUEST: before READY every request is answered Busy. The DOE mailbox is the suite head's; over the sideband nothing is served without
VAUX33 or in FUSE_FAULT (R460, R469). Version 1.3, or 1.2, is the requester's choice in GET_CAPABILITIES (Table 16-6). -/
def spdmRequest (d : Dev) (t : SpdmTransport) (q : SpdmRequest) : Dev :=
  let c := d.mgmt.conn t
  let ready := c.version.isSome && c.capabilities && c.algorithms
  let err (code : BitVec 8) : Dev := d.spdmSet t c (.error code)
  if (match t with
      | .doe => !d.suite.head || !d.bridge.linkUp
      | .mctp => !d.boot.vaux33 || d.boot.stage == 10) then d
  else if d.boot.stage != 8 then err spdmBusy
  else match q with
  | .getVersion => d.spdmSet t { SpdmConn.reset with asked := true } (.version [0x12, 0x13])
  | .getCapabilities v =>
    if !c.asked then err spdmUnexpected
    else if v != 0x12 && v != 0x13 then err spdmVersionMismatch
    else d.spdmSet t { c with version := some v, capabilities := true } (.capabilities true true true true)
  | .negotiateAlgorithms =>
    if !c.capabilities then err spdmUnexpected else d.spdmSet t { c with algorithms := true } (.algorithms true true)
  | .getDigests => if !ready then err spdmUnexpected else d.spdmSet t c (.digests 1 (hash384 certChain))
  | .getCertificate slot off len =>
    if !ready then err spdmUnexpected
    else if slot != 0 || certChain.length < off.toNat then err spdmInvalid
    else
      let part := (certChain.drop off.toNat).take len.toNat
      d.spdmSet t c (.certificate slot part (certChain.length - off.toNat - part.length))
  | .challenge slot =>
    if !ready then err spdmUnexpected
    else if slot != 0 then err spdmInvalid
    else
      let sum := hash384 ((List.range 7).flatMap (fun i => beBytes 48 (d.measure (i + 1)).toNat))
      d.fresh.spdmSet t c (.challengeAuth slot sum d.sign)
  | .getMeasurements i signed =>
    let sig := if signed then some d.sign else none
    if !ready then err spdmUnexpected
    else if i == 0 then d.spdmSet t c (.measurementCount 7)
    else if i == 0xFF then d.fresh.spdmSet t c (.measurements ((List.range 7).map (fun k => (k + 1, d.measure (k + 1)))) sig)
    else if i.toNat ≤ 7 then d.fresh.spdmSet t c (.measurements [(i.toNat, d.measure i.toNat)] sig)
    else err spdmInvalid
  | .other _ => err spdmUnsupported

/-! ## Sideband management commands (Tables 16-8 and 16-9) -/

def Dev.sideAnswer (d : Dev) (a : SideAnswer) : Dev := { d with mgmt := { d.mgmt with answer := a } }

/-- The always-on domain serves MCTP control and PLDM types 0 and 2 while VAUX33 is valid; in FUSE_FAULT only MCTP control and
monitoring (R460, R469). -/
def Dev.serves (d : Dev) (base : Bool) : Bool := d.boot.vaux33 && !(base && d.boot.stage == 10)

def Dev.sideReply (d : Dev) (base : Bool) (a : SideAnswer) : Dev := if d.serves base then d.sideAnswer a else d

/-- The provisional ID: its low 32 bits are those of DEV_SERIAL. -/
def provisionalId : BitVec 48 := Config.i3cVendor ++ Config.serial.setWidth 32

/-- ENTDAA: the target shows its provisional ID and takes its dynamic address. -/
def entdaa (d : Dev) (addr : BitVec 7) : Dev :=
  if d.boot.vaux33 then ({ d with mgmt := { d.mgmt with addr := some addr } } : Dev).sideAnswer (.data (beBytes 6 provisionalId.toNat)) else d

def setEndpointId (d : Dev) (eid : BitVec 8) : Dev :=
  if d.serves false then ({ d with mgmt := { d.mgmt with eid := eid } } : Dev).sideAnswer (.data [eid]) else d

def getEndpointId (d : Dev) : Dev := d.sideReply false (.data [d.mgmt.eid])

/-- MCTP types 0, 1 and 5. -/
def getMessageTypeSupport (d : Dev) : Dev := d.sideReply false (.data [0, 1, 5])

def getMctpVersionSupport (d : Dev) (type : BitVec 8) : Dev :=
  d.sideReply false (if type == 0xFF || type == 0 || type == 1 || type == 5 then .data (Config.mgmtData (256 + type.toNat)) else .error 0x80)

def gettid (d : Dev) : Dev := d.sideReply true (.data (Config.mgmtData 0))

/-- PLDM types 0, 2, 5 and 63. -/
def getpldmtypes (d : Dev) : Dev := d.sideReply true (.data [0, 2, 5, 63])

def pldmType (t : BitVec 6) : Bool := t == 0 || t == 2 || t == 5 || t == 63

/-- The commands of a type: those of type 63 are this manual's, the others' codes are the PLDM standards'. -/
def getpldmcommands (d : Dev) (t : BitVec 6) : Dev :=
  d.sideReply true (if !pldmType t then .error 0x83 else if t == 63 then .data [1, 2] else .data (Config.mgmtData (512 + t.toNat)))

def getpldmversion (d : Dev) (t : BitVec 6) : Dev :=
  d.sideReply true (if pldmType t then .data (Config.mgmtData (768 + t.toNat)) else .error 0x83)

/-- A temperature sensor of Table 15-9. -/
def isTempSensor (id : Nat) : Bool :=
  (decide (id / 256 < 12) && decide (id % 256 < 112)) || (id / 256 == 0 && decide (128 ≤ id % 256) && decide (id % 256 < 176))

/-- A regulator of Table 15-8. -/
def isRegulator (id : Nat) : Bool :=
  (decide (id / 256 < 12) && decide (240 ≤ id % 256) && decide (id % 256 < 243)) ||
    (id / 256 == 0 && decide (244 ≤ id % 256) && decide (id % 256 < 253))

/-- A numeric sensor's reading: whether it is degraded, and its value. -/
def Dev.numericSensor (d : Dev) (id : Nat) : Option (Bool × BitVec 16) :=
  if isTempSensor id then some ((d.sensor id).suspect, (d.sensor id).temp)
  else if id == 0x1000 then some (false, d.pwr.vinMv)
  else if id == 0x1001 then some (false, d.pwr.current)
  else if id == 0x1002 then some (false, d.pwr.watts)
  else if id == 0x1003 then some (false, d.pwr.vauxMv)
  else if 0x2000 ≤ id ∧ id < 0x3000 ∧ isRegulator (id - 0x2000) then some (false, (d.regul (id - 0x2000)).current.setWidth 16)
  else none

/-- A state sensor's state. -/
def Dev.stateSensor (d : Dev) (id : Nat) : Option Nat :=
  if 0x3000 ≤ id ∧ id < 0x300C then some (d.cab (id - 0x3000)).st.toNat
  else if id == 0x3010 then some d.boot.stage.toNat
  else if id == 0x3011 then some d.thermalLevel
  else none

/-- GetSensorReading: 1 for degraded, then the value (R470). -/
def getsensorreading (d : Dev) (id : BitVec 16) : Dev :=
  d.sideReply false (match d.numericSensor id.toNat with
    | some (deg, v) => .data (BitVec.ofNat 8 (b2n deg) :: leBytes 2 v.toNat)
    | none => .error 0x80)

def getstatesensorreadings (d : Dev) (id : BitVec 16) : Dev :=
  d.sideReply false (match d.stateSensor id.toNat with
    | some v => .data [BitVec.ofNat 8 v]
    | none => .error 0x80)

/-- The sensors of Table 16-9 in the order of their IDs. -/
def sensorIds : List Nat :=
  (List.range 0x2000).filter (fun i => isTempSensor i || (decide (0x1000 ≤ i) && decide (i ≤ 0x1003))) ++
    ((List.range 0x1000).filter isRegulator).map (0x2000 + ·) ++ (List.range 12).map (0x3000 + ·) ++ [0x3010, 0x3011]

/-- A numeric sensor, not a state sensor. -/
def isNumeric (id : Nat) : Bool := decide (id < 0x3000)

/-- The record of a sensor: its handle, whether it is a numeric or a state sensor (PDR types 2 and 4), its ID, and the rest of the PLDM
layout (R470; log 29). -/
def pdr (handle id : Nat) : List Byte :=
  leBytes 4 handle ++ [if isNumeric id then 2 else 4] ++ leBytes 2 id ++ Config.mgmtData (4096 + id)

/-- GetPDR: handle 0 is the first record, handle n the n-th sensor's (log 29). -/
def getpdr (d : Dev) (handle : BitVec 32) : Dev :=
  let n := max handle.toNat 1
  d.sideReply false (match sensorIds[n - 1]? with
    | some id => .data (pdr n id)
    | none => .error 0x82)

/-- GetPDRRepositoryInfo: the number of records, and the rest of the PLDM layout. -/
def getpdrrepositoryinfo (d : Dev) : Dev := d.sideReply false (.data (leBytes 4 sensorIds.length ++ Config.mgmtData 1))

/-- PollForPlatformEventMessage: the oldest queued event leaves the queue, as an event of OEM class 0xF0 (R471). -/
def pollforplatformeventmessage (d : Dev) : Dev :=
  if !d.serves false then d else
  match d.mgmt.events with
  | [] => d.sideAnswer (.data [])
  | e :: t => ({ d with mgmt := { d.mgmt with events := t, ibi := !t.isEmpty } } : Dev).sideAnswer (.data (0xF0 :: e))

def eventmessagebuffersize (d : Dev) (size : BitVec 16) : Dev :=
  if d.serves false then ({ d with mgmt := { d.mgmt with bufSize := size } } : Dev).sideAnswer (.data (Config.mgmtData 2)) else d

/-! ## The test multiplexer (R476, R477, R484) -/

/-- The descriptor of a group (Table 16-20), 0 where it names none: ids 8 to 15 of the die field, and group 0, whose descriptor the reset
value gives. WIDTH is 1 to 32 and KIND 0 to 5. -/
def obsDesc (g : BitVec 16) : Nat :=
  let r := (Config.obsDesc g.toNat).toNat
  if 8 ≤ bits 15 12 g.toNat || g == 0 || !bit 0 r then 0
  else bits 31 16 r * 2 ^ 16 + (bits 15 10 r % 32 + 1) * 2 ^ 10 + bits 9 7 r % 6 * 2 ^ 7 + 1

/-- The domain of a group's unit is not ON. -/
def Dev.obsOff (d : Dev) (g : BitVec 16) : Bool := bit 0 (obsDesc g) && d.domSt (bits 27 16 (obsDesc g)) != 1

/-- A sample of a group: zeros where it has no descriptor or its domain is not ON. -/
def Dev.obsValue (d : Dev) (g : BitVec 16) : BitVec 32 :=
  if !bit 0 (obsDesc g) || d.obsOff g then 0
  else BitVec.ofNat 32 ((Config.obsSample g.toNat d.free).toNat % 2 ^ bits 15 10 (obsDesc g))

def Obs.enabled (o : Obs) : Bool := bit 16 o.ctl.toNat
def Obs.onChange (o : Obs) : Bool := bit 17 o.ctl.toNat

/-- Presents the next sample: a GROUP write takes effect here. -/
def Dev.obsPresent (d : Dev) : Dev :=
  let g := BitVec.ofNat 16 (bits 15 0 d.obs.ctl.toNat)
  { d.fresh with obs := { d.obs with group := g, out := d.obsValue g, req := true, changed := false } }

/-- MODE 1: the sample is presented only where it differs from the last one presented. -/
def Dev.obsDiffers (d : Dev) : Dev :=
  if d.obsValue (BitVec.ofNat 16 (bits 15 0 d.obs.ctl.toNat)) == d.obs.out then { d.fresh with obs := { d.obs with changed := false } }
  else d.obsPresent

/-- OBS_ACK_RISE: the device lowers OBS_REQ. -/
def obsAckRise (d : Dev) : Dev := { d with obs := { d.obs with ack := true, req := false } }

/-- OBS_ACK_FALL: in MODE 0 the next sample, in MODE 1 the latest of the values that changed during the handshake. -/
def obsAckFall (d : Dev) : Dev :=
  let d := { d with obs := { d.obs with ack := false } }
  if !d.obs.enabled || d.obs.req then d
  else if !d.obs.onChange then d.obsPresent
  else if d.obs.changed then d.obsDiffers
  else d

/-- OBS_SAMPLE_ON_CHANGE (MODE 1): the value changes; during a handshake the change is collapsed and counted. -/
def obsSampleOnChange (d : Dev) : Dev :=
  let o := d.obs
  if !o.enabled || !o.onChange then d
  else if !o.req && !o.ack then d.obsDiffers
  else { d with obs := { o with changed := true, missed := satInc16 o.missed } }

/-- A write of DEV_OBS_CTL: MODE 0 takes a sample as it begins while no handshake runs. -/
def writeObsCtl (v : Nat) (d : Dev) : Dev × Bool :=
  let was := d.obs.enabled && !d.obs.onChange
  let d := { d with obs := { d.obs with ctl := BitVec.ofNat 32 (bits 17 0 v) } }
  let d := if !d.obs.enabled then { d with obs := { d.obs with out := 0, req := false, changed := false } }
    else if !was && !d.obs.onChange && !d.obs.req && !d.obs.ack then d.obsPresent
    else d
  (d, true)

/-- DEV_OBS_STATUS. -/
def readObsStatus (d : Dev) : Nat := b2n (d.obsOff (BitVec.ofNat 16 (bits 15 0 d.obs.ctl.toNat))) * 2 ^ 16 + d.obs.missed.toNat

end Sys2Proof.Machine
end

