-- ==== Sys2Proof/Machine/Registers.lean ====
section
/-! DEFINITION. The register map (18): every register of register space, where it lies, which domain serves it, what it reads, what
a write does (R13, R508–R517), and the change journal (R472, R473). -/

namespace Sys2Proof.Machine

/-- A register of Tables 18-2 to 18-7. Ids are 256 × cabinet field + index; k of a bench register is the number of the logical
bench. -/
inductive Reg where
  | devId | devSerial | planVersion | csvVersion | cmpVersion | tdlVersion | bootStatus | resetCtl | repairCtl | cabinetState
  | faultSummary | selftestStatus | wdCtl | lateCount | planBase | planStatus | planCtl | fillPattern | fillCtl | fillStatus
  | cmdBase | resultBase | seqStep | seqCtl | seqStatus | stepLimit | cmdHead | resultTail | seqCount
  | flogBase | flogCtl | flogHead | flogTail | flogCount | hmbBase | hmbCtl | hmbHead | hmbTail | hmbCount
  | cmpCtl | cmpStatus | cmpSlot (n : Nat) | suiteCtl | suiteStatus | suiteWin (n : Nat) | suiteLimit (n : Nat) | suiteDev (n : Nat)
  | hbCtl | hbStatus | hbCount | w2Seg (n : Nat) | obsCtl | obsStatus | obsDesc | fwCtl | fwStatus | jrnlStatus
  | credBuf (k : Nat) | flogKeep (k w : Nat) | fwStage (k : Nat) | jrnlEntry (k w : Nat)
  | thermStatus | pwrStatus | pwrCap | domCtl (id : Nat) | domStatus (id : Nat) | domCount (id : Nat) | snsStatus (id : Nat)
  | regStatus (id : Nat)
  | portCtl (p : Nat) | trainState (p : Nat) | partner (p : Nat) | portRate (p : Nat) | portCmpCtl (p : Nat) | portErr (p : Nat)
  | portCmpStatus (p : Nat)
  | stkStatus (s : Nat) | chanMap (s : Nat) | classCtl (s : Nat) | scrubCtl (s : Nat) | stkErr (s : Nat) | ilv (s i : Nat)
  | bankRows (s n : Nat)
  | rowSteer (c : Nat) | cabFault (c : Nat) | sbStatus (c : Nat) | sbErr (c : Nat) | aow (c n : Nat) | drwMode (c : Nat)
  | drwCtl (c : Nat) | drwStatus (c : Nat) | drwFallback (c : Nat) | drwLastFault (c : Nat) | drwMirror (c : Nat) | drwCheck (c : Nat)
  | drwFlow (c : Nat) | drwLost (c k : Nat)
  | benchCtl (k : Nat) | benchStatus (k : Nat) | benchFault (k : Nat) | faultTag (k : Nat) | benchPc (k : Nat) | benchRepeat (k : Nat)
  | inboxCount (k : Nat) | matCtl (k : Nat) | inboxQ (k q : Nat) | matCount (k : Nat) | shelfCtl (k : Nat) | shelfStatus (k : Nat)
  | shelfCount (k : Nat) | copyCtl (k : Nat) | copyStatus (k : Nat) | copyCount (k : Nat) | fenceCount (k : Nat) | traceCtl (k : Nat)
  | traceStatus (k : Nat)
deriving DecidableEq, Repr

/-! ## Where registers lie -/

/-- Index of offset o in an array of n registers from base with the stride given, if it starts one. -/
def indexIn (o base stride n : Nat) : Option Nat :=
  if base ≤ o ∧ (o - base) % stride = 0 ∧ (o - base) / stride < n then some ((o - base) / stride) else none

/-- The single registers of Table 18-2. -/
def singleRegs : List (Nat × Reg) :=
  [(0x0, .devId), (0x8, .devSerial), (0x10, .planVersion), (0x14, .csvVersion), (0x18, .cmpVersion), (0x1C, .tdlVersion),
   (0x20, .bootStatus), (0x24, .resetCtl), (0x28, .repairCtl), (0x2C, .cabinetState), (0x30, .faultSummary), (0x34, .selftestStatus),
   (0x38, .wdCtl), (0x3C, .lateCount), (0x100, .planBase), (0x108, .planStatus), (0x110, .planCtl), (0x180, .fillPattern),
   (0x188, .fillCtl), (0x18C, .fillStatus)] ++
  [(0x200, .cmdBase), (0x208, .resultBase), (0x210, .seqStep), (0x218, .seqCtl), (0x21C, .seqStatus), (0x220, .stepLimit),
   (0x224, .cmdHead), (0x228, .resultTail), (0x22C, .seqCount), (0x300, .flogBase), (0x308, .flogCtl), (0x30C, .flogHead),
   (0x310, .flogTail), (0x314, .flogCount), (0x340, .hmbBase), (0x348, .hmbCtl), (0x34C, .hmbHead), (0x350, .hmbTail),
   (0x354, .hmbCount), (0x400, .cmpCtl), (0x408, .cmpStatus), (0x500, .suiteCtl), (0x504, .suiteStatus)] ++
  [(0xA00, .hbCtl), (0xA04, .hbStatus), (0xA08, .hbCount), (0xC00, .obsCtl), (0xC04, .obsStatus), (0xC08, .obsDesc),
   (0xD00, .fwCtl), (0xD04, .fwStatus), (0xD08, .jrnlStatus)]

/-- The register that starts at offset o of the device block. -/
def deviceReg (o : Nat) : Option Reg :=
  if o < 0x1000 then
    ((singleRegs.find? (fun (e : Nat × Reg) => e.1 == o)).map (fun e => e.2)).orElse fun _ =>
    ((indexIn o 0x440 8 16).map Reg.cmpSlot).orElse fun _ =>
    ((indexIn o 0x540 16 16).map Reg.suiteWin).orElse fun _ =>
    ((indexIn o 0x548 16 16).map Reg.suiteLimit).orElse fun _ =>
    ((indexIn o 0x800 8 64).map Reg.suiteDev).orElse fun _ => (indexIn o 0xA40 8 32).map Reg.w2Seg
  else
    ((indexIn o 0x10000 4 1024).map Reg.credBuf).orElse fun _ =>
    ((indexIn o 0x20000 8 2048).map (fun j => Reg.flogKeep (j / 8) (j % 8))).orElse fun _ =>
    ((indexIn o 0x40000 4 16384).map Reg.fwStage).orElse fun _ =>
    (indexIn o 0x80000 8 16384).map (fun j => Reg.jrnlEntry (j / 4) (j % 4))

/-- The register at offset o of a port block (Table 18-4). -/
def portReg (p o : Nat) : Option Reg :=
  if o == 0 then some (.portCtl p) else if o == 4 then some (.trainState p) else if o == 8 then some (.partner p)
  else if o == 0x10 then some (.portRate p) else if o == 0x14 then some (.portCmpCtl p) else if o == 0x18 then some (.portErr p)
  else if o == 0x20 then some (.portCmpStatus p) else none

/-- An id of Table 15-3 other than the always-on domain. -/
def isDomain (id : Nat) : Bool :=
  (decide (id / 256 < 12) && decide (id % 256 < 108)) || (decide (128 ≤ id) && decide (id < 168))

/-- The register at offset o of the power block (Table 18-3). -/
def powerReg (o : Nat) : Option Reg :=
  if o == 0 then some .thermStatus else if o == 8 then some .pwrStatus else if o == 0x10 then some .pwrCap
  else if 0x10000 ≤ o ∧ o < 0x20000 then
    let id := (o - 0x10000) / 16
    let f := o % 16
    if id == 168 then (if f == 4 then some (.domStatus id) else none)
    else if !isDomain id then none
    else if f == 0 then some (.domCtl id) else if f == 4 then some (.domStatus id) else if f == 8 then some (.domCount id) else none
  else if 0x20000 ≤ o ∧ o < 0x28000 then (if isTempSensor ((o - 0x20000) / 8) && o % 8 == 0 then some (.snsStatus ((o - 0x20000) / 8)) else none)
  else if 0x30000 ≤ o ∧ o < 0x34000 then (if isRegulator ((o - 0x30000) / 4) && o % 4 == 0 then some (.regStatus ((o - 0x30000) / 4)) else none)
  else none

/-- The register at offset o of a stack block (Table 18-5). -/
def stackReg (s o : Nat) : Option Reg :=
  if o == 0 then some (.stkStatus s) else if o == 4 then some (.chanMap s) else if o == 8 then some (.classCtl s)
  else if o == 0xC then some (.scrubCtl s) else if o == 0x10 then some (.stkErr s)
  else ((indexIn o 0x40 4 8).map (Reg.ilv s)).orElse fun _ => (indexIn o 0x1000 4 1024).map (Reg.bankRows s)

/-- The register at offset o of a bench block (Table 18-7). -/
def benchRegAt (k o : Nat) : Option Reg :=
  match (indexIn o 0x20 4 8) with
  | some q => some (.inboxQ k q)
  | none =>
    if o == 0x00 then some (.benchCtl k) else if o == 0x04 then some (.benchStatus k) else if o == 0x08 then some (.benchFault k)
    else if o == 0x0C then some (.faultTag k) else if o == 0x10 then some (.benchPc k) else if o == 0x14 then some (.benchRepeat k)
    else if o == 0x18 then some (.inboxCount k) else if o == 0x1C then some (.matCtl k) else if o == 0x40 then some (.matCount k)
    else if o == 0x44 then some (.shelfCtl k) else if o == 0x48 then some (.shelfStatus k) else if o == 0x4C then some (.shelfCount k)
    else if o == 0x50 then some (.copyCtl k) else if o == 0x54 then some (.copyStatus k) else if o == 0x58 then some (.copyCount k)
    else if o == 0x60 then some (.fenceCount k) else if o == 0x68 then some (.traceCtl k) else if o == 0x70 then some (.traceStatus k)
    else none

/-- The register at offset o of a cabinet block (Tables 18-6 and 18-7). -/
def cabinetReg (c o : Nat) : Option Reg :=
  if 0x10000 ≤ o ∧ o < 0x10000 + 0x100 * 96 then benchRegAt (96 * c + (o - 0x10000) / 0x100) (o % 0x100)
  else if o == 0x0 then some (.rowSteer c) else if o == 0x4 then some (.cabFault c) else if o == 0x100 then some (.sbStatus c)
  else if o == 0x104 then some (.sbErr c) else if o == 0x200 then some (.drwMode c) else if o == 0x204 then some (.drwCtl c)
  else if o == 0x208 then some (.drwStatus c) else if o == 0x20C then some (.drwFallback c) else if o == 0x210 then some (.drwLastFault c)
  else if o == 0x214 then some (.drwMirror c) else if o == 0x218 then some (.drwCheck c) else if o == 0x21C then some (.drwFlow c)
  else ((indexIn o 0x140 8 16).map (Reg.aow c)).orElse fun _ => (indexIn o 0x280 4 32).map (Reg.drwLost c)

/-- The register that starts at an offset of register space (Table 18-1); an unoccupied offset has none. -/
def regAt (o : Nat) : Option Reg :=
  if o < 0x200000 then deviceReg o
  else if o < 0x224000 then portReg ((o - 0x200000) / 0x1000) (o % 0x1000)
  else if 0x300000 ≤ o ∧ o < 0x340000 then powerReg (o - 0x300000)
  else if 0x400000 ≤ o ∧ o < 0x580000 then stackReg ((o - 0x400000) / 0x10000) (o % 0x10000)
  else if 0x1000000 ≤ o ∧ o < 0x1C00000 then cabinetReg ((o - 0x1000000) / 0x100000) (o % 0x100000)
  else none

/-- Registers 8 bytes wide. -/
def Reg.wide (r : Reg) : Bool :=
  match r with
  | .devSerial | .planBase | .planStatus | .fillPattern | .cmdBase | .resultBase | .seqStep | .flogBase | .hmbBase | .cmpCtl
  | .cmpStatus | .cmpSlot _ | .suiteWin _ | .suiteLimit _ | .suiteDev _ | .w2Seg _ | .jrnlStatus | .flogKeep _ _ | .jrnlEntry _ _
  | .thermStatus | .pwrStatus | .snsStatus _ | .partner _ | .portErr _ | .portCmpStatus _ | .stkErr _ | .aow _ _ | .fenceCount _
  | .traceCtl _ | .traceStatus _ => true
  | _ => false

/-- The writable bits of a register: RW and RWS, RW1C, WO (the register tables of each chapter). -/
structure WriteMask where
  rw : Nat
  w1c : Nat
  wo : Nat
deriving DecidableEq, Repr

/-- The field types of the writable registers; a register not listed holds RO fields only. -/
def Reg.mask (r : Reg) : WriteMask :=
  match r with
  | .resetCtl => ⟨0, 0, 1⟩
  | .repairCtl => ⟨0, 0, 0xFFFF⟩
  | .faultSummary => ⟨0, 0x10, 0⟩
  | .wdCtl => ⟨0xFF, 0, 0⟩
  | .planBase => ⟨0xFFFFFFFFF000, 0, 0⟩
  | .planCtl => ⟨0, 0, 7⟩
  | .fillPattern => ⟨0xFFFFFFFFFFFFFFFF, 0, 0⟩
  | .fillCtl => ⟨0x1FFFFFF, 0, 0x2000000⟩
  | .cmdBase | .resultBase | .flogBase | .hmbBase => ⟨0xFFFFFFFFF01F, 0, 0⟩
  | .seqCtl | .flogCtl | .hmbCtl => ⟨0x7FF0005, 0, 2⟩
  | .stepLimit | .flogHead | .hmbHead | .credBuf _ | .fwStage _ | .rowSteer _ => ⟨0xFFFFFFFF, 0, 0⟩
  | .cmpCtl => ⟨0xFFFFFFFFFFE0, 0, 3⟩
  | .suiteCtl => ⟨0, 0, 7⟩
  | .suiteWin _ => ⟨0xFFFFFFFFF007, 0, 0⟩
  | .suiteLimit _ => ⟨0xFFFFFFFFF000, 0, 0⟩
  | .hbCtl => ⟨1, 0, 0⟩
  | .w2Seg _ => ⟨0xFC00FFFFFE000001, 0, 0⟩
  | .obsCtl => ⟨0x3FFFF, 0, 0⟩
  | .fwCtl => ⟨0xFF800000, 0, 0x1F⟩
  | .thermStatus => ⟨0xFFFF000000000000, 0, 0⟩
  | .pwrCap => ⟨0x1FF, 0, 0⟩
  | .domCtl _ => ⟨0xF4, 0, 0xB⟩
  | .domStatus id => ⟨0, if id == 168 then 0 else 8, 0⟩
  | .snsStatus _ => ⟨0, 0x80000000, 0⟩
  | .portCtl _ => ⟨3, 0, 0xC⟩
  | .portRate _ => ⟨0x3FFFFFFF, 0, 0⟩
  | .portCmpCtl _ => ⟨0xF3, 0, 0⟩
  | .classCtl _ => ⟨0xFFFFFF, 0, 0⟩
  | .scrubCtl _ => ⟨0x1FFF, 0, 0x2000⟩
  | .ilv _ _ => ⟨0xFFFFFF00, 0, 0⟩
  | .aow _ _ => ⟨0xB03FFFFFFFFFFFFF, 0, 0⟩
  | .drwMode _ => ⟨3, 0, 0⟩
  | .drwCtl _ => ⟨0, 0, 1⟩
  | .drwFallback _ => ⟨0x87FF0000, 0, 0⟩
  | .drwLastFault _ => ⟨0, 0x80000000, 0⟩
  | .drwMirror _ => ⟨0x8000000F, 0, 0⟩
  | .benchCtl _ => ⟨0, 0, 0x1F⟩
  | .benchFault _ => ⟨0, 0x80000000, 0⟩
  | .matCtl _ => ⟨0, 0, 1⟩
  | .inboxQ _ _ => ⟨0xFFFF80FF, 0, 0⟩
  | .shelfCtl _ => ⟨2, 0, 5⟩
  | .shelfStatus _ => ⟨0, 1, 0⟩
  | .copyCtl _ => ⟨0, 0, 1⟩
  | .traceCtl _ => ⟨0xFFFFFFFFFFFFC37F, 0, 0x2000⟩
  | _ => ⟨0, 0, 0⟩

/-- Registers whose entry in the map names a table of chapter 16: the only ones served in RECOVERY (R510; log 36). -/
def Reg.inRecovery (r : Reg) : Bool :=
  match r with
  | .devId | .devSerial | .bootStatus | .resetCtl | .repairCtl | .obsCtl | .obsStatus | .obsDesc | .fwCtl | .fwStatus | .jrnlStatus
  | .traceCtl _ | .traceStatus _ => true
  | _ => false

/-- What serves a register (R510): the always-on domain, a domain whatever its cabinet, or a domain of a cabinet's block. -/
inductive Server where
  | always
  | domain (id : Nat)
  | cabinet (c id : Nat)
deriving DecidableEq, Repr

/-- The domain column of Tables 18-2 to 18-7. -/
def Dev.serverOf (d : Dev) (r : Reg) : Server :=
  match r with
  | .devId | .devSerial | .planVersion | .csvVersion | .cmpVersion | .tdlVersion | .bootStatus | .resetCtl | .repairCtl | .cabinetState
  | .hbCtl | .fwCtl | .fwStatus | .jrnlStatus | .credBuf _ | .flogKeep _ _ | .fwStage _ | .jrnlEntry _ _
  | .thermStatus | .pwrStatus | .pwrCap | .domCtl _ | .domStatus _ | .domCount _ | .snsStatus _ | .regStatus _
  | .rowSteer _ | .cabFault _ => .always
  | .portCtl p | .trainState p | .partner p | .portRate p | .portCmpCtl p | .portErr p | .portCmpStatus p => .domain (164 + p / 9)
  | .stkStatus s | .chanMap s | .classCtl s | .scrubCtl s | .stkErr s | .ilv s _ | .bankRows s _ => .domain (stkDom s)
  | .sbStatus c | .sbErr c | .aow c _ => .cabinet c (sbDom c)
  | .drwMode c | .drwCtl c | .drwStatus c | .drwFallback c | .drwLastFault c | .drwMirror c | .drwCheck c | .drwFlow c | .drwLost c _ =>
    .cabinet c (drwDom c)
  | .benchCtl k | .benchStatus k | .benchFault k | .faultTag k | .benchPc k | .benchRepeat k | .inboxCount k | .matCtl k | .inboxQ k _
  | .matCount k | .shelfCtl k | .shelfStatus k | .shelfCount k | .copyCtl k | .copyStatus k | .copyCount k | .fenceCount k | .traceCtl k
  | .traceStatus k => .cabinet (k / 96) (d.benchDom k)
  | _ => .domain 164

/-- Whether a register is served (R510). -/
def Dev.regServed (d : Dev) (r : Reg) : Bool :=
  (d.boot.stage != 9 || r.inRecovery) && (match d.serverOf r with
    | .always => true
    | .domain id => d.domOn id
    | .cabinet c id => !d.fenced c && d.domOn id)

/-! ## What registers read -/

/-- DEV_CABINET_STATE (Table 1-5). -/
def readCabinetState (d : Dev) : Nat :=
  ((List.range 12).filter d.active).length * 2 ^ 24 + ((List.range 12).map (fun c => (d.cab c).st.toNat * 4 ^ c)).sum

/-- DEV_FAULT_SUMMARY (Table 13-11). -/
def readFaultSummary (d : Dev) : Nat :=
  32 * b2n (d.boot.selftest.toNat / 2 != 0) + 16 * b2n d.flog.logLost + 8 * b2n (d.stks.any (fun (p : Nat × Stack) => p.2.spareLost)) +
    4 * b2n (d.stks.any (fun (p : Nat × Stack) => p.2.banks.any (fun (b : Nat × BankRows) => b.2.pending))) + 2 * b2n d.benchHold +
    b2n ((List.range 12).any d.fenced)

/-- CMP_SLOT[n] (Table 11-7). -/
def readCmpSlot (d : Dev) (n : Nat) : Nat :=
  let c := d.cmp
  (match c.newest.find n with
    | some t => t.gen.toNat * 2 ^ 48 + 2 ^ 31 + t.fmt.toNat * 2 ^ 16
    | none => 0) +
  (match c.prev.find n with
    | some t => t.gen.toNat * 2 ^ 32 + 2 ^ 30 + min (d.queuedIn n t.gen) 0xFFFF
    | none => 0)

/-- A 64-bit word of a kept entry. -/
def entryWord (e : List Byte) (w : Nat) : Nat := leNat ((e.drop (8 * w)).take 8)

/-- STK[s]_STATUS (Table 6-11). Of several held channels HELD_CHANNEL names the one held longest (DESIGN CHOICE, log 117). -/
def readStkStatus (d : Dev) (s : Nat) : Nat :=
  let x := d.stk s
  x.holds.head?.elim 0 (fun h => h.ch.toNat) * 2 ^ 5 + 16 * b2n x.hold + 8 * b2n (d.refDoubled s) + 4 * b2n x.filled + 2 * b2n x.trained +
    b2n (d.domOn (stkDom s) && d.active (s / 2))

/-- STK[s]_CHAN_MAP (Table 6-12). -/
def readChanMap (x : Stack) : Nat := 128 * b2n x.spareLost + 64 * b2n x.spareActive + 32 * b2n x.copying + x.logical.toNat

/-- STK[s]_BANK_ROWS[n] (Table 13-15). -/
def readBankRows (x : BankRows) : Nat := 256 * b2n x.pending + 32 * x.watch.length + (16 - x.retired)

/-- SB[c]_ERR_COUNT (Table 13-16). -/
def readSbErr (x : Sideboard) : Nat :=
  (96 - (x.spares.map (fun (p : Nat × List (BitVec 16)) => p.2.length)).sum) * 2 ^ 24 + x.uncorrectable.toNat * 2 ^ 16 + x.lasting.toNat * 2 ^ 8 + x.transient.toNat

/-- COPY_STATUS (Table 10-9). -/
def readCopyStatus (b : Bench) : Nat :=
  b2n (b.transfers.any (fun t => t.inPlace)) * 2 ^ 23 + b.transfers.length * 2 ^ 16 + b.ctBusy

/-- DEV_CSV_VERSION (Table 3-19): MAX_VERSION 3, MIN_VERSION 2. -/
def readCsvVersion : Nat := 3 * 2 ^ 8 + 2

/-- BENCH[c][b]_INBOX_COUNT (Table 2-15): STALE and OVERSIZE. -/
def readInboxCount (b : Bench) : Nat := b.stale.toNat * 2 ^ 16 + b.oversize.toNat

/-- SB[c]_STATUS (Table 6-14): RESERVE_KIB and FILLED. -/
def readSbStatus (x : Sideboard) : Nat := x.reserve * 2 ^ 8 + b2n x.filled

/-- The value of a register that is served. -/
def Dev.regRaw (d : Dev) (r : Reg) : Nat :=
  match r with
  | .devId => 0x0A09B100
  | .devSerial => Config.serial.toNat
  | .planVersion => 0x0202
  | .csvVersion => readCsvVersion
  | .cmpVersion => 0x0101
  | .tdlVersion => 0x2012
  | .bootStatus => readBootStatus d
  | .cabinetState => readCabinetState d
  | .faultSummary => readFaultSummary d
  | .selftestStatus => d.boot.selftest.toNat
  | .wdCtl => d.wdCtl.toNat
  | .lateCount => d.lateCount.toNat
  | .planBase => d.plan.base.toNat
  | .planStatus => readPlanStatus d
  | .fillPattern => d.fill.pattern.toNat
  | .fillCtl => d.fill.ctl.toNat
  | .fillStatus => d.fill.st.toNat * 2 ^ 30 + d.fill.done.toNat
  | .cmdBase => d.seq.cmdBase.toNat
  | .resultBase => d.seq.resultBase.toNat
  | .seqStep => d.step.toNat
  | .seqCtl => d.seq.ctl.toNat
  | .seqStatus => readSeqStatus d
  | .stepLimit => d.seq.stepLimit.toNat
  | .cmdHead => d.seq.cmdHead.toNat
  | .resultTail => d.seq.resultTail.toNat
  | .seqCount => readSeqCount d.seq
  | .flogBase => d.flog.base.toNat
  | .flogCtl => d.flog.ctl.toNat
  | .flogHead => d.flog.head.toNat
  | .flogTail => d.flog.tail.toNat
  | .flogCount => d.flog.lost.toNat
  | .hmbBase => d.hmb.base.toNat
  | .hmbCtl => d.hmb.ctl.toNat
  | .hmbHead => d.hmb.head.toNat
  | .hmbTail => d.hmb.tail.toNat
  | .hmbCount => d.hmb.dropped.toNat
  | .cmpCtl => d.cmp.addr.toNat
  | .cmpStatus => d.cmp.decodePoisoned.toNat * 2 ^ 48 + d.cmp.rawFallback.toNat * 2 ^ 32 + d.cmp.code.toNat * 2 ^ 16 + d.cmp.loadState.toNat
  | .cmpSlot n => readCmpSlot d n
  | .suiteStatus => readSuiteStatus d
  | .suiteWin n => (d.suite.wins.get 0#64 n).toNat
  | .suiteLimit n => (d.suite.limits.get 0#64 n).toNat
  | .suiteDev n => (d.suite.devs.get 0#64 n).toNat
  | .hbCtl => d.bridge.ctl.toNat
  | .hbStatus => d.bridge.rate.toNat * 2 ^ 28 + d.bridge.width.toNat * 2 ^ 23 + d.bridge.lastCode.toNat
  | .hbCount => d.bridge.refused.toNat * 2 ^ 16 + d.bridge.late.toNat
  | .w2Seg n => (d.bridge.segs.get 0#64 n).toNat
  | .obsCtl => d.obs.ctl.toNat
  | .obsStatus => readObsStatus d
  | .obsDesc => obsDesc (BitVec.ofNat 16 (bits 15 0 d.obs.ctl.toNat))
  | .fwCtl => d.fw.chunk.toNat * 2 ^ 23
  | .fwStatus => readFwStatus d
  | .jrnlStatus => (d.flog.keepTotal % 256) * 2 ^ 32 + d.journal.total % 2 ^ 32
  | .credBuf k => (d.suite.credBuf.get 0#32 k).toNat
  | .flogKeep k w => entryWord (d.flog.keep.get [] k) w
  | .fwStage k => (d.fw.stage.get 0#32 k).toNat
  | .jrnlEntry k w => entryWord (d.journal.ring.get [] k) w
  | .thermStatus => readTherm d
  | .pwrStatus => readPwr d
  | .pwrCap => d.pwr.limit.toNat
  | .domCtl id => (d.dom id).capStep.toNat * 16 + 4 * b2n (d.dom id).discard
  | .domStatus id => readDomStatus d id
  | .domCount id => (d.dom id).aborted.toNat * 2 ^ 16 + (d.dom id).refused.toNat
  | .snsStatus id => readSns d id
  | .regStatus id => readReg d id
  | .portCtl p => (d.port p).ctl.toNat
  | .trainState p => readTrainState (d.port p)
  | .partner p => readPartner (d.port p)
  | .portRate p => (d.port p).rate.toNat
  | .portCmpCtl p => (d.port p).cmpCtl.toNat
  | .portErr p => readPortErr (d.port p)
  | .portCmpStatus p => readPortCmp (d.port p)
  | .stkStatus s => readStkStatus d s
  | .chanMap s => readChanMap (d.stk s)
  | .classCtl s => (d.stk s).classCtl.toNat
  | .scrubCtl s => (d.stk s).scrubCtl.toNat
  | .stkErr s => (d.stk s).errLasting.toNat * 2 ^ 48 + (d.stk s).errTransient.toNat * 2 ^ 32 + (d.stk s).errUncorrectable.toNat * 2 ^ 16 +
      (d.stk s).errRemaps.toNat
  | .ilv s i => (d.stk s).ilvOf i
  | .bankRows s n => readBankRows ((d.stk s).bank n)
  | .rowSteer c => (d.cab c).rowSteer.toNat
  | .cabFault c => (d.cab c).cause.toNat * 2 ^ 16 + 2 * b2n (d.cab c).salvagePlain + b2n (d.cab c).salvageChest
  | .sbStatus c => readSbStatus (d.sb c)
  | .sbErr c => readSbErr (d.sb c)
  | .aow c n => (d.sb c).aowOf n
  | .drwMode c => (d.drw c).mode.toNat
  | .drwStatus c => readDrwStatus d c
  | .drwFallback c => (d.drw c).fallback.toNat + min 8 (d.drw c).lostCount * 2 ^ 27
  | .drwLastFault c => (d.drw c).lastFault
  | .drwMirror c => (d.drw c).mirror.toNat
  | .drwCheck c => (d.drw c).poisonWb.toNat * 2 ^ 16 + (d.drw c).checkRmw.toNat
  | .drwFlow c => (d.drw c).yields.toNat * 2 ^ 16 + (d.drw c).staleStage.toNat
  | .drwLost c k => (d.drw c).lostWord k
  | .benchStatus k => readBenchStatus d k
  | .benchFault k => readBenchFault (d.bench k)
  | .faultTag k => (d.bench k).faultStep.toNat * 2 ^ 16 + (d.bench k).faultTag.toNat
  | .benchPc k => readBenchPc (d.bench k)
  | .benchRepeat k => (d.bench k).repIdx % 2 ^ 24
  | .inboxCount k => readInboxCount (d.bench k)
  | .inboxQ k q => readInboxQ (d.bench k) q
  | .matCount k => (d.bench k).sat.toNat * 2 ^ 16 + (d.bench k).nan.toNat
  | .shelfCtl k => 2 * b2n (d.bench k).shelf.mode
  | .shelfStatus k => readShelfStatus (d.bench k)
  | .shelfCount k => (d.bench k).shelf.overruns.toNat * 2 ^ 16 + (d.bench k).shelf.dropped.toNat
  | .copyStatus k => readCopyStatus (d.bench k)
  | .copyCount k => (d.bench k).skipped.toNat * 2 ^ 16 + (d.bench k).poisonSectors.toNat
  | .fenceCount k => (d.bench k).fenceSuite.toNat * 2 ^ 32 + (d.bench k).fenceDevice.toNat * 2 ^ 16 + (d.bench k).fenceBench.toNat
  | .traceCtl k => (d.bench k).trace.ctl.toNat
  | .traceStatus k => readTraceStatus (d.bench k)
  | .resetCtl | .repairCtl | .planCtl | .suiteCtl | .drwCtl _ | .benchCtl _ | .matCtl _ | .copyCtl _ => 0

/-- What a read of a register returns, its side effect apart: 0 where it is not served, but for BENCH_STATUS.STATE, which the
router of a cabinet that is not fenced holds (R510). -/
def Dev.regValue (d : Dev) (r : Reg) : Nat :=
  if d.regServed r then d.regRaw r
  else match r with
    | .benchStatus k => if d.fenced (k / 96) || d.boot.stage == 9 then 0 else readBenchStatus d k % 8
    | _ => 0

/-- The side effect of a read (R66, R509). -/
def Dev.regTouch (d : Dev) (r : Reg) : Dev :=
  match r with
  | .benchFault k => if d.regServed r then benchFaultRead k d else d
  | .drwLastFault c => if d.regServed r then d.setDrw c { d.drw c with faultUnread := false } else d
  | _ => d

/-! ## What writes do -/

/-- The units covered by interleave set v, as [BASE, LIMIT), where VALID is set. -/
def ilvRange (v : Nat) : Nat × Nat := if bit 31 v then (bits 17 8 v, bits 27 18 v) else (0, 0)

/-- A write of STK[s]_ILV[i] (R156). -/
def writeIlv (s i v : Nat) (d : Dev) : Dev × Bool :=
  let st := d.stk s
  let b := bits 17 8 v
  let l := bits 27 18 v
  let bad := bit 31 v && (decide (l ≤ b) || decide (288 < l) || decide (4 < bits 30 28 v) ||
    ((List.range 8).filter (· != i)).any (fun j => decide (b < (ilvRange (st.ilvOf j)).2) && decide ((ilvRange (st.ilvOf j)).1 < l)))
  if !d.planIdle || bad then (d.regRefused 1 (s / 2) s fltIlvCfg (0x400040 + 0x10000 * s + 4 * i), false)
  else (d.setStk s { st with ilv := st.ilv.set i (BitVec.ofNat 32 v) }, true)

/-- A write of STK[s]_CLASS_CTL (R175). A write at another time is ignored and recorded as one outside the ranges is (log 38). -/
def writeClassCtl (s v : Nat) (d : Dev) : Dev × Bool :=
  let w := bits 23 16 v
  let c0 := bits 15 8 v
  let c2 := bits 7 0 v
  let bad := decide (w < 16) || decide (c0 < 1) || decide (62 < c0) || decide (c2 < 2) || decide (16 < c2) || decide (64 < c0 + c2)
  if !d.planIdle || bad then (d.regRefused 1 (s / 2) s fltStkCfg (0x400008 + 0x10000 * s), false)
  else (d.setStk s { d.stk s with classCtl := BitVec.ofNat 32 (v % 2 ^ 24) }, true)

/-- A write of STK[s]_SCRUB_CTL (R382); a RATE of 0, outside its range, leaves the field (log 38). -/
def writeScrubCtl (s v : Nat) (d : Dev) : Dev × Bool :=
  let st := d.stk s
  let rate := if bits 11 0 v == 0 then bits 11 0 st.scrubCtl.toNat else bits 11 0 v
  let st := { st with scrubCtl := BitVec.ofNat 32 (b2n (bit 12 v) * 2 ^ 12 + rate) }
  let st := if bit 13 v then { st with errLasting := 0, errTransient := 0, errUncorrectable := 0, errRemaps := 0 } else st
  (d.setStk s st, true)

/-- A refused write of a drawer register (R202, R212, R234). -/
def Dev.drwRegRefused (d : Dev) (c o : Nat) : Dev := d.drwRefused c (0x1000000 + 0x100000 * c + o)

/-- A write of DRW[c]_MODE (R202). -/
def writeDrwMode (c v : Nat) (d : Dev) : Dev × Bool :=
  if !d.planIdle || v % 4 == 3 then (d.drwRegRefused c 0x200, false)
  else (d.setDrw c { d.drw c with mode := BitVec.ofNat 32 (v % 4) }, true)

/-- A write of DRW[c]_FALLBACK (R212); a BENCH above 95 with VALID is outside the field's range and ignored too (log 38). -/
def writeFallback (c v : Nat) (d : Dev) : Dev × Bool :=
  if !d.planIdle || (bit 31 v && decide (95 < bits 23 16 v)) then (d.drwRegRefused c 0x20C, false)
  else (d.setDrw c { d.drw c with fallback := BitVec.ofNat 32 v }, true)

/-- A write of DRW[c]_MIRROR (R234). -/
def writeMirror (c v : Nat) (d : Dev) : Dev × Bool :=
  let cab := v % 16
  if !(d.planIdle || d.plan.st == .loaded) || (bit 31 v && (cab == c || decide (12 ≤ cab))) then (d.drwRegRefused c 0x214, false)
  else (d.setDrw c { d.drw c with mirror := BitVec.ofNat 32 v }, true)

/-- DRW[c]_CTL.CLR_COUNTS (R216). -/
def drwClr (c : Nat) (d : Dev) : Dev :=
  d.setDrw c { d.drw c with poisonWb := 0, checkRmw := 0, yields := 0, staleStage := 0 }

/-- The new value of CAB[c]_ROW_STEER: fields written 0xD or 0xE stay. -/
def steerMerge (old v : Nat) : Nat :=
  ((List.range 8).map (fun r =>
    let f := bits (4 * r + 3) (4 * r) v
    (if f == 0xD || f == 0xE then bits (4 * r + 3) (4 * r) old else f) * 2 ^ (4 * r))).sum

/-- A write of CAB[c]_ROW_STEER (R70); the benches of a row follow its steering. -/
def writeSteer (c v : Nat) (d : Dev) : Dev × Bool :=
  let x := d.cab c
  if x.st == 2 || x.st == 3 then
    let d := d.setCab c { x with rowSteer := BitVec.ofNat 32 (steerMerge x.rowSteer.toNat v) }
    ((List.range 8).foldl (fun d r => d.resteerRow c r (x.steer r)) d, true)
  else (d, false)

/-- The sizes that a sequencer base register takes (R270). -/
def seqSizeOk (result : Bool) (v : BitVec 64) : Bool :=
  if result then decide (13 ≤ ringLog2 v) && decide (ringLog2 v ≤ 20) else decide (6 ≤ ringLog2 v) && decide (ringLog2 v ≤ 16)

/-- A write of a sequencer base register (R265, R270). -/
def writeSeqBase (result : Bool) (v : BitVec 64) (d : Dev) : Dev × Bool :=
  if !(d.planIdle || d.plan.st == .loaded) || !seqSizeOk result v then (d.regRefused 5 0 0 fltSeqCfg (if result then 0x208 else 0x200), false)
  else if result then ({ d with seq := { d.seq with resultBase := v &&& 0x0000FFFFFFFFF01F#64 } }, true)
  else ({ d with seq := { d.seq with cmdBase := v &&& 0x0000FFFFFFFFF01F#64 } }, true)

/-- A write of SEQ_CTL (R266). -/
def writeSeqCtl (v : Nat) (d : Dev) : Dev × Bool :=
  let q := { d.seq with ctl := BitVec.ofNat 32 v &&& 0x07FF0005#32 }
  ({ d with seq := if bit 1 v then { q with stale := 0, refused := 0 } else q }, true)

/-- Reads n bytes of stack or sideboard space through the controller or router port for a unit on ED0, or the code that refuses
it: FLT_ADDR_SELECTOR for a reserved selector (R11), FLT_CMP_TABLE for another space, where no record can lie (log 39). -/
def Dev.edRead (d : Dev) (a n : Nat) : Dev × Except (BitVec 16) (List Byte × Bool) :=
  let a' := bits 43 0 a
  match bits 47 44 a with
  | 0 =>
    match d.stkRefusal a' n .device false with
    | some f => (d, .error f)
    | none =>
      let s := bits 43 39 a
      let d := (d.arrive (stkDom s) ed0Block).touchStk s (bits 36 0 a) n
      let r := (d.stk s).readCtl (bits 36 0 a) n
      (d, .ok (r.data, !r.marks.isEmpty))
  | 1 =>
    match d.sbRefusal a' n with
    | some f => (d, .error f)
    | none =>
      let c := bits 43 40 a
      let d := (d.arrive (sbDom c) ed0Block).touchSb c (bits 26 0 a) n
      let r := (d.sb c).readRouter (bits 26 0 a) n
      (d, .ok (r.data, !r.marks.isEmpty))
  | sel => (d, .error (if 4 ≤ sel then fltAddrSelector else fltCmpTable))

/-- A refused host load of a coding table (R312, R314, R322, R377): recorded as a refused register write by the unit that loads coding
tables, the plan loader (log 39). -/
def Dev.cmpRefused (d : Dev) (code : BitVec 16) : Dev :=
  { d with cmp := { d.cmp with code := code, loadState := 3 } }.regRefused 6 0 0 code 0x400

/-- CMP_CTL.LOAD (R312, R314, R322): a marked record is refused as one that breaks R301 is (log 39); a record in a held channel leaves the load
under way until it can be read (R357). -/
def cmpLoadNow (d : Dev) : Dev × Bool :=
  if !(d.planIdle || d.plan.st == .loaded || d.plan.st == .running) then (d.cmpRefused fltPlanBusy, false)
  else match d.edRead d.cmp.addr.toNat 32 with
  | (d, .error f) => (d.cmpRefused f, false)
  | (e, .ok (r, marked)) =>
    if d.readWaits d.cmp.addr.toNat 32 then ({ d with cmp := { d.cmp with loadState := 1 } }, true) else
    let d := e
    match (if marked then none else tableOf r) with
    | none => (d.cmpRefused fltCmpTable, false)
    | some (slot, t) =>
      if d.slotBusy slot then (d.cmpRefused fltCmpTableBusy, false)
      else match d.cmp.load slot t with
      | none => (d.cmpRefused fltCmpTable, false)
      | some c => ({ d with cmp := { c with code := 0, loadState := 2 } }, true)

/-- A write of CMP_CTL (R322): ADDR, then CLR_COUNTS, then LOAD. -/
def writeCmpCtl (v : BitVec 64) (d : Dev) : Dev × Bool :=
  let c := { d.cmp with addr := v &&& 0x0000FFFFFFFFFFE0#64 }
  let d := { d with cmp := if bit 1 v.toNat then { c with decodePoisoned := 0, rawFallback := 0 } else c }
  (if bit 0 v.toNat then (cmpLoadNow d).1 else d, true)

/-- A host load that waited for a held channel goes on once it can. -/
def Dev.resumeCmp (d : Dev) : Dev := if d.cmp.loadState == 1 then (cmpLoadNow d).1 else d

/-- BELOW_FLOOR is cleared by writing 1, and set again at once while the domain stays below (R446). -/
def clearBelow (id : Nat) (d : Dev) : Dev := d.setDom id { d.dom id with belowFloor := d.below id }

/-- The effect of a write on a register that is served: `v` holds the RW fields as the write leaves them, and the RW1C and WO bits
written; `up` is what a warm reset meets. Answers whether it was applied. -/
def Dev.regEffect (d : Dev) (path : Path) (r : Reg) (v : Nat) (up : StartUp) : Dev × Bool :=
  match r with
  | .resetCtl => (if bit 0 v then warmReset d up else d, true)
  | .repairCtl => if v % 2 ^ 16 == 0x5EED then ({ d with boot := { d.boot with resetMap := true } }, true) else (d, false)
  | .faultSummary => (if bit 4 v then { d with flog := { d.flog with logLost := false } } else d, true)
  | .wdCtl => ({ d with wdCtl := BitVec.ofNat 8 v }, true)
  | .planBase => writePlanBase (BitVec.ofNat 64 v) d
  | .planCtl => writePlanCtl v d
  | .fillPattern => ({ d with fill := { d.fill with pattern := BitVec.ofNat 64 v } }, true)
  | .fillCtl => writeFillCtl v d
  | .cmdBase => writeSeqBase false (BitVec.ofNat 64 v) d
  | .resultBase => writeSeqBase true (BitVec.ofNat 64 v) d
  | .seqCtl => writeSeqCtl v d
  | .stepLimit => ({ d with seq := { d.seq with stepLimit := BitVec.ofNat 32 v } }, true)
  | .flogBase => writeFlogBase (BitVec.ofNat 64 v) d
  | .flogCtl => writeFlogCtl (BitVec.ofNat 32 v) d
  | .flogHead => writeFlogHead (BitVec.ofNat 32 v) d
  | .hmbBase => writeHmbBase (BitVec.ofNat 64 v) d
  | .hmbCtl => writeHmbCtl (BitVec.ofNat 32 v) d
  | .hmbHead => writeHmbHead (BitVec.ofNat 32 v) d
  | .cmpCtl => writeCmpCtl (BitVec.ofNat 64 v) d
  | .suiteCtl => ((writeSuiteCtl v d).1.bootAdvance, (writeSuiteCtl v d).2)
  | .suiteWin n => ({ d with suite := { d.suite with wins := d.suite.wins.set n (BitVec.ofNat 64 v) } }, true)
  | .suiteLimit n => ({ d with suite := { d.suite with limits := d.suite.limits.set n (BitVec.ofNat 64 v) } }, true)
  | .hbCtl => ({ d with bridge := { d.bridge with ctl := BitVec.ofNat 32 v } }, true)
  | .w2Seg n => ({ d with bridge := { d.bridge with segs := d.bridge.segs.set n (BitVec.ofNat 64 v) } }, true)
  | .obsCtl => writeObsCtl v d
  | .fwCtl => writeFwCtl path v d
  | .credBuf k => ({ d with suite := { d.suite with credBuf := d.suite.credBuf.set k (BitVec.ofNat 32 v) } }, true)
  | .fwStage k => ({ d with fw := { d.fw with stage := d.fw.stage.set k (BitVec.ofNat 32 v) } }, true)
  | .thermStatus => ({ d with pwr := { d.pwr with cause := BitVec.ofNat 16 (bits 63 48 v) } }, true)
  | .pwrCap => writePwrCap v d
  | .domCtl id => writeDomCtl id v d
  | .domStatus id => (if bit 3 v then clearBelow id d else d, true)
  | .snsStatus id => (if bit 31 v then suspectClear id d else d, true)
  | .portCtl p => writePortCtl p v d
  | .portRate p => (d.setPort p { d.port p with rate := BitVec.ofNat 32 v }, true)
  | .portCmpCtl p => (d.setPort p { d.port p with cmpCtl := BitVec.ofNat 32 v }, true)
  | .classCtl s => writeClassCtl s v d
  | .scrubCtl s => writeScrubCtl s v d
  | .ilv s i => writeIlv s i v d
  | .rowSteer c => writeSteer c v d
  | .aow c n => writeAow c n v d
  | .drwMode c => writeDrwMode c v d
  | .drwCtl c => (if bit 0 v then drwClr c d else d, true)
  | .drwFallback c => writeFallback c v d
  | .drwLastFault c => (if bit 31 v then d.setDrw c { d.drw c with faultOverrun := false } else d, true)
  | .drwMirror c => writeMirror c v d
  | .benchCtl k =>
    let r := writeBenchCtl k v d
    (r.1.heedLeader, r.2)
  | .benchFault k => writeBenchFault k v d
  | .inboxQ k q => writeInboxQ k q v d
  | .matCtl k => (if bit 0 v then matClrCounts k d else d, true)
  | .shelfCtl k => writeShelfCtl k v d
  | .shelfStatus k => writeShelfStatus k v d
  | .copyCtl k => (if bit 0 v then copyClrCounts k d else d, true)
  | .traceCtl k => writeTraceCtl k (BitVec.ofNat 64 v) true d
  | _ => (d, false)

/-! ## The change journal (R472, R473) -/

def pathCode : Path → Nat
  | .host => 0
  | .sideband => 1
  | .firmware => 2

def Journal.next (j : Journal) (p : Path) : BitVec 48 :=
  match p with
  | .host => j.host
  | .sideband => j.sideband
  | .firmware => j.firmware

def Journal.bump (j : Journal) (p : Path) : Journal :=
  match p with
  | .host => { j with host := j.host + 1 }
  | .sideband => { j with sideband := j.sideband + 1 }
  | .firmware => { j with firmware := j.firmware + 1 }

/-- The entry of one write (Table 16-11). -/
def journalEntry (seq : BitVec 48) (path : Path) (applied wide : Bool) (off old new : Nat) : List Byte :=
  leBytes 8 (seq.toNat * 2 ^ 16 + pathCode path * 2 ^ 14 + b2n applied * 2 ^ 13 + b2n wide * 2 ^ 12) ++ leBytes 8 (off % 2 ^ 26) ++
    leBytes 8 old ++ leBytes 8 new

/-- Journals one write. -/
def Dev.journalWrite (d : Dev) (path : Path) (applied wide : Bool) (off old new : Nat) : Dev :=
  let d := d.journalPut (journalEntry (d.journal.next path) path applied wide off old new)
  { d with journal := d.journal.bump path }

/-- Registers whose writes are not journalled (R472). -/
def Reg.quiet (r : Reg) : Bool :=
  match r with
  | .flogHead | .hmbHead | .credBuf _ | .fwStage _ => true
  | _ => false

/-- An access reaches the domain that serves a register, and aborts an entry that it is making (R433). The block that sent it is the
edge-die core ED0 for the host path and for firmware, and the always-on controller for the sideband (log 31). -/
def Dev.regArrive (d : Dev) (path : Path) (r : Reg) : Dev :=
  let from_ := if path == .sideband then alwaysOnBlock else ed0Block
  match d.serverOf r with
  | .always => d
  | .domain id => d.arrive id from_
  | .cabinet c id => if d.fenced c then d else d.arrive id from_

/-- In RECOVERY the data that the sideband transfers by PLDM for Firmware Update reaches the staging buffer (R460, R464): a sideband write
of FW_STAGE_BUF stands for it (DESIGN CHOICE, log 121). -/
def Dev.imageData (d : Dev) (path : Path) (r : Reg) : Bool :=
  d.boot.stage == 9 && path == .sideband && (match r with
    | .fwStage _ => true
    | _ => false)

/-- A write of a register, or of one half of a 64-bit register: `sh` and `n` are the first bit and the number of bits written, and
`x` the bits. A write that reaches no writable bit, or a register that is not served, is ignored. A warm reset comes after its own
journal entry. -/
def Dev.regPiece (d : Dev) (path : Path) (r : Reg) (off sh n x : Nat) (up : StartUp) : Dev :=
  let d := d.regArrive path r
  let m := r.mask
  let sel := (2 ^ n - 1) <<< sh
  let w := (x % 2 ^ n) <<< sh
  let old := d.regValue r
  let v := (old &&& m.rw &&& (sel ^^^ (2 ^ 64 - 1))) ||| (w &&& (m.rw ||| m.w1c ||| m.wo))
  let live := (d.regServed r || d.imageData path r) && (sel &&& (m.rw ||| m.w1c ||| m.wo)) != 0
  let entry (d : Dev) (applied : Bool) (new : Nat) : Dev :=
    if r.quiet then d else d.journalWrite path applied (n == 64) off ((old >>> sh) % 2 ^ n) (((new ||| (w &&& m.wo)) >>> sh) % 2 ^ n)
  if !live then entry d false old
  else if r == .resetCtl then ((entry d true old).regEffect path r v up).1
  else
    let e := d.regEffect path r v up
    entry e.1 e.2 (e.1.regValue r)

/-- What lies at one 4-byte offset: a register's start, the upper half of a 64-bit register, or nothing. -/
def regWord (o : Nat) : Option (Reg × Nat) :=
  match regAt o with
  | some r => some (r, 0)
  | none => if 4 ≤ o then (match regAt (o - 4) with
      | some r => if r.wide then some (r, 32) else none
      | none => none) else none

/-- A path reaches registers: the host from step 5 of bring-up, the sideband and firmware once firmware runs, and none in FUSE_FAULT
(R457, R460, R469). -/
def Dev.reached (d : Dev) (path : Path) : Bool :=
  d.boot.vaux33 && d.boot.stage != 10 && (match path with
    | .host => decide (4 ≤ d.boot.stage.toNat) && decide (d.boot.stage.toNat ≤ 9)
    | _ => decide (3 ≤ d.boot.stage.toNat))

/-- A naturally aligned write of 4 or 8 bytes at an offset (R412, R508, R509): two 32-bit registers are written one after the other,
and a write that meets no register is journalled as not applied. -/
def Dev.regWriteUp (d : Dev) (path : Path) (off : Nat) (wide : Bool) (v : Nat) (up : StartUp) : Dev :=
  if !d.reached path then d
  else if off / 2 ^ 26 != 0 then d.journalWrite path false wide off 0 0
  else if !wide then
    match regWord off with
    | some (r, sh) => d.regPiece path r off sh 32 v up
    | none => d.journalWrite path false false off 0 0
  else
    match regAt off with
    | some r =>
      if r.wide then d.regPiece path r off 0 64 v up
      else
        let d := d.regPiece path r off 0 32 v up
        match regWord (off + 4) with
        | some (r2, sh) => d.regPiece path r2 (off + 4) sh 32 (v / 2 ^ 32) up
        | none => d
    | none =>
      match regWord (off + 4) with
      | some (r2, sh) => d.regPiece path r2 (off + 4) sh 32 (v / 2 ^ 32) up
      | none => d.journalWrite path false true off 0 0

/-- A register write that is no WARM command: what the start-up after a warm reset that it begins meets is free (R352, R458; log 50). -/
def Dev.regWrite (d : Dev) (path : Path) (off : Nat) (wide : Bool) (v : Nat) : Dev := d.regWriteUp path off wide v (Config.startUp d.free)

/-- One 32-bit word read, with its side effect. -/
def Dev.regRead32 (d : Dev) (path : Path) (off : Nat) : Dev × Nat :=
  match regWord off with
  | some (r, sh) => ((d.regArrive path r).regTouch r, (d.regValue r >>> sh) % 2 ^ 32)
  | none => (d, 0)

/-- A naturally aligned read of 4 or 8 bytes (R412, R508, R509). -/
def Dev.regRead (d : Dev) (path : Path) (off : Nat) (wide : Bool) : Dev × Nat :=
  if off / 2 ^ 26 != 0 then (d, 0)
  else if !wide then d.regRead32 path off
  else
    match regAt off with
    | some r =>
      if r.wide then ((d.regArrive path r).regTouch r, d.regValue r % 2 ^ 64)
      else
        let a := d.regRead32 path off
        let b := a.1.regRead32 path (off + 4)
        (b.1, a.2 + b.2 * 2 ^ 32)
    | none =>
      let b := d.regRead32 path (off + 4)
      (b.1, b.2 * 2 ^ 32)

end Sys2Proof.Machine
end

