-- ==== Sys2Proof/Machine/HostBridge.lean ====
section
/-! DEFINITION. The host bridge (R330, R332, R336, R337, R400, R402, R411–R416, R518, R519): host accesses through Windows 0, 2 and 4 and those that
arrive over a link, in their order of arrival, their refusals, reads forwarded to other devices, doorbells and suite markers, and the sideband's
register access (R469). -/

namespace Sys2Proof.Machine

/-! ## Refusals and completions (R351, R415) -/

/-- A refused host access: the unit record of kind 7, index 0, LAST_CODE and REFUSED. A stack or sideboard code carries the word
address. -/
def Dev.hostRefused (d : Dev) (code : BitVec 16) (addr : Nat) : Dev :=
  let cls := code.toNat / 4096
  let d := d.unitRecord 7 0 0 code { detail := if cls == 4 || cls == 5 then addr / 32 * 32 else 0 }
  { d with bridge := { d.bridge with lastCode := code, refused := satInc16 d.bridge.refused } }

/-- A completion goes to the host; AER logs a Completer Abort. -/
def Dev.complete (d : Dev) (c : HostCpl) : Dev :=
  { d with bridge := { d.bridge with cpl := some c, aerAbort := d.bridge.aerAbort || c == .abort } }

/-- A refused read completes with Completer Abort. -/
def Dev.readRefused (d : Dev) (code : BitVec 16) (addr : Nat) : Dev := (d.hostRefused code addr).complete .abort

/-! ## Bench-store space (R35, R36) -/

/-- A place named in bench-store space. -/
structure BenchPlace where
  bench : Nat
  region : Nat
  off : Nat
deriving DecidableEq, Repr

def benchPlace (a : Nat) : BenchPlace := { bench := 96 * bits 43 40 a + bits 39 32 a, region := bits 23 22 a, off := bits 21 0 a }

/-- Bytes of a region. -/
def regionSize (r : Nat) : Nat := if r == 0 then storeSize else if r == 1 then 0x40000 else if r == 2 then 0x10000 else 0

/-- The refusal of an access of n bytes to bench-store space, if any (R36, R433). -/
def Dev.benchRefusal (d : Dev) (a n : Nat) (write : Bool) : Option (BitVec 16) :=
  let p := benchPlace a
  let c := bits 43 40 a
  if decide (12 ≤ c) || decide (96 ≤ bits 39 32 a) || bits 31 24 a != 0 || p.region == 3 || decide (regionSize p.region < p.off + n) ||
      (write && p.region == 2) then some fltBenchAddr
  else if d.fenced c then some fltDestFenced
  else if !d.domOn (d.benchDom p.bench) then some fltBenchAddr
  else if write && (d.bench p.bench).st == .running then some fltBenchBusy
  else none

/-- The memory of a region. -/
def Bench.regionMem (b : Bench) (r : Nat) : Mem := if r == 0 then b.store else if r == 1 then b.program else b.traceMem

def Bench.setRegion (b : Bench) (r : Nat) (m : Mem) : Bench :=
  if r == 0 then { b with store := m } else if r == 1 then { b with program := m } else { b with traceMem := m }

/-! ## Accesses to the device's own address space -/

/-- Reads n bytes at a device memory address for the host, or the code that refuses it. -/
def Dev.hostFetch (d : Dev) (addr n : Nat) : Dev × Except (BitVec 16) (List Byte × Bool) :=
  let a := bits 43 0 addr
  match bits 47 44 addr with
  | 0 =>
    match d.stkRefusal a n .host false with
    | some f => (d, .error f)
    | none =>
      let s := bits 43 39 a
      let d := (d.arrive (stkDom s) ed0Block).touchStk s (bits 36 0 a) n
      let r := (d.stk s).readCtl (bits 36 0 a) n
      (d, .ok (r.data, !r.marks.isEmpty))
  | 1 =>
    match d.sbRefusal a n with
    | some f => (d, .error f)
    | none =>
      let c := bits 43 40 a
      let d := (d.arrive (sbDom c) ed0Block).touchSb c (bits 26 0 a) n
      let r := (d.sb c).readRouter (bits 26 0 a) n
      (d, .ok (r.data, !r.marks.isEmpty))
  | 2 =>
    match d.benchRefusal a n false with
    | some f => (d, .error f)
    | none =>
      let p := benchPlace a
      let d := d.arrive (d.benchDom p.bench) ed0Block
      let m := (d.bench p.bench).regionMem p.region
      (d, .ok (m.read p.off n, m.anyMark p.off n))
  | 3 =>
    if (n == 4 || n == 8) && a % n == 0 then
      let r := d.regRead .host a (n == 8)
      (r.1, .ok (leBytes n r.2, false))
    else (d, .error fltLinkWindow)
  | _ => (d, .error fltAddrSelector)

/-- Writes bytes at a device memory address for the host; a poisoned TLP marks every sector that it writes (R351) and carries no
mark into registers. Answers the code that refuses it. -/
def Dev.hostStore (d : Dev) (addr : Nat) (data : List Byte) (poisoned : Bool) : Dev × Option (BitVec 16) :=
  let a := bits 43 0 addr
  let n := data.length
  match bits 47 44 addr with
  | 0 =>
    match d.stkRefusal a n .host true with
    | some f => (d, some f)
    | none =>
      let s := bits 43 39 a
      let d := d.arrive (stkDom s) ed0Block
      (d.setStk s ((d.stk s).accept (bits 36 0 a) data (fun _ => poisoned) Who.host.owner), none)
  | 1 =>
    match d.sbRefusal a n with
    | some f => (d, some f)
    | none =>
      let c := bits 43 40 a
      let d := (d.arrive (sbDom c) ed0Block).touchSb c (bits 26 0 a) n
      ((d.sbWrite c (bits 26 0 a) data (fun _ => poisoned) true).1, none)
  | 2 =>
    match d.benchRefusal a n true with
    | some f => (d, some f)
    | none =>
      let p := benchPlace a
      let d := d.arrive (d.benchDom p.bench) ed0Block
      (d.modBench p.bench (fun b => b.setRegion p.region ((b.regionMem p.region).store p.off data (fun _ => poisoned))), none)
  | 3 =>
    if (n == 4 || n == 8) && a % n == 0 then (d.regWrite .host a (n == 8) (leNat data), none)
    else (d, some fltLinkWindow)
  | _ => (d, some fltAddrSelector)

/-! ## Windows (R412–R414, R518, R519) -/

/-- Where an access goes. -/
inductive HostTarget where
  | own
  | other (dev : Nat)
  | refused (code : BitVec 16)
deriving DecidableEq, Repr

/-- A device of the suite as the head's host bridge reaches it: itself, a numbered device with a suite route that carries class H (Table 14-4), or
a refusal (log 40). -/
def Dev.hostTarget (d : Dev) (dev : Nat) : HostTarget :=
  if d.suite.numbered && dev == d.number.toNat then .own
  else if !bit 63 (d.suite.devs.get 0#64 dev).toNat then .refused fltLinkWindow
  else if (d.suitePort 3 dev).isSome then .other dev
  else .refused fltMsgNoRoute

/-- The segment that offset o of Window 2 uses at the size of an access (R518): its device and the device memory address, where it is
usable. -/
def Dev.segmentAt (d : Dev) (log2 o : Nat) : Option (Nat × Nat) :=
  let s := 2 ^ log2 / 32
  let v := (d.bridge.segs.get 0#64 (o / s)).toNat
  let base := bits 47 25 v * 2 ^ 25
  if bit 0 v && base % s == 0 then some (bits 63 58 v, (base + o % s) % 2 ^ 48) else none

/-- The host has a link to this device. -/
def Dev.hostUp (d : Dev) : Bool := d.suite.head && d.bridge.linkUp

/-- A read that takes its turn (R412–R415). -/
def Dev.readNow (d : Dev) (w : HostWindow) (off len log2 : Nat) : Dev :=
  match w with
  | .w0 =>
    if (len == 4 || len == 8) && off % len == 0 && decide (off + len ≤ 2 ^ 26) then
      let r := d.regRead .host off (len == 8)
      r.1.complete (.data (leBytes len r.2) false)
    else d.readRefused fltLinkWindow 0
  | .w2 =>
    if decide (4096 < len) || decide (2 ^ log2 < off + len) then d.readRefused fltLinkWindow 0
    else match d.segmentAt log2 off with
    | none => d.readRefused fltLinkWindow 0
    | some (dev, addr) =>
      match d.hostTarget dev with
      | .refused f => d.readRefused f addr
      | .other n => { d with bridge := { d.bridge with reads := d.bridge.reads ++ [⟨n, BitVec.ofNat 48 addr, len⟩] } }
      | .own =>
        match d.hostFetch addr len with
        | (d, .error f) => d.readRefused f addr
        | (d, .ok (bs, p)) => d.complete (.data bs p)
  | .w4 => if decide (off + len ≤ 2 ^ 20) then d.complete (.data (List.replicate len 0) false) else d.readRefused fltLinkWindow 0
  | .link _ =>
    match d.hostFetch off len with
    | (d, .error f) => d.sendSuite [.hostRefused f false]
    | (d, .ok (bs, p)) => d.sendSuite [.hostData bs p]

/-- A write that takes its turn (R351, R412–R415), but for those that ring a doorbell. -/
def Dev.writeNow (d : Dev) (w : HostWindow) (off : Nat) (data : List Byte) (poisoned : Bool) (log2 : Nat) : Dev :=
  let len := data.length
  match w with
  | .w0 =>
    if (len == 4 || len == 8) && off % len == 0 && decide (off + len ≤ 2 ^ 26) then d.regWrite .host off (len == 8) (leNat data)
    else d.hostRefused fltLinkWindow 0
  | .w2 =>
    if decide (512 < len) || decide (2 ^ log2 < off + len) then d.hostRefused fltLinkWindow 0
    else match d.segmentAt log2 off with
    | none => d.hostRefused fltLinkWindow 0
    | some (dev, addr) =>
      match d.hostTarget dev with
      | .refused f => d.hostRefused f addr
      | .other n =>
        { d with bridge := { d.bridge with sent := d.bridge.sent ++ [⟨n, BitVec.ofNat 48 addr, data, poisoned, false⟩] } }
      | .own =>
        match d.hostStore addr data poisoned with
        | (d, some f) => d.hostRefused f addr
        | (d, none) => d
  | .w4 => d.hostRefused fltLinkWindow 0
  | .link _ =>
    match d.hostStore off data poisoned with
    | (d, some f) => d.sendSuite [.hostRefused f true]
    | (d, none) => d

/-! ## Doorbells and the order of host accesses (R239, R336, R337) -/

/-- Performs the held writes of every stack that `p` selects, but for those of a held channel, which wait (R164). -/
def Dev.performStks (d : Dev) (p : HeldWrite → Bool) : Dev :=
  (List.range 24).foldl (fun d s =>
    let due (h : HeldWrite) : Bool := p h && !(d.stk s).keyHeld h.key
    if (d.stk s).held.any due then d.drainStk s due else d) d

/-- Host writes accepted at this device are performed (R326, R337). -/
def Dev.performHost (d : Dev) : Dev := d.performStks (fun h => h.owner == Who.host.owner)

/-- Every write accepted at this device is performed at its place (R330, R336). -/
def Dev.performAll (d : Dev) : Dev :=
  (List.range 12).foldl (fun d c => if (d.sb c).dq.isEmpty then d else d.drainDrawerPort c) (d.performStks (fun _ => true))

/-- A host write waits at this device for a held channel. -/
def Dev.hostHeld (d : Dev) : Bool :=
  d.stks.any (fun (p : Nat × Stack) => d.stkRuns p.1 && p.2.held.any (fun h => h.owner == Who.host.owner && p.2.keyHeld h.key))

/-- A doorbell takes effect on this device. -/
def Dev.doorbellHere (d : Dev) (result : Bool) (v : BitVec 32) : Dev := if result then writeResultHead d v else writeCmdTail d v

/-- A doorbell that takes its turn. -/
def Dev.bellNow (d : Dev) (dev : Nat) (result : Bool) (v : BitVec 32) : Dev :=
  match d.hostTarget dev with
  | .refused f => d.hostRefused f 0
  | .own => d.doorbellHere result v
  | .other n =>
    { d with bridge := { d.bridge with sent := d.bridge.sent ++
      [⟨n, BitVec.ofNat 48 (if result then 0x40 else 0), leBytes 4 v.toNat, false, true⟩] } }

/-- The address of this device that a host read reaches, if it does. -/
def Dev.readPlaceOf (d : Dev) (w : HostWindow) (off log2 : Nat) : Option Nat :=
  match w with
  | .w0 => some (3 * 2 ^ 44 + off)
  | .w2 => (d.segmentAt log2 off).bind (fun s => if d.hostTarget s.1 == .own then some s.2 else none)
  | .w4 => none
  | .link _ => some off

/-- The device that a read of a doorbell page names (R414): this one or another. -/
def Dev.pageOf (d : Dev) (off : Nat) : HostTarget := d.hostTarget (off / 0x4000)

/-- Host writes are on their way to device n and not known to be performed. -/
def Dev.sentTo (d : Dev) (n : Nat) : Bool := d.bridge.sent.any (fun w => w.dev == n)

/-- What a host access makes this device perform before it takes its turn (R336, R337). -/
def Dev.hostPrep (d : Dev) (a : HostAcc) : Dev :=
  match a with
  | .read w off _ log2 => if (d.readPlaceOf w off log2).isSome then d.performHost else d
  | .regRead _ => d.performHost
  | .page off _ _ => if d.pageOf off == .own then d.performHost else d
  | .bell _ _ _ _ => d.performAll
  | .drain => d.performAll
  | .write _ _ _ _ _ => d
  | .regWrite _ _ _ _ => d
  | .mark _ => d
  | .fence _ => d

/-- A host access waits: a read for the host writes before it to its device and for a held channel that it reaches, a doorbell for the host writes
before it on every device, a drain for every held channel (R331, R336, R337, R357). -/
def Dev.hostBlocked (d : Dev) (a : HostAcc) : Bool :=
  match a with
  | .read w off len log2 =>
    (d.readPlaceOf w off log2).any (fun x => d.hostHeld || ((d.stkRefusal (bits 43 0 x) len .host false).isNone && d.readWaits x len))
  | .regRead _ => d.hostHeld
  | .page off _ _ =>
    match d.pageOf off with
    | .own => d.hostHeld
    | .other n => d.sentTo n
    | .refused _ => false
  | .bell _ _ _ _ => d.hostHeld || !d.bridge.sent.isEmpty
  | .drain => d.stks.any (fun (p : Nat × Stack) => d.stkRuns p.1 && p.2.hold)
  | .write _ _ _ _ _ => false
  | .regWrite _ _ _ _ => false
  | .mark _ => false
  | .fence _ => false

/-- A host access takes its turn. -/
def Dev.hostNow (d : Dev) (a : HostAcc) : Dev :=
  match a with
  | .read w off len log2 => d.readNow w off len log2
  | .write w off data poisoned log2 => d.writeNow w off data poisoned log2
  | .regWrite off wide v up => d.regWriteUp .host off wide v up
  | .regRead off =>
    let r := d.regRead .host off false
    r.1.complete (.data (leBytes 4 r.2) false)
  | .page off len _ => d.readNow .w4 off len 0
  | .bell dev result v _ => d.bellNow dev result v
  | .mark dev => d.sendSuite [.marker dev]
  | .fence k => fenceSuiteMarker d k
  | .drain => d.sendSuite [.drained]

/-- An access begins to wait: for a doorbell, or a read of a doorbell page, the bridge sends its drain marker to every device that it waits
for (R336, R337). -/
def Dev.hostWait (d : Dev) (a : HostAcc) : Dev × HostAcc :=
  match a with
  | .bell dev result v false => (d.sendSuite ((d.bridge.sent.map (fun w => w.dev)).dedup.map .marker), .bell dev result v true)
  | .page off len false =>
    match d.pageOf off with
    | .other n => (d.sendSuite [.marker n], .page off len true)
    | _ => (d, a)
  | _ => (d, a)

/-- Serves host accesses in order: one that waits holds back those behind it (R337). -/
def Dev.serve : List HostAcc → Dev → Dev
  | [], d => d
  | a :: t, d =>
    let d := d.hostPrep a
    if d.hostBlocked a then
      let (d, a) := d.hostWait a
      { d with bridge := { d.bridge with parked := a :: t } }
    else Dev.serve t (d.hostNow a)

/-- A host access arrives, behind those that wait. -/
def Dev.hostArrives (d : Dev) (a : HostAcc) : Dev :=
  if d.bridge.parked.isEmpty then Dev.serve [a] d else Dev.serve (d.bridge.parked ++ [a]) { d with bridge := { d.bridge with parked := [] } }

/-- The accesses that wait go on as far as they can. -/
def Dev.resumeHost (d : Dev) : Dev :=
  if d.bridge.parked.isEmpty then d else Dev.serve d.bridge.parked { d with bridge := { d.bridge with parked := [] } }

/-- After a hold ends, what waited for its channel goes on: host accesses, a load of a coding table, a plan load (R357). -/
def Dev.resumeReads (d : Dev) : Dev := d.resumeCmp.resumeLoad.resumeHost

/-- The flits of class H traffic that carries n bytes: a header, then 64 bytes each (log 47). -/
def hostFlits (n : Nat) : Nat := 1 + (n + 63) / 64

/-- Check 10 of Table 14-7 fails, or check 11. -/
def Dev.windowDrop (d : Dev) (p : Nat) : Dev := (d.countDropped p).portRecord p fltLinkWindow {}

/-- Checks 3 to 7 and 10 of Table 14-7 for class H traffic of n flits, malformed or not, a request that only the suite head may make or not:
the device with the flits counted, or the outcome of the first check that fails. -/
def Dev.classH (d : Dev) (v : Via) (n : Nat) (bad request : Bool) : Except Dev Dev :=
  let p := v.port.val
  let x := d.port p
  if !x.up then .error d
  else if x.version == 0x12 then .error (d.protocol p)
  else if x.st == 5 then .error ((d.countDropped p).tellAuth p)
  else if x.limit 3 != 0 && decide (x.limit 3 < x.window.2.2 + n) then .error ((d.countDropped p).tellRate p)
  else
    let d := d.setPort p { x with window := addCredit x.window 0 0 n }
    if bad then .error (d.protocol p)
    else if !d.inSuite v.src.toNat then .error (d.countDropped p)
    else if request && !v.head then .error (d.windowDrop p)
    else .ok d

/-- Class H traffic of n flits that is well formed: it acts where it passes the checks. -/
def Dev.viaLink (d : Dev) (v : Via) (n : Nat) (request : Bool) (f : Dev → Dev) : Dev :=
  match d.classH v n false request with
  | .error d => d
  | .ok d => f d

/-- A host access of n bytes at address a over a link passes its checks, the last of them that of the suite windows (R402), and takes its
place in the order of arrival. -/
def Dev.linkArrives (d : Dev) (v : Via) (a n : Nat) (write : Bool) (acc : HostAcc) : Dev :=
  let bad := n == 0 || decide ((if write then 512 else 4096) < n) || decide (2 ^ 48 < a + n)
  match d.classH v (hostFlits (if write then n else 0)) bad true with
  | .error d => d
  | .ok d =>
    if decide (bits 47 44 a < 3) && !d.windowOpen (if write then 2 else 1) a (a + n) then
      (d.windowDrop v.port.val).sendSuite [.hostRefused fltLinkWindow write]
    else d.hostArrives acc

/-- HOST_READ (R337, R412–R415); over a link, at any device of the suite (R402). -/
def hostRead (d : Dev) (w : HostWindow) (off len : Nat) : Dev :=
  match w with
  | .link v => d.linkArrives v off len false (.read w off len d.bridge.w2Log2)
  | .w4 => if d.hostUp then d.hostArrives (.page off len false) else d
  | _ => if d.hostUp then d.hostArrives (.read w off len d.bridge.w2Log2) else d

/-- A write of a doorbell in the page of device `dev`: at the suite head it comes from the host; at another device only the head's
forwarding brings one, over a link (R400), after the drain of R336. It takes its turn behind the host accesses that wait (R337). -/
def doorbell (d : Dev) (dev : Nat) (via : Option Via) (result : Bool) (v : BitVec 32) : Dev :=
  match via with
  | none => if d.hostUp then d.hostArrives (.bell dev result v false) else d
  | some h => d.viaLink h (hostFlits 4) true (fun d =>
      if !d.suite.head && d.suite.numbered && dev == d.number.toNat then d.hostArrives (.bell dev result v false) else d)

/-- HOST_WRITE (R351, R412–R415); over a link, at any device of the suite (R402). AER logs a poisoned TLP. -/
def hostWrite (d : Dev) (w : HostWindow) (off : Nat) (data : List Byte) (poisoned : Bool) : Dev :=
  match w with
  | .link v => d.linkArrives v off data.length true (.write w off data poisoned d.bridge.w2Log2)
  | _ =>
    if !d.hostUp then d else
    let d := { d with bridge := { d.bridge with aerPoison := d.bridge.aerPoison || poisoned } }
    let page := off % 0x4000
    if w == .w4 && data.length == 4 && off % 4 == 0 && decide (off + 4 ≤ 2 ^ 20) && (page == 0 || page == 0x40) then
      doorbell d (off / 0x4000) none (page == 0x40) (BitVec.ofNat 32 (leNat data))
    else d.hostArrives (.write w off data poisoned d.bridge.w2Log2)

/-- FENCE_SUITE_MARKER (R332, R336). A marker takes its place behind the host accesses that came before it: the one that comes back for a
fence, at the suite head without crossing a link; that of another device's fence, at the suite head; and the head's own, at another
device. -/
def suiteMarker (d : Dev) (m : SuiteMarker) : Dev :=
  match m with
  | .back b none => if d.suite.head then d.hostArrives (.fence (benchKey b)) else d
  | .back b (some v) => d.viaLink v (hostFlits 0) true (fun d => if d.suite.head then d else d.hostArrives (.fence (benchKey b)))
  | .ask dev v => d.viaLink v (hostFlits 0) false (fun d => if d.suite.head then d.hostArrives (.mark dev.toNat) else d)
  | .drain v => d.viaLink v (hostFlits 0) true (fun d => if d.suite.head then d else d.hostArrives .drain)
  | .drained dev v => d.viaLink v (hostFlits 0) false (fun d =>
      if d.suite.head then { d with bridge := { d.bridge with sent := d.bridge.sent.filter (fun w => w.dev != dev.toNat) } }.resumeHost else d)

/-- INTERRUPT_REQUEST (R416): the suite head issues the MSI-X write that another device asks for. -/
def interruptRequest (d : Dev) (vector : BitVec 11) (v : Via) : Dev :=
  d.viaLink v (hostFlits 4) false (fun d => if d.suite.head then { d with irqs := d.irqs ++ [vector] } else d)

/-! ## Forwarded reads (R415) and the window size (R518) -/

/-- HOST_READ_TIMEOUT: the read at position idx completes with Completer Abort. -/
def hostReadTimeout (d : Dev) (idx : Nat) : Dev :=
  if idx < d.bridge.reads.length then
    ({ d with bridge := { d.bridge with reads := d.bridge.reads.eraseIdx idx, lateReads := d.bridge.lateReads + 1 } } : Dev).complete .abort
  else d

/-- An answer that has passed the checks of its link: that to the read at position idx, or, beyond them, to one that timed out, which is
discarded and counted in LATE; or the refusal of a forwarded write or doorbell. A refusal carries the target's code in its first two
bytes. -/
def hostAnswer (d : Dev) (a : HostAnswer) (ok : Bool) (data : List Byte) (poisoned : Bool) : Dev :=
  let code := BitVec.ofNat 16 (leNat (data.take 2))
  match a with
  | .write idx =>
    match d.bridge.sent[idx]? with
    | some w => if ok then d else { d with bridge := { d.bridge with sent := d.bridge.sent.eraseIdx idx } }.hostRefused code w.addr.toNat
    | none => d
  | .read idx =>
  match d.bridge.reads[idx]? with
  | some r =>
    let d := { d with bridge := { d.bridge with reads := d.bridge.reads.eraseIdx idx } }
    if ok then d.complete (.data data poisoned) else d.readRefused code r.addr.toNat
  | none =>
    if d.bridge.lateReads = 0 then d
    else { d with bridge := { d.bridge with lateReads := d.bridge.lateReads - 1, late := satInc16 d.bridge.late } }

/-- HOST_READ_COMPLETION, over a link (R400). -/
def hostReadCompletion (d : Dev) (a : HostAnswer) (v : Via) (ok : Bool) (data : List Byte) (poisoned : Bool) : Dev :=
  d.viaLink v (hostFlits data.length) false (fun d => hostAnswer d a ok data poisoned)

/-- W2_RESIZE: a size of Table 14-11, from 1 GiB to 2 TiB, is written; the size written last takes effect where Memory Space Enable goes
from 0 to 1 (R518). -/
def w2Resize (d : Dev) (w : W2Write) : Dev :=
  let b := d.bridge
  if !d.hostUp then d else
  match w with
  | .size log2 => if 30 ≤ log2.val then { d with bridge := { b with w2Next := log2.val } } else d
  | .memSpace on => { d with bridge := { b with memSpace := on, w2Log2 := if on && !b.memSpace then b.w2Next else b.w2Log2 } }

/-! ## Register access of the sideband (R469) -/

/-- REG_READ: the value; an access that is not naturally aligned is refused with an error completion (log 29). -/
def regReadCommand (d : Dev) (off : Nat) (wide : Bool) : Dev :=
  if !d.boot.vaux33 || d.boot.stage == 10 then d
  else if !d.reached .sideband || off % (if wide then 8 else 4) != 0 then d.sideAnswer (.error 0x80)
  else
    let r := d.regRead .sideband off wide
    r.1.sideAnswer (.data (leBytes (if wide then 8 else 4) r.2))

/-- REG_WRITE: the value read back, which has the side effects of a read. -/
def regWriteCommand (d : Dev) (off : Nat) (wide : Bool) (v : Nat) : Dev :=
  if !d.boot.vaux33 || d.boot.stage == 10 then d
  else if !d.reached .sideband || off % (if wide then 8 else 4) != 0 then d.sideAnswer (.error 0x80)
  else regReadCommand (d.regWrite .sideband off wide v) off wide

end Sys2Proof.Machine
end

