-- ==== Sys2Proof/Machine/Slots.lean ====
section
/-! DEFINITION. The commands of a bench's slots, one definition each (R81, R90–R101, R130–R138, R280–R308): every one is a
bundle of one slot with the tag given (log 16), executed by the shared slot semantics, with the fault, wait and retirement
rules of a bundle. -/

namespace Sys2Proof.Machine

/-- BUNDLE_ISSUE (R75, R79, R86): the bench goes on with its oldest unretired bundle, or fetches the next. -/
def execBundleIssue (b : BenchId) (errs : List SramErr) (spareOk : Bool) (s : State) : Host.Outcome State Fault Refusal :=
  done s (bundleWithErrors s.toDev (benchKey b) errs spareOk)

/-- COPY_COMPLETE (R290). -/
def execCopyComplete (b : BenchId) (idx : Nat) (s : State) : Host.Outcome State Fault Refusal :=
  done s (copyComplete s.toDev (benchKey b) idx)

/-- MMA (R90). -/
def execMma (b : BenchId) (tag : BitVec 16) (acc : Fin 4) (z : Bool) (s : State) : Host.Outcome State Fault Refusal :=
  done s (slotCommand s.toDev (benchKey b) 0 tag (.mma acc z))

/-- MPUSH (R90, R141, R142). -/
def execMpush (b : BenchId) (tag : BitVec 16) (acc : Fin 4) (clr : Bool) (s : State) : Host.Outcome State Fault Refusal :=
  done s (slotCommand s.toDev (benchKey b) 0 tag (.mpush acc clr))

/-- MSTA (R90, R523). -/
def execMsta (b : BenchId) (tag : BitVec 16) (acc : Fin 4) (clr : Bool) (a : AOp) (fmt : BitVec 4) (s : State) : Host.Outcome State Fault Refusal :=
  done s (slotCommand s.toDev (benchKey b) 0 tag (.msta acc clr a fmt))

/-- MLDA (R92). -/
def execMlda (b : BenchId) (tag : BitVec 16) (a : AOp) (fmt : BitVec 4) (tr : Bool) (sa : AOp) (s : State) : Host.Outcome State Fault Refusal :=
  done s (slotCommand s.toDev (benchKey b) 4 tag (.mlda a fmt tr sa))

/-- MLDB (R92). -/
def execMldb (b : BenchId) (tag : BitVec 16) (a : AOp) (fmt : BitVec 4) (tr : Bool) (sa : AOp) (pw : BitVec 4) (s : State) : Host.Outcome State Fault Refusal :=
  done s (slotCommand s.toDev (benchKey b) 4 tag (.mldb a fmt tr sa pw))

/-- VLD (R92). -/
def execVld (b : BenchId) (tag : BitVec 16) (vd : Fin 32) (a : AOp) (fmt : BitVec 4) (s : State) : Host.Outcome State Fault Refusal :=
  done s (slotCommand s.toDev (benchKey b) 4 tag (.vld vd a fmt))

/-- VST (R92). -/
def execVst (b : BenchId) (tag : BitVec 16) (vs : Fin 32) (a : AOp) (fmt : BitVec 4) (s : State) : Host.Outcome State Fault Refusal :=
  done s (slotCommand s.toDev (benchKey b) 4 tag (.vst vs a fmt))

/-- LDX (R92). -/
def execLdx (b : BenchId) (tag : BitVec 16) (xd : Fin 32) (a : AOp) (size : Fin 4) (sx : Bool) (s : State) : Host.Outcome State Fault Refusal :=
  done s (slotCommand s.toDev (benchKey b) 4 tag (.ldx xd a size sx))

/-- STX (R92). -/
def execStx (b : BenchId) (tag : BitVec 16) (xs : Fin 32) (a : AOp) (size : Fin 4) (s : State) : Host.Outcome State Fault Refusal :=
  done s (slotCommand s.toDev (benchKey b) 4 tag (.stx xs a size))

/-- MOVE (R280). -/
def execMove (b : BenchId) (tag : BitVec 16) (a : AOp) (ct : Fin 8) (s : State) : Host.Outcome State Fault Refusal :=
  done s (slotCommand s.toDev (benchKey b) 4 tag (.copy a ct (some 1#4)))

/-- COPY_GATHER (R282). -/
def execCopyGather (b : BenchId) (tag : BitVec 16) (a : AOp) (ct : Fin 8) (s : State) : Host.Outcome State Fault Refusal :=
  done s (slotCommand s.toDev (benchKey b) 4 tag (.copy a ct (some 2#4)))

/-- SCATTER (R282). -/
def execScatter (b : BenchId) (tag : BitVec 16) (a : AOp) (ct : Fin 8) (s : State) : Host.Outcome State Fault Refusal :=
  done s (slotCommand s.toDev (benchKey b) 4 tag (.copy a ct (some 3#4)))

/-- TALLY (R308). -/
def execTally (b : BenchId) (tag : BitVec 16) (a : AOp) (ct : Fin 8) (s : State) : Host.Outcome State Fault Refusal :=
  done s (slotCommand s.toDev (benchKey b) 4 tag (.copy a ct (some 4#4)))

/-- CWAIT (R93). -/
def execCwait (b : BenchId) (tag : BitVec 16) (ct : Fin 8) (max : BitVec 7) (s : State) : Host.Outcome State Fault Refusal :=
  done s (slotCommand s.toDev (benchKey b) 4 tag (.cwait ct max))

/-- FENCE (R330). -/
def execFence (b : BenchId) (tag : BitVec 16) (scope : FenceScope) (s : State) : Host.Outcome State Fault Refusal :=
  done s (slotCommand s.toDev (benchKey b) 4 tag (.fence scope))

/-- ATOM (R95). -/
def execAtom (b : BenchId) (tag : BitVec 16) (op : BitVec 4) (a : AOp) (xd xs xc : Fin 32) (s : State) : Host.Outcome State Fault Refusal :=
  done s (slotCommand s.toDev (benchKey b) 4 tag (.atom op a xd xs xc))

/-- VPOP (R137). -/
def execVpop (b : BenchId) (tag : BitVec 16) (vd : Fin 32) (s : State) : Host.Outcome State Fault Refusal :=
  done s (slotCommand s.toDev (benchKey b) 2 tag (.vpop vd))

/-- VSETL (R524). -/
def execVsetl (b : BenchId) (tag : BitVec 16) (src : Bool) (imm : BitVec 8) (xs : Fin 32) (s : State) : Host.Outcome State Fault Refusal :=
  done s (slotCommand s.toDev (benchKey b) 2 tag (.vsetl src imm xs))

/-- VFMA (R130). -/
def execVfma (b : BenchId) (tag : BitVec 16) (vd va vb : Fin 32) (s : State) : Host.Outcome State Fault Refusal :=
  done s (slotCommand s.toDev (benchKey b) 2 tag (.vfma vd va vb))

/-- VBIN (R130). -/
def execVbin (b : BenchId) (tag : BitVec 16) (vd va vb : Fin 32) (func : BitVec 4) (bs : Bool) (s : State) : Host.Outcome State Fault Refusal :=
  done s (slotCommand s.toDev (benchKey b) 2 tag (.vbin vd va vb func bs))

/-- VUN (R131). -/
def execVun (b : BenchId) (tag : BitVec 16) (vd va : Fin 32) (func : BitVec 4) (s : State) : Host.Outcome State Fault Refusal :=
  done s (slotCommand s.toDev (benchKey b) 2 tag (.vun vd va func))

/-- VRED (R132). -/
def execVred (b : BenchId) (tag : BitVec 16) (vd va : Fin 32) (func : BitVec 2) (half : Bool) (s : State) : Host.Outcome State Fault Refusal :=
  done s (slotCommand s.toDev (benchKey b) 2 tag (.vred vd va func half))

/-- VSCAN (R133). -/
def execVscan (b : BenchId) (tag : BitVec 16) (vd va : Fin 32) (func : BitVec 2) (excl : Bool) (s : State) : Host.Outcome State Fault Refusal :=
  done s (slotCommand s.toDev (benchKey b) 2 tag (.vscan vd va func excl))

/-- VSEGSCAN (R134). -/
def execVsegscan (b : BenchId) (tag : BitVec 16) (vd va vf : Fin 32) (func : BitVec 2) (excl : Bool) (s : State) : Host.Outcome State Fault Refusal :=
  done s (slotCommand s.toDev (benchKey b) 2 tag (.vsegscan vd va vf func excl))

/-- VBCAST (R524). -/
def execVbcast (b : BenchId) (tag : BitVec 16) (vd : Fin 32) (imm : BitVec 32) (s : State) : Host.Outcome State Fault Refusal :=
  done s (slotCommand s.toDev (benchKey b) 2 tag (.vbcast vd imm))

/-- SEND (R98). -/
def execSend (b : BenchId) (tag : BitVec 16) (q : Fin 8) (a : AOp) (xdest xlen : Fin 32) (s : State) : Host.Outcome State Fault Refusal :=
  done s (slotCommand s.toDev (benchKey b) 6 tag (.send q a xdest xlen))

/-- RECV (R98). -/
def execRecv (b : BenchId) (tag : BitVec 16) (q : Fin 8) (a : AOp) (xlen xsrc : Fin 32) (s : State) : Host.Outcome State Fault Refusal :=
  done s (slotCommand s.toDev (benchKey b) 6 tag (.recv q a xlen xsrc))

/-- POLL (R98). -/
def execPoll (b : BenchId) (tag : BitVec 16) (q : Fin 8) (xd : Fin 32) (s : State) : Host.Outcome State Fault Refusal :=
  done s (slotCommand s.toDev (benchKey b) 6 tag (.poll q xd))

/-- NOP (R99). -/
def execNop (b : BenchId) (tag : BitVec 16) (s : State) : Host.Outcome State Fault Refusal :=
  done s (slotCommand s.toDev (benchKey b) 7 tag .nop)

/-- MOVI (R99). -/
def execMovi (b : BenchId) (tag : BitVec 16) (xd : Fin 32) (imm : BitVec 32) (s : State) : Host.Outcome State Fault Refusal :=
  done s (slotCommand s.toDev (benchKey b) 7 tag (.movi xd imm))

/-- ADDI (R99). -/
def execAddi (b : BenchId) (tag : BitVec 16) (xd xa : Fin 32) (imm : BitVec 16) (s : State) : Host.Outcome State Fault Refusal :=
  done s (slotCommand s.toDev (benchKey b) 7 tag (.addi xd xa imm))

/-- ALU (R99). -/
def execAlu (b : BenchId) (tag : BitVec 16) (xd xa xb : Fin 32) (func : BitVec 4) (s : State) : Host.Outcome State Fault Refusal :=
  done s (slotCommand s.toDev (benchKey b) 7 tag (.alu xd xa xb func))

/-- BR (R99). -/
def execBr (b : BenchId) (tag : BitVec 16) (off : BitVec 26) (s : State) : Host.Outcome State Fault Refusal :=
  done s (slotCommand s.toDev (benchKey b) 7 tag (.br off))

/-- BRC (R99). -/
def execBrc (b : BenchId) (tag : BitVec 16) (xa : Fin 32) (cond : BitVec 2) (off : BitVec 19) (s : State) : Host.Outcome State Fault Refusal :=
  done s (slotCommand s.toDev (benchKey b) 7 tag (.brc xa cond off))

/-- BRX (R99). -/
def execBrx (b : BenchId) (tag : BitVec 16) (xa : Fin 32) (link : Bool) (s : State) : Host.Outcome State Fault Refusal :=
  done s (slotCommand s.toDev (benchKey b) 7 tag (.brx xa link))

/-- SETA (R85, R99). -/
def execSeta (b : BenchId) (tag : BitVec 16) (ar : Fin 64) (field : BitVec 2) (xs : Fin 32) (s : State) : Host.Outcome State Fault Refusal :=
  done s (slotCommand s.toDev (benchKey b) 7 tag (.seta ar field xs))

/-- GETA (R99). -/
def execGeta (b : BenchId) (tag : BitVec 16) (ar : Fin 64) (field : BitVec 2) (xd : Fin 32) (s : State) : Host.Outcome State Fault Refusal :=
  done s (slotCommand s.toDev (benchKey b) 7 tag (.geta ar field xd))

/-- SETN (R99). -/
def execSetn (b : BenchId) (tag : BitVec 16) (n : Fin 16) (xs : Fin 32) (s : State) : Host.Outcome State Fault Refusal :=
  done s (slotCommand s.toDev (benchKey b) 7 tag (.setn n xs))

/-- GETS (R99). -/
def execGets (b : BenchId) (tag : BitVec 16) (xd : Fin 32) (sel : BitVec 4) (s : State) : Host.Outcome State Fault Refusal :=
  done s (slotCommand s.toDev (benchKey b) 7 tag (.gets xd sel))

/-- STEPEND (R101). -/
def execStepend (b : BenchId) (tag : BitVec 16) (s : State) : Host.Outcome State Fault Refusal :=
  done s (slotCommand s.toDev (benchKey b) 7 tag .stepend)

/-- HALT (R99). -/
def execHalt (b : BenchId) (tag : BitVec 16) (s : State) : Host.Outcome State Fault Refusal :=
  done s (slotCommand s.toDev (benchKey b) 7 tag .halt)

end Sys2Proof.Machine
end

