-- ==== Sys2Proof/Machine/Events.lean ====
section
/-! DEFINITION. The meanings of the commands that are no slot of a program: register writes with an action of their own, messages,
drawers, stores, the sequencer, links, power, bring-up, management and debug. Each is one operation of the files before it on the
device of the state. -/

namespace Sys2Proof.Machine

/-- A register write of a path (R472), with what a start-up that it begins meets; the host's takes its place behind the accesses of the host
that wait (R337). -/
def writeRegUp (d : Dev) (path : Path) (off : Nat) (wide : Bool) (v : Nat) (up : StartUp) : Dev :=
  if path == .host && !d.bridge.parked.isEmpty then d.hostArrives (.regWrite off wide v up) else d.regWriteUp path off wide v up

/-- A register write that is no WARM command (log 50). -/
def writeReg (d : Dev) (path : Path) (off : Nat) (wide : Bool) (v : Nat) : Dev := writeRegUp d path off wide v (Config.startUp d.free)

/-- A read of a 32-bit register by a path: the host, whose read takes its place in the order of its accesses (R337), receives a completion,
the sideband an answer. -/
def readReg32 (d : Dev) (path : Path) (off : Nat) : Dev :=
  if !d.reached path then d
  else
    match path with
    | .host => d.hostArrives (.regRead off)
    | .sideband =>
      let r := d.regRead path off false
      r.1.sideAnswer (.data (leBytes 4 r.2))
    | .firmware => (d.regRead path off false).1

/-- REGISTER_WRITE: an access that is not naturally aligned is refused under R415 where the host makes it and has no effect on other
paths. -/
def registerWrite (d : Dev) (path : Path) (off : Nat) (wide : Bool) (v : Nat) : Dev :=
  let n := if wide then 8 else 4
  if off % n == 0 then writeReg d path off wide v
  else if path == .host && d.hostUp then d.hostArrives (.write .w0 off (leBytes n v) false d.bridge.w2Log2)
  else d

/-- MPUSH_BACKPRESSURE_ADMIT. R142. -/
def execMpushBackpressureAdmit (b : BenchId) (s : State) : Host.Outcome State Fault Refusal :=
  let d := s.toDev
  done s (admitMpush (benchKey b) d)

/-- VPOP_ROWS_ARRIVE. R139. -/
def execVpopRowsArrive (b : BenchId) (s : State) : Host.Outcome State Fault Refusal :=
  let d := s.toDev
  done s (vpopRows (benchKey b) d)

/-- MESSAGE_ARRIVAL. R47: the first message in flight from src to this bench, on its unicast or broadcast route. -/
def execMessageArrival (src : BitVec 18) (b : BenchId) (bcast : Bool) (s : State) : Host.Outcome State Fault Refusal :=
  let d := s.toDev
  done s (messageArrival d src (benchKey b) bcast)

/-- DEST_FENCED_RETURN. R43: the message from src to dst with this sequence number, which a router cannot deliver. -/
def execDestFencedReturn (src dst : BitVec 18) (seq : BitVec 48) (s : State) : Host.Outcome State Fault Refusal :=
  let d := s.toDev
  done s (destFencedReturn d src dst seq).settle

/-- HOST_MAILBOX_RECORD. R54. -/
def execHostMailboxRecord (src : BitVec 18) (s : State) : Host.Outcome State Fault Refusal :=
  let d := s.toDev
  done s (hostMailboxRecord d src)

/-- SIDEBOARD_WRITE_MESSAGE. R169; a record that waits for it (R335) and an unload go on. -/
def execSideboardWriteMessage (src : BitVec 18) (dev : Option (BitVec 6)) (c : Cab) (s : State) : Host.Outcome State Fault Refusal :=
  let d := s.toDev
  done s (match dev with
    | none => sideboardWriteMessage d src c.val
    | some n => sideboardWriteAway d src n.toNat c.val).settle

/-- DRAWER_REQUEST. R191. -/
def execDrawerRequest (src : BitVec 18) (c : Cab) (s : State) : Host.Outcome State Fault Refusal :=
  let d := s.toDev
  done s (drawerRequest d src c.val)

/-- ATTEND. R193: the work of held request idx on one bank. -/
def execAttend (c : Cab) (idx : Nat) (bank : Fin 1024) (files : FileErrs) (s : State) : Host.Outcome State Fault Refusal :=
  let d := s.toDev
  done s (drawerWork d c.val idx bank.val 1 files (bankWork d c.val idx bank.val 1))

/-- APPEND. R196. -/
def execAppend (c : Cab) (idx : Nat) (files : FileErrs) (s : State) : Host.Outcome State Fault Refusal :=
  let d := s.toDev
  done s (drawerWork d c.val idx (d.appendBank c.val idx) 2 files (append d c.val idx))

/-- GATHER. R198. -/
def execGather (c : Cab) (idx : Nat) (bank : Fin 1024) (files : FileErrs) (s : State) : Host.Outcome State Fault Refusal :=
  let d := s.toDev
  done s (drawerWork d c.val idx bank.val 3 files (bankWork d c.val idx bank.val 3))

/-- UPDATE. R199. -/
def execUpdate (c : Cab) (idx : Nat) (bank : Fin 1024) (files : FileErrs) (s : State) : Host.Outcome State Fault Refusal :=
  let d := s.toDev
  done s (drawerWork d c.val idx bank.val 4 files (bankWork d c.val idx bank.val 4))

/-- DRAWER_COMPLETION. R192. -/
def execDrawerCompletion (c : Cab) (idx : Nat) (s : State) : Host.Outcome State Fault Refusal :=
  let d := s.toDev
  done s (drawerCompletion d c.val idx)

/-- FALLBACK_ANSWER. R210. -/
def execFallbackAnswer (src : BitVec 18) (c : Cab) (s : State) : Host.Outcome State Fault Refusal :=
  let d := s.toDev
  done s (fallbackAnswer d src c.val)

/-- MIRROR_APPEND_ANSWER. R232. -/
def execMirrorAppendAnswer (src : BitVec 18) (c : Cab) (s : State) : Host.Outcome State Fault Refusal :=
  let d := s.toDev
  done s (mirrorAppendAnswer d src c.val)

/-- COMMIT. R197. -/
def execCommit (c : Cab) (s : State) : Host.Outcome State Fault Refusal :=
  let d := s.toDev
  done s (drwCommit d c.val true)

/-- ABANDON. R197. -/
def execAbandon (c : Cab) (s : State) : Host.Outcome State Fault Refusal :=
  let d := s.toDev
  done s (drwCommit d c.val false)

/-- ACTIVITY_CEILING_ADJUST. R201: what the chest drew over the last microsecond. -/
def execActivityCeilingAdjust (c : Cab) (milliwatts : Nat) (s : State) : Host.Outcome State Fault Refusal :=
  let d := s.toDev
  done s (adjustCeiling d c.val (d.effStep (drwDom c.val)) milliwatts)

/-- DRAWER_LOST. R209. -/
def execDrawerLost (c : Cab) (bank : Fin 1024) (fails : List TestUnit) (s : State) : Host.Outcome State Fault Refusal :=
  let d := s.toDev
  done s (drawerLost d c.val bank.val fails)

/-- REFRESH_PERFORM. R160, R203: a refresh falls due while the bank is or is not busy. -/
def execRefreshPerform (sk : Stk) (bank : Fin 1024) (busy : Bool) (s : State) : Host.Outcome State Fault Refusal :=
  let d := s.toDev
  done s (refreshPerform d sk.val bank.val busy)

/-- WRITE_BATCH_DRAIN. R161. -/
def execWriteBatchDrain (sk : Stk) (ch : Fin 32) (s : State) : Host.Outcome State Fault Refusal :=
  let d := s.toDev
  done s (writeBatchDrain d sk.val ch.val)

/-- WRITE_BATCH_AGE. R525. -/
def execWriteBatchAge (sk : Stk) (ch : Fin 32) (s : State) : Host.Outcome State Fault Refusal :=
  let d := s.toDev
  done s (writeBatchAge d sk.val ch.val)

/-- PATROL_SCRUB. R353: one 32-byte word, with the errors that it shows now and those that a later read meets. -/
def execPatrolScrub (u : FillUnit) (word : BitVec 32) (now later : WordErr) (s : State) : Host.Outcome State Fault Refusal :=
  let d := s.toDev
  done s (patrolScrub d u word.toNat now later)

/-- CHANNEL_RETRAIN. R357, R359: a hold and retraining of a logical channel, or (32) of the spare channel while the copy to it
  runs; whether it succeeds, and whether the last one lies within 10 ms. -/
def execChannelRetrain (sk : Stk) (ch : Fin 33) (ok within10 : Bool) (s : State) : Host.Outcome State Fault Refusal :=
  let d := s.toDev
  done s (channelRetrain d sk.val ch.val ok within10).resumeReads

/-- CHANNEL_HOLD_END. R357: the hold of this channel. -/
def execChannelHoldEnd (sk : Stk) (ch : Fin 32) (s : State) : Host.Outcome State Fault Refusal :=
  let d := s.toDev
  done s (channelHoldEnd d sk.val ch.val).resumeReads

/-- CHANNEL_REPAIR_HANDOVER. R358, R213. -/
def execChannelRepairHandover (sk : Stk) (s : State) : Host.Outcome State Fault Refusal :=
  let d := s.toDev
  done s (channelRepairHandover d sk.val)

/-- CHANNEL_LOST. R360, R371. -/
def execChannelLost (sk : Stk) (part : LostPart) (s : State) : Host.Outcome State Fault Refusal :=
  let d := s.toDev
  done s (channelLost d sk.val part).resumeReads

/-- DRAWER_PORT_DRAIN. R326. -/
def execDrawerPortDrain (c : Cab) (s : State) : Host.Outcome State Fault Refusal :=
  let d := s.toDev
  done s (drawerPortDrain d c.val)

/-- DRAIN_MARKER. R331: the marker of b's fence reaches a place. -/
def execDrainMarker (b : BenchId) (p : Place) (s : State) : Host.Outcome State Fault Refusal :=
  let d := s.toDev
  done s (drainMarker d (benchKey b) p)

/-- FENCE_SUITE_MARKER. R332, R336. -/
def execFenceSuiteMarker (m : SuiteMarker) (s : State) : Host.Outcome State Fault Refusal :=
  let d := s.toDev
  done s (suiteMarker d m)

/-- SPARE_SWAP. R39: a lasting failure of the bench; whether its spare passes its self-test. -/
def execSpareSwap (b : BenchId) (spareOk : Bool) (s : State) : Host.Outcome State Fault Refusal :=
  let d := s.toDev
  done s (spareSwap d (benchKey b) spareOk)

/-- FILL_START. R173: a write of DEV_FILL_CTL with START. -/
def execFillStart (path : Path) (v : BitVec 32) (s : State) : Host.Outcome State Fault Refusal :=
  let d := s.toDev
  done s (writeReg d path (0x188) false (v.toNat ||| 2 ^ 25))

/-- FILL_COMPLETE. R173. -/
def execFillComplete (u : FillUnit) (s : State) : Host.Outcome State Fault Refusal :=
  let d := s.toDev
  done s (fillComplete d u)

/-- STK_ILV_WRITE. R156. -/
def execStkIlvWrite (path : Path) (sk : Stk) (i : Fin 8) (v : BitVec 32) (s : State) : Host.Outcome State Fault Refusal :=
  let d := s.toDev
  done s (writeReg d path (0x400040 + 0x10000 * sk.val + 4 * i.val) false (v.toNat))

/-- STK_CLASS_CTL_WRITE. R175. -/
def execStkClassCtlWrite (path : Path) (sk : Stk) (v : BitVec 32) (s : State) : Host.Outcome State Fault Refusal :=
  let d := s.toDev
  done s (writeReg d path (0x400008 + 0x10000 * sk.val) false (v.toNat))

/-- SB_AOW_WRITE. R168. -/
def execSbAowWrite (path : Path) (c : Cab) (n : Fin 16) (v : BitVec 64) (s : State) : Host.Outcome State Fault Refusal :=
  let d := s.toDev
  done s (writeReg d path (0x1000140 + 0x100000 * c.val + 8 * n.val) true (v.toNat))

/-- DRW_MODE_WRITE. R202. -/
def execDrwModeWrite (path : Path) (c : Cab) (v : BitVec 32) (s : State) : Host.Outcome State Fault Refusal :=
  let d := s.toDev
  done s (writeReg d path (0x1000200 + 0x100000 * c.val) false (v.toNat))

/-- DRW_MIRROR_WRITE. R234. -/
def execDrwMirrorWrite (path : Path) (c : Cab) (v : BitVec 32) (s : State) : Host.Outcome State Fault Refusal :=
  let d := s.toDev
  done s (writeReg d path (0x1000214 + 0x100000 * c.val) false (v.toNat))

/-- DRW_FALLBACK_WRITE. R212. -/
def execDrwFallbackWrite (path : Path) (c : Cab) (v : BitVec 32) (s : State) : Host.Outcome State Fault Refusal :=
  let d := s.toDev
  done s (writeReg d path (0x100020C + 0x100000 * c.val) false (v.toNat))

/-- DEV_PLAN_BASE_WRITE. R71. -/
def execDevPlanBaseWrite (path : Path) (v : BitVec 64) (s : State) : Host.Outcome State Fault Refusal :=
  let d := s.toDev
  done s (writeReg d path (0x100) true (v.toNat))

/-- LOAD. R62: a write of DEV_PLAN_CTL with LOAD. -/
def execLoad (path : Path) (s : State) : Host.Outcome State Fault Refusal :=
  let d := s.toDev
  done s (writeReg d path (0x110) false (1))

/-- UNLOAD. R63. -/
def execUnload (path : Path) (s : State) : Host.Outcome State Fault Refusal :=
  let d := s.toDev
  done s (writeReg d path (0x110) false (2))

/-- UNLOAD_STEP_TIMEOUT. R63. -/
def execUnloadStepTimeout (s : State) : Host.Outcome State Fault Refusal :=
  let d := s.toDev
  done s (unloadStepTimeout d)

/-- START. R240. -/
def execStart (path : Path) (s : State) : Host.Outcome State Fault Refusal :=
  let d := s.toDev
  done s (writeReg d path (0x110) false (4))

/-- HALT_REQ. R58. -/
def execHaltReq (path : Path) (b : BenchId) (s : State) : Host.Outcome State Fault Refusal :=
  let d := s.toDev
  done s (writeReg d path (benchReg (benchKey b) 0) false (1))

/-- RESUME. R64. -/
def execResume (path : Path) (b : BenchId) (s : State) : Host.Outcome State Fault Refusal :=
  let d := s.toDev
  done s (writeReg d path (benchReg (benchKey b) 0) false (2))

/-- CLEAR_FAULT. R365. -/
def execClearFault (path : Path) (b : BenchId) (s : State) : Host.Outcome State Fault Refusal :=
  let d := s.toDev
  done s (writeReg d path (benchReg (benchKey b) 0) false (4))

/-- INBOX_FLUSH. R64. -/
def execInboxFlush (path : Path) (b : BenchId) (s : State) : Host.Outcome State Fault Refusal :=
  let d := s.toDev
  done s (writeReg d path (benchReg (benchKey b) 0) false (8))

/-- BENCH_CLR_COUNTS. R64. -/
def execBenchClrCounts (path : Path) (b : BenchId) (s : State) : Host.Outcome State Fault Refusal :=
  let d := s.toDev
  done s (writeReg d path (benchReg (benchKey b) 0) false (16))

/-- INBOX_Q_WRITE. R51, R68. -/
def execInboxQWrite (path : Path) (b : BenchId) (q : Fin 8) (v : BitVec 32) (s : State) : Host.Outcome State Fault Refusal :=
  let d := s.toDev
  done s (writeReg d path (benchReg (benchKey b) (0x20 + 4 * q.val)) false (v.toNat))

/-- ROW_STEER_WRITE. R70. -/
def execRowSteerWrite (path : Path) (c : Cab) (v : BitVec 32) (s : State) : Host.Outcome State Fault Refusal :=
  let d := s.toDev
  done s (writeReg d path (0x1000000 + 0x100000 * c.val) false (v.toNat))

/-- BENCH_FAULT_READ. R66. -/
def execBenchFaultRead (path : Path) (b : BenchId) (s : State) : Host.Outcome State Fault Refusal :=
  let d := s.toDev
  done s (readReg32 d path (benchReg (benchKey b) 8))

/-- MAT_CLR_COUNTS. R127. -/
def execMatClrCounts (path : Path) (b : BenchId) (s : State) : Host.Outcome State Fault Refusal :=
  let d := s.toDev
  done s (writeReg d path (benchReg (benchKey b) 0x1C) false (1))

/-- FLUSH. R143: a write of SHELF_CTL with FLUSH and this MODE. -/
def execFlush (path : Path) (b : BenchId) (mode : Bool) (s : State) : Host.Outcome State Fault Refusal :=
  let d := s.toDev
  done s (writeReg d path (benchReg (benchKey b) 0x44) false (1 + 2 * b2n mode))

/-- SHELF_MODE_WRITE. R140. -/
def execShelfModeWrite (path : Path) (b : BenchId) (mode : Bool) (s : State) : Host.Outcome State Fault Refusal :=
  let d := s.toDev
  done s (writeReg d path (benchReg (benchKey b) 0x44) false (2 * b2n mode))

/-- SHELF_CLR_COUNTS. R150. -/
def execShelfClrCounts (path : Path) (b : BenchId) (mode : Bool) (s : State) : Host.Outcome State Fault Refusal :=
  let d := s.toDev
  done s (writeReg d path (benchReg (benchKey b) 0x44) false (4 + 2 * b2n mode))

/-- COPY_CLR_COUNTS. R295. -/
def execCopyClrCounts (path : Path) (b : BenchId) (s : State) : Host.Outcome State Fault Refusal :=
  let d := s.toDev
  done s (writeReg d path (benchReg (benchKey b) 0x50) false (1))

/-- DRW_CLR_COUNTS. R216. -/
def execDrwClrCounts (path : Path) (c : Cab) (s : State) : Host.Outcome State Fault Refusal :=
  let d := s.toDev
  done s (writeReg d path (0x1000204 + 0x100000 * c.val) false (1))

/-- HMB_BASE_WRITE. R56. -/
def execHmbBaseWrite (path : Path) (v : BitVec 64) (s : State) : Host.Outcome State Fault Refusal :=
  let d := s.toDev
  done s (writeReg d path (0x340) true (v.toNat))

/-- HMB_HEAD_WRITE. R55. -/
def execHmbHeadWrite (path : Path) (v : BitVec 32) (s : State) : Host.Outcome State Fault Refusal :=
  let d := s.toDev
  done s (writeReg d path (0x34C) false (v.toNat))

/-- HMB_CLR_COUNTS. R56: a write of HMB_CTL with CLR_COUNTS. -/
def execHmbClrCounts (path : Path) (v : BitVec 32) (s : State) : Host.Outcome State Fault Refusal :=
  let d := s.toDev
  done s (writeReg d path (0x348) false (v.toNat ||| 2))

/-- SEQ_BASE_WRITE. R265. -/
def execSeqBaseWrite (path : Path) (result : Bool) (v : BitVec 64) (s : State) : Host.Outcome State Fault Refusal :=
  let d := s.toDev
  done s (writeReg d path (if result then 0x208 else 0x200) true (v.toNat))

/-- SEQ_CLR_COUNTS. R266: a write of SEQ_CTL with CLR_COUNTS. -/
def execSeqClrCounts (path : Path) (v : BitVec 32) (s : State) : Host.Outcome State Fault Refusal :=
  let d := s.toDev
  done s (writeReg d path (0x218) false (v.toNat ||| 2))

/-- FLOG_BASE_WRITE. R378. -/
def execFlogBaseWrite (path : Path) (v : BitVec 64) (s : State) : Host.Outcome State Fault Refusal :=
  let d := s.toDev
  done s (writeReg d path (0x300) true (v.toNat))

/-- FLOG_HEAD_WRITE. R379. -/
def execFlogHeadWrite (path : Path) (v : BitVec 32) (s : State) : Host.Outcome State Fault Refusal :=
  let d := s.toDev
  done s (writeReg d path (0x30C) false (v.toNat))

/-- FLOG_CLR_COUNTS. R379: a write of FLOG_CTL with CLR_COUNTS. -/
def execFlogClrCounts (path : Path) (v : BitVec 32) (s : State) : Host.Outcome State Fault Refusal :=
  let d := s.toDev
  done s (writeReg d path (0x308) false (v.toNat ||| 2))

/-- CMP_LOAD. R312: a write of CMP_CTL with LOAD. -/
def execCmpLoad (path : Path) (v : BitVec 64) (s : State) : Host.Outcome State Fault Refusal :=
  let d := s.toDev
  done s (writeReg d path (0x400) true (v.toNat ||| 1))

/-- CMP_CLR_COUNTS. R322: a write of CMP_CTL with CLR_COUNTS. -/
def execCmpClrCounts (path : Path) (v : BitVec 64) (s : State) : Host.Outcome State Fault Refusal :=
  let d := s.toDev
  done s (writeReg d path (0x400) true (v.toNat ||| 2))

/-- SCRUB_CLR_COUNTS. R382: a write of SCRUB_CTL with CLR_COUNTS. -/
def execScrubClrCounts (path : Path) (sk : Stk) (v : BitVec 32) (s : State) : Host.Outcome State Fault Refusal :=
  let d := s.toDev
  done s (writeReg d path (0x40000C + 0x10000 * sk.val) false (v.toNat ||| 0x2000))

/-- PORT_CLR_COUNTS. R418: a write of PORT_CTL with CLR_COUNTS. -/
def execPortClrCounts (path : Path) (p : Pt) (v : BitVec 32) (s : State) : Host.Outcome State Fault Refusal :=
  let d := s.toDev
  done s (writeReg d path (0x200000 + 0x1000 * p.val) false (v.toNat ||| 8))

/-- PWR_CLR_COUNTS. R447: a write of PWR_DOM_CTL with CLR_COUNTS. -/
def execPwrClrCounts (path : Path) (d_ : DomainId) (v : BitVec 32) (s : State) : Host.Outcome State Fault Refusal :=
  let d := s.toDev
  done s (writeReg d path (0x310000 + 16 * domId d_) false (v.toNat ||| 8))

/-- SENSOR_SUSPECT_CLEAR. R438. -/
def execSensorSuspectClear (path : Path) (n : SensorId) (s : State) : Host.Outcome State Fault Refusal :=
  let d := s.toDev
  done s (writeReg d path (0x320000 + 8 * sensorId n) true (0x80000000))

/-- REGISTER_WRITE. R13. -/
def execRegisterWrite (path : Path) (off : BitVec 26) (wide : Bool) (v : BitVec 64) (s : State) : Host.Outcome State Fault Refusal :=
  let d := s.toDev
  done s (registerWrite d path off.toNat wide v.toNat)

/-- DOMAIN_REQ_ON. R431: a write of PWR_DOM_CTL with this REQ. -/
def execDomainReqOn (path : Path) (d_ : DomainId) (v : BitVec 32) (s : State) : Host.Outcome State Fault Refusal :=
  let d := s.toDev
  done s (writeReg d path (0x310000 + 16 * domId d_) false (v.toNat / 4 * 4 + 1))

/-- DOMAIN_REQ_RETENTION. R431: a write of PWR_DOM_CTL with this REQ. -/
def execDomainReqRetention (path : Path) (d_ : DomainId) (v : BitVec 32) (s : State) : Host.Outcome State Fault Refusal :=
  let d := s.toDev
  done s (writeReg d path (0x310000 + 16 * domId d_) false (v.toNat / 4 * 4 + 2))

/-- DOMAIN_REQ_OFF. R431: a write of PWR_DOM_CTL with this REQ. -/
def execDomainReqOff (path : Path) (d_ : DomainId) (v : BitVec 32) (s : State) : Host.Outcome State Fault Refusal :=
  let d := s.toDev
  done s (writeReg d path (0x310000 + 16 * domId d_) false (v.toNat / 4 * 4 + 3))

/-- DOMAIN_ENTRY_COMPLETE. R433. -/
def execDomainEntryComplete (d_ : DomainId) (badChannels : List (Fin 33)) (s : State) : Host.Outcome State Fault Refusal :=
  let d := s.toDev
  done s (domainEntryComplete d (domId d_) (badChannels.map (fun c => c.val)))

/-- DOMAIN_ON_COMPLETE. R434. -/
def execDomainOnComplete (d_ : DomainId) (badChannels : List (Fin 33)) (s : State) : Host.Outcome State Fault Refusal :=
  let d := s.toDev
  done s (domainOnComplete d (domId d_) (badChannels.map (fun c => c.val)))

/-- REGULATOR_SAMPLE. R436: the phase currents read. -/
def execRegulatorSample (r : RegulatorId) (amps : List Nat) (s : State) : Host.Outcome State Fault Refusal :=
  let d := s.toDev
  done s (regulatorSample d (regulId r) amps)

/-- SENSOR_READING. R438. -/
def execSensorReading (n : SensorId) (raw : BitVec 16) (up : StartUp) (s : State) : Host.Outcome State Fault Refusal :=
  let d := s.toDev
  done s (sensorReading d (sensorId n) raw up)

/-- THROTTLE_LOOP. R442. -/
def execThrottleLoop (d_ : DomainId) (underVolt : Bool) (s : State) : Host.Outcome State Fault Refusal :=
  let d := s.toDev
  done s (throttleLoop d (domId d_) underVolt)

/-- POWER_CAP_LOOP. R445: the VIN12 current averaged over 100 us, in units of 0.1 A. -/
def execPowerCapLoop (deciAmps : Nat) (s : State) : Host.Outcome State Fault Refusal :=
  let d := s.toDev
  done s (powerCapLoop d deciAmps)

/-- CMD_TAIL_DOORBELL. R239. -/
def execCmdTailDoorbell (dev : BitVec 6) (via : Option Via) (v : BitVec 32) (s : State) : Host.Outcome State Fault Refusal :=
  let d := s.toDev
  done s (doorbell d dev.toNat via false v)

/-- RESULT_HEAD_DOORBELL. R239. -/
def execResultHeadDoorbell (dev : BitVec 6) (via : Option Via) (v : BitVec 32) (s : State) : Host.Outcome State Fault Refusal :=
  let d := s.toDev
  done s (doorbell d dev.toNat via true v)

/-- SUBMIT. R241: the sequencer processes the next ring command, where it is this one. -/
def execSubmit (s : State) : Host.Outcome State Fault Refusal :=
  let d := s.toDev
  done s (submit d)

/-- READY. R241: the sequencer processes the next ring command, where it is this one. -/
def execReady (s : State) : Host.Outcome State Fault Refusal :=
  let d := s.toDev
  done s (ready d)

/-- REISSUE. R241: the sequencer processes the next ring command, where it is this one. -/
def execReissue (s : State) : Host.Outcome State Fault Refusal :=
  let d := s.toDev
  done s (reissue d)

/-- CANCEL. R241: the sequencer processes the next ring command, where it is this one. -/
def execCancel (s : State) : Host.Outcome State Fault Refusal :=
  let d := s.toDev
  done s (cancel d)

/-- DEADLINE. R241: the sequencer processes the next ring command, where it is this one. -/
def execDeadline (s : State) : Host.Outcome State Fault Refusal :=
  let d := s.toDev
  done s (deadline d)

/-- PREFIX_DEFINE. R241: the sequencer processes the next ring command, where it is this one. -/
def execPrefixDefine (s : State) : Host.Outcome State Fault Refusal :=
  let d := s.toDev
  done s (prefixDefine d)

/-- PREFIX_RELEASE. R241: the sequencer processes the next ring command, where it is this one. -/
def execPrefixRelease (s : State) : Host.Outcome State Fault Refusal :=
  let d := s.toDev
  done s (prefixRelease d)

/-- ADAPTER_LOAD. R241: the sequencer processes the next ring command, where it is this one. -/
def execAdapterLoad (s : State) : Host.Outcome State Fault Refusal :=
  let d := s.toDev
  done s (adapterLoad d)

/-- TILE. R241: the sequencer processes the next ring command, where it is this one. -/
def execTile (s : State) : Host.Outcome State Fault Refusal :=
  let d := s.toDev
  done s (tile d)

/-- TILE_CANCEL. R241: the sequencer processes the next ring command, where it is this one. -/
def execTileCancel (s : State) : Host.Outcome State Fault Refusal :=
  let d := s.toDev
  done s (tileCancel d)

/-- BAD_OPCODE. R241: the sequencer processes the next ring command, where it is this one. -/
def execBadOpcode (s : State) : Host.Outcome State Fault Refusal :=
  let d := s.toDev
  done s (badOpcode d)

/-- STEP_ADMISSION. R244. -/
def execStepAdmission (s : State) : Host.Outcome State Fault Refusal :=
  let d := s.toDev
  done s (stepAdmission d)

/-- TILE_DISPATCH. R260. -/
def execTileDispatch (s : State) : Host.Outcome State Fault Refusal :=
  let d := s.toDev
  done s (tileDispatch d)

/-- TILE_COMPLETION. R261. -/
def execTileCompletion (src : BitVec 18) (s : State) : Host.Outcome State Fault Refusal :=
  let d := s.toDev
  done s (tileCompletion d src)

/-- TOKEN_REPORT. R249. -/
def execTokenReport (src : BitVec 18) (s : State) : Host.Outcome State Fault Refusal :=
  let d := s.toDev
  done s (tokenReport d src)

/-- STEP_COMMIT_DECISION. R251. -/
def execStepCommitDecision (s : State) : Host.Outcome State Fault Refusal :=
  let d := s.toDev
  done s (stepCommitDecision d)

/-- STEP_DISCARD. R363: the oldest discard report reaches the sequencer. -/
def execStepDiscard (s : State) : Host.Outcome State Fault Refusal :=
  let d := s.toDev
  done s (stepDiscard d)

/-- BENCH_STEP_DISCARD. R365. -/
def execBenchStepDiscard (b : BenchId) (s : State) : Host.Outcome State Fault Refusal :=
  let d := s.toDev
  done s (benchDiscard (benchKey b) d)

/-- FOLLOWER_SLOT_TABLE. R237. -/
def execFollowerSlotTable (step : BitVec 48) (template : BitVec 16) (table : List Byte) (s : State) : Host.Outcome State Fault Refusal :=
  let d := s.toDev
  done s (followerSlotTable d step template table)

/-- FOLLOWER_REPORT. R237. -/
def execFollowerReport (dev : BitVec 6) (step : BitVec 48) (tell : FollowerTell) (s : State) : Host.Outcome State Fault Refusal :=
  let d := s.toDev
  done s (followerReport d dev step tell)

/-- FOLLOWER_DECISION. R237. -/
def execFollowerDecision (step : BitVec 48) (commit : Bool) (s : State) : Host.Outcome State Fault Refusal :=
  let d := s.toDev
  done s (followerDecision d step commit)

/-- STEP_WATCHDOG_EXPIRY. R369: of the serving step, or of one tile task. -/
def execStepWatchdogExpiry (task : Option (BitVec 32)) (s : State) : Host.Outcome State Fault Refusal :=
  let d := s.toDev
  done s (stepWatchdogExpiry d task)

/-- FAULT_LOG_RECORD. R376: the oldest offered record reaches the log unit. -/
def execFaultLogRecord (s : State) : Host.Outcome State Fault Refusal :=
  let d := s.toDev
  done s (faultLogRecord d)

/-- FRAME_RECEIVE. R389, R390. -/
def execFrameReceive (p : Pt) (frame : List Byte) (errors : List (Nat × Byte)) (pieces : BitVec 25) (s : State) : Host.Outcome State Fault Refusal :=
  let d := s.toDev
  done s (frameReceive d p.val frame errors pieces)

/-- NAK. R390. -/
def execNak (p : Pt) (ackSeq : BitVec 48) (s : State) : Host.Outcome State Fault Refusal :=
  let d := s.toDev
  done s (nak d p.val ackSeq)

/-- LANE_DROP. R397. -/
def execLaneDrop (p : Pt) (lane : Fin 4) (s : State) : Host.Outcome State Fault Refusal :=
  let d := s.toDev
  done s (laneDrop d p.val lane.val)

/-- LANE_LOCK_LOSS. R397. -/
def execLaneLockLoss (p : Pt) (lanes : BitVec 4) (s : State) : Host.Outcome State Fault Refusal :=
  let d := s.toDev
  done s (laneLockLoss d p.val lanes)

/-- REPLAY_TIMEOUT. R390. -/
def execReplayTimeout (p : Pt) (s : State) : Host.Outcome State Fault Refusal :=
  let d := s.toDev
  done s (replayTimeout d p.val)

/-- PORT_TRAIN. R394. -/
def execPortTrain (p : Pt) (partner : Partner) (s : State) : Host.Outcome State Fault Refusal :=
  let d := s.toDev
  done s (portTrain d p.val partner)

/-- RETRAIN. R418: a write of PORT_CTL with RETRAIN. -/
def execRetrain (path : Path) (p : Pt) (v : BitVec 32) (s : State) : Host.Outcome State Fault Refusal :=
  let d := s.toDev
  done s (writeReg d path (0x200000 + 0x1000 * p.val) false (v.toNat ||| 4))

/-- PORT_ENABLE_WRITE. R431: a write of PORT_CTL. -/
def execPortEnableWrite (path : Path) (p : Pt) (v : BitVec 32) (s : State) : Host.Outcome State Fault Refusal :=
  let d := s.toDev
  done s (writeReg d path (0x200000 + 0x1000 * p.val) false (v.toNat))

/-- FAILED_PORT_RETRY. R398. -/
def execFailedPortRetry (p : Pt) (partner : Partner) (s : State) : Host.Outcome State Fault Refusal :=
  let d := s.toDev
  done s (failedPortRetry d p.val partner)

/-- AUTH_TIMEOUT. R395. -/
def execAuthTimeout (p : Pt) (s : State) : Host.Outcome State Fault Refusal :=
  let d := s.toDev
  done s (authTimeout d p.val)

/-- AUTH_RETRY. R395. -/
def execAuthRetry (p : Pt) (partner : Partner) (s : State) : Host.Outcome State Fault Refusal :=
  let d := s.toDev
  done s (authRetry d p.val partner)

/-- RATE_WINDOW_RESTART. R401. -/
def execRateWindowRestart (p : Pt) (s : State) : Host.Outcome State Fault Refusal :=
  let d := s.toDev
  done s (rateWindowRestart d p.val)

/-- CRED_COMMIT. R396. -/
def execCredCommit (path : Path) (s : State) : Host.Outcome State Fault Refusal :=
  let d := s.toDev
  done s (writeReg d path (0x500) false (1))

/-- DISCOVER. R405. -/
def execDiscover (path : Path) (s : State) : Host.Outcome State Fault Refusal :=
  let d := s.toDev
  done s (writeReg d path (0x500) false (2))

/-- DISCOVERY_START. R405. -/
def execDiscoveryStart (s : State) : Host.Outcome State Fault Refusal :=
  let d := s.toDev
  done s ((discoveryStart d).bootAdvance)

/-- DISCOVER_MESSAGE. R405: DISCOVER from the head of this identity hash arrives at port p; which of its discoveries it belongs to. -/
def execDiscoverMessage (p : Pt) (head : BitVec 384) (round : BitVec 16) (s : State) : Host.Outcome State Fault Refusal :=
  let d := s.toDev
  done s (discoverMessage d p.val head round)

/-- DISCOVERY_REPORT. R405. -/
def execDiscoveryReport (r : DiscReport) (s : State) : Host.Outcome State Fault Refusal :=
  let d := s.toDev
  done s ((discoveryReport d r).bootAdvance)

/-- DISCOVERY_REPORT_TIMEOUT. R405. -/
def execDiscoveryReportTimeout (s : State) : Host.Outcome State Fault Refusal :=
  let d := s.toDev
  done s ((discoveryReportTimeout d).bootAdvance)

/-- ASSIGN. R406. -/
def execAssign (number : BitVec 6) (routes : List (Nat × Nat × List Nat)) (partners : List (Nat × Option (BitVec 6))) (s : State) : Host.Outcome State Fault Refusal :=
  let d := s.toDev
  done s (assign d number routes partners)

/-- RESTORE_ROUTES. R399. -/
def execRestoreRoutes (path : Path) (s : State) : Host.Outcome State Fault Refusal :=
  let d := s.toDev
  done s (writeReg d path (0x500) false (4))

/-- HOST_READ. R337. -/
def execHostRead (w : HostWindow) (off : Nat) (len : Nat) (s : State) : Host.Outcome State Fault Refusal :=
  let d := s.toDev
  done s (hostRead d w off len)

/-- HOST_WRITE. R415. -/
def execHostWrite (w : HostWindow) (off : Nat) (data : List Byte) (poisoned : Bool) (s : State) : Host.Outcome State Fault Refusal :=
  let d := s.toDev
  done s (hostWrite d w off data poisoned)

/-- HOST_READ_TIMEOUT. R415. -/
def execHostReadTimeout (idx : Nat) (s : State) : Host.Outcome State Fault Refusal :=
  let d := s.toDev
  done s (hostReadTimeout d idx)

/-- INTERRUPT_REQUEST. R416. -/
def execInterruptRequest (vector : BitVec 11) (via : Via) (s : State) : Host.Outcome State Fault Refusal :=
  let d := s.toDev
  done s (interruptRequest d vector via)

/-- PCIE_RESET. R416. -/
def execPcieReset (s : State) : Host.Outcome State Fault Refusal :=
  let d := s.toDev
  done s (pcieReset d)

/-- PERST_N_ASSERT. R495. -/
def execPerstNAssert (s : State) : Host.Outcome State Fault Refusal :=
  let d := s.toDev
  done s (perstNAssert d)

/-- W2_RESIZE. R518: a size as a power of two, or Memory Space Enable. -/
def execW2Resize (w : W2Write) (s : State) : Host.Outcome State Fault Refusal :=
  let d := s.toDev
  done s (w2Resize d w)

/-- VAUX33_RISE. R455. -/
def execVaux33Rise (s : State) : Host.Outcome State Fault Refusal :=
  let d := s.toDev
  done s (vaux33Rise d)

/-- VAUX33_LOSS. R491. -/
def execVaux33Loss (s : State) : Host.Outcome State Fault Refusal :=
  let d := s.toDev
  done s (vaux33Loss d)

/-- VIN12_LOSS. R491. -/
def execVin12Loss (s : State) : Host.Outcome State Fault Refusal :=
  let d := s.toDev
  done s (vin12Loss d)

/-- SUPPLY_VALID. R456. -/
def execSupplyValid (vin12 vaux33 : Bool) (up : StartUp) (s : State) : Host.Outcome State Fault Refusal :=
  let d := s.toDev
  done s (supplyValid d vin12 vaux33 up)

/-- RESET_N_ASSERT. R493. -/
def execResetNAssert (len : PulseLen) (s : State) : Host.Outcome State Fault Refusal :=
  let d := s.toDev
  done s (resetNAssert d len)

/-- WARM. R455. -/
def execWarm (path : Path) (up : StartUp) (s : State) : Host.Outcome State Fault Refusal :=
  let d := s.toDev
  done s (writeRegUp d path 0x24 false 1 up)

/-- LREFCLK_LOSS. R499. -/
def execLrefclkLoss (e : Fin 4) (s : State) : Host.Outcome State Fault Refusal :=
  let d := s.toDev
  done s (lrefclkLoss d e.val)

/-- PREFCLK_LOSS. R499. -/
def execPrefclkLoss (s : State) : Host.Outcome State Fault Refusal :=
  let d := s.toDev
  done s (prefclkLoss d)

/-- PROGRAM. R464: a write of FW_CTL with PROGRAM. -/
def execProgram (path : Path) (v : BitVec 32) (s : State) : Host.Outcome State Fault Refusal :=
  let d := s.toDev
  done s (writeReg d path (0xD00) false (v.toNat ||| 8))

/-- FINISH. R464. -/
def execFinish (path : Path) (s : State) : Host.Outcome State Fault Refusal :=
  let d := s.toDev
  done s (writeReg d path (0xD00) false (16))

/-- ABORT. R481. -/
def execAbort (path : Path) (s : State) : Host.Outcome State Fault Refusal :=
  let d := s.toDev
  done s (writeReg d path (0xD00) false (1))

/-- REVOKE. R462. -/
def execRevoke (path : Path) (s : State) : Host.Outcome State Fault Refusal :=
  let d := s.toDev
  done s (writeReg d path (0xD00) false (4))

/-- ADVANCE_SVN. R462. -/
def execAdvanceSvn (path : Path) (s : State) : Host.Outcome State Fault Refusal :=
  let d := s.toDev
  done s (writeReg d path (0xD00) false (2))

/-- RESET_MAP. R466. -/
def execResetMap (path : Path) (key : BitVec 16) (s : State) : Host.Outcome State Fault Refusal :=
  let d := s.toDev
  done s (writeReg d path (0x28) false (key.toNat))

/-- TRIG_ARM. R475: a write of TRACE_CTL with TRIG_ARM. -/
def execTrigArm (path : Path) (b : BenchId) (v : BitVec 64) (s : State) : Host.Outcome State Fault Refusal :=
  let d := s.toDev
  done s (writeReg d path (benchReg (benchKey b) 0x68) true (v.toNat ||| 0x2000))

/-- OBS_ACK_RISE. R477. -/
def execObsAckRise (s : State) : Host.Outcome State Fault Refusal :=
  let d := s.toDev
  done s (obsAckRise d)

/-- OBS_ACK_FALL. R477. -/
def execObsAckFall (s : State) : Host.Outcome State Fault Refusal :=
  let d := s.toDev
  done s (obsAckFall d)

/-- EXTEST. R502, R503. -/
def execExtest (s : State) : Host.Outcome State Fault Refusal :=
  let d := s.toDev
  done s (d.loadIr .extest .clean)

/-- IDCODE. R502, R503. -/
def execIdcode (up : StartUp) (s : State) : Host.Outcome State Fault Refusal :=
  let d := s.toDev
  done s (d.loadIr .idcode up)

/-- SAMPLE_PRELOAD. R502, R503. -/
def execSamplePreload (up : StartUp) (s : State) : Host.Outcome State Fault Refusal :=
  let d := s.toDev
  done s (samplePreload d up)

/-- BYPASS. R502: 0xFF or an unlisted code. -/
def execBypass (code : BitVec 8) (up : StartUp) (s : State) : Host.Outcome State Fault Refusal :=
  let d := s.toDev
  done s (loadCode d code up)

/-- CLAMP. R503. -/
def execClamp (s : State) : Host.Outcome State Fault Refusal :=
  let d := s.toDev
  done s (d.loadIr .clamp .clean)

/-- HIGHZ. R503. -/
def execHighz (s : State) : Host.Outcome State Fault Refusal :=
  let d := s.toDev
  done s (d.loadIr .highz .clean)

/-- EXTEST_PULSE. R503. -/
def execExtestPulse (s : State) : Host.Outcome State Fault Refusal :=
  let d := s.toDev
  done s (d.loadIr .extestPulse .clean)

/-- EXTEST_TRAIN. R503. -/
def execExtestTrain (s : State) : Host.Outcome State Fault Refusal :=
  let d := s.toDev
  done s (d.loadIr .extestTrain .clean)

/-- TRST_N_ASSERT. R503. -/
def execTrstNAssert (up : StartUp) (s : State) : Host.Outcome State Fault Refusal :=
  let d := s.toDev
  done s (trstNAssert d up)

/-- ENTDAA. R469. -/
def execEntdaa (addr : BitVec 7) (s : State) : Host.Outcome State Fault Refusal :=
  let d := s.toDev
  done s (entdaa d addr)

/-- REG_READ. R469. -/
def execRegRead (off : BitVec 26) (wide : Bool) (s : State) : Host.Outcome State Fault Refusal :=
  let d := s.toDev
  done s (regReadCommand d off.toNat wide)

/-- REG_WRITE. R469. -/
def execRegWrite (off : BitVec 26) (wide : Bool) (v : BitVec 64) (s : State) : Host.Outcome State Fault Refusal :=
  let d := s.toDev
  done s (regWriteCommand d off.toNat wide v.toNat)

/-- SET_ENDPOINT_ID. R469. -/
def execSetEndpointId (eid : BitVec 8) (s : State) : Host.Outcome State Fault Refusal :=
  let d := s.toDev
  done s (setEndpointId d eid)

/-- GET_ENDPOINT_ID. R469. -/
def execGetEndpointId (s : State) : Host.Outcome State Fault Refusal :=
  let d := s.toDev
  done s (getEndpointId d)

/-- GET_MESSAGE_TYPE_SUPPORT. R469. -/
def execGetMessageTypeSupport (s : State) : Host.Outcome State Fault Refusal :=
  let d := s.toDev
  done s (getMessageTypeSupport d)

/-- GET_MCTP_VERSION_SUPPORT. R469. -/
def execGetMctpVersionSupport (type : BitVec 8) (s : State) : Host.Outcome State Fault Refusal :=
  let d := s.toDev
  done s (getMctpVersionSupport d type)

/-- GETTID. R469. -/
def execGettid (s : State) : Host.Outcome State Fault Refusal :=
  let d := s.toDev
  done s (gettid d)

/-- GETPLDMTYPES. R469. -/
def execGetpldmtypes (s : State) : Host.Outcome State Fault Refusal :=
  let d := s.toDev
  done s (getpldmtypes d)

/-- GETPLDMCOMMANDS. R469. -/
def execGetpldmcommands (type : BitVec 6) (s : State) : Host.Outcome State Fault Refusal :=
  let d := s.toDev
  done s (getpldmcommands d type)

/-- GETPLDMVERSION. R469. -/
def execGetpldmversion (type : BitVec 6) (s : State) : Host.Outcome State Fault Refusal :=
  let d := s.toDev
  done s (getpldmversion d type)

/-- GETSENSORREADING. R470. -/
def execGetsensorreading (id : BitVec 16) (s : State) : Host.Outcome State Fault Refusal :=
  let d := s.toDev
  done s (getsensorreading d id)

/-- GETSTATESENSORREADINGS. R470. -/
def execGetstatesensorreadings (id : BitVec 16) (s : State) : Host.Outcome State Fault Refusal :=
  let d := s.toDev
  done s (getstatesensorreadings d id)

/-- GETPDR. R470. -/
def execGetpdr (handle : BitVec 32) (s : State) : Host.Outcome State Fault Refusal :=
  let d := s.toDev
  done s (getpdr d handle)

/-- GETPDRREPOSITORYINFO. R470. -/
def execGetpdrrepositoryinfo (s : State) : Host.Outcome State Fault Refusal :=
  let d := s.toDev
  done s (getpdrrepositoryinfo d)

/-- POLLFORPLATFORMEVENTMESSAGE. R471. -/
def execPollforplatformeventmessage (s : State) : Host.Outcome State Fault Refusal :=
  let d := s.toDev
  done s (pollforplatformeventmessage d)

/-- EVENTMESSAGEBUFFERSIZE. R471. -/
def execEventmessagebuffersize (size : BitVec 16) (s : State) : Host.Outcome State Fault Refusal :=
  let d := s.toDev
  done s (eventmessagebuffersize d size)

/-- SPDM_REQUEST. R467. -/
def execSpdmRequest (tr : SpdmTransport) (req : SpdmRequest) (s : State) : Host.Outcome State Fault Refusal :=
  let d := s.toDev
  done s (spdmRequest d tr req)

/-- PLAN_LOAD_COMPLETE. R62. -/
def execPlanLoadComplete (s : State) : Host.Outcome State Fault Refusal :=
  let d := s.toDev
  done s (planLoadComplete d)

/-- CHECKER_SELFTEST_COMPLETE. R23, R352. -/
def execCheckerSelftestComplete (c : Cab) (failures : List TestUnit) (s : State) : Host.Outcome State Fault Refusal :=
  let d := s.toDev
  done s (checkerSelftestComplete d c.val failures)

/-- FENCE_SUITE_TIMEOUT. R332. -/
def execFenceSuiteTimeout (b : BenchId) (s : State) : Host.Outcome State Fault Refusal :=
  let d := s.toDev
  done s (fenceSuiteTimeout d (benchKey b))

/-- HOST_READ_COMPLETION. R415. -/
def execHostReadCompletion (a : HostAnswer) (via : Via) (ok : Bool) (data : List Byte) (poisoned : Bool) (s : State) : Host.Outcome State Fault Refusal :=
  let d := s.toDev
  done s (hostReadCompletion d a via ok data poisoned)

/-- ASSIGN_ACKNOWLEDGEMENT. R405. -/
def execAssignAcknowledgement (dev : BitVec 6) (ok : Bool) (s : State) : Host.Outcome State Fault Refusal :=
  let d := s.toDev
  done s ((assignAcknowledgement d dev ok).bootAdvance)

/-- RESET_N_RELEASE. R493. -/
def execResetNRelease (up : StartUp) (s : State) : Host.Outcome State Fault Refusal :=
  let d := s.toDev
  done s (resetNRelease d up)

/-- PERST_N_RELEASE. R495. -/
def execPerstNRelease (partner : Partner) (s : State) : Host.Outcome State Fault Refusal :=
  let d := s.toDev
  done s (perstNRelease d partner)

/-- FUSE_OPERATION_COMPLETE. R461. -/
def execFuseOperationComplete (s : State) : Host.Outcome State Fault Refusal :=
  let d := s.toDev
  done s (fuseOperationComplete d)

/-- FLASH_OPERATION_COMPLETE. R464. -/
def execFlashOperationComplete (s : State) : Host.Outcome State Fault Refusal :=
  let d := s.toDev
  done s (flashOperationComplete d)

/-- OBS_SAMPLE_ON_CHANGE. R477. -/
def execObsSampleOnChange (s : State) : Host.Outcome State Fault Refusal :=
  let d := s.toDev
  done s (obsSampleOnChange d)

end Sys2Proof.Machine
end

