-- ==== Sys2Proof/Machine/Dispatch.lean ====
section
/-! DEFINITION. The dispatch of commands: one arm per constructor of Instr, each a direct call of its meaning. -/

namespace Sys2Proof.Machine

def exec (i : Instr) (s : State) : Host.Outcome State Fault Refusal :=
  match i with
  | .bundleIssue b errs spareOk => Sys2Proof.Machine.execBundleIssue b errs spareOk s
  | .mma b tag acc z => Sys2Proof.Machine.execMma b tag acc z s
  | .mpush b tag acc clr => Sys2Proof.Machine.execMpush b tag acc clr s
  | .msta b tag acc clr a fmt => Sys2Proof.Machine.execMsta b tag acc clr a fmt s
  | .mlda b tag a fmt tr sa => Sys2Proof.Machine.execMlda b tag a fmt tr sa s
  | .mldb b tag a fmt tr sa pw => Sys2Proof.Machine.execMldb b tag a fmt tr sa pw s
  | .vld b tag vd a fmt => Sys2Proof.Machine.execVld b tag vd a fmt s
  | .vst b tag vs a fmt => Sys2Proof.Machine.execVst b tag vs a fmt s
  | .ldx b tag xd a size sx => Sys2Proof.Machine.execLdx b tag xd a size sx s
  | .stx b tag xs a size => Sys2Proof.Machine.execStx b tag xs a size s
  | .move b tag a ct => Sys2Proof.Machine.execMove b tag a ct s
  | .copyGather b tag a ct => Sys2Proof.Machine.execCopyGather b tag a ct s
  | .scatter b tag a ct => Sys2Proof.Machine.execScatter b tag a ct s
  | .tally b tag a ct => Sys2Proof.Machine.execTally b tag a ct s
  | .copyComplete b idx => Sys2Proof.Machine.execCopyComplete b idx s
  | .cwait b tag ct max => Sys2Proof.Machine.execCwait b tag ct max s
  | .fence b tag scope => Sys2Proof.Machine.execFence b tag scope s
  | .atom b tag op a xd xs xc => Sys2Proof.Machine.execAtom b tag op a xd xs xc s
  | .vpop b tag vd => Sys2Proof.Machine.execVpop b tag vd s
  | .vsetl b tag src imm xs => Sys2Proof.Machine.execVsetl b tag src imm xs s
  | .vfma b tag vd va vb => Sys2Proof.Machine.execVfma b tag vd va vb s
  | .vbin b tag vd va vb func bs => Sys2Proof.Machine.execVbin b tag vd va vb func bs s
  | .vun b tag vd va func => Sys2Proof.Machine.execVun b tag vd va func s
  | .vred b tag vd va func half => Sys2Proof.Machine.execVred b tag vd va func half s
  | .vscan b tag vd va func excl => Sys2Proof.Machine.execVscan b tag vd va func excl s
  | .vsegscan b tag vd va vf func excl => Sys2Proof.Machine.execVsegscan b tag vd va vf func excl s
  | .vbcast b tag vd imm => Sys2Proof.Machine.execVbcast b tag vd imm s
  | .send b tag q a xdest xlen => Sys2Proof.Machine.execSend b tag q a xdest xlen s
  | .recv b tag q a xlen xsrc => Sys2Proof.Machine.execRecv b tag q a xlen xsrc s
  | .poll b tag q xd => Sys2Proof.Machine.execPoll b tag q xd s
  | .nop b tag => Sys2Proof.Machine.execNop b tag s
  | .movi b tag xd imm => Sys2Proof.Machine.execMovi b tag xd imm s
  | .addi b tag xd xa imm => Sys2Proof.Machine.execAddi b tag xd xa imm s
  | .alu b tag xd xa xb func => Sys2Proof.Machine.execAlu b tag xd xa xb func s
  | .br b tag off => Sys2Proof.Machine.execBr b tag off s
  | .brc b tag xa cond off => Sys2Proof.Machine.execBrc b tag xa cond off s
  | .brx b tag xa link => Sys2Proof.Machine.execBrx b tag xa link s
  | .seta b tag ar field xs => Sys2Proof.Machine.execSeta b tag ar field xs s
  | .geta b tag ar field xd => Sys2Proof.Machine.execGeta b tag ar field xd s
  | .setn b tag n xs => Sys2Proof.Machine.execSetn b tag n xs s
  | .gets b tag xd sel => Sys2Proof.Machine.execGets b tag xd sel s
  | .stepend b tag => Sys2Proof.Machine.execStepend b tag s
  | .halt b tag => Sys2Proof.Machine.execHalt b tag s
  | .mpushBackpressureAdmit b => Sys2Proof.Machine.execMpushBackpressureAdmit b s
  | .vpopRowsArrive b => Sys2Proof.Machine.execVpopRowsArrive b s
  | .messageArrival src b bcast => Sys2Proof.Machine.execMessageArrival src b bcast s
  | .destFencedReturn src dst seq => Sys2Proof.Machine.execDestFencedReturn src dst seq s
  | .hostMailboxRecord src => Sys2Proof.Machine.execHostMailboxRecord src s
  | .sideboardWriteMessage src dev c => Sys2Proof.Machine.execSideboardWriteMessage src dev c s
  | .drawerRequest src c => Sys2Proof.Machine.execDrawerRequest src c s
  | .attend c idx bank files => Sys2Proof.Machine.execAttend c idx bank files s
  | .append c idx files => Sys2Proof.Machine.execAppend c idx files s
  | .gather c idx bank files => Sys2Proof.Machine.execGather c idx bank files s
  | .update c idx bank files => Sys2Proof.Machine.execUpdate c idx bank files s
  | .drawerCompletion c idx => Sys2Proof.Machine.execDrawerCompletion c idx s
  | .fallbackAnswer src c => Sys2Proof.Machine.execFallbackAnswer src c s
  | .mirrorAppendAnswer src c => Sys2Proof.Machine.execMirrorAppendAnswer src c s
  | .commit c => Sys2Proof.Machine.execCommit c s
  | .abandon c => Sys2Proof.Machine.execAbandon c s
  | .activityCeilingAdjust c milliwatts => Sys2Proof.Machine.execActivityCeilingAdjust c milliwatts s
  | .drawerLost c bank fails => Sys2Proof.Machine.execDrawerLost c bank fails s
  | .refreshPerform sk bank busy => Sys2Proof.Machine.execRefreshPerform sk bank busy s
  | .writeBatchDrain sk ch => Sys2Proof.Machine.execWriteBatchDrain sk ch s
  | .writeBatchAge sk ch => Sys2Proof.Machine.execWriteBatchAge sk ch s
  | .patrolScrub u word now later => Sys2Proof.Machine.execPatrolScrub u word now later s
  | .channelRetrain sk ch ok within10 => Sys2Proof.Machine.execChannelRetrain sk ch ok within10 s
  | .channelHoldEnd sk ch => Sys2Proof.Machine.execChannelHoldEnd sk ch s
  | .channelRepairHandover sk => Sys2Proof.Machine.execChannelRepairHandover sk s
  | .channelLost sk part => Sys2Proof.Machine.execChannelLost sk part s
  | .drawerPortDrain c => Sys2Proof.Machine.execDrawerPortDrain c s
  | .drainMarker b p => Sys2Proof.Machine.execDrainMarker b p s
  | .fenceSuiteMarker m => Sys2Proof.Machine.execFenceSuiteMarker m s
  | .spareSwap b spareOk => Sys2Proof.Machine.execSpareSwap b spareOk s
  | .fillStart path v => Sys2Proof.Machine.execFillStart path v s
  | .fillComplete u => Sys2Proof.Machine.execFillComplete u s
  | .stkIlvWrite path sk n v => Sys2Proof.Machine.execStkIlvWrite path sk n v s
  | .stkClassCtlWrite path sk v => Sys2Proof.Machine.execStkClassCtlWrite path sk v s
  | .sbAowWrite path c n v => Sys2Proof.Machine.execSbAowWrite path c n v s
  | .drwModeWrite path c v => Sys2Proof.Machine.execDrwModeWrite path c v s
  | .drwMirrorWrite path c v => Sys2Proof.Machine.execDrwMirrorWrite path c v s
  | .drwFallbackWrite path c v => Sys2Proof.Machine.execDrwFallbackWrite path c v s
  | .devPlanBaseWrite path v => Sys2Proof.Machine.execDevPlanBaseWrite path v s
  | .load path => Sys2Proof.Machine.execLoad path s
  | .unload path => Sys2Proof.Machine.execUnload path s
  | .unloadStepTimeout => Sys2Proof.Machine.execUnloadStepTimeout s
  | .start path => Sys2Proof.Machine.execStart path s
  | .haltReq path b => Sys2Proof.Machine.execHaltReq path b s
  | .resume path b => Sys2Proof.Machine.execResume path b s
  | .clearFault path b => Sys2Proof.Machine.execClearFault path b s
  | .inboxFlush path b => Sys2Proof.Machine.execInboxFlush path b s
  | .benchClrCounts path b => Sys2Proof.Machine.execBenchClrCounts path b s
  | .inboxQWrite path b q v => Sys2Proof.Machine.execInboxQWrite path b q v s
  | .rowSteerWrite path c v => Sys2Proof.Machine.execRowSteerWrite path c v s
  | .benchFaultRead path b => Sys2Proof.Machine.execBenchFaultRead path b s
  | .matClrCounts path b => Sys2Proof.Machine.execMatClrCounts path b s
  | .flush path b mode => Sys2Proof.Machine.execFlush path b mode s
  | .shelfModeWrite path b mode => Sys2Proof.Machine.execShelfModeWrite path b mode s
  | .shelfClrCounts path b mode => Sys2Proof.Machine.execShelfClrCounts path b mode s
  | .copyClrCounts path b => Sys2Proof.Machine.execCopyClrCounts path b s
  | .drwClrCounts path c => Sys2Proof.Machine.execDrwClrCounts path c s
  | .hmbBaseWrite path v => Sys2Proof.Machine.execHmbBaseWrite path v s
  | .hmbHeadWrite path v => Sys2Proof.Machine.execHmbHeadWrite path v s
  | .hmbClrCounts path v => Sys2Proof.Machine.execHmbClrCounts path v s
  | .seqBaseWrite path result v => Sys2Proof.Machine.execSeqBaseWrite path result v s
  | .seqClrCounts path v => Sys2Proof.Machine.execSeqClrCounts path v s
  | .flogBaseWrite path v => Sys2Proof.Machine.execFlogBaseWrite path v s
  | .flogHeadWrite path v => Sys2Proof.Machine.execFlogHeadWrite path v s
  | .flogClrCounts path v => Sys2Proof.Machine.execFlogClrCounts path v s
  | .cmpLoad path v => Sys2Proof.Machine.execCmpLoad path v s
  | .cmpClrCounts path v => Sys2Proof.Machine.execCmpClrCounts path v s
  | .scrubClrCounts path sk v => Sys2Proof.Machine.execScrubClrCounts path sk v s
  | .portClrCounts path p v => Sys2Proof.Machine.execPortClrCounts path p v s
  | .pwrClrCounts path d v => Sys2Proof.Machine.execPwrClrCounts path d v s
  | .sensorSuspectClear path n => Sys2Proof.Machine.execSensorSuspectClear path n s
  | .registerWrite path off wide v => Sys2Proof.Machine.execRegisterWrite path off wide v s
  | .domainReqOn path d v => Sys2Proof.Machine.execDomainReqOn path d v s
  | .domainReqRetention path d v => Sys2Proof.Machine.execDomainReqRetention path d v s
  | .domainReqOff path d v => Sys2Proof.Machine.execDomainReqOff path d v s
  | .domainEntryComplete d bad => Sys2Proof.Machine.execDomainEntryComplete d bad s
  | .domainOnComplete d bad => Sys2Proof.Machine.execDomainOnComplete d bad s
  | .regulatorSample r amps => Sys2Proof.Machine.execRegulatorSample r amps s
  | .sensorReading n raw up => Sys2Proof.Machine.execSensorReading n raw up s
  | .throttleLoop d underVolt => Sys2Proof.Machine.execThrottleLoop d underVolt s
  | .powerCapLoop deciAmps => Sys2Proof.Machine.execPowerCapLoop deciAmps s
  | .cmdTailDoorbell dev via v => Sys2Proof.Machine.execCmdTailDoorbell dev via v s
  | .resultHeadDoorbell dev via v => Sys2Proof.Machine.execResultHeadDoorbell dev via v s
  | .submit => Sys2Proof.Machine.execSubmit s
  | .ready => Sys2Proof.Machine.execReady s
  | .reissue => Sys2Proof.Machine.execReissue s
  | .cancel => Sys2Proof.Machine.execCancel s
  | .deadline => Sys2Proof.Machine.execDeadline s
  | .prefixDefine => Sys2Proof.Machine.execPrefixDefine s
  | .prefixRelease => Sys2Proof.Machine.execPrefixRelease s
  | .adapterLoad => Sys2Proof.Machine.execAdapterLoad s
  | .tile => Sys2Proof.Machine.execTile s
  | .tileCancel => Sys2Proof.Machine.execTileCancel s
  | .badOpcode => Sys2Proof.Machine.execBadOpcode s
  | .stepAdmission => Sys2Proof.Machine.execStepAdmission s
  | .tileDispatch => Sys2Proof.Machine.execTileDispatch s
  | .tileCompletion src => Sys2Proof.Machine.execTileCompletion src s
  | .tokenReport src => Sys2Proof.Machine.execTokenReport src s
  | .stepCommitDecision => Sys2Proof.Machine.execStepCommitDecision s
  | .stepDiscard => Sys2Proof.Machine.execStepDiscard s
  | .benchStepDiscard b => Sys2Proof.Machine.execBenchStepDiscard b s
  | .followerSlotTable step template table => Sys2Proof.Machine.execFollowerSlotTable step template table s
  | .followerReport dev step tell => Sys2Proof.Machine.execFollowerReport dev step tell s
  | .followerDecision step commit => Sys2Proof.Machine.execFollowerDecision step commit s
  | .stepWatchdogExpiry task => Sys2Proof.Machine.execStepWatchdogExpiry task s
  | .faultLogRecord => Sys2Proof.Machine.execFaultLogRecord s
  | .frameReceive p frame errors pieces => Sys2Proof.Machine.execFrameReceive p frame errors pieces s
  | .nak p ackSeq => Sys2Proof.Machine.execNak p ackSeq s
  | .laneDrop p lane => Sys2Proof.Machine.execLaneDrop p lane s
  | .laneLockLoss p lanes => Sys2Proof.Machine.execLaneLockLoss p lanes s
  | .replayTimeout p => Sys2Proof.Machine.execReplayTimeout p s
  | .portTrain p partner => Sys2Proof.Machine.execPortTrain p partner s
  | .retrain path p v => Sys2Proof.Machine.execRetrain path p v s
  | .portEnableWrite path p v => Sys2Proof.Machine.execPortEnableWrite path p v s
  | .failedPortRetry p partner => Sys2Proof.Machine.execFailedPortRetry p partner s
  | .authTimeout p => Sys2Proof.Machine.execAuthTimeout p s
  | .authRetry p partner => Sys2Proof.Machine.execAuthRetry p partner s
  | .rateWindowRestart p => Sys2Proof.Machine.execRateWindowRestart p s
  | .credCommit path => Sys2Proof.Machine.execCredCommit path s
  | .discover path => Sys2Proof.Machine.execDiscover path s
  | .discoveryStart => Sys2Proof.Machine.execDiscoveryStart s
  | .discoverMessage p head round => Sys2Proof.Machine.execDiscoverMessage p head round s
  | .discoveryReport r => Sys2Proof.Machine.execDiscoveryReport r s
  | .discoveryReportTimeout => Sys2Proof.Machine.execDiscoveryReportTimeout s
  | .assign number routes partners => Sys2Proof.Machine.execAssign number routes partners s
  | .restoreRoutes path => Sys2Proof.Machine.execRestoreRoutes path s
  | .hostRead w off len => Sys2Proof.Machine.execHostRead w off len s
  | .hostWrite w off data poisoned => Sys2Proof.Machine.execHostWrite w off data poisoned s
  | .hostReadTimeout idx => Sys2Proof.Machine.execHostReadTimeout idx s
  | .interruptRequest vector via => Sys2Proof.Machine.execInterruptRequest vector via s
  | .pcieReset => Sys2Proof.Machine.execPcieReset s
  | .perstNAssert => Sys2Proof.Machine.execPerstNAssert s
  | .w2Resize w => Sys2Proof.Machine.execW2Resize w s
  | .vaux33Rise => Sys2Proof.Machine.execVaux33Rise s
  | .vaux33Loss => Sys2Proof.Machine.execVaux33Loss s
  | .vin12Loss => Sys2Proof.Machine.execVin12Loss s
  | .supplyValid vin12 vaux33 up => Sys2Proof.Machine.execSupplyValid vin12 vaux33 up s
  | .resetNAssert len => Sys2Proof.Machine.execResetNAssert len s
  | .warm path up => Sys2Proof.Machine.execWarm path up s
  | .lrefclkLoss e => Sys2Proof.Machine.execLrefclkLoss e s
  | .prefclkLoss => Sys2Proof.Machine.execPrefclkLoss s
  | .program path v => Sys2Proof.Machine.execProgram path v s
  | .finish path => Sys2Proof.Machine.execFinish path s
  | .abort path => Sys2Proof.Machine.execAbort path s
  | .revoke path => Sys2Proof.Machine.execRevoke path s
  | .advanceSvn path => Sys2Proof.Machine.execAdvanceSvn path s
  | .resetMap path key => Sys2Proof.Machine.execResetMap path key s
  | .trigArm path b v => Sys2Proof.Machine.execTrigArm path b v s
  | .obsAckRise => Sys2Proof.Machine.execObsAckRise s
  | .obsAckFall => Sys2Proof.Machine.execObsAckFall s
  | .extest => Sys2Proof.Machine.execExtest s
  | .idcode up => Sys2Proof.Machine.execIdcode up s
  | .samplePreload up => Sys2Proof.Machine.execSamplePreload up s
  | .bypass code up => Sys2Proof.Machine.execBypass code up s
  | .clamp => Sys2Proof.Machine.execClamp s
  | .highz => Sys2Proof.Machine.execHighz s
  | .extestPulse => Sys2Proof.Machine.execExtestPulse s
  | .extestTrain => Sys2Proof.Machine.execExtestTrain s
  | .trstNAssert up => Sys2Proof.Machine.execTrstNAssert up s
  | .entdaa addr => Sys2Proof.Machine.execEntdaa addr s
  | .regRead off wide => Sys2Proof.Machine.execRegRead off wide s
  | .regWrite off wide v => Sys2Proof.Machine.execRegWrite off wide v s
  | .setEndpointId eid => Sys2Proof.Machine.execSetEndpointId eid s
  | .getEndpointId => Sys2Proof.Machine.execGetEndpointId s
  | .getMessageTypeSupport => Sys2Proof.Machine.execGetMessageTypeSupport s
  | .getMctpVersionSupport type => Sys2Proof.Machine.execGetMctpVersionSupport type s
  | .gettid => Sys2Proof.Machine.execGettid s
  | .getpldmtypes => Sys2Proof.Machine.execGetpldmtypes s
  | .getpldmcommands type => Sys2Proof.Machine.execGetpldmcommands type s
  | .getpldmversion type => Sys2Proof.Machine.execGetpldmversion type s
  | .getsensorreading id => Sys2Proof.Machine.execGetsensorreading id s
  | .getstatesensorreadings id => Sys2Proof.Machine.execGetstatesensorreadings id s
  | .getpdr handle => Sys2Proof.Machine.execGetpdr handle s
  | .getpdrrepositoryinfo => Sys2Proof.Machine.execGetpdrrepositoryinfo s
  | .pollforplatformeventmessage => Sys2Proof.Machine.execPollforplatformeventmessage s
  | .eventmessagebuffersize size => Sys2Proof.Machine.execEventmessagebuffersize size s
  | .spdmRequest tr req => Sys2Proof.Machine.execSpdmRequest tr req s
  | .planLoadComplete => Sys2Proof.Machine.execPlanLoadComplete s
  | .checkerSelftestComplete c failures => Sys2Proof.Machine.execCheckerSelftestComplete c failures s
  | .fenceSuiteTimeout b => Sys2Proof.Machine.execFenceSuiteTimeout b s
  | .hostReadCompletion a via ok data poisoned => Sys2Proof.Machine.execHostReadCompletion a via ok data poisoned s
  | .assignAcknowledgement dev ok => Sys2Proof.Machine.execAssignAcknowledgement dev ok s
  | .resetNRelease up => Sys2Proof.Machine.execResetNRelease up s
  | .perstNRelease partner => Sys2Proof.Machine.execPerstNRelease partner s
  | .fuseOperationComplete => Sys2Proof.Machine.execFuseOperationComplete s
  | .flashOperationComplete => Sys2Proof.Machine.execFlashOperationComplete s
  | .obsSampleOnChange => Sys2Proof.Machine.execObsSampleOnChange s

end Sys2Proof.Machine
end

