-- ==== Sys2Proof/Safety.lean ====
section
/-! DEFINITION. What counts as a safe run, in the terms the statements use: a step that answers a next state, the canonical form of
every addressed store, the one-way fuses, and the frames of the commands that act on one bench. -/

namespace Sys2Proof.Machine

/-- A step that neither faults nor refuses. -/
def Steps (s t : State) : Prop := step s = .next t

/-! ## Canonical form -/

/-- The three stores of a bench are in canonical form. -/
def Bench.MemOk (b : Bench) : Prop := b.store.wf = true ∧ b.program.wf = true ∧ b.traceMem.wf = true

/-- A firmware copy that was written is in canonical form. -/
def FwImage.MemOk : FwImage → Prop
  | .delivered _ _ _ => True
  | .written m _ => m.wf = true

/-- Every addressed store of the device is in canonical form (R153, R154, R165, R461): equal contents are equal data. -/
def Dev.MemOk (d : Dev) : Prop :=
  (∀ p ∈ d.benches, p.2.MemOk) ∧ (∀ p ∈ d.stks, p.2.mem.wf = true) ∧ (∀ p ∈ d.sbs, p.2.mem.wf = true) ∧
    d.fw.copyA.MemOk ∧ d.fw.copyB.MemOk

/-- What every reachable state meets. -/
def Inv (s : State) : Prop := s.MemOk

/-! ## Slots -/

/-- The bench takes the next slot: it is RUNNING, not held at STEPEND or for a discard, its cabinet is not fenced (R20, R86), no
bundle waits and no MPUSH waits for room (R142). -/
def SlotReady (d : Dev) (k : Nat) : Prop :=
  d.issues k = true ∧ (d.bench k).wait = none ∧ (d.bench k).shelf.bpWait = false

/-- The registers after a slot that names the address registers of `as`: those with S = 1 step, but under version 2 not after the last
repeat (R85). -/
def Arch.afterSlot (r : Arch) (csv : BitVec 4) (as : List AOp) : Arch :=
  if csv == 2#4 then r else r.stepAll (as.foldl (fun l a => if a.step then nsInsert a.reg.val l else l) [])

/-- Nothing but bench k, and the count of the free values used, differs. -/
def OnlyBench (s t : State) (k : Nat) : Prop :=
  { t with benches := [], free := 0 } = { s with benches := [], free := 0 } ∧ ∀ j, j ≠ k → t.bench j = s.bench j

/-- A bench without its architectural state and the fields that retiring a bundle writes: state, wait, repeat index, halt request and
trace (R58, R86, R105). -/
def Bench.besideArch (b : Bench) : Bench :=
  { b with arch := Arch.reset, st := .ready, wait := none, repIdx := 0, haltReq := false, trace := Trace.reset, traceMem := Mem.reset }

/-- Nothing but bench k, and the count of the free values used, differs, where bench k retires a bundle; if that halts it during an unload,
the step in flight is abandoned as well (R58, R63). -/
def OnlyRetires (s t : State) (k : Nat) : Prop :=
  OnlyBench { s with toDev := if (t.bench k).st = .halted then s.noteHalt else s.toDev } t k

/-- Bench k has the architectural state r; of the rest of the device only what retiring a bundle writes may differ: in particular
every byte of every store but the trace memory reads as before. -/
def ArchOnly (s t : State) (k : Nat) (r : Arch) : Prop :=
  OnlyRetires s t k ∧ (t.bench k).arch = r ∧ (t.bench k).besideArch = (s.bench k).besideArch

/-- As ArchOnly, but the bench store becomes m. -/
def ArchStore (s t : State) (k : Nat) (r : Arch) (m : Mem) : Prop :=
  OnlyRetires s t k ∧ (t.bench k).arch = r ∧ (t.bench k).besideArch = { s.bench k with store := m }.besideArch

/-- Of the two records of a bench, the second has one trace entry of this kind and tag more where TRACE_CTL admits it (R474): written whole
at its place in the ring, or dropped and counted; and none where TRACE_CTL does not. -/
def Traces (b c : Bench) (kind tag : Nat) (entry : List Byte) : Prop :=
  let ctl := b.trace.ctl.toNat
  let at_ := 32 * (b.trace.seq.toNat % 2048)
  if bit 8 ctl = true ∧ bit kind ctl = true ∧ bits 47 32 ctl ≤ tag ∧ tag ≤ bits 63 48 ctl ∧ b.trace.stopped = false then
    c.trace.seq = b.trace.seq + 1 ∧
      ((c.trace.dropped = b.trace.dropped ∧
          ∀ i, c.traceMem.byte i = if at_ ≤ i ∧ i < at_ + entry.length then entry.getD (i - at_) 0 else b.traceMem.byte i) ∨
        (c.trace.dropped = satInc16 b.trace.dropped ∧ c.traceMem = b.traceMem))
  else c.trace.seq = b.trace.seq ∧ c.trace.dropped = b.trace.dropped ∧ c.traceMem = b.traceMem

/-! ## Drawers -/

/-- The drawer controller of cabinet c and its chest take work: the cabinet is not fenced (R20), and the domains of its sideboard,
its drawers and the chest's stack are ON and not leaving that state (R433). -/
def DrawerReady (d : Dev) (c : Nat) : Prop :=
  d.fenced c = false ∧ ∀ id ∈ [sbDom c, drwDom c, stkDom (2 * c)], (d.dom id).st = 1 ∧ (d.dom id).entering = none

/-- No held request of cabinet c waits for a fallback bench (R210). -/
def NothingForwarded (d : Dev) (c : Nat) : Prop := ∀ r ∈ (d.drw c).reqs, r.toForward = []

/-- A stack whose words read without an error, a mark or a pending refresh on bank n (R171, R203, R348). -/
def Stack.Clean (st : Stack) (n : Nat) : Prop :=
  st.filled = true ∧ st.mem.marks = [] ∧ st.mem.lost = [] ∧ st.upsets = [] ∧ st.postponed.get 0 n < 7 ∧ st.mem.wf = true

/-- The requests that a controller keeps when one has finished: those without NOTIFY leave (R192). -/
def keptRequests (rs : List DrwReq) : List DrwReq :=
  rs.filter (fun r => !(r.finished && !bit 0 (drwHdr r.msg.payload).flags && epVal r.msg.src != 0xF1))

/-! ## The sequencer -/

/-- The next command of the ring is e (R239, R241): it can be read without an error or a held channel (R357), no record waits, no tile phase runs, and
the result ring has room for a notice. -/
def CmdAt (s : State) (e : List Byte) : Prop :=
  s.cmdReady = true ∧ s.seq.records = [] ∧ s.seq.closing = false ∧ s.tilePhase = none ∧ 2 ≤ s.seq.room ∧
    s.readWaits (ringAddr s.seq.cmdBase + 128 * (s.seq.cmdHead.toNat % 2 ^ ringLog2 s.seq.cmdBase)) 128 = false ∧
    ∃ m, s.readUnit ed0Block (ringAddr s.seq.cmdBase + 128 * (s.seq.cmdHead.toNat % 2 ^ ringLog2 s.seq.cmdBase)) 128 = (s.toDev, e, m)

/-- The command has been processed and nothing outside the sequencer's own state differs. -/
def Processed (s t : State) (q : Seq) : Prop :=
  { t with seq := s.seq } = s ∧ t.seq = { q with cmdHead := s.seq.cmdHead + 1, cmdNeeds := 0 }

/-- The command has been processed with a record of this kind and body that frees these slots, and what its retirements bring after it, d being
the device with the records added, nothing else than the sequencer having changed. While the last decision has not been carried out they wait
(R335); otherwise they go to the result ring, where it can be written all of them at its tail (R239, R254). -/
def Recorded (s t : State) (kind : Nat) (body : List Byte) (frees : List Nat) : Prop :=
  ∃ (d : Dev) (r : SeqRec) (rest : List SeqRec), { d with seq := s.seq } = s.toDev ∧ d.seq.records = r :: rest ∧ r.frees = frees ∧
    at1 r.bytes 0 = kind ∧ r.bytes.drop 64 = padUnits body ∧ d.seq.cmdHead = s.seq.cmdHead + 1 ∧ d.seq.resultTail = s.seq.resultTail ∧
    d.seq.resultBase = s.seq.resultBase ∧
    if s.actionsPending = true then t.toDev = d
    else t.toDev = d.writeRecords (r :: rest) ∧ t.seq.cmdHead = s.seq.cmdHead + 1 ∧
      (s.ringOk (ringAddr s.seq.resultBase) (64 * 2 ^ ringLog2 s.seq.resultBase) = true → t.seq.records = [] ∧
        t.seq.resultTail = s.seq.resultTail + BitVec.ofNat 32 (((r :: rest).map (fun x => unitsOf x.bytes.length)).sum))

/-- Nothing waits for the last decision to be carried out: no record, no report of a follower, no word of its leader, no unload (R63, R237,
R335). A command that carries a part of it out then does nothing beside. -/
def QuietSequencer (d : Dev) : Prop :=
  d.seq.records = [] ∧ d.seq.closing = false ∧ d.seq.fromLeader = [] ∧ d.plan.st ≠ .unloading

/-! ## Held channels (R164, R357) -/

/-- No coding table, plan image or host access waits for a held channel. -/
def NothingHeld (d : Dev) : Prop := d.cmp.loadState ≠ 1 ∧ d.plan.held = false ∧ d.bridge.parked = []

/-- No access of the host waits, and every write that it made to this device is performed (R337). -/
def HostQuiet (d : Dev) : Prop := d.bridge.parked = [] ∧ ∀ p ∈ d.stks, ∀ h ∈ p.2.held, h.owner ≠ Who.host.owner

/-- The split of the held writes that a batch of at most n sectors of channel ch makes (R161, R525): it takes the channel's writes among
the oldest, as far as they lie in n sectors of 64 bytes, and ends before the first write of a further sector. -/
def BatchSplit (ch n : Nat) (held go stay : List HeldWrite) : Prop :=
  ∃ k, go = (held.take k).filter (fun h => h.key / chanSize == ch) ∧
    stay = (held.take k).filter (fun h => h.key / chanSize != ch) ++ held.drop k ∧
    (go.map (fun h => h.key / 64)).dedup.length ≤ n ∧ (k = held.length ∨ (go.map (fun h => h.key / 64)).dedup.length = n)

/-! ## Register writes -/

/-- The path reaches registers, the register is served, its domain makes no entry that the access would abort, and no access of the host
waits before one of the host (R337, R433, R457, R510). -/
def Reaches (d : Dev) (path : Path) (r : Reg) : Prop :=
  d.reached path = true ∧ d.regServed r = true ∧ d.regArrive path r = d ∧ (path = .host → d.bridge.parked = [])

/-- The state is s with device d, and one entry more in the change journal (R472). -/
def Wrote (s t : State) (d : Dev) : Prop :=
  { t with journal := s.journal } = { s with toDev := { d with journal := s.journal } } ∧ t.journal.total = s.journal.total + 1

/-- The entry of the change journal that a write leaves (Table 16-11), at its place in the ring: the next number of its path, the path, whether
the write was applied, its width and offset, and what the register reads before and after. -/
def Journalled (s t : State) (path : Path) (applied wide : Bool) (off old new : Nat) : Prop :=
  let j := s.journal
  t.journal.ring = j.ring.set (j.total % 4096) (leBytes 8 ((j.next path).toNat * 2 ^ 16 + pathCode path * 2 ^ 14 +
      (if applied then 2 ^ 13 else 0) + (if wide then 2 ^ 12 else 0)) ++ leBytes 8 off ++ leBytes 8 old ++ leBytes 8 new) ∧
    t.journal.total = j.total + 1 ∧ t.journal.next path = j.next path + 1

end Sys2Proof.Machine
end

