-- ==== Sys2Proof/Certificates/Slice0/Obligations.lean ====
section
/-! DEFINITION. The statements for the provers. Each docstring says what the statement claims and the rules it rests on. -/

open Sys2Proof Sys2Proof.Machine

/-- A step of a state with a command at the front of its queue is the effect of that command on the state with the queue's rest; a step on an empty queue changes nothing. The queue is the model's form of the order in which commands arrive (DESIGN CHOICE, log 1). (R4, R13, R472.) -/
def Obligations.StepTakesFront : Prop :=
  ∀ s : State,
    (∀ c rest, step { s with pending := c :: rest } = exec c { s with pending := rest }) ∧ (s.pending = [] → step s = .next s)

/-- Every command in every state answers a next state and leaves the queue of waiting commands as it was: what the manual calls a fault or a refusal is an effect on the device's state (records, counters, codes), never a stop of the model. (R13, R57, R103, R363.) -/
def Obligations.EveryCommandCompletes : Prop :=
  ∀ (c : Instr) (s : State), ∃ t, exec c s = .next t ∧ t.pending = s.pending

/-- From every state in which each bench store, stack, sideboard and written firmware copy lists its bytes by strictly rising address, none with the value an unlisted byte reads as, a step gives such a state. (R153, R154, R165, R170, R171, R459.) -/
def Obligations.MemoryStaysCanonical : Prop :=
  ∀ s t : State, Inv s → Steps s t → Inv t

/-- No step, not even a reset or a loss of supply, lowers the security version counter or makes a revoked key slot valid again, in any state. (R461, R462, R464.) -/
def Obligations.FusesNeverFall : Prop :=
  ∀ s t : State, Steps s t → s.fw.counter ≤ t.fw.counter ∧ ∀ i, s.fw.revoked.getLsbD i = true → t.fw.revoked.getLsbD i = true

/-- At reset no command waits, every store is in canonical form, no bench runs, no plan is loaded, the rings of the mailbox, the fault log and the sequencer have their reset sizes and the other ring and fill registers read 0, a stack's CLASS_CTL and SCRUB_CTL, a drawer's ceiling, the watchdog's MULT, the power cap and PORT_CTL read their reset values, no port is in service, no message or discard is on its way, and the device waits at stage 0. That it waits there, VAUX33 being valid and VIN12 not yet, is the model's choice of the moment of reset (log 15), and vl = 128 in a bench that is OFF is the model's choice (log 14; R80 gives it at plan load). (R13, R56, R71, R175, R180, R201, R270, R378, R382, R386, R418, R453.) -/
def Obligations.ResetValues : Prop :=
  let s := State.reset
  s.pending = [] ∧ Inv s ∧ (∀ k, (s.bench k).st = .off ∧ (s.bench k).arch.vl = 128) ∧ s.plan.st = .none ∧ s.plan.base = 0 ∧
    s.plan.planId = 0 ∧ s.hmb = ⟨10, 0, 0, 0, 0⟩ ∧ s.flog.base = 10 ∧ s.flog.ctl = 0 ∧ s.flog.head = 0 ∧ s.flog.tail = 0 ∧ s.fill.ctl = 0 ∧
    s.fill.pattern = 0 ∧ s.seq.cmdBase = 6 ∧ s.seq.resultBase = 14 ∧ s.step = 0 ∧ (∀ c, (s.drw c).ceiling = 1024 ∧ (s.drw c).lost = []) ∧
    (∀ i, (s.stk i).filled = false ∧ s.regRaw (.classCtl i) = 0x00683002 ∧ s.regRaw (.scrubCtl i) = 0x1400) ∧
    (∀ c, (s.sb c).filled = false) ∧ s.wdCtl = 4 ∧ s.pwr.limit = 380 ∧ (∀ p, s.regRaw (.portCtl p) = 3 ∧ (s.port p).up = false) ∧
    s.net = [] ∧ s.discards = [] ∧ s.boot.stage = 0 ∧ s.fw.stage = []

/-- On a ready bench NOP changes no register, MOVI writes the sign-extended immediate, ADDI the sum with its sign-extended immediate and ALU each function of Table 3-12, where no register read is marked; nothing outside the registers changes but what retiring a bundle writes. (R80, R81, R99, R102.) -/
def Obligations.ScalarResults : Prop :=
  ∀ (b : BenchId) (tag : BitVec 16) (s : State), SlotReady s.toDev (benchKey b) →
    let k := benchKey b
    let r := (s.bench k).arch
    (∃ t, exec (.nop b tag) s = .next t ∧ ArchOnly s t k r) ∧
    (∀ xd imm, ∃ t, exec (.movi b tag xd imm) s = .next t ∧ ArchOnly s t k (r.setX xd (imm.signExtend 64) false)) ∧
    (∀ xd xa imm, (r.getX xa).mark = false →
      ∃ t, exec (.addi b tag xd xa imm) s = .next t ∧ ArchOnly s t k (r.setX xd ((r.getX xa).val + imm.signExtend 64) false)) ∧
    (∀ xd xa xb, (r.getX xa).mark = false → (r.getX xb).mark = false →
      ∀ p ∈ ([(0, fun x y => x + y), (1, fun x y => x - y), (2, fun x y => x * y), (3, fun x y => x &&& y), (4, fun x y => x ||| y),
          (5, fun x y => x ^^^ y), (6, fun x y => x <<< (y.toNat % 64)), (7, fun x y => x >>> (y.toNat % 64)),
          (8, fun x y => x.sshiftRight (y.toNat % 64)), (9, fun x y => if x.toInt < y.toInt then 1 else 0),
          (10, fun x y => if x.toNat < y.toNat then 1 else 0), (11, fun x y => if x = y then 1 else 0),
          (12, fun x y => if x.toInt < y.toInt then x else y), (13, fun x y => if x.toInt < y.toInt then y else x)] :
          List (BitVec 4 × (BitVec 64 → BitVec 64 → BitVec 64))),
        ∃ t, exec (.alu b tag xd xa xb p.1) s = .next t ∧ ArchOnly s t k (r.setX xd (p.2 (r.getX xa).val (r.getX xb).val) false))

/-- x0 reads 0 without a mark and a write of it changes nothing; any other scalar register reads what was last written to it, and a write changes no other. A step of an address register adds STRIDE to OFF modulo 2^32 where WRAP is 0, and modulo WRAP with a result below WRAP where it is not, its other fields and mark staying. Where the lanes below n of a vector register are written, n at most 128, they read as the new values and the others as before; the mark of an 8-lane group is the data's where the whole group is written, the OR of the data's and the old one where part of it is, and the old one where none is. (R80, R85, R129, R135.) -/
def Obligations.RegisterFile : Prop :=
  (∀ (r : Arch) (i j : Fin 32) (v : BitVec 64) (m : Bool),
    r.getX 0 = ⟨0, false⟩ ∧ r.setX 0 v m = r ∧ (i ≠ 0 → (r.setX i v m).getX j = if j = i then ⟨v, m⟩ else r.getX j)) ∧
  (∀ a : AReg,
    (a.wrap = 0 → a.step = { a with off := a.off + a.stride }) ∧
    (a.wrap ≠ 0 → (a.step.off.toNat : Int) = ((a.off.toNat : Int) + a.stride.toInt).emod a.wrap.toNat ∧ a.step.off.toNat < a.wrap.toNat ∧
      a.step = { a with off := a.step.off })) ∧
  (∀ (v : VReg) (n : Nat) (f : Nat → BitVec 32) (m : Nat → Bool), n ≤ 128 →
    let w := v.put (fun l => decide (l < n)) f m
    (∀ l, l < n → w.lane l = f l) ∧
    (∀ l, n ≤ l → l < 128 → w.lane l = v.lane l) ∧
    (∀ g, g < 16 → w.marks.getLsbD g =
      if 8 * g + 8 ≤ n then m g else if 8 * g < n then m g || v.marks.getLsbD g else v.marks.getLsbD g))

/-- On a ready bench SETA with an unmarked register writes the named field of the address register from the low bits of x[xs] (OFF kept below a nonzero WRAP, a new WRAP reducing OFF), GETA reads a field zero-extended and STRIDE sign-extended with the address register's mark, SETN writes a repeat counter from an unmarked value of at most 16,777,215, and GETS reads the endpoint id, plan id, step number, template index or, in a bench of another version than 2, the command-stream version. (R81, R84, R85, R99, R102.) -/
def Obligations.AddressRegisterSlots : Prop :=
  ∀ (b : BenchId) (tag : BitVec 16) (s : State), SlotReady s.toDev (benchKey b) →
    let k := benchKey b
    let r := (s.bench k).arch
    (∀ (ar : Fin 64) (xs : Fin 32), (r.getX xs).mark = false →
      let v := (r.getX xs).val
      let a := r.getA ar
      (∃ t, exec (.seta b tag ar 0 xs) s = .next t ∧ ArchOnly s t k (r.setA ar { a with base := v.setWidth 48 })) ∧
      (a.wrap = 0 → ∃ t, exec (.seta b tag ar 1 xs) s = .next t ∧ ArchOnly s t k (r.setA ar { a with off := v.setWidth 32 })) ∧
      (a.wrap ≠ 0 → ∃ t, exec (.seta b tag ar 1 xs) s = .next t ∧
        ArchOnly s t k (r.setA ar { a with off := v.setWidth 32 % a.wrap })) ∧
      (∃ t, exec (.seta b tag ar 2 xs) s = .next t ∧ ArchOnly s t k (r.setA ar { a with stride := v.setWidth 32 })) ∧
      (∃ t, exec (.seta b tag ar 3 xs) s = .next t ∧
        ArchOnly s t k (r.setA ar { a with wrap := v.setWidth 32, off := if v.setWidth 32 = 0 then a.off else a.off % v.setWidth 32 })) ∧
      (∀ n : Fin 16, n ≠ 0 → v.toNat ≤ 16777215 → ∃ t, exec (.setn b tag n xs) s = .next t ∧ ArchOnly s t k (r.setN n (v.setWidth 24)))) ∧
    (∀ (ar : Fin 64) (xd : Fin 32),
      let a := r.getA ar
      (∃ t, exec (.geta b tag ar 0 xd) s = .next t ∧ ArchOnly s t k (r.setX xd (a.base.setWidth 64) a.mark)) ∧
      (∃ t, exec (.geta b tag ar 1 xd) s = .next t ∧ ArchOnly s t k (r.setX xd (a.off.setWidth 64) a.mark)) ∧
      (∃ t, exec (.geta b tag ar 2 xd) s = .next t ∧ ArchOnly s t k (r.setX xd (a.stride.signExtend 64) a.mark)) ∧
      (∃ t, exec (.geta b tag ar 3 xd) s = .next t ∧ ArchOnly s t k (r.setX xd (a.wrap.setWidth 64) a.mark))) ∧
    (∀ xd : Fin 32,
      (∃ t, exec (.gets b tag xd 0) s = .next t ∧ ArchOnly s t k (r.setX xd ((s.benchEp k).setWidth 64) false)) ∧
      (∃ t, exec (.gets b tag xd 1) s = .next t ∧ ArchOnly s t k (r.setX xd (s.plan.planId.setWidth 64) false)) ∧
      (∃ t, exec (.gets b tag xd 2) s = .next t ∧ ArchOnly s t k (r.setX xd (s.step.setWidth 64) false)) ∧
      (∃ t, exec (.gets b tag xd 3) s = .next t ∧ ArchOnly s t k (r.setX xd (s.template.setWidth 64) false)) ∧
      ((s.bench k).csv ≠ 2 →
        ∃ t, exec (.gets b tag xd 4) s = .next t ∧ ArchOnly s t k (r.setX xd ((s.bench k).csv.setWidth 64) false)))

/-- On a ready bench a branch whose target is a multiple of 4 from 0 to 262,140 moves the PC there: BR always, BRC when the unmarked register meets its condition (and otherwise nothing changes), BRX to bits 17 to 0 of an unmarked register, with x31 set to the offset of the next bundle where LINK is 1 (pc + 8 for a slot command, a bundle of one word, the model's choice of log 16); HALT leaves the bench HALTED with its registers as they were. A BR whose target is negative, above 262,140 or no multiple of 4 leaves the bench FAULTED with FLT_AKK_PC in its fault register, registers and stores as they were, and reports a step discard with that code. (R75, R99, R100, R102, R103, R363.) -/
def Obligations.Branches : Prop :=
  ∀ (b : BenchId) (tag : BitVec 16) (s : State), SlotReady s.toDev (benchKey b) →
    let k := benchKey b
    let r := (s.bench k).arch
    let good (x : Int) : Prop := 0 ≤ x ∧ x ≤ 262140 ∧ x % 4 = 0
    (∀ off : BitVec 26, good (r.pc + 4 * off.toInt) →
      ∃ t, exec (.br b tag off) s = .next t ∧ ArchOnly s t k { r with pc := (r.pc + 4 * off.toInt).toNat }) ∧
    (∀ (xa : Fin 32) (off : BitVec 19), (r.getX xa).mark = false →
      ∀ p ∈ ([(0, fun x => x = 0), (1, fun x => x ≠ 0), (2, fun x => x.toInt < 0), (3, fun x => 0 ≤ x.toInt)] :
          List (BitVec 2 × (BitVec 64 → Prop))),
        (p.2 (r.getX xa).val → good (r.pc + 4 * off.toInt) →
          ∃ t, exec (.brc b tag xa p.1 off) s = .next t ∧ ArchOnly s t k { r with pc := (r.pc + 4 * off.toInt).toNat }) ∧
        (¬ p.2 (r.getX xa).val → ∃ t, exec (.brc b tag xa p.1 off) s = .next t ∧ ArchOnly s t k r)) ∧
    (∀ xa : Fin 32, (r.getX xa).mark = false → (r.getX xa).val.toNat % 4 = 0 →
      (∃ t, exec (.brx b tag xa false) s = .next t ∧ ArchOnly s t k { r with pc := (r.getX xa).val.toNat % 2 ^ 18 }) ∧
      (∃ t, exec (.brx b tag xa true) s = .next t ∧
        ArchOnly s t k { r.setX 31 (BitVec.ofNat 64 (r.pc + 8)) false with pc := (r.getX xa).val.toNat % 2 ^ 18 })) ∧
    (∃ t, exec (.halt b tag) s = .next t ∧ ArchOnly s t k r ∧ (t.bench k).st = .halted) ∧
    (∀ off : BitVec 26, ¬ good (r.pc + 4 * off.toInt) →
      ∃ t, exec (.br b tag off) s = .next t ∧ (t.bench k).st = .faulted ∧ (t.bench k).faultCode = fltAkkPc ∧
        (t.bench k).faultPending = true ∧ (t.bench k).arch = r ∧ (t.bench k).store = (s.bench k).store ∧
        t.discards = s.discards ++ [⟨fltAkkPc, s.step.setWidth 16⟩] ∧ (∀ j, j ≠ k → t.bench j = s.bench j))

/-- On a ready bench VSETL writes an immediate of at most 128, or an unmarked register value of at most 128, to vl; a register value above 128 leaves the bench FAULTED with FLT_AKK_OPERAND and vl as it was; VBCAST writes its immediate to every lane and clears the register's marks. (R135, R524.) -/
def Obligations.LengthAndBroadcast : Prop :=
  ∀ (b : BenchId) (tag : BitVec 16) (s : State), SlotReady s.toDev (benchKey b) →
    let k := benchKey b
    let r := (s.bench k).arch
    (∀ (imm : BitVec 8) (xs : Fin 32), imm.toNat ≤ 128 →
      ∃ t, exec (.vsetl b tag false imm xs) s = .next t ∧ ArchOnly s t k { r with vl := imm.toNat }) ∧
    (∀ (imm : BitVec 8) (xs : Fin 32), (r.getX xs).mark = false → (r.getX xs).val.toNat ≤ 128 →
      ∃ t, exec (.vsetl b tag true imm xs) s = .next t ∧ ArchOnly s t k { r with vl := (r.getX xs).val.toNat }) ∧
    (∀ (imm : BitVec 8) (xs : Fin 32), (r.getX xs).mark = false → 128 < (r.getX xs).val.toNat →
      ∃ t, exec (.vsetl b tag true imm xs) s = .next t ∧ (t.bench k).st = .faulted ∧ (t.bench k).faultCode = fltAkkOperand ∧
        (t.bench k).arch = r ∧ (t.bench k).store = (s.bench k).store ∧ (∀ j, j ≠ k → t.bench j = s.bench j)) ∧
    (∀ vd imm, ∃ t, exec (.vbcast b tag vd imm) s = .next t ∧ ArchOnly s t k (r.setV vd ⟨List.replicate 128 imm, 0⟩))

/-- On a ready bench with vl at least 1, where no marked lane below vl is read, VFMA, VBIN and VUN write f of the operand lanes to every lane below vl of vd, leave the lanes from vl on, and write nothing else; VBIN with BS reads lane 0 of vb. (R96, R130, R131, R135.) -/
def Obligations.VectorArithmetic : Prop :=
  ∀ (b : BenchId) (tag : BitVec 16) (s : State), SlotReady s.toDev (benchKey b) →
    let k := benchKey b
    let r := (s.bench k).arch
    let clean (v : Fin 32) : Prop := 1 ≤ r.vl ∧ (r.getV v).consumed r.vl = false
    let lanes (vd : Fin 32) (f : Nat → BitVec 32) : Arch :=
      r.setV vd ((r.getV vd).put (fun l => decide (l < r.vl)) f (fun _ => false))
    (∀ vd va vb, clean vd → clean va → clean vb → ∃ t, exec (.vfma b tag vd va vb) s = .next t ∧
      ArchOnly s t k (lanes vd (fun l => fmaFV (fp32 ((r.getV va).lane l)) (fp32 ((r.getV vb).lane l)) (fp32 ((r.getV vd).lane l))))) ∧
    (∀ vd va vb, clean va → clean vb →
      ∀ p ∈ ([(0, fpAdd), (1, fpSub), (2, fpMul), (3, fpMax), (4, fpMin)] : List (BitVec 4 × (BitVec 32 → BitVec 32 → BitVec 32))),
        (∃ t, exec (.vbin b tag vd va vb p.1 false) s = .next t ∧
          ArchOnly s t k (lanes vd (fun l => p.2 ((r.getV va).lane l) ((r.getV vb).lane l)))) ∧
        (∃ t, exec (.vbin b tag vd va vb p.1 true) s = .next t ∧
          ArchOnly s t k (lanes vd (fun l => p.2 ((r.getV va).lane l) ((r.getV vb).lane 0))))) ∧
    (∀ vd va (func : BitVec 4), clean va → func.toNat ≤ 7 → ∃ t, exec (.vun b tag vd va func) s = .next t ∧
      ArchOnly s t k (lanes vd (fun l => unFn func.toNat ((r.getV va).lane l))))

/-- On a ready bench with vl at least 1, where no marked lane below vl is read, VRED writes the pairwise reduction of the lanes below vl to each of them (with HALF the two halves apart), VSCAN the running function of the lanes up to each lane (EXCL: before it, the identity in lane 0), and in a bench of another version than 2 VSEGSCAN the same restarting where vf is nonzero; lanes from vl on and everything else stay. (R132, R133, R134, R135.) -/
def Obligations.VectorReductions : Prop :=
  ∀ (b : BenchId) (tag : BitVec 16) (s : State), SlotReady s.toDev (benchKey b) →
    let k := benchKey b
    let r := (s.bench k).arch
    let clean (v : Fin 32) : Prop := 1 ≤ r.vl ∧ (r.getV v).consumed r.vl = false
    let lanes (vd : Fin 32) (f : Nat → BitVec 32) : Arch :=
      r.setV vd ((r.getV vd).put (fun l => decide (l < r.vl)) f (fun _ => false))
    let xs (v : Fin 32) : List (BitVec 32) := (r.getV v).slice 0 r.vl
    (∀ vd va, clean va →
      ∀ p ∈ ([(0, fpAdd), (1, fpMax), (2, fpMin)] : List (BitVec 2 × (BitVec 32 → BitVec 32 → BitVec 32))),
        (∃ t, exec (.vred b tag vd va p.1 false) s = .next t ∧ ArchOnly s t k (lanes vd (fun _ => reduceLanes p.2 (xs va)))) ∧
        (∃ t, exec (.vred b tag vd va p.1 true) s = .next t ∧
          ArchOnly s t k (lanes vd (fun l => if l < 64 then reduceLanes p.2 ((r.getV va).slice 0 (min r.vl 64))
            else reduceLanes p.2 ((r.getV va).slice 64 r.vl))))) ∧
    (∀ vd va (func : BitVec 2) excl, clean va → func.toNat ≤ 1 →
      (∃ t, exec (.vscan b tag vd va func excl) s = .next t ∧
        ArchOnly s t k (lanes vd (fun l => (scanAll func.toNat excl (xs va) (fun _ => false)).getD l 0))) ∧
      (∀ vf, clean vf → (s.bench k).csv ≠ 2 → ∃ t, exec (.vsegscan b tag vd va vf func excl) s = .next t ∧
        ArchOnly s t k (lanes vd (fun l => (scanAll func.toNat excl (xs va) (fun j => (r.getV vf).lane j != 0)).getD l 0))))

/-- On a ready bench whose store is in canonical form, at an unmarked, aligned address inside the store, LDX writes the little-endian bytes there, zero- or sign-extended, with their mark, and changes no byte; STX writes the low bytes of its register and every other byte of the store reads as before; each then steps its address register as R85 says. (R83, R84, R85, R92, R102, R520.) -/
def Obligations.ScalarMemory : Prop :=
  ∀ (b : BenchId) (tag : BitVec 16) (s : State) (a : AOp) (size : Fin 4), SlotReady s.toDev (benchKey b) →
    let k := benchKey b
    let r := (s.bench k).arch
    let m := (s.bench k).store
    let x := (r.aop a).ea
    let n := 2 ^ size.val
    m.wf = true → (r.aop a).mark = false → x % n = 0 → x + n ≤ 0x400000 →
    (∀ xd sx, ∃ t, exec (.ldx b tag xd a size sx) s = .next t ∧
      ArchOnly s t k ((r.setX xd (if sx then BitVec.ofInt 64 (sext (8 * n) (m.readNat x n)) else BitVec.ofNat 64 (m.readNat x n))
        (m.anyMark x n)).afterSlot (s.bench k).csv [a])) ∧
    (∀ xs, ∃ t m', exec (.stx b tag xs a size) s = .next t ∧ ArchStore s t k (r.afterSlot (s.bench k).csv [a]) m' ∧
      ∀ i, m'.byte i = if x ≤ i ∧ i < x + n then BitVec.ofNat 8 ((r.getX xs).val.toNat / 256 ^ (i - x)) else m.byte i)

/-- On a ready bench whose store is in canonical form, with vl at least 1, a storable format, an unmarked address aligned to the element and all vl elements inside the store, VLD converts element l into lane l for every l below vl, with the marks of its sectors, and VST writes vl converted elements at the address; every byte outside them reads as before. (R92, R97, R135, R521.) -/
def Obligations.VectorMemory : Prop :=
  ∀ (b : BenchId) (tag : BitVec 16) (s : State) (a : AOp) (v : Fin 32) (fmt : BitVec 4), SlotReady s.toDev (benchKey b) →
    let k := benchKey b
    let r := (s.bench k).arch
    let m := (s.bench k).store
    let x := (r.aop a).ea
    let n := fmtBytes fmt
    m.wf = true → 1 ≤ r.vl → fmt ∈ [1#4, 2#4, 8#4, 9#4, 0xA#4, 0xC#4] → (r.aop a).mark = false → x % n = 0 → x + n * r.vl ≤ 0x400000 →
    (∃ t, exec (.vld b tag v a fmt) s = .next t ∧
      ArchOnly s t k ((r.setV v ((r.getV v).put (fun l => decide (l < r.vl)) (fun l => toFp32 fmt (m.readNat (x + n * l) n))
        (fun g => m.anyMark (x + n * (8 * g)) (n * (min r.vl (8 * g + 8) - 8 * g))))).afterSlot (s.bench k).csv [a])) ∧
    (∃ t, exec (.vst b tag v a fmt) s = .next t ∧ OnlyRetires s t k ∧ (t.bench k).arch = r.afterSlot (s.bench k).csv [a] ∧
      (∀ i, ¬ (x ≤ i ∧ i < x + n * r.vl) → (t.bench k).store.byte i = m.byte i) ∧
      (∀ l, l < r.vl → (t.bench k).store.readNat (x + n * l) n = (fromFp32 fmt ((r.getV v).lane l)).code % 2 ^ (8 * n)))

/-- On a ready bench with vl = 0, every arithmetic vector instruction, VLD and VST that decodes leaves every register (but an address register that its operand steps), every byte and everything else as it was, and raises no fault. (R85, R97.) -/
def Obligations.ZeroLength : Prop :=
  ∀ (b : BenchId) (tag : BitVec 16) (s : State) (vd va vb : Fin 32), SlotReady s.toDev (benchKey b) → (s.bench (benchKey b)).arch.vl = 0 →
    let k := benchKey b
    let r := (s.bench k).arch
    (∃ t, exec (.vfma b tag vd va vb) s = .next t ∧ ArchOnly s t k r) ∧
    (∀ (f : BitVec 4) bs, f.toNat ≤ 4 → ∃ t, exec (.vbin b tag vd va vb f bs) s = .next t ∧ ArchOnly s t k r) ∧
    (∀ f : BitVec 4, f.toNat ≤ 7 → ∃ t, exec (.vun b tag vd va f) s = .next t ∧ ArchOnly s t k r) ∧
    (∀ (f : BitVec 2) h, f.toNat ≤ 2 → ∃ t, exec (.vred b tag vd va f h) s = .next t ∧ ArchOnly s t k r) ∧
    (∀ (f : BitVec 2) e, f.toNat ≤ 1 → ∃ t, exec (.vscan b tag vd va f e) s = .next t ∧ ArchOnly s t k r) ∧
    (∀ (f : BitVec 2) e, f.toNat ≤ 1 → (s.bench k).csv ≠ 2 → ∃ t, exec (.vsegscan b tag vd va vb f e) s = .next t ∧ ArchOnly s t k r) ∧
    (∀ (a : AOp) (fmt : BitVec 4), (isV3Fmt fmt = true → (s.bench k).csv ≠ 2) →
      (∃ t, exec (.vld b tag vd a fmt) s = .next t ∧ ArchOnly s t k (r.afterSlot (s.bench k).csv [a])) ∧
      (∃ t, exec (.vst b tag vd a fmt) s = .next t ∧ ArchOnly s t k (r.afterSlot (s.bench k).csv [a])))

/-- On a ready bench, with a format the loader takes (TR only with one that accepts it), an unmarked tile address that is a multiple of 64 with the whole tile inside the store, and for an MX format the same of the scale address and its 128 bytes, MLDA fills loader A and MLDB loader B with the tile's bytes, the scales, the marks of their 32-byte sectors and the addresses, and writes nothing else but stepped address registers and, with TR, the register tile that the tile passes through (its content after the load is the model's choice, log 96). (R92, R350, R521, R522.) -/
def Obligations.TileLoads : Prop :=
  ∀ (b : BenchId) (tag : BitVec 16) (s : State) (a sa : AOp) (fmt pw : BitVec 4) (tr : Bool), SlotReady s.toDev (benchKey b) →
    let k := benchKey b
    let r := (s.bench k).arch
    let m := (s.bench k).store
    let x := (r.aop a).ea
    let y := (r.aop sa).ea
    let n (w : BitVec 4) := tileBytes fmt w
    let loader (w : BitVec 4) : Loader :=
      { fmt := fmt, pw := w, tile := m.read x (n w), scales := if isMx fmt then m.read y 128 else [], tileMarks := m.markList x (n w),
        scaleMarks := if isMx fmt then m.markList y 128 else [], tr := tr, addr := BitVec.ofNat 48 x, saddr := BitVec.ofNat 48 y }
    let through (q : Arch) (w : BitVec 4) : Arch := if tr then { q with regTile := lastPass fmt (m.read x (n w)) } else q
    (isV3Fmt fmt = true → (s.bench k).csv ≠ 2) → (tr = true → fmt ∈ [1#4, 2#4, 8#4, 9#4, 0xA#4]) →
    (r.aop a).mark = false → x % 64 = 0 →
    (isMx fmt = true → (r.aop sa).mark = false ∧ y % 64 = 0 ∧ y + 128 ≤ 0x400000) →
    (isMx fmt = false → sa.step = false ∧ sa.reg = 0) →
    (1 ≤ fmt.toNat → fmt.toNat ≤ 0xA → x + n 0 ≤ 0x400000 →
      ∃ t, exec (.mlda b tag a fmt tr sa) s = .next t ∧
        ArchOnly s t k ({ through r 0 with la := loader 0 }.afterSlot (s.bench k).csv [a, sa])) ∧
    (1 ≤ fmt.toNat → fmt.toNat ≤ 0xB → (fmt = 0xB → 1 ≤ pw.toNat ∧ pw.toNat ≤ 8) → (fmt ≠ 0xB → pw = 0) → x + n pw ≤ 0x400000 →
      ∃ t, exec (.mldb b tag a fmt tr sa pw) s = .next t ∧
        ArchOnly s t k ({ through r pw with lb := loader pw }.afterSlot (s.bench k).csv [a, sa]))

/-- On a ready bench, where the loaders hold a pair of formats that MMA accepts and no marked sector, MMA adds the product of the loaders to its accumulator, or to zero with Z, and writes nothing else; MSTA with a storable format, at an unmarked address that is a multiple of 64 with the whole tile inside the store, writes the converted accumulator there, every byte outside it reading as before, and with CLR the accumulator becomes zero. (R90, R91, R117, R350, R523.) -/
def Obligations.MatrixSlots : Prop :=
  ∀ (b : BenchId) (tag : BitVec 16) (s : State) (acc : Fin 4), SlotReady s.toDev (benchKey b) →
    let k := benchKey b
    let r := (s.bench k).arch
    let m := (s.bench k).store
    (∀ z, mmaPair r.la.fmt r.lb.fmt = true → r.la.tileMarks = [] → r.la.scaleMarks = [] → r.lb.tileMarks = [] →
        r.lb.scaleMarks = [] →
      ∃ t, exec (.mma b tag acc z) s = .next t ∧
        ArchOnly s t k (r.setAcc acc (mmaTile r.la r.lb (if z then [] else r.getAcc acc)))) ∧
    (∀ (clr : Bool) (a : AOp) (fmt : BitVec 4), fmt ∈ [1#4, 2#4, 8#4, 9#4, 0xA#4, 0xC#4] → m.wf = true → (r.aop a).mark = false →
      (r.aop a).ea % 64 = 0 → (r.aop a).ea + 4096 * fmtBytes fmt ≤ 0x400000 →
      ∃ t, exec (.msta b tag acc clr a fmt) s = .next t ∧ OnlyRetires s t k ∧
        (t.bench k).arch = (if clr then r.setAcc acc [] else r).afterSlot (s.bench k).csv [a] ∧
        (∀ i, ¬ ((r.aop a).ea ≤ i ∧ i < (r.aop a).ea + 4096 * fmtBytes fmt) → (t.bench k).store.byte i = m.byte i) ∧
        ∀ e, e < 4096 → (t.bench k).store.readNat ((r.aop a).ea + fmtBytes fmt * e) (fmtBytes fmt) =
          (fromFp32 fmt ((r.getAcc acc).getD e 0)).code % 2 ^ (8 * fmtBytes fmt))

/-- A cell of an MMA with a NaN among its operands or in its accumulator, or with an MX scale of 255, is the canonical NaN 0x7FC0_0000. (R117, R118, R119.) -/
def Obligations.MmaSpecialValues : Prop :=
  ∀ (half : Bool) (a b : List FV) (sa sb : Nat × Nat) (acc : BitVec 32),
    ((∃ p ∈ a.zip b, p.1.isNaN = true ∨ p.2.isNaN = true) ∨ sa.1 = 255 ∨ sa.2 = 255 ∨ sb.1 = 255 ∨ sb.2 = 255 ∨ (fp32 acc).isNaN = true) →
      mmaCell half a b sa sb acc = 0x7FC00000#32

/-- On a ready bench MPUSH puts its accumulator at the tail of a shelf that holds fewer than 16 tiles and with CLR zeroes it; on a full shelf it is ignored and counted in native mode, and waits with BP_WAIT in back-pressure mode; VPOP reads the next row pair of the head tile into all lanes of its register and waits on an empty shelf. (R90, R136, R137, R139, R141, R142.) -/
def Obligations.ShelfSlots : Prop :=
  ∀ (b : BenchId) (tag : BitVec 16) (s : State), SlotReady s.toDev (benchKey b) →
    let k := benchKey b
    let r := (s.bench k).arch
    let sh := (s.bench k).shelf
    (∀ (acc : Fin 4) (clr : Bool), sh.items.length < 16 →
      ∃ t, exec (.mpush b tag acc clr) s = .next t ∧ OnlyRetires s t k ∧ (t.bench k).shelf.items = sh.items ++ [⟨fullTile (r.getAcc acc), []⟩] ∧
        (t.bench k).arch = (if clr then r.setAcc acc [] else r) ∧ (t.bench k).store = (s.bench k).store) ∧
    (∀ (acc : Fin 4) (clr : Bool), 16 ≤ sh.items.length → sh.mode = false →
      ∃ t, exec (.mpush b tag acc clr) s = .next t ∧ (t.bench k).shelf.items = sh.items ∧ (t.bench k).shelf.overrun = true ∧
        (t.bench k).shelf.overruns = satAdd16 sh.overruns 1 ∧
        (t.bench k).arch = (if clr then r.setAcc acc [] else r) ∧ (t.bench k).store = (s.bench k).store ∧ (∀ j, j ≠ k → t.bench j = s.bench j)) ∧
    (∀ (acc : Fin 4) (clr : Bool), 16 ≤ sh.items.length → sh.mode = true →
      ∃ t, exec (.mpush b tag acc clr) s = .next t ∧ (t.bench k).shelf.items = sh.items ∧ (t.bench k).shelf.bpWait = true ∧
        (t.bench k).waitKind = 5 ∧ (t.bench k).arch = r ∧ (t.bench k).store = (s.bench k).store ∧ (∀ j, j ≠ k → t.bench j = s.bench j)) ∧
    (∀ (vd : Fin 32) (it : ShelfItem) (rest : List ShelfItem), sh.items = it :: rest →
      ∃ t, exec (.vpop b tag vd) s = .next t ∧ OnlyRetires s t k ∧ (t.bench k).arch = r.setV vd (it.pair sh.headPair) ∧
        (t.bench k).shelf.items = (if sh.headPair = 31 then rest else sh.items) ∧
        (t.bench k).shelf.headPair = (if sh.headPair = 31 then 0 else sh.headPair + 1) ∧ (t.bench k).store = (s.bench k).store) ∧
    (∀ vd : Fin 32, sh.items = [] →
      ∃ t, exec (.vpop b tag vd) s = .next t ∧ (t.bench k).waitKind = 5 ∧ (t.bench k).arch = r ∧ (t.bench k).store = (s.bench k).store ∧ (∀ j, j ≠ k → t.bench j = s.bench j))

/-- When an MPUSH waits alone with its tile on a bench that runs and the shelf has room again, MPUSH_BACKPRESSURE_ADMIT puts the tile at the tail and the wait is over; when a VPOP waits alone and a tile is on the shelf, VPOP_ROWS_ARRIVE gives it the next row pair and the wait is over. With BUNDLE_ISSUE, or its own command again, a bundle goes on whose one slot is RECV once a message that fits the store is in its queue, which it takes; CWAIT once its counter is at most MAX; and STEPEND once its release half is complete, the bench then being at its step end. When a FENCE goes on is stated in Fences. (R86, R93, R98, R100, R139, R142, R335.) -/
def Obligations.WaitReleases : Prop :=
  ∀ (b : BenchId) (s : State) (tag : BitVec 16),
    let k := benchKey b
    let r := (s.bench k).arch
    let sh := (s.bench k).shelf
    let solo (slot : Nat) (op : SlotOp) : Bundle := { mask := BitVec.ofNat 8 (2 ^ slot), slots := [(slot, op)], count := 1, tag := tag, rep := 0, words := 1, fetched := false }
    s.issues k = true → (s.bench k).repIdx = 0 →
    (∀ (acc : Fin 4) (clr : Bool) (tile : List (BitVec 32)), (s.bench k).wait = some ⟨5, solo 0 (.mpush acc clr)⟩ → sh.bpWait = true →
        sh.rest = some [tile] → sh.items.length < 16 →
      ∃ t, exec (.mpushBackpressureAdmit b) s = .next t ∧ OnlyRetires s t k ∧ (t.bench k).wait = none ∧ (t.bench k).shelf.bpWait = false ∧
        (t.bench k).shelf.items = sh.items ++ [⟨tile, []⟩] ∧ (t.bench k).arch = (if clr then r.setAcc acc [] else r) ∧ (t.bench k).store = (s.bench k).store) ∧
    (∀ (vd : Fin 32) (it : ShelfItem) (rest : List ShelfItem), (s.bench k).wait = some ⟨5, solo 2 (.vpop vd)⟩ → sh.popped = none →
        sh.rest = some [] → sh.own = 0 → sh.items = it :: rest →
      ∃ t, exec (.vpopRowsArrive b) s = .next t ∧ OnlyRetires s t k ∧ (t.bench k).wait = none ∧
        (t.bench k).arch = r.setV vd (it.pair sh.headPair) ∧ (t.bench k).store = (s.bench k).store) ∧
    (let goesOn (own : Instr) (p : State → Prop) : Prop := ∀ c, (c = own ∨ ∃ ok, c = .bundleIssue b [] ok) → ∃ t, exec c s = .next t ∧ p t
     (∀ (q : Fin 8) (a : AOp) (xlen xsrc : Fin 32) (msg : Msg), (s.bench k).wait = some ⟨1, solo 6 (.recv q a xlen xsrc)⟩ →
        (r.aop a).mark = false → (s.bench k).oldest q = some msg → (s.bench k).store.wf = true → (r.aop a).ea + msg.payload.length ≤ 0x400000 →
        goesOn (.recv b tag q a xlen xsrc) (fun t => OnlyRetires s t k ∧ (t.bench k).wait = none ∧
          (t.bench k).inbox = (s.bench k).inbox.erase msg ∧
          (t.bench k).arch = ((r.setX xlen (BitVec.ofNat 64 msg.payload.length) false).setX xsrc (msg.src.setWidth 64) false).afterSlot
            (s.bench k).csv [a] ∧
          ∀ i, (t.bench k).store.byte i = if (r.aop a).ea ≤ i ∧ i < (r.aop a).ea + msg.payload.length
            then msg.payload.getD (i - (r.aop a).ea) 0 else (s.bench k).store.byte i)) ∧
      (∀ (ct : Fin 8) (max : BitVec 7), (s.bench k).wait = some ⟨2, solo 4 (.cwait ct max)⟩ → (s.bench k).ct ct ≤ max.toNat →
        goesOn (.cwait b tag ct max) (fun t => ArchOnly s t k r ∧ (t.bench k).wait = none)) ∧
      ((s.bench k).wait = some ⟨3, solo 7 .stepend⟩ → s.released k = true →
        goesOn (.stepend b tag) (fun t => (t.bench k).atStepEnd = true ∧ (t.bench k).arch = r ∧ (t.bench k).st = .running ∧
          (t.bench k).store = (s.bench k).store ∧ ∀ j, j ≠ k → t.bench j = s.bench j)))

/-- On a ready bench a copy command whose unmarked descriptor at an aligned address inside the store names its operation, passes the checks of Table 10-6 leaves the stores as the transfer leaves them and, where the transfer meets no fault, one more transfer outstanding on its counter with the address register stepped, and where it does, a bench that no longer runs or awaits the discard; a transfer that meets a held channel moves nothing yet and is outstanding with its descriptor (log 106). COPY_COMPLETE removes the transfer it names, after its moves where they waited; it waits on while a channel that the transfer reads, or in which its writes wait, is still held. That the data moves whole at the copy command and COPY_COMPLETE only ends it is the model's choice of log 43, and the address step before a transfer that faults that of log 101. CWAIT passes where its counter is at most MAX and waits otherwise. (R93, R164, R277, R280, R282, R290, R308.) -/
def Obligations.CopySlots : Prop :=
  ∀ (b : BenchId) (tag : BitVec 16) (s : State),
    let k := benchKey b
    let r := (s.bench k).arch
    let m := (s.bench k).store
    (∀ (a : AOp) (ct : Fin 8), SlotReady s.toDev k →
      let x := (r.aop a).ea
      let ds := descOf (m.read x 64)
      let e : Dev := ((s.toDev.modBench k (fun q => { q with repIdx := 0 })).modBench k (fun q => { q with arch := q.arch.afterSlot q.csv [a] })).fresh
      let out := (Xfer.start e []).run k ds
      (r.aop a).mark = false → x % 64 = 0 → x + 64 ≤ 0x400000 → (s.bench k).transfers.length < 64 → m.firstMark x 64 = none →
      ds.firstFault s.cmp = none →
      let good (c : Instr) : Prop := ∃ t, exec c s = .next t ∧
        if out.stop = some .wait then (∀ j, j ≠ k → t.bench j = s.bench j) ∧ t.stks = s.stks ∧ t.sbs = s.sbs ∧ (t.bench k).store = m ∧
          ∃ tr : Transfer, (t.bench k).transfers = (s.bench k).transfers ++ [tr] ∧ tr.ct = ct ∧ tr.todo = some (m.read x 64)
        else (t.bench k).store = (out.d.bench k).store ∧ t.stks = out.d.stks ∧
        t.sbs = out.d.sbs ∧ (∀ j, j ≠ k → t.bench j = out.d.bench j) ∧
        if out.stop = none ∧ (out.d.bench k).st = .running ∧ (out.d.bench k).awaitDiscard = false then
          (t.bench k).arch = { (out.d.bench k).arch with pc := r.pc } ∧
            ∃ i : Issue, (t.bench k).transfers = (out.d.bench k).transfers ++ [⟨ct, i, BitVec.ofNat 48 x, ds.inPlace, out.queued, none, e.writtenIn out.d k⟩]
        else (t.bench k).st ≠ .running ∨ (t.bench k).awaitDiscard = true
      (ds.op = 1 → good (.move b tag a ct)) ∧ (ds.op = 2 → good (.copyGather b tag a ct)) ∧ (ds.op = 3 → good (.scatter b tag a ct)) ∧
        (ds.op = 4 → good (.tally b tag a ct))) ∧
    (∀ (idx : Nat) (x : Transfer), (s.bench k).transfers[idx]? = some x →
      (x.todo = none → s.writesWait k x = true → exec (.copyComplete b idx) s = .next s) ∧
      (x.todo = none → s.writesWait k x = false → ∃ t, exec (.copyComplete b idx) s = .next t ∧ OnlyBench s t k ∧
        (t.bench k).transfers = (s.bench k).transfers.eraseIdx idx ∧ (t.bench k).arch = r ∧ (t.bench k).store = m) ∧
      (∀ bytes, x.todo = some bytes →
        let out := (Xfer.start s.toDev x.queued).run k (descOf bytes)
        (out.stop = some .wait → exec (.copyComplete b idx) s = .next s) ∧
        (out.stop = none →
          let y : Transfer := { x with todo := none, wrote := s.writtenIn out.d k }
          ∃ t, exec (.copyComplete b idx) s = .next t ∧ t.stks = out.d.stks ∧ t.sbs = out.d.sbs ∧
          (∀ j, j ≠ k → t.bench j = out.d.bench j) ∧ (t.bench k).store = (out.d.bench k).store ∧
          (t.bench k).transfers = if out.d.writesWait k y then (out.d.bench k).transfers.set idx y else (out.d.bench k).transfers.eraseIdx idx))) ∧
    (∀ (ct : Fin 8) (max : BitVec 7), SlotReady s.toDev k → max.toNat ≤ 64 →
      ((s.bench k).ct ct ≤ max.toNat → ∃ t, exec (.cwait b tag ct max) s = .next t ∧ ArchOnly s t k r) ∧
      (max.toNat < (s.bench k).ct ct → ∃ t, exec (.cwait b tag ct max) s = .next t ∧ (t.bench k).waitKind = 2 ∧
        (t.bench k).arch = r ∧ (t.bench k).store = (s.bench k).store ∧ (∀ j, j ≠ k → t.bench j = s.bench j)))

/-- On a ready bench a FENCE of scope bench whose release half is complete empties the read-staging buffer and counts; of scope device it begins, with every sideboard and stack of an active cabinet to be reached; of scope suite it begins with its marker awaited, which on another device than the suite head it sends to the head (in Suite.sent, the model's form of log 44); with the release half incomplete it waits and begins nothing. With BUNDLE_ISSUE, or its own command again, a bundle that waits with its one slot a FENCE goes on: one of scope bench once its release half is complete, one of scope device or suite once, its release half complete, every place has acknowledged and its suite marker is back. It then retires: read staging is emptied, the fence is gone, the counter of its scope rises by 1 and the wait is over. (R94, R330, R331, R332, R343, R344.) -/
def Obligations.Fences : Prop :=
  ∀ (b : BenchId) (tag : BitVec 16) (s : State),
    let k := benchKey b
    (SlotReady s.toDev k → s.released k = true →
      (∃ t, exec (.fence b tag .bench) s = .next t ∧ OnlyRetires s t k ∧ (t.bench k).arch = (s.bench k).arch ∧ (t.bench k).store = (s.bench k).store ∧ (t.bench k).wait = none ∧
        (t.bench k).staging = [] ∧ (t.bench k).fenceBench = satInc16 (s.bench k).fenceBench) ∧
      ((s.bench k).fence = none →
        (∃ t, exec (.fence b tag .device) s = .next t ∧ (t.bench k).waitKind = 6 ∧ (t.bench k).fence = some ⟨.device, s.places, false, []⟩ ∧
          (t.bench k).arch = (s.bench k).arch ∧ (t.bench k).store = (s.bench k).store ∧ (∀ j, j ≠ k → t.bench j = s.bench j)) ∧
        (∃ t, exec (.fence b tag .suite) s = .next t ∧ (t.bench k).waitKind = 6 ∧ (t.bench k).fence = some ⟨.suite, [], true, []⟩ ∧
          t.suite.sent = (if s.suite.head then s.suite.sent else s.suite.sent ++ [.fence (s.benchEp k)]) ∧
          (t.bench k).arch = (s.bench k).arch ∧ (t.bench k).store = (s.bench k).store ∧ (∀ j, j ≠ k → t.bench j = s.bench j)))) ∧
    (SlotReady s.toDev k → s.released k = false → ∀ sc, ∃ t, exec (.fence b tag sc) s = .next t ∧ (t.bench k).waitKind = 6 ∧
      (t.bench k).fence = (s.bench k).fence ∧ (t.bench k).arch = (s.bench k).arch ∧ (t.bench k).store = (s.bench k).store ∧ (∀ j, j ≠ k → t.bench j = s.bench j)) ∧
    (∀ sc : FenceScope, s.issues k = true → (s.bench k).repIdx = 0 → s.released k = true →
      (s.bench k).wait = some ⟨6, { mask := 16, slots := [(4, .fence sc)], count := 1, tag := tag, rep := 0, words := 1, fetched := false }⟩ →
      (sc = .bench ∨ ∃ f, (s.bench k).fence = some f ∧ f.places = [] ∧ f.suite = false) →
      ∀ c, (c = .fence b tag sc ∨ ∃ ok, c = .bundleIssue b [] ok) → ∃ t, exec c s = .next t ∧ OnlyRetires s t k ∧ (t.bench k).wait = none ∧
        (t.bench k).staging = [] ∧ (t.bench k).fence = none ∧ (t.bench k).arch = (s.bench k).arch ∧ (t.bench k).store = (s.bench k).store ∧
        (t.bench k).fenceBench = (if sc = .bench then satInc16 (s.bench k).fenceBench else (s.bench k).fenceBench) ∧
        (t.bench k).fenceDevice = (if sc = .device then satInc16 (s.bench k).fenceDevice else (s.bench k).fenceDevice) ∧
        (t.bench k).fenceSuite = if sc = .suite then satInc16 (s.bench k).fenceSuite else (s.bench k).fenceSuite)

/-- DRAIN_MARKER at a place that the bench's fence awaits, a sideboard or a stack no channel of which is held, or any place of a fenced cabinet, is acknowledged: the place is awaited no longer. At a stack with a held channel it is awaited still, and the marker stays there. FENCE_SUITE_MARKER with the bench's marker, at the suite head without crossing a link and at another device over a port whose checks it passes, where no host access before it waits, ends the wait for it and begins the device's drain; behind one that waits it waits there. FENCE_SUITE_TIMEOUT of a bench that waits for its suite marker ends the fence with FLT_FENCE_SUITE, and the bench waits for the discard. (R20, R331, R332, R336.) -/
def Obligations.FenceMarkers : Prop :=
  ∀ (b : BenchId) (s : State) (f : FenceRun),
    let k := benchKey b
    (s.bench k).fence = some f →
    (∀ c : Cab, .sideboard c ∈ f.places → ∃ t, exec (.drainMarker b (.sideboard c)) s = .next t ∧
      (t.bench k).fence = some { f with places := f.places.filter (· != .sideboard c) } ∧ (s.fenced c.val = false → (t.sb c.val).dq = [])) ∧
    (∀ x : Stk, .stack x ∈ f.places → (s.fenced (x.val / 2) = true ∨ (s.stk x.val).hold = false) →
      ∃ t, exec (.drainMarker b (.stack x)) s = .next t ∧
        (t.bench k).fence = some { f with places := f.places.filter (· != .stack x) } ∧
        (s.fenced (x.val / 2) = false → (t.stk x.val).held = [])) ∧
    (∀ x : Stk, .stack x ∈ f.places → s.fenced (x.val / 2) = false → (s.stk x.val).hold = true →
      ∃ t g, exec (.drainMarker b (.stack x)) s = .next t ∧ (t.bench k).fence = some g ∧ g.places = f.places ∧ x ∈ g.held) ∧
    (f.suite = true → ∀ (via : Option Via) (d : Dev),
      (match via with
        | none => s.suite.head = true ∧ d = s.toDev
        | some v => s.suite.head = false ∧ s.classH v 1 false true = .ok d) →
      (s.bridge.parked = [] → ∃ t, exec (.fenceSuiteMarker (.back b via)) s = .next t ∧ OnlyBench { s with toDev := d } t k ∧
        t.bench k = { s.bench k with fence := some { f with suite := false, places := s.places } }) ∧
      (∀ h r, s.bridge.parked = h :: r → (({ d with bridge := { d.bridge with parked := [] } } : Dev).hostPrep h).hostBlocked h = true →
        ∃ t a, exec (.fenceSuiteMarker (.back b via)) s = .next t ∧ t.bridge.parked = a :: (r ++ [.fence k]))) ∧
    (f.scope = .suite → f.suite = true → (s.bench k).wait.isSome = true → ∃ t, exec (.fenceSuiteTimeout b) s = .next t ∧ (t.bench k).fence = none ∧
      (t.bench k).wait = none ∧ (t.bench k).awaitDiscard = true ∧ (t.bench k).faultCode = fltFenceSuite ∧
      t.discards = s.discards ++ [⟨fltFenceSuite, s.step.setWidth 16⟩])

/-- On a ready bench ADDI, ALU, SETA, SETN, BRC, BRX and the register form of VSETL with a marked source register leave every register as it was, raise FLT_POISON_CONSUMED, report a step discard with that code and leave the bench RUNNING, awaiting the discard. (R102, R103, R350, R363.) -/
def Obligations.MarkedRegisterBites : Prop :=
  ∀ (b : BenchId) (tag : BitVec 16) (s : State) (x : Fin 32), SlotReady s.toDev (benchKey b) →
    let k := benchKey b
    ((s.bench k).arch.getX x).mark = true →
    let bites (c : Instr) : Prop := ∃ t, exec c s = .next t ∧ (t.bench k).arch = (s.bench k).arch ∧ (t.bench k).st = .running ∧
      (t.bench k).awaitDiscard = true ∧ (t.bench k).faultCode = fltPoisonConsumed ∧ (t.bench k).store = (s.bench k).store ∧
      t.discards = s.discards ++ [⟨fltPoisonConsumed, s.step.setWidth 16⟩] ∧ (∀ j, j ≠ k → t.bench j = s.bench j)
    (∀ xd imm, bites (.addi b tag xd x imm)) ∧
    (∀ xd y (f : BitVec 4), f.toNat ≤ 13 → bites (.alu b tag xd x y f) ∧ bites (.alu b tag xd y x f)) ∧
    (∀ ar f, bites (.seta b tag ar f x)) ∧ (∀ n : Fin 16, n ≠ 0 → bites (.setn b tag n x)) ∧
    (∀ cond off, bites (.brc b tag x cond off)) ∧ (∀ link, bites (.brx b tag x link)) ∧ (∀ imm : BitVec 8, bites (.vsetl b tag true imm x))

/-- On a ready bench ATOM at an aligned sideboard address of a cabinet that is open, filled and unmarked there, with unmarked operands and no error latent in the word, replaces the word by the operation's value, changes no other byte of that sideboard, and a returning operation writes the old value to XD; the addressed register steps. (R95, R167, R170.) -/
def Obligations.Atomics : Prop :=
  ∀ (b : BenchId) (tag : BitVec 16) (s : State) (op : BitVec 4) (a : AOp) (xd xs xc : Fin 32), SlotReady s.toDev (benchKey b) →
    let k := benchKey b
    let r := (s.bench k).arch
    let x := (r.aop a).ea
    let c := sbCab x
    let o := sbOff x
    let n := atomSize op
    let old := BitVec.ofNat 64 ((s.sb c).mem.readNat o n)
    op.toNat ≤ 10 → (op = 3 → (s.bench k).csv ≠ 2) → (r.aop a).mark = false → (r.getX xs).mark = false → (op = 10 → (r.getX xc).mark = false) →
    bits 47 44 x = 1 → x % n = 0 → s.sbRefusal (bits 43 0 x) n = none → (s.sb c).filled = true → (s.sb c).mem.anyMark o n = false →
    (s.sb c).upsets = [] → (s.sb c).mem.wf = true →
      ∃ t, exec (.atom b tag op a xd xs xc) s = .next t ∧
        ((t.sb c).mem.readNat o n = (atomNew op old (r.getX xs).val (r.getX xc).val).toNat % 2 ^ (8 * n)) ∧
        (∀ i, ¬ (o ≤ i ∧ i < o + n) → (t.sb c).mem.byte i = (s.sb c).mem.byte i) ∧
        (∀ j, j ≠ c → t.sb j = s.sb j) ∧
        (t.bench k).arch = (if 4 ≤ op.toNat then (r.afterSlot (s.bench k).csv [a]).setX xd old false
          else r.afterSlot (s.bench k).csv [a]) ∧
        (t.bench k).store = (s.bench k).store ∧ (∀ j, j ≠ k → t.bench j = s.bench j)

/-- On a ready bench SEND with unmarked operands, a length of 1 to 16,384 inside the store, an endpoint of this device to which its cabinet has a route (log 115) and room in the outbox puts the message with the payload's bytes in flight, one copy for each bench of the cabinet where it is a broadcast, and advances the bench's message number; RECV writes the payload of the oldest message of its queue to the store and its length and sender to the two registers and frees its place, and waits on an empty queue; POLL reads the number of messages held in its queue. (R42, R43, R48, R49, R98.) -/
def Obligations.MessageSlots : Prop :=
  ∀ (b : BenchId) (tag : BitVec 16) (s : State) (q : Fin 8), SlotReady s.toDev (benchKey b) →
    let k := benchKey b
    let r := (s.bench k).arch
    let m := (s.bench k).store
    (∀ (a : AOp) (xdest xlen : Fin 32),
      let len := (r.getX xlen).val.toNat
      let dest : BitVec 18 := (r.getX xdest).val.setWidth 18
      (r.getX xdest).mark = false → (r.getX xlen).mark = false → (r.aop a).mark = false → 1 ≤ len → len ≤ 16384 →
      (r.getX xdest).val.toNat < 2 ^ 18 → (r.aop a).ea + len ≤ 0x400000 → epValid dest = true → epDev dest = s.number.toNat → s.inRoute (k / 96) dest = true →
      s.outboxBytes k + 64 + (len + 63) / 64 * 64 ≤ 65536 →
      ∃ t msg, exec (.send b tag q a xdest xlen) s = .next t ∧ t.net = s.net ++ s.expand msg ∧ msg.dest = dest ∧ msg.src = s.benchEp k ∧
        msg.queue = q ∧ msg.tag = tag ∧ msg.seq = (s.bench k).msgSeq ∧ msg.payload = m.read (r.aop a).ea len ∧
        msg.step = s.step.setWidth 16 ∧ msg.planId = s.plan.planId ∧ (t.bench k).msgSeq = (s.bench k).msgSeq + 1 ∧
        (t.bench k).arch = r.afterSlot (s.bench k).csv [a] ∧ (t.bench k).store = m ∧ (∀ j, j ≠ k → t.bench j = s.bench j)) ∧
    (∀ (a : AOp) (xlen xsrc : Fin 32) (msg : Msg), (r.aop a).mark = false → (s.bench k).oldest q = some msg → m.wf = true →
      (r.aop a).ea + msg.payload.length ≤ 0x400000 →
      ∃ t, exec (.recv b tag q a xlen xsrc) s = .next t ∧ OnlyRetires s t k ∧ (t.bench k).inbox = (s.bench k).inbox.erase msg ∧
        (t.bench k).arch = ((r.setX xlen (BitVec.ofNat 64 msg.payload.length) false).setX xsrc (msg.src.setWidth 64) false).afterSlot
          (s.bench k).csv [a] ∧
        ∀ i, (t.bench k).store.byte i = if (r.aop a).ea ≤ i ∧ i < (r.aop a).ea + msg.payload.length
          then msg.payload.getD (i - (r.aop a).ea) 0 else m.byte i) ∧
    (∀ (a : AOp) (xlen xsrc : Fin 32), (r.aop a).mark = false → (s.bench k).oldest q = none →
      ∃ t, exec (.recv b tag q a xlen xsrc) s = .next t ∧ (t.bench k).waitKind = 1 ∧ (t.bench k).arch = r ∧ (t.bench k).store = (s.bench k).store ∧ (∀ j, j ≠ k → t.bench j = s.bench j)) ∧
    (∀ xd, ∃ t, exec (.poll b tag q xd) s = .next t ∧
      ArchOnly s t k (r.setX xd (BitVec.ofNat 64 ((s.bench k).inbox.filter (fun x => x.queue == q)).length) false))

/-- On a ready bench whose PC names the bundle of one 32-bit NOP, BUNDLE_ISSUE retires it, the PC moving on by 8 and no other register changing, and the bench's event count rises by 1; where TRACE_CTL admits kind 0 with the bundle's tag the bench's trace takes the entry of Table 3-15 with that count and the PMASK at 32 times its SEQ modulo 2,048, or, where its queue is full, counts it in DROPPED, and its SEQ rises by 1, and where TRACE_CTL does not admit it the trace stays as it was; where PMASK of the header at the PC is zero and the header claims one word that lies inside program memory, the bench is FAULTED with FLT_AKK_ENCODING and changes no register; where the PC is 262,144 or above it is FAULTED with FLT_AKK_PC. Errors of the bench's SRAM are met before the bundle (log 95): a store sector uncorrectable on both reads becomes marked, and any other outcome of a read leaves the store as it was. Where one of them is lasting, FLT_BENCH_LOST is recorded and discards the step before the bundle, and after the bundle the spare takes over from the bench as SPARE_SWAP has it. (R39, R75, R76, R79, R86, R105, R347, R348, R349, R362, R474, R483.) -/
def Obligations.BundleIssue : Prop :=
  ∀ (b : BenchId) (ok : Bool) (s : State), SlotReady s.toDev (benchKey b) →
    let k := benchKey b
    let r := (s.bench k).arch
    let p := (s.bench k).program
    (r.pc + 8 ≤ 262144 → p.readNat r.pc 4 / 2 ^ 24 = 0x80 → p.readNat r.pc 4 % 256 = 0 → p.readNat (r.pc + 4) 4 = 0x04000000 →
      let w := p.readNat r.pc 4 / 256 % 65536
      let n := (s.bench k).trace.events + 1
      ∃ t, exec (.bundleIssue b [] ok) s = .next t ∧ ArchOnly s t k { r with pc := r.pc + 8 } ∧ (t.bench k).trace.events = n ∧
        ((s.bench k).traceMem.wf = true → Traces (s.bench k) (t.bench k) 0 w
          (leBytes 8 ((s.bench k).trace.seq.toNat * 65536 + w) ++ leBytes 8 (s.plan.planId.toNat * 2 ^ 48 + r.pc * 2 ^ 30) ++
            leBytes 8 ((s.benchEp k).toNat * 2 ^ 46 + s.step.toNat % 65536 * 2 ^ 12) ++ leBytes 8 (0x80 * 2 ^ 32 + n.toNat)))) ∧
    (r.pc + 8 ≤ 262144 → p.readNat r.pc 4 / 2 ^ 24 = 0 → p.readNat r.pc 4 % 16 = 0 →
      ∃ t, exec (.bundleIssue b [] ok) s = .next t ∧ (t.bench k).st = .faulted ∧ (t.bench k).faultCode = fltAkkEncoding ∧ (t.bench k).arch = r ∧ (t.bench k).store = (s.bench k).store ∧ (∀ j, j ≠ k → t.bench j = s.bench j)) ∧
    (262144 ≤ r.pc →
      ∃ t, exec (.bundleIssue b [] ok) s = .next t ∧ (t.bench k).st = .faulted ∧ (t.bench k).faultCode = fltAkkPc ∧ (t.bench k).arch = r ∧ (t.bench k).store = (s.bench k).store ∧ (∀ j, j ≠ k → t.bench j = s.bench j)) ∧
    (∀ errs : List SramErr,
      let d := errs.foldl (fun d e => d.sramError k e) s.toDev
      ((∀ e ∈ errs, s.sramLasting k e = false) → exec (.bundleIssue b errs ok) s = exec (.bundleIssue b [] ok) { s with toDev := d }) ∧
      ((∃ e ∈ errs, s.sramLasting k e = true) →
        (d.benchLost k).discards = d.discards ++ [⟨fltBenchLost, d.step.setWidth 16⟩] ∧
        (d.benchLost k).flog.offered.length = d.flog.offered.length + 1 ∧
        ∃ t, exec (.bundleIssue b [] ok) { s with toDev := d.benchLost k } = .next t ∧
          exec (.bundleIssue b errs ok) s = .next { t with toDev := t.takeSpare k ok }) ∧
      (s.fenced (k / 96) = false → (s.dom (s.benchDom k)).st ≠ 0 →
        exec (.spareSwap b ok) s = .next { s with toDev := (s.benchLost k).takeSpare k ok })) ∧
    (∀ (n : Fin 131072) (e : WordErr),
      let m := (s.bench k).store
      let u := ((s.sramError k ⟨.store n, e⟩).bench k).store
      if (retryRead (sramRead (m.read (32 * n.val) 32) (m.marked n.val)) e.first e.again).lost then u.marked n.val = true else u = m)

/-- On a ready bench STEPEND whose release half is complete reports and holds the bench at its step end, with its registers as they were; with the release half incomplete it waits and the bench is not at its step end. (R100, R101, R335.) -/
def Obligations.StepEnd : Prop :=
  ∀ (b : BenchId) (tag : BitVec 16) (s : State), SlotReady s.toDev (benchKey b) →
    let k := benchKey b
    (s.released k = true → ∃ t, exec (.stepend b tag) s = .next t ∧ (t.bench k).atStepEnd = true ∧ (t.bench k).arch = (s.bench k).arch ∧
      (t.bench k).st = .running ∧ (t.bench k).store = (s.bench k).store ∧ (∀ j, j ≠ k → t.bench j = s.bench j)) ∧
    (s.released k = false → ∃ t, exec (.stepend b tag) s = .next t ∧ (t.bench k).atStepEnd = false ∧ (t.bench k).waitKind = 3 ∧
      (t.bench k).arch = (s.bench k).arch ∧ (t.bench k).store = (s.bench k).store ∧ (∀ j, j ≠ k → t.bench j = s.bench j))

/-- Where the path reaches BENCH_CTL, HALT_REQ halts a RUNNING bench at once between bundles and otherwise leaves the request, RESUME makes a HALTED bench RUNNING, CLEAR_FAULT makes a FAULTED bench READY at its checkpoint (and a follower tells its leader, in Suite.sent by log 44, if no admission is held any more), INBOX_FLUSH drops every queued message of a HALTED or FAULTED bench into STALE, and CLR_COUNTS zeroes STALE and OVERSIZE; each changes only that and adds one journal entry, with the bit written in NEW and APPLIED 1 where the bench's state accepts it (of these bits the model's reading, log 120). A bench that halts during an unload abandons the step in flight, and a word of the leader that waited for the bench is taken (log 44). (R57, R58, R63, R64, R365, R472, R473, R516.) -/
def Obligations.BenchControl : Prop :=
  ∀ (path : Path) (b : BenchId) (s : State),
    let k := benchKey b
    let x := s.bench k
    Reaches s.toDev path (.benchCtl k) →
    (x.st = .running → x.wait = none → x.atStepEnd = false → x.awaitDiscard = false →
      ∃ t, exec (.haltReq path b) s = .next t ∧ Wrote s t (s.setBench k { x with st := .halted, haltReq := false }).noteHalt.heedLeader ∧
        Journalled s t path true false (benchReg k 0) 0 1) ∧
    (x.st = .running → (x.wait.isSome = true ∨ x.atStepEnd = true ∨ x.awaitDiscard = true) →
      ∃ t, exec (.haltReq path b) s = .next t ∧ Wrote s t (s.setBench k { x with haltReq := true }).heedLeader ∧
        Journalled s t path true false (benchReg k 0) 0 1) ∧
    (x.st = .halted → ∃ t, exec (.resume path b) s = .next t ∧ Wrote s t (s.setBench k { x with st := .running }).heedLeader ∧ Journalled s t path true false (benchReg k 0) 0 2) ∧
    (x.st ≠ .halted → ∃ t, exec (.resume path b) s = .next t ∧ Wrote s t s.heedLeader ∧ Journalled s t path false false (benchReg k 0) 0 2) ∧
    (x.st = .faulted → ∃ t, exec (.clearFault path b) s = .next t ∧ Wrote s t (s.setBench k { x.restore with st := .ready }).tellHeld.heedLeader ∧
        Journalled s t path true false (benchReg k 0) 0 4) ∧
    (x.st ≠ .faulted → ∃ t, exec (.clearFault path b) s = .next t ∧ Wrote s t s.heedLeader ∧ Journalled s t path false false (benchReg k 0) 0 4) ∧
    (x.st = .halted ∨ x.st = .faulted →
      ∃ t, exec (.inboxFlush path b) s = .next t ∧
        Wrote s t (s.setBench k { x with inbox := [], stale := satAdd16 x.stale x.inbox.length }).heedLeader ∧
        Journalled s t path true false (benchReg k 0) 0 8) ∧
    (x.st ≠ .halted → x.st ≠ .faulted → ∃ t, exec (.inboxFlush path b) s = .next t ∧ Wrote s t s.heedLeader ∧
      Journalled s t path false false (benchReg k 0) 0 8) ∧
    (∃ t, exec (.benchClrCounts path b) s = .next t ∧ Wrote s t (s.setBench k { x with stale := 0, oversize := 0 }).heedLeader ∧
      Journalled s t path true false (benchReg k 0) 0 16)

/-- Restoring a bench brings PC, x1 to x30, the address registers, the repeat counters and vl back from the checkpoint; x31, the vector registers, the accumulators and the loaders stay as they are, and no bundle waits. (R365.) -/
def Obligations.BenchRestore : Prop :=
  ∀ b : Bench, b.restore.arch.pc = b.checkpoint.pc ∧ b.restore.arch.a = b.checkpoint.a ∧ b.restore.arch.n = b.checkpoint.n ∧
    b.restore.arch.vl = b.checkpoint.vl ∧ (∀ i : Fin 32, i ≠ 0 → i ≠ 31 → b.restore.arch.getX i = b.checkpoint.x.get XReg.reset i.val) ∧
    b.restore.arch.getX 31 = b.arch.getX 31 ∧ b.restore.arch.v = b.arch.v ∧ b.restore.arch.acc = b.arch.acc ∧
    b.restore.arch.la = b.arch.la ∧ b.restore.arch.lb = b.arch.lb ∧ b.restore.wait = none ∧ b.restore.store = b.store

/-- Where the path reaches them, MAT_CTL, COPY_CTL and SHELF_CTL clear their counters, SHELF_CTL writes MODE in LOADING, HALTED or FAULTED, FLUSH empties the shelf and counts its items while no step is in flight and no MPUSH waits, INBOX_Q writes epoch, check and a capacity within R68 and discards the messages of another epoch where the check is on, and TRACE_CTL with TRIG_ARM arms the trigger; each changes only that and adds one journal entry. That SHELF_CTL clears and flushes in any state of the bench where the written MODE is the one it has, and without a record, is the model's choice of log 110. (R51, R68, R127, R140, R143, R148, R295, R474, R475.) -/
def Obligations.BenchRegisterWrites : Prop :=
  ∀ (path : Path) (b : BenchId) (s : State),
    let k := benchKey b
    let x := s.bench k
    let sh := x.shelf
    (Reaches s.toDev path (.matCtl k) → ∃ t, exec (.matClrCounts path b) s = .next t ∧ Wrote s t (s.setBench k { x with sat := 0, nan := 0 })) ∧
    (Reaches s.toDev path (.copyCtl k) →
      ∃ t, exec (.copyClrCounts path b) s = .next t ∧ Wrote s t (s.setBench k { x with skipped := 0, poisonSectors := 0 })) ∧
    (Reaches s.toDev path (.shelfCtl k) →
      (∃ t, exec (.shelfClrCounts path b sh.mode) s = .next t ∧
        Wrote s t (s.setBench k { x with shelf := { sh with overruns := 0, dropped := 0 } })) ∧
      (∀ m, m ≠ sh.mode → (x.st = .loading ∨ x.st = .halted ∨ x.st = .faulted) →
        ∃ t, exec (.shelfModeWrite path b m) s = .next t ∧ Wrote s t (s.setBench k { x with shelf := { sh with mode := m } })) ∧
      (s.inStep = false → sh.bpWait = false →
        ∃ t, exec (.flush path b sh.mode) s = .next t ∧ Wrote s t (s.setBench k
          { x with shelf := { sh with items := [], headPair := 0, dropped := satAdd16 sh.dropped sh.items.length, own := 0 } }))) ∧
    (∀ (q : Fin 8) (v : BitVec 32), Reaches s.toDev path (.inboxQ k q.val) →
      (((List.range 8).filter (· != q.val)).map (fun i => (x.queue i).cap.toNat)).sum + v.toNat % 256 ≤ 128 →
      (x.st = .loading ∨ x.st = .halted ∨ x.st = .faulted ∨ v.toNat % 256 = (x.queue q.val).cap.toNat) →
      ∃ t, exec (.inboxQWrite path b q v) s = .next t ∧ { t with benches := [], journal := s.journal } = { s with benches := [] } ∧
        (∀ j, j ≠ k → t.bench j = s.bench j) ∧ t.journal.total = s.journal.total + 1 ∧
        (t.bench k).queue q.val = ⟨v.extractLsb' 16 16, v.getLsbD 15, v.setWidth 8⟩ ∧
        (∀ i, i ≠ q.val → (t.bench k).queue i = x.queue i) ∧
        (t.bench k).inbox = x.inbox.filter (fun m => !(v.getLsbD 15 && m.queue == q && m.epoch != v.extractLsb' 16 16)) ∧
        { t.bench k with queues := x.queues, inbox := x.inbox, stale := x.stale } = x) ∧
    (∀ v : BitVec 64, Reaches s.toDev path (.traceCtl k) → ∃ t, exec (.trigArm path b v) s = .next t ∧ (t.bench k).trace.armed = true ∧
      (t.bench k).trace.ctl = v &&& 0xFFFFFFFFFFFFC37F#64 ∧ t.journal.total = s.journal.total + 1 ∧ { t.bench k with trace := x.trace } = x ∧
      { t with benches := [], journal := s.journal } = { s with benches := [] } ∧ (∀ j, j ≠ k → t.bench j = s.bench j))

/-- Where the path reaches BENCH_FAULT, a read by the sideband, or by the host where no access of it waits and its writes are performed, answers the little-endian bytes of FAULT_OVERRUN and the code, and clears FAULT_PENDING of that bench only. (R66, R104, R337, R412.) -/
def Obligations.FaultRegisterRead : Prop :=
  ∀ (b : BenchId) (s : State),
    let k := benchKey b
    let x := s.bench k
    let d : Dev := s.setBench k { x with faultPending := false }
    let answer := leBytes 4 (b2n x.faultOverrun * 2 ^ 31 + x.faultCode.toNat)
    (Reaches s.toDev .host (.benchFault k) → HostQuiet s.toDev →
      exec (.benchFaultRead .host b) s = .next { s with toDev := { d with bridge := { s.bridge with cpl := some (.data answer false) } } }) ∧
    (Reaches s.toDev .sideband (.benchFault k) →
      exec (.benchFaultRead .sideband b) s = .next { s with toDev := { d with mgmt := { s.mgmt with answer := .data answer } } })

/-- Where the path reaches them and no plan is loaded, STK_ILV takes an invalid set and a valid one that lies within 0 to 288 and overlaps no other, STK_CLASS_CTL takes fields within their ranges, SCRUB_CTL with CLR_COUNTS zeroes the stack's four counters and keeps a nonzero RATE, and SB_AOW takes an invalid region and a valid one, of 64-byte multiples within the sideboard, that overlaps neither the program reserve nor another region; each changes only that and adds one journal entry. A write of STK_CLASS_CTL whose classes exceed the window is ignored and recorded, and journalled with APPLIED 0. (R156, R168, R175, R178, R382, R472, R473, R515, R516.) -/
def Obligations.StackAndSideboardRegisters : Prop :=
  ∀ (path : Path) (s : State), s.planIdle = true →
    (∀ (sk : Stk) (i : Fin 8) (v : BitVec 32), Reaches s.toDev path (.ilv sk.val i.val) →
      (v.getLsbD 31 = true → bits 17 8 v.toNat < bits 27 18 v.toNat ∧ bits 27 18 v.toNat ≤ 288 ∧ bits 30 28 v.toNat ≤ 4 ∧
        ∀ j, j < 8 → j ≠ i.val → (ilvRange ((s.stk sk.val).ilvOf j)).2 ≤ bits 17 8 v.toNat ∨
          bits 27 18 v.toNat ≤ (ilvRange ((s.stk sk.val).ilvOf j)).1) →
      ∃ t, exec (.stkIlvWrite path sk i v) s = .next t ∧
        Wrote s t (s.setStk sk.val { s.stk sk.val with ilv := (s.stk sk.val).ilv.set i.val (v &&& 0xFFFFFF00#32) })) ∧
    (∀ (sk : Stk) (v : BitVec 32), Reaches s.toDev path (.classCtl sk.val) →
      16 ≤ bits 23 16 v.toNat → 1 ≤ bits 15 8 v.toNat → bits 15 8 v.toNat ≤ 62 → 2 ≤ bits 7 0 v.toNat → bits 7 0 v.toNat ≤ 16 →
      bits 15 8 v.toNat + bits 7 0 v.toNat ≤ 64 →
      ∃ t, exec (.stkClassCtlWrite path sk v) s = .next t ∧ Wrote s t (s.setStk sk.val { s.stk sk.val with classCtl := v &&& 0xFFFFFF#32 }) ∧
        Journalled s t path true false (0x400008 + 0x10000 * sk.val) (s.stk sk.val).classCtl.toNat (v &&& 0xFFFFFF#32).toNat) ∧
    (∀ (sk : Stk) (v : BitVec 32), Reaches s.toDev path (.classCtl sk.val) → 64 < bits 15 8 v.toNat + bits 7 0 v.toNat →
      ∃ t, exec (.stkClassCtlWrite path sk v) s = .next t ∧ t.stk sk.val = s.stk sk.val ∧ t.flog.offered.length = s.flog.offered.length + 1 ∧
        Journalled s t path false false (0x400008 + 0x10000 * sk.val) (s.stk sk.val).classCtl.toNat (s.stk sk.val).classCtl.toNat) ∧
    (∀ (sk : Stk) (v : BitVec 32), Reaches s.toDev path (.scrubCtl sk.val) → v.toNat % 2 ^ 12 ≠ 0 →
      ∃ t, exec (.scrubClrCounts path sk v) s = .next t ∧ Wrote s t (s.setStk sk.val
        { s.stk sk.val with scrubCtl := v &&& 0x1FFF#32, errLasting := 0, errTransient := 0, errUncorrectable := 0, errRemaps := 0 })) ∧
    (∀ (c : Cab) (n : Fin 16) (v : BitVec 64), Reaches s.toDev path (.aow c.val n.val) → v.getLsbD 63 = false →
      bits 26 0 v.toNat % 64 = 0 → bits 53 27 v.toNat % 64 = 0 → bits 61 60 v.toNat ≤ 1 →
      ∃ t, exec (.sbAowWrite path c n v) s = .next t ∧
        Wrote s t (s.setSb c.val { s.sb c.val with aow := (s.sb c.val).aow.set n.val (v &&& 0xB03FFFFFFFFFFFFF#64) })) ∧
    (∀ (c : Cab) (n : Fin 16) (v : BitVec 64), Reaches s.toDev path (.aow c.val n.val) → v.getLsbD 63 = true →
      let base := bits 26 0 v.toNat
      let limit := bits 53 27 v.toNat
      base % 64 = 0 → limit % 64 = 0 → bits 61 60 v.toNat ≤ 1 → base < limit → limit + (s.sb c.val).reserve * 0x40000 ≤ 0x6000000 →
      (∀ j, j < 16 → j ≠ n.val → bit 63 ((s.sb c.val).aowOf j) = true →
        limit ≤ bits 26 0 ((s.sb c.val).aowOf j) ∨ bits 53 27 ((s.sb c.val).aowOf j) ≤ base) →
      ∃ t, exec (.sbAowWrite path c n v) s = .next t ∧
        Wrote s t (s.setSb c.val { s.sb c.val with aow := (s.sb c.val).aow.set n.val (v &&& 0xB03FFFFFFFFFFFFF#64) }))

/-- Where the path reaches them, DRW_MODE takes 0 to 2 and DRW_FALLBACK no valid bench above 95 while no plan is loaded, DRW_MIRROR no valid cabinet but another one while none is running, and DRW_CTL.CLR_COUNTS zeroes the four drawer counters; CAB_ROW_STEER is written in a cabinet of state 2 or 3 (fenced or starting, Table 1-5), each field of 0 to 12 or 15 taking its new value, with only the states of the bench domains and the benches of that cabinet following; each changes only that and adds one journal entry. (R70, R202, R212, R216, R234.) -/
def Obligations.DrawerRegisters : Prop :=
  ∀ (path : Path) (c : Cab) (s : State),
    let x := s.drw c.val
    (s.planIdle = true → ∀ v : BitVec 32, Reaches s.toDev path (.drwMode c.val) → v.toNat % 4 ≠ 3 →
      ∃ t, exec (.drwModeWrite path c v) s = .next t ∧ Wrote s t (s.setDrw c.val { x with mode := v &&& 3#32 })) ∧
    (s.planIdle = true → ∀ v : BitVec 32, Reaches s.toDev path (.drwFallback c.val) → (v.getLsbD 31 = true → bits 23 16 v.toNat ≤ 95) →
      ∃ t, exec (.drwFallbackWrite path c v) s = .next t ∧ Wrote s t (s.setDrw c.val { x with fallback := v &&& 0x87FF0000#32 })) ∧
    ((s.planIdle = true ∨ s.plan.st = .loaded) → ∀ v : BitVec 32, Reaches s.toDev path (.drwMirror c.val) →
      (v.getLsbD 31 = true → v.toNat % 16 < 12 ∧ v.toNat % 16 ≠ c.val) →
      ∃ t, exec (.drwMirrorWrite path c v) s = .next t ∧ Wrote s t (s.setDrw c.val { x with mirror := v &&& 0x8000000F#32 })) ∧
    (Reaches s.toDev path (.drwCtl c.val) →
      ∃ t, exec (.drwClrCounts path c) s = .next t ∧
        Wrote s t (s.setDrw c.val { x with poisonWb := 0, checkRmw := 0, yields := 0, staleStage := 0 })) ∧
    (∀ v : BitVec 32, Reaches s.toDev path (.rowSteer c.val) → ((s.cab c.val).st = 2 ∨ (s.cab c.val).st = 3) →
      ∃ t, exec (.rowSteerWrite path c v) s = .next t ∧ { t with cabs := s.cabs, benches := s.benches, pwr := s.pwr, free := s.free, journal := s.journal } = s ∧
        t.journal.total = s.journal.total + 1 ∧ (∀ j, j ≠ c.val → t.cab j = s.cab j) ∧ (∀ j, j / 96 ≠ c.val → t.bench j = s.bench j) ∧
        { t.pwr with doms := s.pwr.doms } = s.pwr ∧ (∀ id, (id / 256 ≠ c.val ∨ 104 ≤ id % 256) → t.dom id = s.dom id) ∧
        ∀ r, r < 8 → (t.cab c.val).steer r =
          if bits (4 * r + 3) (4 * r) v.toNat = 0xD ∨ bits (4 * r + 3) (4 * r) v.toNat = 0xE then (s.cab c.val).steer r
          else bits (4 * r + 3) (4 * r) v.toNat)

/-- Where the path reaches them, HMB_BASE and FLOG_BASE are written while their ENABLE is 0, with the counters of the ring restarting at 0, SEQ_CMD_BASE and SEQ_RESULT_BASE while no plan is loading, running or unloading, with a size in its range; HMB_HEAD and FLOG_HEAD take a value between their old one and the tail, and are not journalled; CLR_COUNTS of HMB_CTL, FLOG_CTL, SEQ_CTL and CMP_CTL writes the stored fields and zeroes the counters; CMP_CTL.LOAD of an unmarked record that holds a table whose slot is not busy and whose generation follows loads it in plan state NONE, LOADED, RUNNING or FAILED, and in LOADING or UNLOADING is refused and recorded (in a unit record of kind 6, index 0, the model's choice of log 39). (R55, R56, R265, R266, R270, R301, R312, R314, R322, R378, R379, R472.) -/
def Obligations.RingRegisters : Prop :=
  ∀ (path : Path) (s : State),
    (∀ v : BitVec 64, Reaches s.toDev path .hmbBase → s.hmb.ctl.getLsbD 0 = false → 10 ≤ v.toNat % 32 → v.toNat % 32 ≤ 20 →
      ∃ t, exec (.hmbBaseWrite path v) s = .next t ∧
        Wrote s t { s.toDev with hmb := { s.hmb with base := v &&& 0x0000FFFFFFFFF01F#64, head := 0, tail := 0 } }) ∧
    (∀ v : BitVec 64, Reaches s.toDev path .flogBase → s.flog.ctl.getLsbD 0 = false → 10 ≤ v.toNat % 32 → v.toNat % 32 ≤ 20 →
      ∃ t, exec (.flogBaseWrite path v) s = .next t ∧
        Wrote s t { s.toDev with flog := { s.flog with base := v &&& 0x0000FFFFFFFFF01F#64, head := 0, tail := 0 } }) ∧
    (∀ v : BitVec 64, Reaches s.toDev path .cmdBase → (s.planIdle = true ∨ s.plan.st = .loaded) → 6 ≤ v.toNat % 32 → v.toNat % 32 ≤ 16 →
      ∃ t, exec (.seqBaseWrite path false v) s = .next t ∧
        Wrote s t { s.toDev with seq := { s.seq with cmdBase := v &&& 0x0000FFFFFFFFF01F#64 } }) ∧
    (∀ v : BitVec 64, Reaches s.toDev path .resultBase → (s.planIdle = true ∨ s.plan.st = .loaded) → 13 ≤ v.toNat % 32 → v.toNat % 32 ≤ 20 →
      ∃ t, exec (.seqBaseWrite path true v) s = .next t ∧
        Wrote s t { s.toDev with seq := { s.seq with resultBase := v &&& 0x0000FFFFFFFFF01F#64 } }) ∧
    (∀ v : BitVec 32, Reaches s.toDev path .hmbHead → (v - s.hmb.head).toNat ≤ (s.hmb.tail - s.hmb.head).toNat →
      exec (.hmbHeadWrite path v) s = .next { s with hmb := { s.hmb with head := v } }) ∧
    (∀ v : BitVec 32, Reaches s.toDev path .flogHead → (v - s.flog.head).toNat ≤ (s.flog.tail - s.flog.head).toNat →
      exec (.flogHeadWrite path v) s = .next { s with flog := { s.flog with head := v } }) ∧
    (∀ v : BitVec 32, Reaches s.toDev path .hmbCtl → ∃ t, exec (.hmbClrCounts path v) s = .next t ∧
      Wrote s t { s.toDev with hmb := { s.hmb with ctl := v &&& 0x07FF0005#32, dropped := 0 } }) ∧
    (∀ v : BitVec 32, Reaches s.toDev path .flogCtl → ∃ t, exec (.flogClrCounts path v) s = .next t ∧
      Wrote s t { s.toDev with flog := { s.flog with ctl := v &&& 0x07FF0005#32, lost := 0 } }) ∧
    (∀ v : BitVec 32, Reaches s.toDev path .seqCtl → ∃ t, exec (.seqClrCounts path v) s = .next t ∧
      Wrote s t { s.toDev with seq := { s.seq with ctl := v &&& 0x07FF0005#32, stale := 0, refused := 0 } }) ∧
    (∀ v : BitVec 64, Reaches s.toDev path .cmpCtl →
      let addr := v &&& 0x0000FFFFFFFFFFE0#64
      (v.getLsbD 0 = false → ∃ t, exec (.cmpClrCounts path v) s = .next t ∧
        Wrote s t { s.toDev with cmp := { s.cmp with addr := addr, decodePoisoned := 0, rawFallback := 0 } }) ∧
      (v.getLsbD 1 = false → (s.plan.st = .loading ∨ s.plan.st = .unloading) → ∃ t, exec (.cmpLoad path v) s = .next t ∧
        Wrote s t (({ s.toDev with cmp := { s.cmp with addr := addr, code := fltPlanBusy, loadState := 3 } } : Dev).regRefused 6 0 0 fltPlanBusy 0x400)) ∧
      (v.getLsbD 1 = false → (s.plan.st = .none ∨ s.plan.st = .loaded ∨ s.plan.st = .running ∨ s.plan.st = .failed) → ∀ rec slot tab cmp,
        let d : Dev := { s.toDev with cmp := { s.cmp with addr := addr } }
        d.edRead addr.toNat 32 = (d, .ok (rec, false)) → d.readWaits addr.toNat 32 = false → tableOf rec = some (slot, tab) → s.slotBusy slot = false → d.cmp.load slot tab = some cmp →
        ∃ t, exec (.cmpLoad path v) s = .next t ∧ Wrote s t { s.toDev with cmp := { cmp with code := 0, loadState := 2 } }))

/-- Where the path reaches them, DEV_PLAN_BASE is written while no plan is loaded, and the journal's entry of a write holds the next number of its path, the path, whether it was applied, its width and offset and the value before and after, at position TOTAL modulo 4,096; on a READY device LOAD first has the bench domains of UNUSED and SPARE benches that make no entry in RETENTION, and every domain of a cabinet in 0b00 OFF; then LOAD of an image in a held channel waits in LOADING, LOAD of one that cannot be read ends in FAILED, as does one whose header is readable, waits for no held channel, but does not start with the signature ends in FAILED, and one that waits for no held channel and passes every check of the image is LOADING that image (that an unreadable image and header fields that R62 does not name fail a load is the model's choice of log 102, and that a load ends an entry into ON that of log 31); LOAD while a plan is running is refused, recorded and journalled with APPLIED 0 and the bit in NEW; UNLOAD of a failed load (log 65) or a loaded plan makes the state NONE and empties the coding-table slots; START of a loaded plan whose command and result rings are usable, or on a follower, which has none to look at (log 66), makes it RUNNING, and a follower takes the words of its leader that waited (log 44). (R62, R63, R71, R240, R312, R357, R431, R472, R473.) -/
def Obligations.PlanRegisters : Prop :=
  ∀ (path : Path) (s : State),
    (∀ v : BitVec 64, Reaches s.toDev path .planBase → s.planIdle = true →
      ∃ t, exec (.devPlanBaseWrite path v) s = .next t ∧ Wrote s t { s.toDev with plan := { s.plan with base := v &&& 0x0000FFFFFFFFF000#64 } } ∧
        Journalled s t path true true 0x100 s.plan.base.toNat (v &&& 0x0000FFFFFFFFF000#64).toNat) ∧
    (∀ v : BitVec 64, Reaches s.toDev path .planBase → s.planIdle = false →
      ∃ t, exec (.devPlanBaseWrite path v) s = .next t ∧ Wrote s t s.toDev ∧
        Journalled s t path false true 0x100 s.plan.base.toNat s.plan.base.toNat) ∧
    (Reaches s.toDev path .planCtl →
      let e : Dev := ({ s.toDev with plan := { s.plan with st := .loading } } : Dev).syncDomains
      let base := bits 47 12 s.plan.base.toNat * 4096
      (s.plan.st = .failed → ∃ t, exec (.unload path) s = .next t ∧ Wrote s t { s.toDev with plan := { s.plan with st := .none }, cmp := s.cmp.emptied }) ∧
      (s.plan.st = .running → ∃ t, exec (.load path) s = .next t ∧ t.plan = { s.plan with lastFault := fltPlanBusy } ∧
        t.flog.offered.length = s.flog.offered.length + 1 ∧ Journalled s t path false false 0x110 0 1) ∧
      (s.plan.st = .loaded → ∃ t, exec (.unload path) s = .next t ∧ t.plan.st = .none ∧ t.cmp.newest = [] ∧ t.cmp.prev = [] ∧
        t.journal.total = s.journal.total + 1) ∧
      (s.plan.st = .loaded → (s.leader = false ∨ (s.ringSet s.seq.cmdBase (128 * 2 ^ ringLog2 s.seq.cmdBase) = true ∧
          s.ringSet s.seq.resultBase (64 * 2 ^ ringLog2 s.seq.resultBase) = true ∧
          s.seq.resultBound ≤ 64 * 2 ^ ringLog2 s.seq.resultBase)) →
        ∃ t, exec (.start path) s = .next t ∧ Wrote s t ({ s.toDev with plan := { s.plan with st := .running } } : Dev).heedLeader) ∧
      (∀ c, c < 12 → (∀ i, i < 104 → (s.cab c).st ≠ 0 → s.physSt (256 * c + i) = 2 → (s.dom (256 * c + i)).entering = none →
          (e.dom (256 * c + i)).st = 2) ∧ ((s.cab c).st = 0 → ∀ i, i < 108 → (e.dom (256 * c + i)).st = 0)) ∧
      (s.planIdle = true → s.boot.stage = 8 → e.imageWaits base = true → ∃ t, exec (.load path) s = .next t ∧
        Wrote s t { e with plan := { e.plan with image := [], held := true } }) ∧
      (s.planIdle = true → s.boot.stage = 8 → e.readPlan base 128 = none →
        ∃ t, exec (.load path) s = .next t ∧ t.plan.st = .failed ∧ t.journal.total = s.journal.total + 1) ∧
      (∀ (d : Dev) (h : List Byte), s.planIdle = true → s.boot.stage = 8 →
        e.readPlan base 128 = some (d, h) → e.imageWaits base = false →
        h.take 8 ≠ [0x47, 0x53, 0x50, 0x4C, 0x41, 0x4E, 0x41, 0x4B] →
        ∃ t, exec (.load path) s = .next t ∧ t.plan.st = .failed ∧ t.journal.total = s.journal.total + 1) ∧
      (∀ (d d2 : Dev) (h img : List Byte), s.planIdle = true → s.boot.stage = 8 →
        e.readPlan base 128 = some (d, h) → e.imageWaits base = false →
        h.take 8 = [0x47, 0x53, 0x50, 0x4C, 0x41, 0x4E, 0x41, 0x4B] →
        headerOk h = true →
        ({ d with plan := { d.plan with offered := BitVec.ofNat 16 (atN h 8 2) } } : Dev).readPlan base (atN h 16 8) = some (d2, img) →
        ∃ t, exec (.load path) s = .next t ∧ t.journal.total = s.journal.total + 1 ∧ match d2.imageFault h img with
          | none => t.plan.st = .loading ∧ t.plan.image = img
          | some _ => t.plan.st = .failed))

/-- DEV_PLAN_BASE holds ADDR in bits 47 to 12 and reads 0 elsewhere; where a path reaches it, a write while STATE is NONE or FAILED stores ADDR, a write at any other time is ignored, and it reads what it holds; at reset it is 0. (R71.) -/
def Obligations.PlanBaseWrites : Prop :=
  State.reset.plan.base = 0 ∧
  ∀ (path : Path) (v : BitVec 64) (s : State), Reaches s.toDev path .planBase →
    s.regValue .planBase = s.plan.base.toNat ∧
    ((s.plan.st = .none ∨ s.plan.st = .failed) → ∃ t, exec (.devPlanBaseWrite path v) s = .next t ∧
      t.plan = { s.plan with base := v &&& 0x0000FFFFFFFFF000#64 }) ∧
    ((s.plan.st ≠ .none ∧ s.plan.st ≠ .failed) → ∃ t, exec (.devPlanBaseWrite path v) s = .next t ∧ t.plan = s.plan)

/-- Where the first message that its queues admit on the route from src reaches a bench that is ON in a cabinet not fenced, MESSAGE_ARRIVAL takes it out of flight and appends it to the inbox where the queue has room, counts it in STALE where its epoch or step is stale, and counts it in OVERSIZE where it exceeds the queue; where its queues admit none, the messages found waiting are the bench's waiting ones, and no message leaves the flight. While nothing waits for a decision to be carried out, DEST_FENCED_RETURN takes the message it names to a closed endpoint of this device out of flight, and one to another device from the list of those away, and records FLT_DEST_FENCED at the bench that sent it, which keeps its state. A queue of capacity 0, or a payload above the queue's KiB, makes a message oversize; another epoch than a checking queue's makes it stale; one that does not fit beside what is queued waits; any other, whose step is not the discarded one, is stored. That the size is judged before the epoch and step is the model's choice (log 82), as is the order of the messages that wait (log 69); that a header takes no room is log 100; the list of messages away is log 99, and STEP of the returned record log 108. (R20, R43, R47, R48, R50, R51, R52, R104.) -/
def Obligations.MessageArrival : Prop :=
  (∀ (src : BitVec 18) (b : BenchId) (bc : Bool) (s : State) (w : List Msg) (r : Option Msg),
    let k := benchKey b
    let x := s.bench k
    firstAdmitted x src (s.benchEp k) bc s.net (s.waitingAt k) = (w, r) → s.fenced (k / 96) = false → s.domOn (s.benchDom k) = true →
    s.net.any (fun m => m.src == src && m.target == s.benchEp k && m.bcast == bc) = true →
    match r with
    | none => ∃ t, exec (.messageArrival src b bc) s = .next t ∧ t.net = s.net ∧ t.bench k = { x with arrived := w }
    | some m =>
      (x.judge m = .store → ∃ t, exec (.messageArrival src b bc) s = .next t ∧ t.net = s.net.erase m ∧
        t.bench k = { x with arrived := w, inbox := x.inbox ++ [m] }) ∧
      (x.judge m = .stale → ∃ t, exec (.messageArrival src b bc) s = .next t ∧ t.net = s.net.erase m ∧
        t.bench k = { x with arrived := w, stale := satInc16 x.stale }) ∧
      (x.judge m = .oversize → ∃ t, exec (.messageArrival src b bc) s = .next t ∧ t.net = s.net.erase m ∧
        t.bench k = { x with arrived := w, oversize := satInc16 x.oversize } ∧ t.flog.offered.length = s.flog.offered.length + 1)) ∧
  (∀ (b : BenchId) (dst : BitVec 18) (seq : BitVec 48) (s : State) (m : Msg) (iss : Issue),
    let k := benchKey b
    let own : Bool := epDev dst == s.number.toNat
    QuietSequencer s.toDev → (own = true → if epVal dst = 0xFF then s.fenced (epCab dst) = true else s.epOpen dst = false) →
    (if own then s.net else s.away).find? (fun x => x.src == s.benchEp k && x.dest == dst && x.seq == seq) = some m → m.issue = some iss →
    ∃ t, exec (.destFencedReturn (s.benchEp k) dst seq) s = .next t ∧ (t.bench k).faultCode = fltDestFenced ∧ (t.bench k).faultPending = true ∧
      (t.bench k).faultTag = iss.tag ∧ (t.bench k).st = (s.bench k).st ∧ (t.bench k).arch = (s.bench k).arch ∧
      t.discards = s.discards ∧ (if own then m ∉ t.net ∧ t.away = s.away else t.away = s.away.erase m ∧ t.net = s.net)) ∧
  (∀ (b : Bench) (m : Msg),
    let q := b.queue m.queue.val
    (q.cap = 0 → b.judge m = .oversize) ∧ (1024 * q.cap.toNat < m.payload.length → b.judge m = .oversize) ∧
    (0 < q.cap.toNat → m.payload.length ≤ 1024 * q.cap.toNat → q.chk = true → m.epoch ≠ q.epoch → b.judge m = .stale) ∧
    (0 < q.cap.toNat → m.payload.length ≤ 1024 * q.cap.toNat → (q.chk = true → m.epoch = q.epoch) → b.dropStep ≠ some m.step →
      (1024 * q.cap.toNat < b.queueUsed m.queue + m.room → b.judge m = .waits) ∧
      (b.queueUsed m.queue + m.room ≤ 1024 * q.cap.toNat → b.judge m = .store)))

/-- The first message from src in flight to the mailbox leaves the network where ED0's core is ON, aborting an entry of the core into another state, and otherwise stays in it: where the mailbox is disabled or has no room for its units it counts in DROPPED and the tail stays; where it is enabled, its ring usable and there is room, the tail moves on by one unit for the header and one for each 64 bytes of payload begun. (R54, R55, R56, R433.) -/
def Obligations.Mailbox : Prop :=
  ∀ (src : BitVec 18) (s : State) (m : Msg),
    let n := (m.payload.length + 63) / 64 + 1
    let used := (s.hmb.tail - s.hmb.head).toNat
    let size := 2 ^ ringLog2 s.hmb.base
    s.net.find? (fun m => m.src == src && epVal m.target == 0xFE && epDev m.target == s.number.toNat) = some m →
    (s.domOn ed0Dom = false → exec (.hostMailboxRecord src) s = .next s) ∧
    (s.domOn ed0Dom = true → (s.dom ed0Dom).entering.isSome = true → ∃ t, exec (.hostMailboxRecord src) s = .next t ∧
      t.dom ed0Dom = { s.dom ed0Dom with entering := none, aborted := satInc16 (s.dom ed0Dom).aborted, lastRefuser := s.senderBlock src }) ∧
    (s.domOn ed0Dom = true → (s.dom ed0Dom).entering = none → (s.hmb.ctl.getLsbD 0 = false ∨ size < used + n) → ∃ t, exec (.hostMailboxRecord src) s = .next t ∧
      { t with net := s.net, hmb := s.hmb } = s ∧ t.net = s.net.erase m ∧ t.hmb = { s.hmb with dropped := satInc16 s.hmb.dropped }) ∧
    (s.domOn ed0Dom = true → s.hmb.ctl.getLsbD 0 = true → used + n ≤ size → s.ringOk (ringAddr s.hmb.base) (64 * size) = true →
      ∃ t, exec (.hostMailboxRecord src) s = .next t ∧ t.net = s.net.erase m ∧ t.hmb = { s.hmb with tail := s.hmb.tail + BitVec.ofNat 32 n })

/-- While nothing waits for a decision to be carried out, the first message from src to a sideboard of this device that is ON in a cabinet not fenced: one that breaks Table 6-7 is recorded and writes nothing; a well-formed one with REPLACE and no counter, outside the program reserve, writes its data from byte 64 on at its offset, every other byte reading as before. The first message from src to a sideboard of another device that has been delivered there leaves the list of the messages away (log 99), so that it is no longer awaited, and nothing else changes. (R169, R170, R330, R377.) -/
def Obligations.SideboardWriteMessage : Prop :=
  ∀ (src : BitVec 18) (c : Cab) (s : State) (m : Msg), QuietSequencer s.toDev →
    let h := sbHeader m.payload
    let sb := s.sb c.val
    (s.net.find? (fun m => m.src == src && m.target == s.epOf c.val 0xF0) = some m → s.fenced c.val = false → s.domOn (sbDom c.val) = true →
      (h.bad m.payload.length = true → ∃ t, exec (.sideboardWriteMessage src none c) s = .next t ∧ t.net = s.net.erase m ∧ t.sbs = s.sbs ∧
        t.flog.offered.length = s.flog.offered.length + 1) ∧
      (h.bad m.payload.length = false → s.sbReserved c.val h m.payload.length = false → h.flags = 1 → sb.upsets = [] → sb.mem.wf = true →
        ∃ t, exec (.sideboardWriteMessage src none c) s = .next t ∧ t.net = s.net.erase m ∧ (∀ j, j ≠ c.val → t.sb j = s.sb j) ∧
          ∀ i, (t.sb c.val).mem.byte i = if h.off ≤ i ∧ i < h.off + (m.payload.length - 64)
            then m.payload.getD (64 + (i - h.off)) 0 else sb.mem.byte i)) ∧
    (∀ dev : BitVec 6, s.away.find? (fun m => m.src == src && epDev m.dest == dev.toNat && epCab m.dest == c.val && epVal m.dest == 0xF0) = some m →
      ∃ t, exec (.sideboardWriteMessage src (some dev) c) s = .next t ∧ t.away = s.away.erase m ∧ { t with away := s.away } = s)

/-- On a stack that runs, a due refresh of a busy bank is postponed while fewer than 8 are owed and otherwise performed, after which none is owed; a write batch on a channel that is not held, and likewise the one that the age of a write starts, performs the channel's oldest held writes, up to WR_BATCH sectors, in order, where no word of the stack shows an error; a patrol scrub of a stack that is filled, enabled and holds no channel, or of a filled sideboard, reads a word without error and moves on to the next. All four leave a stack that does not run, a held channel, and a unit not to be scrubbed as they are; that a stack with a held channel is not scrubbed at all is the model's choice of log 76. In a cabinet not fenced the oldest write of a drawer port's queue leaves it and, where it replaces, writes its bytes and no other; an empty queue, and that of a fenced cabinet, stay as they are. (R20, R160, R161, R164, R203, R326, R353, R525.) -/
def Obligations.StackMaintenance : Prop :=
  (∀ (sk : Stk) (s : State),
    let st := s.stk sk.val
    (∀ (bank : Fin 1024) (busy : Bool),
      (s.stkRuns sk.val = true → ∃ t, exec (.refreshPerform sk bank busy) s = .next t ∧ { t with stks := s.stks } = s ∧
        (∀ j, j ≠ sk.val → t.stk j = s.stk j) ∧ { t.stk sk.val with postponed := st.postponed } = st ∧
        (t.stk sk.val).postponed.get 0 bank.val =
          (if busy = true ∧ st.postponed.get 0 bank.val + 1 < 8 then st.postponed.get 0 bank.val + 1 else 0)) ∧
      (s.stkRuns sk.val = false → exec (.refreshPerform sk bank busy) s = .next s)) ∧
    (∀ ch : Fin 32,
      (s.stkRuns sk.val = true → st.chanHeld ch.val = false → st.upsets = [] →
        ∃ go stay, BatchSplit ch.val (bits 23 16 st.classCtl.toNat) st.held go stay ∧
          let after : Stack := { st with mem := go.foldl (performHeld st.filled) st.mem, held := stay }
          exec (.writeBatchDrain sk ch) s = .next { s with toDev := s.setStk sk.val after } ∧
          exec (.writeBatchAge sk ch) s = .next { s with toDev := s.setStk sk.val after }) ∧
      (s.stkRuns sk.val = false ∨ st.chanHeld ch.val = true →
        exec (.writeBatchDrain sk ch) s = .next s ∧ exec (.writeBatchAge sk ch) s = .next s)) ∧
    (∀ word : BitVec 32, word.toNat < 0x90000000 →
      let scrubs : Bool := s.stkRuns sk.val && st.filled && !st.hold && st.scrubCtl.getLsbD 12
      (scrubs = true → st.upsets = [] → ∃ t, exec (.patrolScrub (.stack sk) word ⟨[], []⟩ ⟨[], []⟩) s = .next t ∧
        { t with stks := s.stks } = s ∧ (∀ j, j ≠ sk.val → t.stk j = s.stk j) ∧
        t.stk sk.val = { st with scrubAt := (word.toNat + 1) % 0x90000000 }) ∧
      (scrubs = false → ∀ now later, exec (.patrolScrub (.stack sk) word now later) s = .next s))) ∧
  (∀ (c : Cab) (s : State),
    let sb := s.sb c.val
    (∀ word : BitVec 32, word.toNat < 0x300000 →
      let scrubs : Bool := !s.fenced c.val && s.domOn (sbDom c.val) && sb.filled
      (scrubs = true → sb.upsets = [] → ∃ t, exec (.patrolScrub (.sideboard c) word ⟨[], []⟩ ⟨[], []⟩) s = .next t ∧
        { t with sbs := s.sbs } = s ∧ (∀ j, j ≠ c.val → t.sb j = s.sb j) ∧
        t.sb c.val = { sb with scrubAt := (word.toNat + 1) % 0x300000 }) ∧
      (scrubs = false → ∀ now later, exec (.patrolScrub (.sideboard c) word now later) s = .next s)) ∧
    (∀ (w : PortWrite) (rest : List PortWrite), sb.dq = w :: rest → s.fenced c.val = false →
      ∃ t, exec (.drawerPortDrain c) s = .next t ∧ (t.sb c.val).dq = rest ∧ (∀ j, j ≠ c.val → t.sb j = s.sb j) ∧
        (w.replace = true → sb.mem.wf = true → { t with sbs := s.sbs } = s ∧ ∀ i, (t.sb c.val).mem.byte i =
          if w.off ≤ i ∧ i < w.off + w.data.length then w.data.getD (i - w.off) 0 else sb.mem.byte i)) ∧
    (sb.dq = [] ∨ s.fenced c.val = true → exec (.drawerPortDrain c) s = .next s))

/-- Where no access waits for a held channel: on a stack that runs, CHANNEL_RETRAIN of a logical channel whose fault is not lasting, or can still be repaired, holds the channel beside those already held and records it; the end of a hold whose retraining succeeded lastingly faulty starts the copy to a free spare, where no fence waits for it; the end of the last hold, after a retraining without a lasting fault, acknowledges the fences that wait at the stack, which the end of another does not, and a channel that is not held has no hold to end; CHANNEL_REPAIR_HANDOVER ends the copy with the spare serving the channel, where no word of the stack shows an error, and waits while the channel is held; CHANNEL_LOST on a stack whose spare is free, and not taken by the copy of another channel, gives the channel's addresses to the spare and reports a discard, as R363 has it of a unit that is lost (Table 13-5), and marks all the channel's words where it has no held write. (R164, R213, R331, R357, R358, R359, R360, R363.) -/
def Obligations.Channels : Prop :=
  ∀ (sk : Stk) (s : State), NothingHeld s.toDev →
    let st := s.stk sk.val
    let unfenced := ∀ p ∈ s.benches, ∀ f, p.2.fence = some f → sk ∉ f.held
    let others (ch : Fin 32) : List ChanHold := st.holds.filter (fun h => h.ch.toNat != ch.val)
    let held (ch : Fin 32) (ok lasting : Bool) : Prop := st.holds.find? (fun h => h.ch.toNat == ch.val) = some ⟨BitVec.ofNat 5 ch.val, ok, lasting⟩
    (s.stkRuns sk.val = true → ∀ (ch : Fin 32) (ok within10 : Bool),
      ((ok = true ∧ within10 = false) ∨ (st.spareActive = false ∧ st.spareLost = false ∧ (st.copying = true → st.copyCh.toNat = ch.val))) →
      ∃ t, exec (.channelRetrain sk (Fin.castLE (by decide) ch) ok within10) s = .next t ∧
        t.stk sk.val = { st with holds := others ch ++ [⟨BitVec.ofNat 5 ch.val, ok, !ok || within10⟩] } ∧
        t.flog.offered.length = s.flog.offered.length + 1) ∧
    (s.stkRuns sk.val = true → ∀ ch : Fin 32, held ch true true → st.spareActive = false → st.spareLost = false → st.copying = false → unfenced →
      ∃ t, exec (.channelHoldEnd sk ch) s = .next t ∧
        t.stk sk.val = { st with holds := others ch, copying := true, copyCh := BitVec.ofNat 5 ch.val }) ∧
    (∀ ch : Fin 32, held ch true false → st.upsets = [] → ∀ k f, (s.bench k).fence = some f → sk ∈ f.held →
      (others ch = [] → ∃ t, exec (.channelHoldEnd sk ch) s = .next t ∧ (t.stk sk.val).holds = [] ∧ (t.stk sk.val).held = [] ∧
        (t.bench k).fence = some { f with places := f.places.filter (· != .stack sk), held := f.held.filter (· != sk) }) ∧
      (others ch ≠ [] → exec (.channelHoldEnd sk ch) s = .next { s with toDev := s.setStk sk.val { st with holds := others ch } })) ∧
    (∀ ch : Fin 32, (∀ h ∈ st.holds, h.ch.toNat ≠ ch.val) → exec (.channelHoldEnd sk ch) s = .next s) ∧
    (s.stkRuns sk.val = true → st.copying = true → st.upsets = [] → st.chanHeld st.copyCh.toNat = false →
      ∃ t, exec (.channelRepairHandover sk) s = .next t ∧
        t.stk sk.val = { st with copying := false, spareActive := true, logical := st.copyCh }) ∧
    (st.chanHeld st.copyCh.toNat = true → exec (.channelRepairHandover sk) s = .next s) ∧
    (s.stkRuns sk.val = true → ∀ ch : Fin 32, st.spareActive = false → st.spareLost = false → (st.copying = true → st.copyCh.toNat = ch.val) →
      unfenced → ∃ t, exec (.channelLost sk (.channel ch)) s = .next t ∧ (t.stk sk.val).spareActive = true ∧
        (t.stk sk.val).logical = BitVec.ofNat 5 ch.val ∧ (t.stk sk.val).holds = others ch ∧
        t.discards = s.discards ++ [⟨fltChanLost, s.step.setWidth 16⟩] ∧
        ((∀ h ∈ st.held, h.key / chanSize ≠ ch.val) → ∀ w, 32 * w / chanSize = ch.val → (t.stk sk.val).mem.marked w = true))

/-- Where the path reaches DEV_FILL_CTL and no plan is loaded or fill runs, FILL_START makes every byte of each stack named, in an active cabinet and ON, read as the fill pattern unmarked, and the fill FILLING where it has a unit; FILL_COMPLETE of a sideboard, or of a stack with no channel held for retraining, still filling in an active cabinet sets FILLED, and of a stack with a held channel it waits. That every byte reads as the pattern already at FILL_START is the model's choice of log 111. (R164, R171, R172, R173, R180.) -/
def Obligations.Fills : Prop :=
  (∀ (path : Path) (v : BitVec 32) (s : State), Reaches s.toDev path .fillCtl → s.fillable = true →
    ∃ t, exec (.fillStart path v) s = .next t ∧ t.fill.ctl = v &&& 0x1FFFFFF#32 ∧ t.journal.total = s.journal.total + 1 ∧
      ∀ x : Stk, v.getLsbD x.val = true → s.active (x.val / 2) = true → s.domOn (stkDom x.val) = true →
        t.fill.st = 1 ∧ (t.stk x.val).mem.marks = [] ∧
        ∀ a, (t.stk x.val).mem.byte a = BitVec.ofNat 8 (s.fill.pattern.toNat >>> (8 * (a % 8)))) ∧
  (∀ (x : Stk) (s : State), s.active (x.val / 2) = true → (s.stk x.val).hold = true → exec (.fillComplete (.stack x)) s = .next s) ∧
  (∀ (x : Stk) (s : State), x.val ∈ s.fill.stks → s.active (x.val / 2) = true → (s.stk x.val).hold = false →
    ∃ t, exec (.fillComplete (.stack x)) s = .next t ∧ (t.stk x.val).filled = true ∧ x.val ∉ t.fill.stks ∧ t.fill.done.getLsbD x.val = true) ∧
  (∀ (c : Cab) (s : State), c.val ∈ s.fill.sideboards → s.active c.val = true →
    ∃ t, exec (.fillComplete (.sideboard c)) s = .next t ∧ (t.sb c.val).filled = true ∧ c.val ∉ t.fill.sideboards)

/-- While no record, report of a follower, word of its leader or unload waits for it, BENCH_STEP_DISCARD of a bench that the sequencer's ABANDON has reached drops the step's messages, the shelf, the transfers, the fence and the wait; a RUNNING or HALTED bench is restored to its checkpoint and held as if at STEPEND; a FAULTED one stays FAULTED. (R52, R145, R293, R333, R364, R365.) -/
def Obligations.BenchDiscard : Prop :=
  ∀ (b : BenchId) (s : State),
    let k := benchKey b
    let x := s.bench k
    x.mustDiscard = true → QuietSequencer s.toDev → ∃ t, exec (.benchStepDiscard b) s = .next t ∧
      (t.bench k).inbox = x.inbox.filter (fun m => !(m.step == s.step.setWidth 16)) ∧ (t.bench k).transfers = [] ∧ (t.bench k).fence = none ∧
      (t.bench k).wait = none ∧ (t.bench k).shelf.items = [] ∧ (t.bench k).awaitDiscard = false ∧ (t.bench k).mustDiscard = false ∧
      (t.bench k).st = x.st ∧ (t.bench k).store = x.store ∧
      ((x.st = .running ∨ x.st = .halted) → (t.bench k).atStepEnd = true ∧ (t.bench k).arch = x.restore.arch)

/-- In a cabinet not fenced, a lasting failure of a bench that is not OFF loses the cabinet with FLT_BENCH_LOST where its row has used its spare, and otherwise, where the spare passes its self-test, steers the row past the failed column; either way a discard is reported. (R38, R39, R371.) -/
def Obligations.SpareSwap : Prop :=
  ∀ (b : BenchId) (s : State),
    let k := benchKey b
    let c := k / 96
    let r := k % 96 / 12
    s.fenced c = false → (s.dom (s.benchDom k)).st ≠ 0 →
    ((s.cab c).steer r ≠ 0xF → ∀ ok, ∃ t, exec (.spareSwap b ok) s = .next t ∧ (t.cab c).st = 2 ∧ (t.cab c).cause = fltBenchLost ∧
      ⟨fltBenchLost, s.step.setWidth 16⟩ ∈ t.discards) ∧
    ((s.cab c).steer r = 0xF → ∃ t, exec (.spareSwap b true) s = .next t ∧ (t.cab c).steer r = s.physColOf k ∧
      ⟨fltBenchLost, s.step.setWidth 16⟩ ∈ t.discards)

/-- At a controller that takes work, the first message from src that is no answer leaves the network: a request of a step that has passed is dropped, one that breaks Table 7-5 or whose list is faulty is recorded and discards the step, one of a later step is held, one of the current step is held with its banks, an APPEND whatever its list holds. A finished request leaves with DRAWER_COMPLETION, which sends its completion where NOTIFY is set, to an endpoint of this device that is open and has a route (that a list past the sideboard's end breaks Table 7-5 is the model's choice of log 112, the rule of PART for GATHER with SUM only log 21; PARTS counting the drawers' records, the model's choice of log 113, a list in the program reserve being served that of log 126, and TOKEN's place in a mirror's answer and the answering cabinet being any those of logs 130 and 131; the routes within a device are log 115); FALLBACK_ANSWER and MIRROR_APPEND_ANSWER settle the request with their TOKEN. (R189, R190, R191, R192, R196, R210, R214, R217, R232.) -/
def Obligations.DrawerRequests : Prop :=
  ∀ (src : BitVec 18) (c : Cab) (s : State),
    let w := s.drw c.val
    DrawerReady s.toDev c.val → NothingForwarded s.toDev c.val →
    (∀ m : Msg, s.net.find? (fun m => m.src == src && m.target == s.epOf c.val 0xF1) = some m →
      (s.drwAnswer c.val m = false → w.reqs.length < 256 →
        let h := drwHdr m.payload
        let tpl := w.template h.template
        let es := readList (s.sb c.val) h.list h.count
        (32768 ≤ (m.step - w.step).toNat → exec (.drawerRequest src c) s = .next { s with net := s.net.erase m }) ∧
        ((m.step - w.step).toNat < 32768 →
          ((w.templates.length ≤ h.template ∨ h.bad tpl m.payload.length = true) → ∃ t, exec (.drawerRequest src c) s = .next t ∧
            t.net = s.net.erase m ∧ (t.drw c.val).reqs = w.reqs ∧ (t.drw c.val).faultCode = fltDrwMsg ∧
            t.discards = s.discards ++ [⟨fltDrwMsg, s.step.setWidth 16⟩]) ∧
          (h.template < w.templates.length → h.bad tpl m.payload.length = false →
            (m.step ≠ w.step → ∃ t, exec (.drawerRequest src c) s = .next t ∧ { t with net := s.net, drawers := s.drawers } = s ∧
              t.net = s.net.erase m ∧ (t.drw c.val).reqs = w.reqs ++ [⟨m, false, [], [], [], 0, 0, false, false⟩]) ∧
            (m.step = w.step →
              (tpl.op ≠ 2 → ∀ f n, listFault (s.stk (2 * c.val)) tpl h m.step.toNat es = some (f, n) → ∃ t, exec (.drawerRequest src c) s = .next t ∧
                t.net = s.net.erase m ∧ (t.drw c.val).reqs = w.reqs ∧ (t.drw c.val).faultCode = f ∧
                (t.drw c.val).faultBank = BitVec.ofNat 10 n ∧ t.discards = s.discards ++ [⟨f, s.step.setWidth 16⟩]) ∧
              ((tpl.op = 2 ∨ (listFault (s.stk (2 * c.val)) tpl h m.step.toNat es = none ∧ w.lost = [])) → ∃ t, exec (.drawerRequest src c) s = .next t ∧
                { t with net := s.net, drawers := s.drawers } = s ∧ t.net = s.net.erase m ∧ ∃ bs, (∀ n, n ∈ bs ↔ ∃ e ∈ es, e.bank = n) ∧
                (t.drw c.val).reqs = w.reqs ++ [⟨m, true, bs, [], [], 0, 0, false, false⟩]))))) ∧
      (∀ (i : Nat) (r : DrwReq), w.reqs[i]? = some r → m.payload.length = 16 → (drwHdr r.msg.payload).token = atN m.payload 0 4 →
        r.msg.step = m.step → (∀ j q, j < i → w.reqs[j]? = some q → (drwHdr q.msg.payload).token ≠ atN m.payload 0 4) →
        (s.drwAnswer c.val m = true → epVal src ≠ 0xF1 → atN m.payload 4 2 ∈ r.forwarded →
          ∃ t, exec (.fallbackAnswer src c) s = .next t ∧ t.net = s.net.erase m ∧ (t.drw c.val).reqs = keptRequests
            (w.reqs.set i { r with forwarded := r.forwarded.filter (fun n => n != atN m.payload 4 2), answered := r.answered + 1 })) ∧
        (epVal src = 0xF1 → r.mirrorWait = true → ∃ t, exec (.mirrorAppendAnswer src c) s = .next t ∧ t.net = s.net.erase m ∧
          (t.drw c.val).reqs = keptRequests (w.reqs.set i { r with mirrorWait := false })))) ∧
    (∀ (i : Nat) (r : DrwReq), w.reqs[i]? = some r → r.finished = true →
      let h := drwHdr r.msg.payload
      let dest := BitVec.ofNat 18 h.notify
      (bit 0 h.flags = false → ∃ t, exec (.drawerCompletion c i) s = .next t ∧ t.net = s.net ∧ (t.drw c.val).reqs = w.reqs.eraseIdx i) ∧
      (bit 0 h.flags = true → epValid dest = true → epVal dest ≠ 0xFF → epDev dest = s.number.toNat → s.epOpen dest = true → s.inRoute c.val dest = true →
        ∃ t x, exec (.drawerCompletion c i) s = .next t ∧ (t.drw c.val).reqs = w.reqs.eraseIdx i ∧ t.net = s.net ++ [x] ∧ x.dest = dest ∧
          x.src = s.epOf c.val 0xF1 ∧ x.epoch = r.msg.epoch ∧ x.step = r.msg.step ∧ x.queue.val = bits 20 18 h.notify ∧
          x.payload = leBytes 4 h.token ++ leBytes 2 h.template ++ leBytes 2 r.parts ++ leBytes 2 r.answered ++ List.replicate 6 0))

/-- Where a held request owes work on bank n that no earlier request of its source holds back, its list is faultless and the chest's words are clean: ATTEND offers one record per part to the sideboard, GATHER without SUM the bytes of each entry, and neither changes a stack; UPDATE of one entry writes its function of the rows at the output row, every other byte reading as before; each takes the bank off the request. APPEND of one token, to a page entry outside the program reserve, writes key and value at the page's next slot, moves STAGED on, logs the entry, and changes no other byte of the stack. These hold where no error of the drawer's files that the work meets is lasting; where one is, the command that would have the drawer work loses it, as DRAWER_LOST of that bank does (log 95). That a list in the program reserve is read like any other is the model's choice of log 126. (R184, R187, R191, R193, R196, R198, R199, R203, R209, R232, R347, R348.) -/
def Obligations.DrawerWork : Prop :=
  ∀ (c : Cab) (i : Nat) (n : Fin 1024) (files : FileErrs) (s : State) (r : DrwReq),
    let w := s.drw c.val
    let st := s.stk (2 * c.val)
    let sb := s.sb c.val
    let h := drwHdr r.msg.payload
    let tpl := w.template h.template
    DrawerReady s.toDev c.val → NothingForwarded s.toDev c.val → st.Clean n.val → r.msg.marks = [] →
    w.reqs[i]? = some r → r.started = true → w.blocked i n.val = false →
    (fileLasting files = false → n.val ∈ r.banks →
      let es := (readList sb h.list h.count).filter (fun e => e.bank == n.val)
      let done (t : State) (parts : Nat) : Prop := (t.drw c.val).reqs =
        keptRequests (w.reqs.set i { r with banks := r.banks.filter (fun b => b != n.val), parts := r.parts + parts })
      let offered (t : State) (ws : List PortWrite) : Prop := (t.sb c.val).dq = sb.dq ++ ws ∧ (t.sb c.val).mem = sb.mem ∧ ∀ j, t.stk j = s.stk j
      let fits (x : PortWrite) : Prop := s.sbRefusal (c.val * 2 ^ 40 + x.off) x.data.length = none
      listFault st tpl h r.msg.step.toNat es = none →
      (tpl.op = 1 →
        let qs := chunksOf tpl.g tpl.dim (elemsFV tpl.qfmt (tpl.g * tpl.dim) (r.msg.payload.drop 64))
        let ws := (partsOf es).map (fun p => (⟨h.result + p * (128 + 4 * tpl.g * tpl.dim),
          match (attendPart s.toDev c.val tpl qs (es.filter (fun e => e.part == p))).2 with
          | .ok bytes => bytes
          | .error _ => [], [], tpl.replace⟩ : PortWrite))
        (∀ x ∈ ws, fits x) → ∃ t, exec (.attend c i n files) s = .next t ∧ done t (partsOf es).length ∧ offered t ws) ∧
      (tpl.op = 3 → tpl.sum = false →
        let ws := es.map (fun e => (⟨h.result + e.idx * (64 * tpl.ncol),
          st.mem.read (rowKey e.bank (bits 31 16 e.w0) (bits 20 10 e.w1 * tpl.es)) (64 * tpl.ncol), [], tpl.replace⟩ : PortWrite))
        (∀ x ∈ ws, fits x) → ∃ t, exec (.gather c i n files) s = .next t ∧ done t 0 ∧ offered t ws) ∧
      (tpl.op = 4 → ∀ e, es = [e] →
        let key (row : Nat) : Nat := rowKey e.bank row (bits 10 0 e.w1 * tpl.es)
        let el (row j : Nat) : BitVec 32 := toFp32 tpl.kfmt (st.mem.readNat (key row + j * tpl.es) tpl.es)
        let out := (List.range (bits 21 11 e.w1 + 1)).flatMap (fun j => leBytes tpl.es
          (fromFp32 tpl.kfmt (updateFn tpl (el (bits 47 32 e.w0) j) (el (bits 31 16 e.w0) j) (el (bits 63 48 e.w0) j))).code)
        ∃ t, exec (.update c i n files) s = .next t ∧ done t 0 ∧ (∀ j, t.sb j = s.sb j) ∧ (∀ j, j ≠ 2 * c.val → t.stk j = s.stk j) ∧
          ∀ a, (t.stk (2 * c.val)).mem.byte a =
            if key (bits 63 48 e.w1) ≤ a ∧ a < key (bits 63 48 e.w1) + out.length then out.getD (a - key (bits 63 48 e.w1)) 0
            else st.mem.byte a)) ∧
    (∀ e, fileLasting files = false → r.banks = [n.val] → e.bank = n.val → readList sb h.list 1 = [e] → tpl.op = 2 → h.n = 1 → bit 1 h.flags = false →
      (e.staged = 0 ∨ bits 47 32 e.w1 = r.msg.step.toNat) → appendFault s.toDev c.val tpl h r.msg.step.toNat e none = none →
      w.isLost e.bank = false → w.mirror.msb = false → epVal r.msg.src ≠ 0xF1 → r.msg.payload.length = 64 + 2 * tpl.tok →
      sb.dq = [] → sb.mem.wf = true → h.list + 16 ≤ 2 ^ 27 → s.sbRefusal (c.val * 2 ^ 40 + h.list) 16 = none →
      let staged := if bits 47 32 e.w1 = r.msg.step.toNat then e.staged else 0
      let key (row : Nat) : Nat := rowKey e.bank (row + (e.fill + staged) / tpl.tr) ((e.fill + staged) % tpl.tr * tpl.tok)
      ∃ t, exec (.append c i files) s = .next t ∧ (t.drw c.val).log = w.log ++ [⟨h.list, r.msg.step, none⟩] ∧
        (t.drw c.val).reqs = keptRequests (w.reqs.set i { r with banks := [], mirrorWait := false }) ∧
        (∀ j, j ≠ 2 * c.val → t.stk j = s.stk j) ∧
        (∀ a, (t.stk (2 * c.val)).mem.byte a =
          if key e.vrow ≤ a ∧ a < key e.vrow + tpl.tok then r.msg.payload.getD (64 + tpl.tok + (a - key e.vrow)) 0
          else if key e.krow ≤ a ∧ a < key e.krow + tpl.tok then r.msg.payload.getD (64 + (a - key e.krow)) 0 else st.mem.byte a) ∧
        (∀ a, (a < h.list ∨ h.list + 16 ≤ a) → (t.sb c.val).mem.byte a = sb.mem.byte a) ∧
        (t.sb c.val).mem.readNat h.list 8 + bits 62 56 (sb.mem.readNat h.list 8) * 2 ^ 56 + bits 54 48 (sb.mem.readNat h.list 8) * 2 ^ 48 =
          sb.mem.readNat h.list 8 + (staged + 1) % 128 * 2 ^ 56 + e.fill % 128 * 2 ^ 48) ∧
    (fileLasting files = true →
      (s.drawerWorks c.val i n.val 1 = true → exec (.attend c i n files) s = exec (.drawerLost c n files.fails) s) ∧
      (s.drawerWorks c.val i n.val 3 = true → exec (.gather c i n files) s = exec (.drawerLost c n files.fails) s) ∧
      (s.drawerWorks c.val i n.val 4 = true → exec (.update c i n files) s = exec (.drawerLost c n files.fails) s) ∧
      (r.banks = [n.val] → s.drawerWorks c.val i n.val 2 = true → exec (.append c i files) s = exec (.drawerLost c n files.fails) s))

/-- COMMIT or ABANDON that the sequencer has sent to a cabinet not fenced since, while nothing else waits for it to be carried out, moves the controller to the next step, is kept as the last one closed, drops the step's requests and empties its own log; of a logged page entry COMMIT adds STAGED to FILL, both clear STAGED, and no other byte of the sideboard changes; of a fenced cabinet the action ends without any of that. A drawer lost in a chest with a fallback bench and fewer than eight lost is marked, and its bank is withdrawn from every request but an APPEND, any other loses the cabinet, and either discards the step; the checkers of the path that takes over are tested, with their status in DEV_SELFTEST_STATUS, and where that of the sideboard fails the cabinet is lost as well. A chest ON above its limit lowers its ceiling by 32 to no less than 32, one 1,750 mW below raises it by 32 to at most 1,024, and one between keeps it. (R20, R191, R197, R201, R209, R217, R233, R352, R371, R387, R442, R444.) -/
def Obligations.DrawerStep : Prop :=
  ∀ (c : Cab) (s : State),
    let w := s.drw c.val
    (∀ (commit : Bool) (n : BitVec 16), w.action = some (commit, n) → QuietSequencer s.toDev →
      (∀ j, ∀ e ∈ (s.drw j).log, e.primary ≠ some c.val) →
      (s.fenced c.val = true → ∃ t, exec (if commit then .commit c else .abandon c) s = .next t ∧ (t.drw c.val).step = w.step ∧
        (t.drw c.val).action = none ∧ ∀ j, t.sb j = s.sb j) ∧
      (s.fenced c.val = false → ∃ t, exec (if commit then .commit c else .abandon c) s = .next t ∧ (t.drw c.val).step = w.step + 1 ∧ (t.drw c.val).action = none ∧
        (∀ r ∈ (t.drw c.val).reqs, r.msg.step ≠ w.step) ∧ (t.drw c.val).log = w.log.filter (fun e => e.primary.isSome) ∧ (t.drw c.val).closed = some (commit, w.step) ∧
        (∀ j, j ≠ c.val → t.sb j = s.sb j) ∧
        ∀ off, w.logged none = [off] → (s.sb c.val).dq = [] → (s.sb c.val).mem.wf = true → off + 16 ≤ 2 ^ 27 →
          let w0 := (s.sb c.val).mem.readNat off 8
          (t.sb c.val).mem.readNat off 8 + bits 62 56 w0 * 2 ^ 56 + bits 54 48 w0 * 2 ^ 48 =
            w0 + (bits 54 48 w0 + (if commit then bits 62 56 w0 else 0)) % 128 * 2 ^ 48 ∧
          ∀ a, (a < off ∨ off + 16 ≤ a) → (t.sb c.val).mem.byte a = (s.sb c.val).mem.byte a)) ∧
    (s.fenced c.val = false → s.domOn (drwDom c.val) = true → ∀ n : Fin 1024, w.isLost n.val = false →
      (w.fallback.msb = true → w.lost.length < 8 → ∃ t, exec (.drawerLost c n []) s = .next t ∧ (t.drw c.val).isLost n.val = true ∧
        t.boot.selftest = selftestOf [] ∧
        (∀ k, k ≠ n.val → (t.drw c.val).isLost k = w.isLost k) ∧ (t.drw c.val).faultCode = fltDrwLost ∧ t.fenced c.val = false ∧
        (∀ r ∈ (t.drw c.val).reqs, (w.template (drwHdr r.msg.payload).template).op ≠ 2 → n.val ∉ r.banks) ∧
        t.discards = s.discards ++ [⟨fltDrwLost, s.step.setWidth 16⟩]) ∧
      (w.fallback.msb = true → w.lost.length < 8 → ∃ t, exec (.drawerLost c n [.sideboard c]) s = .next t ∧ t.fenced c.val = true ∧
        (t.cab c.val).cause = fltSbLost ∧ t.boot.selftest = selftestOf [.sideboard c]) ∧
      ((w.fallback.msb = false ∨ 8 ≤ w.lost.length) → ∀ fails, ∃ t, exec (.drawerLost c n fails) s = .next t ∧ t.fenced c.val = true ∧
        (t.cab c.val).cause = fltDrwLost ∧ ⟨fltDrwLost, s.step.setWidth 16⟩ ∈ t.discards)) ∧
    (s.domOn (drwDom c.val) = true → ∀ mw : Nat,
      let limit := 58000 - 2900 * s.effStep (drwDom c.val)
      ∃ t, exec (.activityCeilingAdjust c mw) s = .next t ∧ { t with drawers := s.drawers } = s ∧
        (t.drw c.val).ceiling = (if limit < mw then max 32 (w.ceiling - 32) else if mw + 1750 < limit then min 1024 (w.ceiling + 32)
          else w.ceiling))

/-- Where the next command of the ring can be read and carries its opcode: SUBMIT into a FREE slot with fields in range makes a PROMPT request; READY raises the ready sets; REISSUE returns a HELD request; CANCEL marks a request of the step in flight and retires any other in a housekeeping record; DEADLINE sets the deadline and retires a request that has met it; PREFIX_DEFINE and PREFIX_RELEASE add and release a prefix; ADAPTER_LOAD makes a buffer current; TILE queues a task and TILE_CANCEL removes one with a record; an opcode not in the table is counted and answered with notice code 1. A command whose record does not fit waits for the room; a record, with what its retirements bring after it, goes to the result ring, or waits while the last decision has not been carried out. That every byte that carries no field is reserved is the model's reading of log 42, the order in which refusal codes are judged that of log 62, and that a met deadline retires its request in a housekeeping record at once that of log 63. (R239, R241, R242, R254, R255, R256, R257, R258, R259, R263.) -/
def Obligations.RingCommands : Prop :=
  ∀ (s : State) (e : List Byte), CmdAt s e →
    let q := s.seq
    let i := cmdSlot e
    let r := q.req i
    let h := BitVec.ofNat 64 (atN e 8 8)
    (at1 e 0 = 1 → i ≤ 8191 → r.st = .free →
      let p := BitVec.ofNat 64 (atN e 16 8)
      let l0 := ((q.prefixOf p).map (fun x => x.tokens)).getD 0
      (p = 0 ∧ q.prefixOf p = none ∨ p ≠ 0 ∧ (q.prefixOf p).isSome = true) → submitFields q.sec l0 e = true →
      (bit 0 (at1 e 67) = true → (q.adapters.find (at1 e 66)).isSome = true) →
      ∃ t, exec .submit s = .next t ∧ { t with seq := s.seq } = s ∧ t.seq.cmdHead = q.cmdHead + 1 ∧ t.seq.orders = q.orders + 1 ∧
        (∀ j, j ≠ i → t.seq.req j = q.req j) ∧ (t.seq.req i).st = .prompt ∧ (t.seq.req i).clientId = h ∧ (t.seq.req i).handle = p ∧
        (t.seq.req i).len = l0 ∧ (t.seq.req i).promptAddr = BitVec.ofNat 48 (atN e 24 8) ∧ (t.seq.req i).promptLen = atN e 32 4 ∧
        (t.seq.req i).maxNew = atN e 36 4 ∧ (t.seq.req i).deadline = BitVec.ofNat 48 (atN e 40 8) ∧
        (t.seq.req i).seed = BitVec.ofNat 64 (atN e 48 8) ∧ (t.seq.req i).temperature = BitVec.ofNat 32 (atN e 56 4) ∧
        (t.seq.req i).topP = BitVec.ofNat 32 (atN e 60 4) ∧ (t.seq.req i).topK = BitVec.ofNat 16 (atN e 64 2) ∧
        (t.seq.req i).readySets = atN e 68 4 ∧ (t.seq.req i).generated = 0 ∧ (t.seq.req i).order = q.orders) ∧
    (at1 e 0 = 2 → i ≤ 8191 → r.absent = false → cmdZero e = true → cmdTailZero e 12 = true → atN e 8 4 ≤ 32768 → r.readySets ≤ atN e 8 4 →
      ∃ t, exec .ready s = .next t ∧ Processed s t { q with reqs := q.reqs.set i { r with readySets := atN e 8 4 } }) ∧
    (at1 e 0 = 3 → i ≤ 8191 → r.st = .held →
      ∃ t, exec .reissue s = .next t ∧ Processed s t { q with reqs := q.reqs.set i { r with st := r.heldFrom } }) ∧
    (at1 e 0 = 4 → i ≤ 8191 → r.absent = false →
      (q.inRun i = true → ∃ t, exec .cancel s = .next t ∧ Processed s t { q with reqs := q.reqs.set i { r with cancelled := true } }) ∧
      (q.inRun i = false → q.room < s.retireUnits i → exec .cancel s = .next { s with seq := { q with cmdNeeds := s.retireUnits i } }) ∧
      (q.inRun i = false → s.retireUnits i ≤ q.room → ∃ t, exec .cancel s = .next t ∧ (t.seq.req i).absent = true ∧ (∀ j, j ≠ i → t.seq.req j = q.req j) ∧
        Recorded s t 2 (reqEntry i r (8 + 16 * 5) 0 0 0) [i])) ∧
    (at1 e 0 = 5 → i ≤ 8191 → r.absent = false → cmdZero e = true → atN e 14 2 = 0 → cmdTailZero e 16 = true →
      let v := atN e 8 6
      ((q.inRun i = true ∨ v = 0 ∨ s.step.toNat < v) →
        ∃ t, exec .deadline s = .next t ∧ Processed s t { q with reqs := q.reqs.set i { r with deadline := BitVec.ofNat 48 v } }) ∧
      (q.inRun i = false → 0 < v → v ≤ s.step.toNat → q.room < s.retireUnits i →
        exec .deadline s = .next { s with seq := { q with cmdNeeds := s.retireUnits i } }) ∧
      (q.inRun i = false → 0 < v → v ≤ s.step.toNat → s.retireUnits i ≤ q.room → ∃ t, exec .deadline s = .next t ∧ (t.seq.req i).absent = true ∧
        (∀ j, j ≠ i → t.seq.req j = q.req j) ∧ Recorded s t 2 (reqEntry i r (8 + 16 * 4 + 4) 0 0 0) [i])) ∧
    (at1 e 0 = 6 → cmdZero e = true → i = 0 → h ≠ 0 → 1 ≤ atN e 16 4 → atN e 16 4 ≤ 2097151 → cmdTailZero e 20 = true →
      (∀ p ∈ q.prefixes, p.handle ≠ h) → q.prefixes.length < 65536 →
      ∃ t, exec .prefixDefine s = .next t ∧ Processed s t { q with prefixes := q.prefixes ++ [⟨h, atN e 16 4, 0, false⟩] }) ∧
    (at1 e 0 = 7 → ∀ p, q.prefixOf h = some p →
      (p.refs ≠ 0 → ∃ t, exec .prefixRelease s = .next t ∧
        Processed s t { q with prefixes := q.prefixes.map (fun x => if x.handle = h then { x with released := true } else x) }) ∧
      (p.refs = 0 → ∃ t, exec .prefixRelease s = .next t ∧ t.seq.prefixes = q.prefixes.filter (fun x => x.handle != h) ∧
        Recorded s t 3 (leBytes 2 2 ++ leBytes 2 0 ++ leBytes 4 0 ++ leBytes 8 h.toNat ++ List.replicate 48 0) [])) ∧
    (at1 e 0 = 8 → i ≤ 255 → cmdZero e = true → at1 e 9 ≤ 1 → cmdTailZero e 10 = true → q.adapters.find i = none →
      let g := BitVec.ofNat 8 (at1 e 8)
      ∃ t, exec .adapterLoad s = .next t ∧
        Processed s t { q with adapters := q.adapters.set i (if at1 e 9 = 1 then ⟨true, 0, g, false⟩ else ⟨false, g, 0, false⟩) }) ∧
    (at1 e 0 = 9 → cmdZero e = true → i = 0 → atN e 8 4 ≠ 0xFFFFFFFF → at1 e 12 < q.sec.kinds.length → (at1 e 13 ≤ 11 ∨ at1 e 13 = 0xFF) →
      bit (at1 e 14) q.sec.devices.toNat = true → at1 e 15 = 0 → q.hasTask (atN e 8 4) = false → q.tiles.length < 4096 →
      ∃ t, exec .tile s = .next t ∧ Processed s t { q with tiles := q.tiles ++ [⟨BitVec.ofNat 32 (atN e 8 4), at1 e 12,
        BitVec.ofNat 8 (at1 e 13), BitVec.ofNat 8 (at1 e 14), BitVec.ofNat 64 (atN e 16 8), (e.drop 24).take 104, 0⟩] }) ∧
    (at1 e 0 = 10 → ∀ x, q.tiles.find? (fun x => x.task.toNat == atN e 8 4) = some x → ∃ t, exec .tileCancel s = .next t ∧
      t.seq.tiles = q.tiles.filter (fun y => y.task.toNat != atN e 8 4) ∧ Recorded s t 2 (tileEntry x 3) []) ∧
    ((at1 e 0 = 0 ∨ 10 < at1 e 0) → ∃ t, exec .badOpcode s = .next t ∧ t.seq.refused = satInc16 q.refused ∧ t.seq.reqs = q.reqs ∧
      Recorded s t 3 (leBytes 2 1 ++ leBytes 2 1 ++ leBytes 4 q.cmdHead.toNat ++ leBytes 8 i ++ List.replicate 48 0) [])

/-- An admission that chooses a template with room for its record begins the next step with that template and nothing else in flight; with nothing eligible none waits any more. A good report of the serving step, ED0's core being ON, is kept and any other of no step counts as stale; a decision ends the step: with every token reported it commits, moving each sampled request by its token and telling the drawers COMMIT, with any routes to restore restored (R399), and with a discard it tells drawers ABANDON and every bench to discard. STEP_DISCARD takes the oldest report to the step in flight, and a follower of a plan that runs tells its leader of it; the watchdog abandons a late step and waits for its followers no longer; an overrun unload step is abandoned with code 0, at once or with its own decision where the one before is still being carried out, of which a follower tells its leader; a follower that can begins the leader's step, and ends it once its drawers have carried out the decision before, and otherwise keeps the leader's word until it can; the leader takes what a follower reports of the step in flight, its discards, its FLOOR_VOID bits, the decision it has carried out and its hold of admissions, and counts a report that lost to the watchdog as late. What passes between leader and follower, in Suite.sent and Seq.fromLeader, has the form of log 44. (R236, R237, R244, R246, R249, R250, R251, R252, R363, R365, R369, R399.) -/
def Obligations.Steps : Prop :=
  ∀ s : State,
    let q := s.seq
    let quiet : Prop := s.actionsPending = false ∧ QuietSequencer s.toDev
    let tells (x : FollowerTell) : Suite := { s.suite with sent := s.suite.sent ++ [.report s.step x] }
    let told (t : State) (commit : Bool) : Prop := ∀ c ∈ s.planCabs, s.fenced c = false → s.domOn (sbDom c) = true →
      (t.drw c).action = some (commit, s.step.setWidth 16)
    (s.canAdmit = true → s.suite.restore = false →
      (∀ ti g cs tpl, s.chooseStep (s.step.toNat + 1) (q.reqs.length + 1) [] = (s.toDev, [], some (ti, g, cs)) → s.idsWait [] cs = false →
        q.sec.templates[ti]? = some tpl →
        unitsOf (64 + 96 * (tpl.gen + tpl.chunks) + 32 * (s.retireAt (s.step.toNat + 1) []).length) ≤ q.room →
        ∃ t run, exec .stepAdmission s = .next t ∧ t.step = s.step + 1 ∧ t.template = BitVec.ofNat 16 ti ∧ t.seq.run = some run ∧
          run.template = ti ∧ run.gens.map (fun f => f.req) = g ∧ run.chunks = cs.map (fun x => x.1) ∧ run.reports = [] ∧ run.abandon = none) ∧
      (s.chooseStep (s.step.toNat + 1) (q.reqs.length + 1) [] = (s.toDev, [], none) → q.tiles = [] → s.retireAt (s.step.toNat + 1) [] = [] →
        exec .stepAdmission s = .next { s with seq := { q with admitNeeds := 0 } })) ∧
    (∀ (src : BitVec 18) (m : Msg), s.toSeq src = some m → s.domOn ed0Dom = true → atN m.payload 0 2 ≠ 2 →
      (q.run = none → ∃ t, exec (.tokenReport src) s = .next t ∧ t.net = s.net.erase m ∧ t.seq = { q with stale := satInc16 q.stale }) ∧
      (∀ run rs, q.run = some run → run.template ≠ 0xFFFF → s.leader = true → m.step = s.step.setWidth 16 → atN m.payload 0 2 = 1 →
        1 ≤ atN m.payload 2 2 → atN m.payload 2 2 ≤ 204 → m.payload.length = 16 + 80 * atN m.payload 2 2 →
        ((m.payload.take 16).drop 4).all (fun b => b == 0) = true →
        (q.readReport run (atN m.payload 2 2) (m.payload.drop 16) run.reports = some rs → ∃ t, exec (.tokenReport src) s = .next t ∧
          t.net = s.net.erase m ∧ t.seq = { q with run := some { run with reports := rs } }) ∧
        (q.readReport run (atN m.payload 2 2) (m.payload.drop 16) run.reports = none → run.abandon = none → ∃ t,
          exec (.tokenReport src) s = .next t ∧ t.net = s.net.erase m ∧ t.flog.offered.length = s.flog.offered.length + 1 ∧
          t.seq = { q with run := some { run with abandon := some fltSeqReport, floorVoid := run.floorVoid ||| 2 } }))) ∧
    (∀ run, q.run = some run → s.leader = true → quiet →
      (run.abandon = none → s.allReported run = true → (∀ i ∈ run.members, (q.samples run i).isSome = true → ∃ x ∈ run.reports, x.req = i) →
        ∃ t, exec .stepCommitDecision s = .next t ∧ t.seq.run = none ∧ told t true ∧ t.suite.restore = false ∧
          ∀ f x, run.gens.find? (fun g => g.req == f.req) = some f → run.reports.find? (fun y => y.req == f.req) = some x →
            (∀ y ∈ run.retired, y.1 ≠ f.req) → (q.req f.req).outside s.step.toNat = (0, false) →
            (q.req f.req).tokenReason x.token ((q.req f.req).generated + 1) (f.pos + 1) = 0 →
            let r := { q.req f.req with st := .generating, generated := (q.req f.req).generated + 1, token := x.token, served := s.step }
            t.seq.req f.req = { r with len := f.pos + 1, cancelled := false }) ∧
      (∀ code, run.abandon = some code → ∃ t, exec .stepCommitDecision s = .next t ∧ t.seq.run = none ∧ told t false ∧ t.suite.restore = false ∧
        ∀ k ∈ s.planBenches, (t.bench k).mustDiscard = true)) ∧
    (∀ x rest, s.discards = x :: rest →
      (s.leader = true → q.run = none → exec .stepDiscard s = .next { s with discards := rest }) ∧
      (∀ run, q.run = some run → run.abandon = none →
        let run' := { run with abandon := some x.code, floorVoid := run.floorVoid ||| 2 }
        (s.leader = true → exec .stepDiscard s = .next { s with discards := rest, seq := { q with run := some run' } }) ∧
        (s.leader = false → (s.plan.st = .running ∨ s.plan.st = .unloading) → q.toldHeld = s.holding →
          exec .stepDiscard s = .next { s with discards := rest, seq := { q with run := some run' }, suite := tells (.discard x.code) })) ∧
      (s.leader = false → q.run = none → (s.plan.st = .running ∨ s.plan.st = .unloading) → q.toldHeld = s.holding →
        exec .stepDiscard s = .next { s with discards := rest, suite := tells (.discard x.code) })) ∧
    (∀ run, q.run = some run → run.template ≠ 0xFFFF → run.mult ≠ 0 → run.abandon = none → s.leader = true →
      ∃ t, exec (.stepWatchdogExpiry none) s = .next t ∧ t.flog.offered.length = s.flog.offered.length + 1 ∧
        let run' := { run with abandon := some fltStepTimeout, floorVoid := run.floorVoid ||| 2, followers := [] }
        t.seq = { q with lateStep := true, lateFollowers := run.followers, run := some run' }) ∧
    (∀ run, q.run = some run → s.plan.st = .unloading → s.plan.stepTimer = true → run.abandon = none →
      (s.leader = true → s.actionsPending = false → (∃ c ∈ s.planCabs, s.fenced c = false ∧ s.domOn (sbDom c) = true) → ∃ t, exec .unloadStepTimeout s = .next t ∧
        t.seq.run = none ∧ t.plan.stepTimer = false ∧ told t false ∧ ∀ k ∈ s.planBenches, (t.bench k).mustDiscard = true) ∧
      (s.leader = true → s.actionsPending = true → exec .unloadStepTimeout s = .next { s with
        plan := { s.plan with stepTimer := false }, seq := { q with run := some { run with abandon := some 0 } } }) ∧
      (s.leader = false → exec .unloadStepTimeout s = .next { s with
        plan := { s.plan with stepTimer := false }, seq := { q with run := some { run with abandon := some 0 } }, suite := tells (.discard 0) })) ∧
    (s.canFollow = true → s.leader = false → s.suite.restore = false → q.fromLeader = [] → ∀ step template table,
      ∃ t, exec (.followerSlotTable step template table) s = .next t ∧ t.step = step ∧ t.template = template ∧ t.seq.run.isSome = true) ∧
    (s.plan.st = .running → s.leader = false → s.canFollow = false → q.fromLeader = [] → ∀ step template table,
      exec (.followerSlotTable step template table) s = .next { s with seq := { q with fromLeader := [.table step template table] } }) ∧
    (∀ (run : StepRun) (dev : BitVec 6), q.run = some run → s.leader = true → dev.toNat ∈ s.followers →
      (dev.toNat ∈ run.followers → ∀ fault fv,
        let run' := { run with followers := run.followers.filter (fun x => x != dev.toNat), floorVoid := run.floorVoid ||| fv }
        let lost := { run' with abandon := run.abandon.or (some fault), floorVoid := run'.floorVoid ||| 2 }
        exec (.followerReport dev s.step (.stepEnd fault fv)) s = .next { s with seq := { q with run := some (if fault = 0 then run' else lost) } }) ∧
      (∀ n fault, fault ≠ 0 →
        let lost := { run with abandon := run.abandon.or (some fault), floorVoid := run.floorVoid ||| 2 }
        exec (.followerReport dev n (.discard fault)) s = .next { s with seq := { q with run := some lost } }) ∧
      (∀ n, exec (.followerReport dev n (.discard 0)) s = .next { s with seq := { q with run := some { run with abandon := run.abandon.or (some 0) } } }) ∧
      (∀ b, exec (.followerReport dev s.step (.floorVoid b)) s =
        .next { s with seq := { q with run := some { run with floorVoid := run.floorVoid ||| b } } }) ∧
      (∀ x ∈ q.acting, x ≠ dev.toNat → s.plan.st = .running → exec (.followerReport dev s.decided .acted) s =
        .next { s with seq := { q with acting := q.acting.filter (fun x => x != dev.toNat) } }) ∧
      (∀ n on fenced, let rest := q.heldBy.filter (fun x => x.1 != dev.toNat)
        exec (.followerReport dev n (.held on fenced)) s =
          .next { s with seq := { q with heldBy := if on then rest ++ [(dev.toNat, fenced)] else rest } }) ∧
      (∀ n fault fv, (dev.toNat ∉ run.followers ∨ n ≠ s.step) → dev.toNat ∈ q.lateFollowers →
        exec (.followerReport dev n (.stepEnd fault fv)) s = .next { s with
          lateCount := satInc16 s.lateCount, seq := { q with lateFollowers := q.lateFollowers.filter (fun x => x != dev.toNat) } })) ∧
    (s.leader = false → s.planLoaded = true → q.run.isSome = true → q.fromLeader = [] →
      (quiet → ∀ commit, ∃ t, exec (.followerDecision s.step commit) s = .next t ∧
        t.seq.run = none ∧ told t commit ∧ t.suite.restore = false ∧ (commit = false → ∀ k ∈ s.planBenches, (t.bench k).mustDiscard = true)) ∧
      (s.drawersActing = true → s.plan.st = .running → ∀ commit, exec (.followerDecision s.step commit) s =
        .next { s with seq := { q with fromLeader := [.decision s.step commit] } }))

/-- In a tile phase TILE_DISPATCH sends the first task that has an idle bench, of this device or of another of the plan, to it with a fresh epoch, and a completion of a task's current placement returns its bench and adds its entry, with the completion's STATUS whatever its value (the model's choice of log 136). A doorbell of this device, from the host at the suite head or over a link whose checks it passes at another device, where no access of the host and no write waits to be performed before it, that moves a counter forward within its ring is taken, and any other is recorded. PLAN_LOAD_COMPLETE of an image that is placed, whose cabinets are active and whose tables load makes the plan LOADED with the sequencer at its start. FAULT_LOG_RECORD takes the oldest record, numbers it, and writes it at the tail of an enabled ring with room, and otherwise counts it lost; where FLOG_BASE has a reserved selector, and the record is not itself the log unit's record of that, the log unit records FLT_ADDR_SELECTOR besides. That a record is lost where the ring's place cannot be written, and that the log unit's own record there ends the matter, are the model's choice of log 114. The seats of other devices are log 45, the epoch told through Suite.sent log 44, and the drain before a doorbell log 55. (R11, R63, R239, R260, R261, R272, R337, R376, R377, R378, R379, R380.) -/
def Obligations.TilesAndRings : Prop :=
  ∀ s : State,
    let q := s.seq
    (∀ run task k kd, s.tilePhase = some run → run.stopping = false → s.nextTile run = some (task, k) → q.sec.kinds[task.kind]? = some kd →
      0 < q.room → ∃ t run', exec .tileDispatch s = .next t ∧ t.seq.run = some run' ∧ run'.running = run.running ++ [⟨task, k, s.freshEpoch⟩] ∧
        k ∉ run'.idle ∧ t.seq.tiles = q.tiles.filter (fun x => x.task != task.task) ∧
        if k / 1152 = s.number.toNat then ((t.bench (k % 1152)).queue kd.queue.val).epoch = s.freshEpoch ∧
          ∃ m ∈ t.net, m.dest = seatEp k ∧ m.queue = kd.queue ∧ m.epoch = s.freshEpoch ∧ atN m.payload 0 4 = task.task.toNat
        else .epoch (seatEp k) kd.queue s.freshEpoch ∈ t.suite.sent) ∧
    (∀ src m run x, s.toSeq src = some m → s.domOn ed0Dom = true → atN m.payload 0 2 = 2 → s.tilePhase = some run →
      run.running.find? (fun x => x.task.task == BitVec.ofNat 32 (atN m.payload 4 4) && x.epoch == BitVec.ofNat 16 (atN m.payload 8 2)) = some x →
      ∃ t run', exec (.tileCompletion src) s = .next t ∧ t.seq.run = some run' ∧
        run'.running = run.running.filter (fun y => y.task.task != x.task.task) ∧ run'.tiles = run.tiles ++ [tileEntry x.task (atN m.payload 2 2)]) ∧
    (∀ (via : Option Via) (d : Dev) (v : BitVec 32), s.suite.numbered = true →
      (match via with
        | none => s.suite.head = true ∧ s.bridge.linkUp = true ∧ d = s.toDev
        | some w => s.suite.head = false ∧ s.classH w 2 false true = .ok d) →
      let cmdOk := (q.cmdTail - q.cmdHead).toNat ≤ (v - q.cmdHead).toNat ∧ (v - q.cmdHead).toNat ≤ 2 ^ ringLog2 q.cmdBase
      let resultOk := (v - q.resultHead).toNat ≤ (q.resultTail - q.resultHead).toNat
      s.bridge.parked = [] → s.bridge.sent = [] → (∀ p ∈ s.stks, p.2.held = []) → (∀ j, (s.sb j).dq = []) →
      (s.follower = false → cmdOk → exec (.cmdTailDoorbell s.number via v) s = .next { s with toDev := { d with seq := { q with cmdTail := v } } }) ∧
      ((s.follower = true ∨ ¬ cmdOk) → ∃ t, exec (.cmdTailDoorbell s.number via v) s = .next t ∧ t.seq = q ∧
        t.flog.offered.length = s.flog.offered.length + 1) ∧
      (s.follower = false → resultOk → QuietSequencer s.toDev →
        exec (.resultHeadDoorbell s.number via v) s = .next { s with toDev := { d with seq := { q with resultHead := v } } }) ∧
      ((s.follower = true ∨ ¬ resultOk) → ∃ t, exec (.resultHeadDoorbell s.number via v) s = .next t ∧ t.seq = q ∧
        t.flog.offered.length = s.flog.offered.length + 1)) ∧
    (∀ tables, s.plan.st = .loading → s.plan.held = false → (imageOf s.plan.image).cabs.all s.active = true → s.planTables (imageOf s.plan.image) = .ok tables →
      ∃ t, exec .planLoadComplete s = .next t ∧ t.plan.st = .loaded ∧ t.plan.planId = (imageOf s.plan.image).planId ∧ t.step = 0 ∧
        t.discards = [] ∧ t.seq.run = none ∧ t.seq.cmdHead = 0 ∧ t.seq.cmdTail = 0 ∧ t.seq.resultHead = 0 ∧ t.seq.resultTail = 0 ∧
        t.seq.reqs = [] ∧ t.seq.prefixes = [] ∧ t.seq.adapters = [] ∧ t.seq.tiles = []) ∧
    (∀ r rest, s.flog.offered = r :: rest →
      let a := ringAddr s.flog.base + 64 * (s.flog.tail.toNat % 2 ^ ringLog2 s.flog.base)
      let open_ := s.flog.ctl.getLsbD 0 = true ∧ s.flog.full = false ∧ s.ringOk a 64 = true
      (open_ → ∃ t, exec .faultLogRecord s = .next t ∧ t.flog.offered = rest ∧ t.flog.lseq = s.flog.lseq + 1 ∧
        t.flog.tail = s.flog.tail + 1 ∧ t.flog.lost = s.flog.lost) ∧
      let refused := s.flog.ctl.getLsbD 0 = true ∧ s.flog.full = false ∧ 4 ≤ bits 47 44 a ∧ r.ownSelector = false
      (¬ open_ → ∃ t, exec .faultLogRecord s = .next t ∧ (¬ refused → t.flog.offered = rest) ∧
        (refused → ∃ x, t.flog.offered = rest ++ [x] ∧ x.ownSelector = true) ∧ t.flog.lseq = s.flog.lseq + 1 ∧ t.flog.tail = s.flog.tail ∧
        t.flog.lost = satInc16 s.flog.lost ∧ t.flog.logLost = true) ∧
      (r.lasting = true → ∃ t, exec .faultLogRecord s = .next t ∧ t.flog.keepTotal = s.flog.keepTotal + 1 ∧
        t.flog.keep.find (s.flog.keepTotal % 256) = some (logEntry s.flog.lseq r)))

/-- On a port in service: a frame whose CRC fails after FEC, where no replay is under way or it is the one replayed, starts a replay and is answered with NAK, and is otherwise discarded; a duplicate is discarded whole; an intact frame without flits gives its credits, and with the next FSEQ a whole good message to this device, on a TRUSTED port that has its credits and no limit, enters it and is acknowledged with its credits returned; NAK counts a replay; lanes dropped or lost, at most two at once, that leave two keep the port in service at DEGRADED, and it sends LANE_DROP and the frames it keeps again, and with fewer left the port fails; three lanes lost at once fail it; the fourth expiry of the replay timer in a row fails it and an earlier one counts. Each microsecond the counts of the limits restart. Other ports stay as they were. That acknowledgement and credits return at once is log 47, which lanes a port at 1.2 keeps log 24, a late acknowledgement log 48, the form of CRC and FEC log 25, and that the frames sent again after LANE_DROP count as no replay log 119. (R47, R389, R390, R391, R397, R398, R399, R401, R403, R409, R418.) -/
def Obligations.LinkTraffic : Prop :=
  ∀ (p : Pt) (s : State),
    let x := s.port p.val
    let others (t : State) : Prop := ∀ j, j ≠ p.val → t.port j = s.port j
    let failed (t : State) : Prop := (t.port p.val).st = 6 ∧ (t.port p.val).unacked = [] ∧ (t.port p.val).out = [] ∧
      ⟨fltLinkPort, s.step.setWidth 16⟩ ∈ t.discards ∧ others t
    (exec (.rateWindowRestart p) s = .next { s with toDev := s.setPort p.val (if 999 ≤ x.ticks
      then { x with window := (0, 0, 0), ticks := 0, burst := 0, rateTold := false } else { x with window := (0, 0, 0), ticks := x.ticks + 1 }) }) ∧
    (x.up = true →
      (∀ f errors pieces, frameIntact (fecFrame f errors) = false →
        let awaited : Bool := atN f 0 6 == (x.rxSeq + 1).toNat && !(frameFlits f pieces).isEmpty
        let y := { x with replays := satInc16 x.replays, nakked := true, last := some ⟨x.txSeq, [], x.rxSeq, (0, 0, 0), 2⟩,
                          badFrame := if awaited then some (lanesOf x.lanes (uncorrected errors)) else x.badFrame }
        ((x.nakked = false ∨ awaited = true) → (awaited = true → x.badFrame = none) →
          exec (.frameReceive p f errors pieces) s = .next { s with toDev := s.setPort p.val y }) ∧
        (x.nakked = true → awaited = false → exec (.frameReceive p f errors pieces) s = .next s)) ∧
      (∀ f errors pieces, frameIntact (fecFrame f errors) = true → frameFlits (fecFrame f errors) pieces ≠ [] →
        (x.rxSeq - BitVec.ofNat 48 (atN (fecFrame f errors) 0 6)).toNat < 2 ^ 47 → exec (.frameReceive p f errors pieces) s = .next s) ∧
      (∀ f errors pieces, frameIntact (fecFrame f errors) = true → x.out = [] → x.unacked = [] → x.lost = 0 → at1 (fecFrame f errors) 25 ≠ 2 →
        let g := fecFrame f errors
        let credit := addCredit x.txCredit (atN g 12 2) (atN g 14 2) (atN g 16 2)
        (frameFlits g pieces = [] → (x.rxSeq - BitVec.ofNat 48 (atN g 0 6)).toNat < 2 ^ 47 → ∃ t,
          exec (.frameReceive p f errors pieces) s = .next t ∧ t.port p.val = { x with txCredit := credit } ∧ others t ∧ t.net = s.net) ∧
        (∀ h b, frameFlits g pieces = [h, b] → h.cls = 2 → b.cls = 2 → b.piece = false → bits 24 11 (atN h.data 0 8) < 64 → x.st = 4 →
          x.rx = [] → x.limit 2 = 0 → x.rxCredit = creditCap x.version → BitVec.ofNat 48 (atN g 0 6) = x.rxSeq + 1 →
          let m := msgOf h.data b.bytes
          headerBad h.data m = false → s.inSuite (epDev m.src) = true → s.planLoaded = true → m.planId = s.plan.planId →
          epDev m.dest = s.number.toNat → epVal m.dest ≠ 0xF0 → ∃ t, exec (.frameReceive p f errors pieces) s = .next t ∧
            (t.port p.val).rxSeq = x.rxSeq + 1 ∧ (t.port p.val).rx = [] ∧ (t.port p.val).rxCredit = x.rxCredit ∧
            (t.port p.val).last = some ⟨x.txSeq, [], x.rxSeq + 1, (0, 2, 0), 0⟩ ∧ t.net = s.net ++ s.expand m ∧ others t)) ∧
      (∀ a, ∃ t, exec (.nak p a) s = .next t ∧ (t.port p.val).replays = satInc16 x.replays ∧ (t.port p.val).st = x.st ∧ others t) ∧
      (∀ (c : Instr) (bad : BitVec 4),
        ((∃ lane : Fin 4, x.lanes.getLsbD lane.val = true ∧ c = .laneDrop p lane ∧ bad = BitVec.ofNat 4 (2 ^ lane.val)) ∨
          (∃ l, c = .laneLockLoss p l ∧ bad = l &&& x.lanes ∧ 1 ≤ laneCount bad ∧ laneCount bad ≤ 2)) →
        let left := keepLanes x.version (x.lanes &&& ~~~ bad)
        (2 ≤ laneCount left → ∃ t, exec c s = .next t ∧ t.port p.val = x.narrow left ∧ (t.port p.val).lanes = left ∧
          (t.port p.val).degraded = true ∧ (t.port p.val).replays = x.replays ∧
          (t.port p.val).laneFrame = some ⟨x.txSeq, [], x.rxSeq, (0, 0, 0), 1⟩ ∧
          others t ∧ t.flog.offered.length = s.flog.offered.length + laneCount bad ∧ t.discards = s.discards) ∧
        (laneCount left < 2 → ∃ t, exec c s = .next t ∧ failed t)) ∧
      (∀ l, 3 ≤ laneCount (l &&& x.lanes) → ∃ t, exec (.laneLockLoss p l) s = .next t ∧ failed t) ∧
      (x.unacked ≠ [] → x.expiries < 3 →
        let y := { x.replay with replays := satInc16 x.replays, expiries := x.expiries + 1, lost := x.lost + 1 }
        exec (.replayTimeout p) s = .next { s with toDev := s.setPort p.val y }) ∧
      (x.unacked ≠ [] → x.expiries = 3 → ∃ t, exec (.replayTimeout p) s = .next t ∧ failed t))

/-- A port whose training or retry is due, outside a PCIe group, trains: with fewer than two lanes it is DOWN, with no common version it fails so, with no credential or no answer it is UNTRUSTED with one failure more, and with a certificate it takes the partner's identity, sends its nonce and its own certificate, with its signature where the partner's certificate is good, and is TRUSTED with Table 14-3's credits where certificate, nonce and signature are good, UNTRUSTED with one failure more where one is not; a port of a PCIe group brings the host link up where PERST_N is high and the partner has a generation and width of Table 14-10. An exchange that times out counts a failure; one that AUTH_RETRY repeats, with a partner that was not turned away for want of a number, counts one where it stays unanswered and otherwise ends as the first would. Through PORT_CTL RETRAIN leaves the port to train, and so does ENABLE, but not one that trains again only on RETRAIN; ENABLE = 0 disables it and CLR_COUNTS zeroes the four counters, other ports staying. The lanes kept at 1.2 are log 24, the generation and width of a PCIe link and its lanes log 26, and that FSEQ starts from 0 log 23. (R394, R395, R397, R398, R403, R404, R416, R418, R419, R422, R463, R495.) -/
def Obligations.LinkTraining : Prop :=
  ∀ (p : Pt) (s : State),
    let x := s.port p.val
    let others (t : State) : Prop := ∀ j, j ≠ p.val → t.port j = s.port j
    let settles (t : State) (v : BitVec 8) (blob : List Byte) (q : Partner) : Prop :=
      let nonce := Config.randomBytes s.free 48
      let text := transcript v nonce (blobCert blob) q.nonce q.cert
      let y := t.port p.val
      y.version = v ∧ y.pIdentity = hash384 (certKey q.cert) ∧ y.pNumber = q.number ∧ others t ∧
        y.authSent = some ⟨nonce, blobCert blob, if certOk blob q.cert = true ∧ q.nonce.length = 48
          then some (ecdsaSign identityPrivate (beNat (Config.randomBytes (s.free + 1) 48)) text) else none⟩ ∧
        if certOk blob q.cert = true ∧ q.nonce.length = 48 ∧ ecdsaVerify (certKey q.cert) text q.signature = true
        then y.st = 4 ∧ y.rxSeq = 0 ∧ y.txSeq = 0 ∧ y.txCredit = (128, 3072, if v = 0x12 then 0 else 896)
        else y.st = 5 ∧ y.authFails = x.authFails + 1
    let trains (c : Partner → Instr) : Prop := ∀ q : Partner,
      (laneCount q.lanes < 2 → ∃ t, exec (c q) s = .next t ∧ (t.port p.val).st = 0 ∧ others t) ∧
      (2 ≤ laneCount q.lanes →
        (commonVersion (bit 1 x.ctl.toNat) q.minVersion q.maxVersion = none → ∃ t, exec (c q) s = .next t ∧ (t.port p.val).st = 8 ∧
          t.flog.offered.length = s.flog.offered.length + 1 ∧ others t) ∧
        (∀ v, commonVersion (bit 1 x.ctl.toNat) q.minVersion q.maxVersion = some v → x.authFails ≠ 15 →
          ((s.suite.cred = none ∨ q.answers = false) → ∃ t, exec (c q) s = .next t ∧ (t.port p.val).st = 5 ∧
            (t.port p.val).authFails = x.authFails + 1 ∧ (t.port p.val).version = v ∧ others t) ∧
          (∀ blob, s.suite.cred = some blob → q.answers = true → q.cert.length = 256 →
            ∃ t, exec (c q) s = .next t ∧ (t.port p.val).lanes = keepLanes v q.lanes ∧ settles t v blob q)))
    (x.needRetrain = false → x.enabled = true → s.portCore p.val = true →
      (s.pcieGroup p.val = false → ((x.st = 0 ∨ x.st = 1) → trains (fun q => .portTrain p q)) ∧ (x.st = 6 → trains (fun q => .failedPortRetry p q))) ∧
      (s.pcieGroup p.val = true → (x.st = 0 ∨ x.st = 1) → ∀ q,
        (s.boot.perstLow = false → ∀ rate width, pcieLink q = some (rate, width) → ∃ t, exec (.portTrain p q) s = .next t ∧ t.suite.head = true ∧
          t.bridge.linkUp = true ∧ t.bridge.rate = rate ∧ t.bridge.width = width ∧
          (∀ j, j < 4 → (t.port j).st = 9 ∧ (t.port j).lanes = if 4 * j < width.toNat then 0xF else 0) ∧ ∀ j, 4 ≤ j → t.port j = s.port j) ∧
        (s.boot.perstLow = true → exec (.portTrain p q) s = .next s))) ∧
    (x.enabled = true → s.portCore p.val = true → s.pcieGroup p.val = false → x.st = 3 → x.authFails ≠ 15 →
      ∃ t, exec (.authTimeout p) s = .next t ∧ (t.port p.val).st = 5 ∧ (t.port p.val).authFails = x.authFails + 1 ∧ others t) ∧
    (x.st = 5 → x.authFails ≠ 15 → x.apart = false → ∀ q : Partner, q.answers = false → ∃ t, exec (.authRetry p q) s = .next t ∧ (t.port p.val).st = 5 ∧
      (t.port p.val).authFails = x.authFails + 1 ∧ others t) ∧
    (x.st = 5 → x.authFails ≠ 15 → x.apart = false → ∀ (q : Partner) (blob : List Byte), x.cred = some blob → q.answers = true →
      q.cert.length = 256 → ∃ t, exec (.authRetry p q) s = .next t ∧ (t.port p.val).lanes = x.lanes ∧ settles t x.version blob q) ∧
    (∀ (path : Path) (v : BitVec 32), Reaches s.toDev path (.portCtl p.val) → x.st ≠ 9 →
      (v.getLsbD 0 = true → x.enabled = true → ∃ t, exec (.retrain path p v) s = .next t ∧ (t.port p.val).st = 1 ∧
        (t.port p.val).authFails = 0 ∧ (t.port p.val).lanes = 0 ∧ (t.port p.val).needRetrain = false ∧ (t.port p.val).ctl = v &&& 3 ∧
        others t ∧ t.journal.total = s.journal.total + 1) ∧
      (v.getLsbD 0 = true → v.getLsbD 2 = false → x.enabled = false → ∃ t, exec (.portEnableWrite path p v) s = .next t ∧
        (t.port p.val).st = (if x.needRetrain then 0 else 1) ∧ (t.port p.val).ctl = v &&& 3 ∧ others t ∧ t.journal.total = s.journal.total + 1) ∧
      (v.getLsbD 0 = false → x.enabled = true → ∃ t, exec (.portEnableWrite path p v) s = .next t ∧ (t.port p.val).st = 10 ∧
        (t.port p.val).ctl = v &&& 3 ∧ others t ∧ t.journal.total = s.journal.total + 1) ∧
      (v.getLsbD 0 = x.enabled → v.getLsbD 2 = false → ∃ t, exec (.portClrCounts path p v) s = .next t ∧
        t.port p.val = { x with ctl := v &&& 3, replays := 0, protocol := 0, dropped := 0, late := 0 } ∧
        others t ∧ t.journal.total = s.journal.total + 1))

/-- CRED_COMMIT keeps a buffer that passes R396's checks and refuses any other; DISCOVER and DISCOVERY_START start discovery at a head with the HEAD role, which sends DISCOVER on every TRUSTED port, and fail without it; a DISCOVER message at a TRUSTED port is noted by a head, and by another device answered and sent on once a discovery of that head (a later one of the same discovery is an alternate path, a second head's is not heeded); a head keeps each new report and numbers the devices when none is missing or the time is up; ASSIGN is refused where it would renumber a loaded plan and otherwise taken, with the numbers of the partners, and acknowledged; the last acknowledgement ends the discovery; RESTORE_ROUTES waits for a step in flight; an interrupt request that passes the checks of its link reaches the host at a head only. What a device sends to others in discovery and assignment stands in Suite.sent, and the round that tells one discovery from the next in its message, by the model's choice of log 44. (R396, R399, R404, R405, R406, R407, R416, R424, R425, R457, R472.) -/
def Obligations.SuiteCommands : Prop :=
  ∀ s : State,
    let u := s.suite
    let sends (but : List Nat) (h : BitVec 384) (round : BitVec 16) : List SuiteOut :=
      ((List.range 36).filter (fun p => s.trusted p && !but.contains p)).map (fun p => .discover p h round)
    let begun := { u with noHeadRole := false, discovery := 1, reports := [], assigning := [], assignFailed := false,
                          round := u.round + 1, sent := u.sent ++ sends [] identityHash (u.round + 1) }
    (∀ path, Reaches s.toDev path .suiteCtl →
      (∃ t, exec (.credCommit path) s = .next t ∧ t.suite = if blobBad u.buffer then { u with credState := 2 }
        else { u with credState := 1, cred := some (u.buffer.take (0x180 + 52 * atN u.buffer 4 2)) }) ∧
      (u.head = true → u.mayHead = true → ∃ t, exec (.discover path) s = .next t ∧ t.suite = begun) ∧
      (s.seq.run.isSome = true → ∃ t, exec (.restoreRoutes path) s = .next t ∧ t.suite = { u with restore := true }) ∧
      (s.seq.run = none → ∃ t, exec (.restoreRoutes path) s = .next t ∧ t.suite.restore = false ∧
        t.suite.planRoutes = u.planRoutes.map (fun e => (e.1, { e.2 with cur := (s.bestAlt e.1 e.2).or e.2.cur })))) ∧
    (u.head = true → u.mayHead = true → ∃ t, exec .discoveryStart s = .next t ∧ t.suite = begun) ∧
    (u.head = true → u.mayHead = false → ∃ t, exec .discoveryStart s = .next t ∧ t.suite = { u with noHeadRole := true, discovery := 3 }) ∧
    (∀ (p : Pt) (h : BitVec 384) (round : BitVec 16), s.trusted p.val = true →
      (u.head = true → exec (.discoverMessage p h round) s = .next { s with suite := { u with conflict := true } }) ∧
      (u.head = false → (u.answered = none ∨ ∃ r, r ≠ round ∧ u.answered = some (h, r)) →
        exec (.discoverMessage p h round) s = .next { s with suite := { u with
          answered := some (h, round), alternatePaths := []
          sent := u.sent ++ [.discReport p.val identityHash s.ownPorts] ++ sends [p.val] h round } }) ∧
      (u.head = false → u.answered = some (h, round) →
        exec (.discoverMessage p h round) s = .next { s with suite := { u with alternatePaths := u.alternatePaths ++ [p.val] } }) ∧
      (u.head = false → ∀ h' r, h' ≠ h → u.answered = some (h', r) → exec (.discoverMessage p h round) s = .next s)) ∧
    (u.head = true → u.discovery = 1 → u.assigning = [] →
      (∀ r : DiscReport, (∀ x ∈ u.reports, x.identity ≠ r.identity) →
        let d : Dev := { s.toDev with suite := { u with reports := u.reports ++ [r] } }
        (d.allReports = false → exec (.discoveryReport r) s = .next { s with toDev := d }) ∧
        (d.allReports = true → ∃ t, exec (.discoveryReport r) s = .next t ∧ t.suite.numbered = true ∧ t.suite.reports = u.reports ++ [r])) ∧
      (u.reports = [] → s.planLoaded = false → ∃ t, exec .discoveryReportTimeout s = .next t ∧ t.suite.numbered = true ∧
        t.suite.discovery = 2 ∧ t.suite.devices = 1 ∧ t.suite.routes = [] ∧
        t.number = BitVec.ofNat 6 ((Numbers.of ((u.cred.map blobNumbers).getD []) identityHash).getD 0))) ∧
    (u.head = false → ∀ number : BitVec 6,
      (s.planLoaded = true → number ≠ s.number → ∀ routes partners, exec (.assign number routes partners) s = .next { s with suite := { u with
        sent := u.sent ++ [.assignAck false] } }) ∧
      ((s.planLoaded = false ∨ number = s.number) → ∀ dev hops ports, ports.length ≤ 4 →
        (∃ t r, exec (.assign number [(dev, hops, ports)] []) s = .next t ∧ t.number = number ∧ t.suite.numbered = true ∧
          t.suite.sent = u.sent ++ [.assignAck true] ∧
          t.suite.routes = [(dev, r)] ∧ r.hops = hops ∧ r.ports = ports ∧ (∀ i, r.cur = some i → s.trusted (ports.getD i 64) = true) ∧
          (r.cur = none → ∀ p ∈ ports, s.trusted p = false)) ∧
        ∀ p n, s.trusted p = true → ∃ t, exec (.assign number [(dev, hops, ports)] [(p, n)]) s = .next t ∧ (t.port p).pNumber = n ∧
          (t.port p).st = (if n.isSome then 4 else 5))) ∧
    (∀ (dev : BitVec 6) (ok : Bool), dev.toNat ∈ u.assigning →
      let left := u.assigning.filter (fun x => x != dev.toNat)
      ∃ t, exec (.assignAcknowledgement dev ok) s = .next t ∧ t.suite.assigning = left ∧ t.suite.assignFailed = (u.assignFailed || !ok) ∧
        t.suite.discovery = (if left = [] then (if u.assignFailed = true ∨ ok = false then 3 else 2) else u.discovery)) ∧
    (∀ v via d, s.classH via 2 false false = .ok d →
      exec (.interruptRequest v via) s = .next { s with toDev := if u.head then { d with irqs := d.irqs ++ [v] } else d })

/-- With a host link and no access of the host waiting or write of it unperformed, an aligned read of Window 0 completes with the register's value and any other is refused with Completer Abort; Window 2 reads stack space of this device with its mark and forwards an access of another; a write of Window 2 is accepted by the stack with the TLP's poison; a write of Window 0 is the register write of its bytes, and Window 4 reads 0. A read before which a host write waits for a held channel waits with it. A read over a link outside every open window is refused and counted. A forwarded read completes, fails or times out, a late answer is counted, and a forwarded write that its target refuses is recorded. A read of Window 4 at the page of this device completes as a read of it, one of another device's page once no write to that device is unperformed. W2_RESIZE takes a size from 1 GiB to 2 TiB, which takes effect where Memory Space Enable goes from 0 to 1; PCIe reset and PERST_N drop reads in flight and restore the size, and PERST_N takes the link down, its ports with no lane in use, and trains it again at the partner's rate and width. A register write through any path stores the writable fields of DEV_WD_CTL. That a Window 0 access in breach of its rules is refused with FLT_LINK_WINDOW (log 40), that a Window 0 write is performed whatever its poison bit (log 58), that the link trains at the partner's rate and width (log 26), that a refusal carries its code in the first two bytes (log 56), that what is refused over a link stands in Suite.sent (log 44), and that Window 2's size waits in a field of its own with Memory Space Enable 0 at reset (log 118) are the model's choices. (R337, R351, R402, R404, R411, R412, R413, R414, R415, R416, R495, R518.) -/
def Obligations.HostAccess : Prop :=
  ∀ s : State,
    let b := s.bridge
    (∀ (path : Path) (v : BitVec 64), Reaches s.toDev path .wdCtl → ∃ t, exec (.registerWrite path 0x38 false v) s = .next t ∧
      Wrote s t { s.toDev with wdCtl := v.setWidth 8 }) ∧
    (s.hostUp = true → b.parked = [] → s.performHost.hostHeld = true → ∀ off len, exec (.hostRead .w0 off len) s = .next { s with
      toDev := { s.performHost with bridge := { s.performHost.bridge with parked := [.read .w0 off len b.w2Log2] } } }) ∧
    (s.hostUp = true → HostQuiet s.toDev →
      (∀ off len, (len = 4 ∨ len = 8) → off % len = 0 → off + len ≤ 2 ^ 26 → ∃ t, exec (.hostRead .w0 off len) s = .next t ∧
        t.bridge = { (s.regRead .host off (len == 8)).1.bridge with
          cpl := some (.data (leBytes len (s.regRead .host off (len == 8)).2) false) }) ∧
      (∀ off len, (len = 4 ∨ len = 8) → off % len ≠ 0 → ∃ t, exec (.hostRead .w0 off len) s = .next t ∧
        t.bridge = { b with cpl := some .abort, lastCode := fltLinkWindow, refused := satInc16 b.refused, aerAbort := true } ∧
        t.flog.offered.length = s.flog.offered.length + 1) ∧
      (∀ off (data : List Byte) p, data.length = 4 → off % 4 = 0 → off + 4 ≤ 2 ^ 26 →
        ∃ t, exec (.hostWrite .w0 off data p) s = .next t ∧
          exec (.registerWrite .host (BitVec.ofNat 26 off) false (BitVec.ofNat 64 (leNat data)))
            { s with bridge := { b with aerPoison := b.aerPoison || p } } = .next t) ∧
      (∀ off len, off + len ≤ 2 ^ 20 →
        (∀ n, s.pageOf off = .other n → s.sentTo n = false) →
        exec (.hostRead .w4 off len) s = .next { s with bridge := { b with cpl := some (.data (List.replicate len 0) false) } }) ∧
      (∀ off len n, s.pageOf off = .other n → s.sentTo n = true → exec (.hostRead .w4 off len) s = .next { s with
        bridge := { b with parked := [.page off len true] }, suite := { s.suite with sent := s.suite.sent ++ [.marker n] } }) ∧
      (∀ off n dev addr, off + n ≤ 2 ^ b.w2Log2 → s.segmentAt b.w2Log2 off = some (dev, addr) →
        (∀ o, s.hostTarget dev = .other o →
          (n ≤ 4096 → exec (.hostRead .w2 off n) s = .next { s with bridge := { b with reads := b.reads ++ [⟨o, BitVec.ofNat 48 addr, n⟩] } }) ∧
          (∀ (data : List Byte) p, data.length = n → n ≤ 512 → exec (.hostWrite .w2 off data p) s =
            .next { s with bridge := { b with aerPoison := b.aerPoison || p, sent := b.sent ++ [⟨o, BitVec.ofNat 48 addr, data, p, false⟩] } })) ∧
        (s.hostTarget dev = .own → bits 47 44 addr = 0 →
          let sk := bits 43 39 (bits 43 0 addr)
          let x := bits 36 0 (bits 43 0 addr)
          (s.dom (stkDom sk)).entering = none → (s.stk sk).upsets = [] →
          (n ≤ 4096 → s.stkRefusal (bits 43 0 addr) n .host false = none → s.readWaits addr n = false → ∃ t, exec (.hostRead .w2 off n) s = .next t ∧
            t.bridge.cpl = some (.data ((s.stk sk).readCtl x n).data (!((s.stk sk).readCtl x n).marks.isEmpty)) ∧ ∀ j, t.stk j = s.stk j) ∧
          (∀ (data : List Byte) p, data.length = n → n ≤ 512 → s.stkRefusal (bits 43 0 addr) n .host true = none →
            ∃ t, exec (.hostWrite .w2 off data p) s = .next t ∧ t.stk sk = (s.stk sk).accept x data (fun _ => p) Who.host.owner ∧
              ∀ j, j ≠ sk → t.stk j = s.stk j))) ∧
      (∀ n : Fin 42, exec (.w2Resize (.size n)) s = .next { s with bridge := { b with w2Next := if 30 ≤ n.val then n.val else b.w2Next } }) ∧
      ∀ on, exec (.w2Resize (.memSpace on)) s = .next { s with bridge := { b with
        memSpace := on, w2Log2 := if on = true ∧ b.memSpace = false then b.w2Next else b.w2Log2 } }) ∧
    (∀ (via : Via) (off n : Nat) d, s.classH via 1 false true = .ok d → 0 < n → n ≤ 4096 → off + n ≤ 2 ^ 48 →
      bits 47 44 off < 3 → s.windowOpen 1 off (off + n) = false →
      ∃ t, exec (.hostRead (.link via) off n) s = .next t ∧ t.suite.sent = s.suite.sent ++ [.hostRefused fltLinkWindow false] ∧
        (t.port via.port.val).dropped = satInc16 (s.port via.port.val).dropped ∧ t.flog.offered.length = s.flog.offered.length + 1 ∧ t.bridge = b) ∧
    (∀ idx, (∀ r, b.reads[idx]? = some r →
        let b' := { b with reads := b.reads.eraseIdx idx }
        exec (.hostReadTimeout idx) s = .next { s with bridge := { b' with lateReads := b.lateReads + 1, cpl := some .abort, aerAbort := true } } ∧
        (∀ via data p d, s.classH via (hostFlits data.length) false false = .ok d →
          exec (.hostReadCompletion (.read idx) via true data p) s = .next { s with toDev := { d with bridge := { b' with cpl := some (.data data p) } } }) ∧
        (∀ via (data : List Byte) p d, s.classH via (hostFlits data.length) false false = .ok d →
          ∃ t, exec (.hostReadCompletion (.read idx) via false data p) s = .next t ∧
          t.bridge = { b' with
            cpl := some .abort, lastCode := BitVec.ofNat 16 (leNat (data.take 2)), refused := satInc16 b.refused, aerAbort := true })) ∧
      (∀ w, b.sent[idx]? = some w → ∀ via (data : List Byte) p d, s.classH via (hostFlits data.length) false false = .ok d →
        ∃ t, exec (.hostReadCompletion (.write idx) via false data p) s = .next t ∧
        t.bridge = { b with
          sent := b.sent.eraseIdx idx, lastCode := BitVec.ofNat 16 (leNat (data.take 2)), refused := satInc16 b.refused } ∧
        t.flog.offered.length = s.flog.offered.length + 1) ∧
      (b.reads[idx]? = none → 0 < b.lateReads → ∀ via ok (data : List Byte) p d, s.classH via (hostFlits data.length) false false = .ok d →
        exec (.hostReadCompletion (.read idx) via ok data p) s =
          .next { s with toDev := { d with bridge := { b with lateReads := b.lateReads - 1, late := satInc16 b.late } } })) ∧
    (s.suite.head = true →
      (b.parked = [] → exec .pcieReset s = .next { s with bridge := { b with
        w2Log2 := 34, w2Next := 34, memSpace := false, reads := [], cpl := none } }) ∧
      (∃ t, exec .perstNAssert s = .next t ∧ t.boot.perstLow = true ∧ t.bridge = b.linkDown ∧ (∀ j, (t.port j).st ≠ 9 ∨ 4 ≤ j) ∧
        ∀ j, j < 4 → (s.port j).st = 9 → (t.port j).st = 1 ∧ (t.port j).lanes = 0) ∧
      (s.portCore 0 = true → (∀ j, j < 4 → (s.port j).enabled = true ∧ (s.port j).needRetrain = false ∧ ((s.port j).st = 0 ∨ (s.port j).st = 1)) →
        ∀ q rate width, pcieLink q = some (rate, width) → ∃ t, exec (.perstNRelease q) s = .next t ∧ t.boot.perstLow = false ∧
          t.bridge = { b with linkUp := true, rate := rate, width := width } ∧ ∀ j, j < 4 → (t.port j).st = 9))

/-- Where the path reaches PWR_DOM_CTL, a request that nothing refuses starts the entry into its state, or none where the domain is in it, and a refused one counts and names its refuser; the entry's end, with no plan loaded, changes the state, and a register access that an entering domain serves ends the entry and counts it as aborted; CLR_COUNTS zeroes both counters. A regulator whose live phases all agree loses none and shows the average of their sum now and at the reading before, also where all its loads are OFF and no phase carries current; a dead phase of one with a load is lost. A reading near its neighbours is used as it stands, and the level of the value that governs its domain follows; a second confirmed one at shutdown level shuts the device down; SUSPECT is cleared by writing 1. The loop step of a domain follows its governing value, and the cap step the current, one at a time within their bounds. That the always-on controller is named as the refuser of a request that it refuses itself (log 31), that the average is of two readings in whole amperes (log 32) and that THROTTLE_LOOP brings what the supply monitor shows (log 104) are the model's choices. (R23, R431, R432, R433, R434, R435, R436, R438, R440, R442, R445, R448.) -/
def Obligations.PowerDomains : Prop :=
  (∀ (d_ : DomainId) (s : State),
    let id := domId d_
    let m := s.dom id
    (∀ (path : Path) (v : BitVec 32), Reaches s.toDev path (.domCtl id) → v.getLsbD 3 = false → isPortDom id = false →
      (∀ n, domNeeds id = some n → (s.dom n).entering = none) →
      let cap := bits 7 4 v.toNat
      let m' := { m with capStep := if cap ≤ maxStep id then BitVec.ofNat 4 cap else m.capStep, discard := v.getLsbD 2 }
      ∀ p ∈ ([(.domainReqOn path d_ v, 1), (.domainReqRetention path d_ v, 2), (.domainReqOff path d_ v, 0)] : List (Instr × BitVec 2)),
        ((s.setDom id m').refuser id p.2 = none → ∃ t, exec p.1 s = .next t ∧ (t.dom id).entering = (if m.st = p.2 then none else some p.2) ∧
          (t.dom id).st = m.st ∧ (t.dom id).refused = m.refused ∧ t.journal.total = s.journal.total + 1) ∧
        (∀ r, (s.setDom id m').refuser id p.2 = some r → ∃ t, exec p.1 s = .next t ∧ (t.dom id).entering = m.entering ∧
          (t.dom id).st = m.st ∧ (t.dom id).refused = satInc16 m.refused ∧ (t.dom id).lastRefuser = r)) ∧
    (∀ (path : Path) (v : BitVec 32), Reaches s.toDev path (.domCtl id) → v.toNat % 4 = 0 → ∃ t, exec (.pwrClrCounts path d_ v) s = .next t ∧
      (t.dom id).refused = 0 ∧ (t.dom id).aborted = 0 ∧ (t.dom id).st = m.st ∧ (t.dom id).entering = m.entering) ∧
    (∀ st bad, m.entering = some st → st ≠ 1 → s.planIdle = true → ∃ t, exec (.domainEntryComplete d_ bad) s = .next t ∧ (t.dom id).st = st ∧ (t.dom id).entering = none) ∧
    (∀ bad, m.entering = some 1 → s.planIdle = true → ∃ t, exec (.domainOnComplete d_ bad) s = .next t ∧ (t.dom id).st = 1 ∧ (t.dom id).entering = none) ∧
    (∀ underVolt, isPortDom id = false → id % 256 ≠ 105 →
      let v := s.governing id
      let top := threshold (isStkDom id) 2
      ∃ t, exec (.throttleLoop d_ underVolt) s = .next t ∧ (t.dom id).loopStep.toNat =
        if top ≤ v then min (maxStep id) (m.loopStep.toNat + 1) else if v < top - 20 then m.loopStep.toNat - 1 else m.loopStep.toNat)) ∧
  (∀ (off : BitVec 26) (r : Reg) (id : Nat) (st : BitVec 2) (s : State), s.boot.vaux33 = true → s.boot.stage ≠ 10 → s.reached .sideband = true → off.toNat % 4 = 0 →
    regAt off.toNat = some r → (s.serverOf r = .domain id ∨ ∃ c, s.serverOf r = .cabinet c id ∧ s.fenced c = false) →
    (s.dom id).st = 1 → (s.dom id).entering = some st → ∃ t, exec (.regRead off false) s = .next t ∧
      t.dom id = { s.dom id with entering := none, aborted := satInc16 (s.dom id).aborted, lastRefuser := alwaysOnBlock } ∧
      t.mgmt.answer = .data (leBytes 4 (s.regValue r % 2 ^ 32))) ∧
  (∀ (r : RegulatorId) (amps : List Nat) (s : State),
    let id := regulId r
    let live := (List.range (regFitted id)).filter (fun i => !(s.regul id).lost.contains i)
    (∀ a, (0 < a ∨ s.regRuns id = false) → (∀ i ∈ live, amps.getD i 0 = a) → ∃ t, exec (.regulatorSample r amps) s = .next t ∧
        t.regul id = { current := BitVec.ofNat 12 (min 4095 (((s.regul id).prev.getD (live.length * a) + live.length * a) / 2)),
                       prev := some (live.length * a), lost := (s.regul id).lost, streaks := [] }) ∧
      (s.regRuns id = true → ∀ i ∈ live, amps.getD i 0 = 0 → ∃ t, exec (.regulatorSample r amps) s = .next t ∧ i ∈ (t.regul id).lost)) ∧
  (∀ (n : SensorId) (s : State),
    let id := sensorId n
    let x := s.sensor id
    let good := (neighbours id).filter (fun j => !(s.sensor j).suspect)
    let med2 := median2 (good.map (fun j => (s.sensor j).raw.toInt))
    (∀ (raw : BitVec 16) (up : StartUp), x.suspect = false → 2 ≤ good.length → (2 * raw.toInt - med2).natAbs ≤ 64 → s.pwr.resetPending = none → s.pwr.hold = false →
      (x.hot = false ∨ raw.toInt < threshold (stackSensor id) 3) → ∃ t, exec (.sensorReading n raw up) s = .next t ∧
        t.sensor id = ⟨raw, BitVec.ofInt 16 (med2 / 2), false, false, BitVec.ofNat 2 (levelOf id x.level.toNat raw.toInt), 0, raw,
          decide (threshold (stackSensor id) 3 ≤ raw.toInt) && decide (id % 256 < 160)⟩ ∧
        ∀ g, levelDom id = some g → (t.dom g).level = BitVec.ofNat 2 (levelOf id (s.dom g).level.toNat (t.governing g))) ∧
    (∀ (raw : BitVec 16) (up : StartUp), x.suspect = false → 2 ≤ good.length → (2 * raw.toInt - med2).natAbs ≤ 64 → s.pwr.resetPending = none → s.pwr.hold = false →
      x.hot = true → threshold (stackSensor id) 3 ≤ raw.toInt → id % 256 < 160 → ∃ t, exec (.sensorReading n raw up) s = .next t ∧
        t.pwr.hold = true ∧ t.pwr.cause = fltThermalShutdown ∧ t.boot.stage = 11 ∧ t.benches = []) ∧
    (∀ path : Path, Reaches s.toDev path (.snsStatus id) → x.suspect = true → ∃ t, exec (.sensorSuspectClear path n) s = .next t ∧
      Wrote s t (s.setSensor id { x with suspect := false, streak := 0 }))) ∧
  (∀ (a : Nat) (s : State),
    let limit := 10 * s.pwr.limit.toNat
    ∃ t, exec (.powerCapLoop a) s = .next t ∧ t.pwr.current = BitVec.ofNat 16 (min 0xFFFF a) ∧ t.pwr.pcapStep.toNat =
      if limit < a then min 10 (s.pwr.pcapStep.toNat + 1) else if a + 100 < limit then s.pwr.pcapStep.toNat - 1 else s.pwr.pcapStep.toNat)

/-- VAUX33 rising or falling leaves a power-on reset in its first stage with the power-on marker alone in the journal; losing VIN12, a long RESET_N pulse and WARM leave their resets, but for one that meets a reset in force which is as strong, of which it is part; a short pulse does nothing. With both supplies valid and nothing holding it, a device whose firmware passes its checks comes up, to READY or, on a head, to where it waits for discovery, one without such firmware to RECOVERY, and one whose start-up finds a bad fuse to FUSE_FAULT. PERST_N's level stands through a reset. Losing a port reference clock fails the edge die's ports until RETRAIN, losing the PCIe clock takes the link down, and a passed self-test makes a restarting cabinet active. That bring-up is one step, whose start-up says what it meets (log 50), that a long RESET_N pulse holds the device until its release (log 51), what a reset empties where the spec is silent (log 74), and that losing VAUX33 leaves the power-on state at once (log 15) are the model's choices. (R23, R352, R455, R456, R457, R460, R472, R491, R493, R499.) -/
def Obligations.Bringup : Prop :=
  ∀ s : State,
    let ready : Prop := s.boot.vin12 = true ∧ s.boot.vaux33 = true ∧ s.boot.scanHold = false ∧ s.pwr.hold = false ∧ s.boot.stage = 0
    let comesUp (up : StartUp) (t : State) : Prop := t.fw.fuseBad = up.fuseFault ∧
      (up.fuseFault = true → t.boot.stage = 10) ∧ (up.fuseFault = false → s.bootChoice = none → t.boot.stage = 9 ∧ t.boot.fallback = true) ∧
      (∀ b f svn slot, up.fuseFault = false → s.bootChoice = some (b, f, svn, slot) → t.boot.copies = true ∧ t.boot.fallback = f ∧ t.boot.copy = b ∧ t.boot.svn = svn ∧
        t.boot.stage = if (s.bridge.headSel = true ∨ s.bridge.ctl.getLsbD 0 = true) ∧ s.suite.discovery ≠ 2 ∧ s.suite.discovery ≠ 3 then 7 else 8)
    let free : Prop := s.pwr.hold = false ∨ s.cool = true
    let below (kind : BitVec 2) : Prop := s.boot.stage = 0 → kind.toNat < s.boot.lastReset.toNat
    (∃ t, exec .vaux33Rise s = .next t ∧ t.boot.vaux33 = true ∧ t.boot.stage = 0 ∧ t.boot.lastReset = 0 ∧ t.tap = Tap.reset ∧
      t.boot.scanHold = false ∧ t.boot.copies = false ∧ t.boot.perstLow = s.boot.perstLow ∧
      t.journal.total = 1 ∧ t.benches = [] ∧ t.net = []) ∧
    (∃ t, exec .vaux33Loss s = .next t ∧ t.boot.vaux33 = false ∧ t.boot.stage = 0 ∧ t.boot.lastReset = 0 ∧ t.journal.total = 1 ∧ t.benches = []) ∧
    (s.boot.vaux33 = true → free → below 1 → ∃ t, exec .vin12Loss s = .next t ∧ t.boot.vin12 = false ∧ t.boot.stage = 0 ∧ t.boot.lastReset = 1 ∧
      t.journal.total = s.journal.total + 1 ∧ t.benches = [] ∧ t.net = []) ∧
    (free → below 1 → ∃ t, exec (.resetNAssert .long) s = .next t ∧ t.boot.resetLow = true ∧ t.boot.stage = 0 ∧ t.boot.lastReset = 1 ∧ t.benches = []) ∧
    (free → s.boot.stage = 0 → s.boot.lastReset.toNat ≤ 1 →
      exec (.resetNAssert .long) s = .next { s with free := s.free + 1, boot := { s.boot with resetLow := true } } ∧
      (s.boot.vaux33 = true → exec .vin12Loss s = .next { s with boot := { s.boot with vin12 := false } })) ∧
    (exec (.resetNAssert .short) s = .next { s with free := s.free + 1 }) ∧
    (∀ path up, Reaches s.toDev path .resetCtl → free → s.boot.stage ≠ 0 → ∃ t, exec (.warm path up) s = .next t ∧ t.boot.lastReset = 2 ∧ t.net = [] ∧ (up = .clean → t.discards = [])) ∧
    (∀ up, ready → s.boot.resetLow = false → ∃ t, exec (.supplyValid true true up) s = .next t ∧ comesUp up t) ∧
    (∀ up, ready → ∃ t, exec (.resetNRelease up) s = .next t ∧ t.boot.resetLow = false ∧ comesUp up t) ∧
    (∀ e : Fin 4, ∃ t, exec (.lrefclkLoss e) s = .next t ∧ ∀ i, i < 9 → (t.port (9 * e.val + i)).needRetrain = true ∧
      (t.port (9 * e.val + i)).st = (if (s.port (9 * e.val + i)).st = 10 then 10 else 6)) ∧
    (s.suite.head = true → ∃ t, exec .prefclkLoss s = .next t ∧ t.bridge = s.bridge.linkDown) ∧
    (∀ c : Cab, (s.cab c.val).st = 3 → (s.cab c.val).tested = false → s.domOn (sbDom c.val) = true → s.domOn (stkDom (2 * c.val)) = true →
      s.domOn (stkDom (2 * c.val + 1)) = true → (s.stk (2 * c.val)).trained = true → (s.stk (2 * c.val + 1)).trained = true →
      (s.stk (2 * c.val)).badChannels = [] → (s.stk (2 * c.val + 1)).badChannels = [] →
      ∃ t, exec (.checkerSelftestComplete c []) s = .next t ∧ (t.cab c.val).st = 1 ∧ (t.cab c.val).tested = true ∧ t.boot.selftest = 1)

/-- Where the path reaches FW_CTL and no operation runs: PROGRAM writes the staging buffer at the chunk of the copy that is not running and opens the update, the first one erasing header and boot record and every later one leaving the other bytes; FINISH of this path's update starts where the copy passes its checks, is refused with the code of the check that fails, which closes the update, and with NOTHING where none is open; ABORT closes it and erases header and boot record, so that the copy does not boot; REVOKE starts on a good token and is refused with the token's code on any other; ADVANCE_SVN starts where the running SVN is above the counter. The end of a flash operation shows DONE and gives a finished copy its boot record, or, where no operation of an update runs, ends the write of a changed repair map; the end of a fuse operation leaves the new counter or slot. DEV_REPAIR_CTL arms RESET_MAP with its key alone. That FINISH closes the update in either outcome and answers NOTHING without one (log 61), what flash holds where nothing is stated (log 91), how the flash generations are numbered and when one is written (log 122), and that REVOKE and ADVANCE_SVN start while the other path's update is open (log 124) are the model's choices. (R460, R461, R462, R464, R466, R472, R480, R481.) -/
def Obligations.FirmwareUpdate : Prop :=
  ∀ (path : Path) (s : State),
    let f := s.fw
    let idle := { f with chunk := 0 }
    let other := f.copy (!s.boot.copy)
    let ends (a : Nat) : Prop := a < 4096 ∨ recordAt ≤ a ∧ a < recordAt + 4096
    (Reaches s.toDev path .fwCtl → f.op = none →
      (∀ v : BitVec 32, v.toNat % 32 = 0 → f.foreign path = false → s.MemOk → ∃ t m torn, exec (.program path v) s = .next t ∧
        t.fw.owner = some path ∧ t.fw.op = some (.program (bits 31 23 v.toNat)) ∧ t.fw.st = 1 ∧
        t.fw.copy (!s.boot.copy) = .written m torn ∧ t.fw.copy s.boot.copy = f.copy s.boot.copy ∧
        (∀ j, j < 65536 → m.byte (65536 * bits 31 23 v.toNat + j) = f.staging.getD j 0) ∧
        ∀ a, (a < 65536 * bits 31 23 v.toNat ∨ 65536 * (bits 31 23 v.toNat + 1) ≤ a) → m.byte a =
          if f.owner = none ∧ ends a then 0xFF else (other.bytes s.free).1.byte a) ∧
      (f.owner = some path →
        (∀ r, other.check f (Config.arbiter s.free) = .ok r → ∃ t, exec (.finish path) s = .next t ∧
          t.fw = { idle with st := 1, code := 0, op := some .finish }) ∧
        (∀ code, other.check f (Config.arbiter s.free) = .error code → ∃ t, exec (.finish path) s = .next t ∧
          t.fw = { idle with owner := none, st := 3, code := code }) ∧
        (∃ t, exec (.abort path) s = .next t ∧ Wrote s t { s.toDev with free := s.free + 1, fw := {
          idle.setCopy (!s.boot.copy) (.written (eraseEnds (other.bytes s.free).1) (other.bytes s.free).2) with owner := none, st := 0, code := 0 } } ∧
          (s.MemOk → (t.fw.copy (!s.boot.copy)).record = none ∧ ∀ g luck, (t.fw.copy (!s.boot.copy)).check g luck = .error 9))) ∧
      (f.owner = none → ∃ t, exec (.finish path) s = .next t ∧ Wrote s t { s.toDev with fw := { idle with st := 3, code := 2 } }) ∧
      (∃ t, exec (.revoke path) s = .next t ∧ Wrote s t { s.toDev with fw := match tokenFault f (f.staging.take 208) with
        | none => { idle with st := 1, code := 0, op := some (.revoke (BitVec.ofNat 2 (at1 f.staging 0))) }
        | some code => { idle with st := 3, code := code } }) ∧
      (s.boot.stage ≠ 9 → f.counter < s.boot.svn.toNat → ∃ t, exec (.advanceSvn path) s = .next t ∧
        Wrote s t { s.toDev with fw := { idle with st := 1, code := 0, op := some (.advance s.boot.svn.toNat) } }) ∧
      (s.boot.svn.toNat ≤ f.counter → ∃ t, exec (.advanceSvn path) s = .next t ∧
        Wrote s t { s.toDev with fw := { idle with st := 3, code := 2 } })) ∧
    (∀ k, f.op = some (.program k) → exec .flashOperationComplete s = .next { s with fw := { f with op := none, st := 2, code := 0 } }) ∧
    (f.op = some .finish → s.MemOk → ∃ t m torn, exec .flashOperationComplete s = .next t ∧ t.fw.op = none ∧ t.fw.st = 2 ∧ t.fw.owner = none ∧
      t.fw.copy s.boot.copy = f.copy s.boot.copy ∧ t.fw.copy (!s.boot.copy) = .written m torn ∧ torn = (other.bytes s.free).2 ∧
      (t.fw.copy (!s.boot.copy)).record = some ((f.copy s.boot.copy).record.getD 0 + 1) ∧
      ∀ a, (a < recordAt ∨ recordAt + 8 ≤ a) → m.byte a = (other.bytes s.free).1.byte a) ∧
    (f.op = none → s.boot.copies = true → 4 ≤ s.boot.stage.toNat → s.boot.stage.toNat ≤ 8 → s.mapChanged = true →
      exec .flashOperationComplete s = .next { s with fw := { f with map := f.map.save s.repairMap true } }) ∧
    (∀ n, f.op = some (.advance n) → exec .fuseOperationComplete s =
      .next { s with fw := { f with counter := max f.counter n, op := none, st := 2, code := 0 } }) ∧
    (∀ slot, f.op = some (.revoke slot) → exec .fuseOperationComplete s =
      .next { s with fw := { f with revoked := f.revoked ||| BitVec.ofNat 4 (2 ^ slot.toNat), op := none, st := 2, code := 0 } }) ∧
    (Reaches s.toDev path .repairCtl →
      (∃ t, exec (.resetMap path 0x5EED) s = .next t ∧ Wrote s t { s.toDev with boot := { s.boot with resetMap := true } }) ∧
      (∀ key, key ≠ 0x5EED → ∃ t, exec (.resetMap path key) s = .next t ∧ Wrote s t s.toDev))

/-- DEV_PWR_CAP resets to 0x17C and reads as LIMIT_A, its reserved bits 0; where the path reaches it, a write whose low nine bits are 100 to 380 sets LIMIT_A to them, and any other leaves it; nothing but that and one journal entry changes. (R453.) -/
def Obligations.PowerCapWrites : Prop :=
  State.reset.pwr.limit = 0x17C ∧
  ∀ (path : Path) (wide : Bool) (v : BitVec 64) (s : State), Reaches s.toDev path .pwrCap →
    let cap := v.toNat % 2 ^ 9
    s.regValue .pwrCap = s.pwr.limit.toNat ∧
    (100 ≤ cap → cap ≤ 380 → ∃ t, exec (.registerWrite path 0x300010 wide v) s = .next t ∧
      Wrote s t { s.toDev with pwr := { s.pwr with limit := v.setWidth 9 } }) ∧
    ((cap < 100 ∨ 380 < cap) → ∃ t, exec (.registerWrite path 0x300010 wide v) s = .next t ∧ Wrote s t s.toDev)

/-- With VAUX33 valid and outside FUSE_FAULT each sideband command is answered: addresses and the buffer size are kept, ENTDAA shows the provisional ID with the low half of DEV_SERIAL, MCTP and PLDM types are listed, versions, commands and descriptors answer for the types the device has and are refused for others, sensors answer their value or state, the repository holds a record for each sensor, the oldest queued event is handed over as one of class 0xF0, registers are read and written with a value in return. SPDM answers Busy before READY and GET_VERSION with its versions after it, of which GET_CAPABILITIES takes either. The multiplexer's handshake lowers its request, a change during it is counted, and in MODE 1 a value is presented where it differs from the last one. A test instruction that drives pins puts the device in cold reset, the others only select a register, IDCODE puts the identification code between TDI and TDO, and TRST_N selects IDCODE. What stands on the pins and wires of the board (log 18) and the error codes and free parts of the management answers (log 29) are the model's choices, as are the data registers of CLAMP and HIGHZ (log 28). (R467, R469, R470, R471, R476, R477, R484, R498, R502, R503.) -/
def Obligations.ManagementAndDebug : Prop :=
  ∀ s : State,
    let m := s.mgmt
    let answers (c : Instr) (a : SideAnswer) : Prop := exec c s = .next { s with mgmt := { m with answer := a } }
    let o := s.obs
    (s.boot.vaux33 = true → s.boot.stage ≠ 10 →
      (∀ a, exec (.entdaa a) s = .next { s with mgmt := { m with addr := some a, answer := .data (beBytes 6 provisionalId.toNat) } }) ∧
      provisionalId.toNat % 2 ^ 32 = Config.serial.toNat % 2 ^ 32 ∧
      (∀ e, exec (.setEndpointId e) s = .next { s with mgmt := { m with eid := e, answer := .data [e] } }) ∧
      answers .getEndpointId (.data [m.eid]) ∧ answers .getMessageTypeSupport (.data [0, 1, 5]) ∧
      (∀ t ∈ ([0xFF, 0, 1, 5] : List (BitVec 8)), ∃ bs, answers (.getMctpVersionSupport t) (.data bs)) ∧
      (∀ t : BitVec 8, t ∉ ([0xFF, 0, 1, 5] : List (BitVec 8)) → answers (.getMctpVersionSupport t) (.error 0x80)) ∧
      (∃ bs, answers .gettid (.data bs)) ∧ answers .getpldmtypes (.data [0, 2, 5, 63]) ∧ answers (.getpldmcommands 63) (.data [1, 2]) ∧
      (∀ t ∈ ([0, 2, 5, 63] : List (BitVec 6)), (∃ bs, answers (.getpldmversion t) (.data bs)) ∧ ∃ bs, answers (.getpldmcommands t) (.data bs)) ∧
      (∀ t : BitVec 6, t ∉ ([0, 2, 5, 63] : List (BitVec 6)) → answers (.getpldmversion t) (.error 0x83) ∧ answers (.getpldmcommands t) (.error 0x83)) ∧
      (∀ n : SensorId, answers (.getsensorreading (BitVec.ofNat 16 (sensorId n)))
        (.data (BitVec.ofNat 8 (b2n (s.sensor (sensorId n)).suspect) :: leBytes 2 (s.sensor (sensorId n)).temp.toNat))) ∧
      answers (.getsensorreading 0x1001) (.data (0 :: leBytes 2 s.pwr.current.toNat)) ∧ answers (.getsensorreading 0xFFFF) (.error 0x80) ∧
      (∀ c : Cab, answers (.getstatesensorreadings (BitVec.ofNat 16 (0x3000 + c.val))) (.data [(s.cab c.val).st.setWidth 8])) ∧
      answers (.getstatesensorreadings 0x3010) (.data [s.boot.stage.setWidth 8]) ∧
      (∀ n id, sensorIds[n]? = some id → answers (.getpdr (BitVec.ofNat 32 (n + 1)))
        (.data (leBytes 4 (n + 1) ++ [if isNumeric id then 2 else 4] ++ leBytes 2 id ++ Config.mgmtData (4096 + id)))) ∧
      (∀ h : BitVec 32, sensorIds.length < h.toNat → answers (.getpdr h) (.error 0x82)) ∧
      answers .getpdrrepositoryinfo (.data (leBytes 4 sensorIds.length ++ Config.mgmtData 1)) ∧
      (∀ n : SensorId, sensorId n ∈ sensorIds ∧ isNumeric (sensorId n) = true) ∧
      (m.events = [] → answers .pollforplatformeventmessage (.data [])) ∧
      (∀ e rest, m.events = e :: rest → exec .pollforplatformeventmessage s =
        .next { s with mgmt := { m with events := rest, ibi := !rest.isEmpty, answer := .data (0xF0 :: e) } }) ∧
      (∀ n, ∃ bs, exec (.eventmessagebuffersize n) s = .next { s with mgmt := { m with bufSize := n, answer := .data bs } }) ∧
      (s.reached .sideband = true →
        (∀ (off : BitVec 26) (wide : Bool), off.toNat % (if wide then 8 else 4) = 0 → ∃ t, exec (.regRead off wide) s = .next t ∧
          t.mgmt.answer = .data (leBytes (if wide then 8 else 4) (s.regRead .sideband off.toNat wide).2)) ∧
        (∀ (off : BitVec 26) (wide : Bool), off.toNat % (if wide then 8 else 4) ≠ 0 → answers (.regRead off wide) (.error 0x80)) ∧
        (∀ v : BitVec 64, s.regServed .wdCtl = true → ∃ t, exec (.regWrite 0x38 false v) s = .next t ∧ t.wdCtl = v.setWidth 8 ∧
          t.mgmt.answer = .data (leBytes 4 (v.toNat % 256))))) ∧
    (s.boot.vaux33 = true →
      (∀ q, s.boot.stage ≠ 8 → s.boot.stage ≠ 10 →
        exec (.spdmRequest .mctp q) s = .next { s with mgmt := { m with mctpAnswer := some (.error 3) } }) ∧
      (s.boot.stage = 8 → exec (.spdmRequest .mctp .getVersion) s = .next { s with mgmt := { m with
        mctp := { SpdmConn.reset with asked := true }, mctpAnswer := some (.version [0x12, 0x13]) } }) ∧
      (s.boot.stage = 8 → m.mctp.asked = true → ∀ v ∈ ([0x12, 0x13] : List (BitVec 8)), ∃ a, exec (.spdmRequest .mctp (.getCapabilities v)) s =
        .next { s with mgmt := { m with mctp := { m.mctp with version := some v, capabilities := true }, mctpAnswer := some a } })) ∧
    (∀ q, (s.boot.vaux33 = false ∨ s.boot.stage = 10) → exec (.spdmRequest .mctp q) s = .next s) ∧
    (exec .obsAckRise s = .next { s with obs := { o with ack := true, req := false } }) ∧
    (o.enabled = false → exec .obsAckFall s = .next { s with obs := { o with ack := false } }) ∧
    (o.enabled = true → o.onChange = false → o.req = false → ∃ t, exec .obsAckFall s = .next t ∧ t.obs.req = true ∧ t.obs.ack = false ∧
      t.obs.group = o.ctl.setWidth 16) ∧
    (o.enabled = true → o.onChange = true → (o.req = true ∨ o.ack = true) → exec .obsSampleOnChange s =
      .next { s with obs := { o with changed := true, missed := satInc16 o.missed } }) ∧
    (o.enabled = true → o.onChange = true → o.req = false → o.ack = false → ∃ t, exec .obsSampleOnChange s = .next t ∧
      t.obs.req = !decide (s.obsValue (o.ctl.setWidth 16) = o.out) ∧ t.obs.out = s.obsValue (o.ctl.setWidth 16) ∧ t.obs.missed = o.missed) ∧
    (s.boot.scanHold = false →
      ((s.pwr.hold = false ∨ s.cool = true) → (s.boot.stage = 0 → 1 < s.boot.lastReset.toNat) →
        ∀ p ∈ ([(.extest, .extest), (.clamp, .clamp), (.highz, .highz), (.extestPulse, .extestPulse), (.extestTrain, .extestTrain)] : List (Instr × TapIr)),
          ∃ t, exec p.1 s = .next t ∧ t.tap = { s.tap with ir := p.2, dr := p.2.dataRegister } ∧ t.boot.scanHold = true ∧ t.boot.stage = 0 ∧ t.boot.lastReset = 1 ∧
            t.benches = []) ∧
      (∀ up, exec (.idcode up) s = .next { s with tap := { s.tap with ir := .idcode, dr := .identification 0xBA0095CB } }) ∧
      (∀ up, exec (.trstNAssert up) s = .next { s with tap := { s.tap with ir := .idcode, dr := .identification 0xBA0095CB } }) ∧
      (∀ up, exec (.bypass 0xFF up) s = .next { s with tap := { s.tap with ir := .bypass, dr := .bypass } }) ∧
      ∀ up, ∃ t, exec (.samplePreload up) s = .next t ∧ t.tap = ⟨.samplePreload, .boundary, s.capture⟩ ∧ t.boot = s.boot)
end

