-- ==== Sys2Proof/Laws/Memory.lean ====
section
/-! SUPPORT. Laws of the tables and of the addressed stores: a read after a write, and that every store operation keeps the canonical
form. -/

namespace Sys2Proof.Machine

/-! ## Tables -/

@[simp] theorem Tab.get_nil {α : Type} (d : α) (k : Nat) : Tab.get ([] : Tab α) d k = d := rfl

/-- A table read after a write. -/
theorem Tab.get_set {α : Type} (t : Tab α) (d : α) (k j : Nat) (v : α) :
    Tab.get (t.set k v) d j = if j = k then v else Tab.get t d j := by
  induction t with
  | nil => simp only [Tab.set, Tab.get, beq_iff_eq]; split <;> split <;> simp_all
  | cons p t ih =>
    obtain ⟨i, w⟩ := p
    simp only [Tab.set, beq_iff_eq]
    split
    · subst_vars; simp only [Tab.get, beq_iff_eq]; grind
    · split
      · simp only [Tab.get, beq_iff_eq]; grind
      · simp only [Tab.get, beq_iff_eq, ih]; grind

@[simp] theorem Tab.get_set_self {α : Type} (t : Tab α) (d : α) (k : Nat) (v : α) : Tab.get (t.set k v) d k = v := by
  simp [Tab.get_set]

theorem Tab.get_set_ne {α : Type} (t : Tab α) (d : α) {k j : Nat} (v : α) (h : j ≠ k) :
    Tab.get (t.set k v) d j = Tab.get t d j := by
  simp [Tab.get_set, h]

/-- An entry of a written table is the new one or an old one. -/
theorem Tab.mem_set {α : Type} {t : Tab α} {k : Nat} {v : α} {p : Nat × α} (h : p ∈ t.set k v) : p = (k, v) ∨ p ∈ t := by
  induction t with
  | nil => simp_all [Tab.set]
  | cons q t ih =>
    obtain ⟨i, w⟩ := q
    simp only [Tab.set] at h
    split at h
    · simp_all; tauto
    · split at h
      · simp_all
      · simp only [List.mem_cons] at h ⊢; tauto

/-- What a table reads is its default or an entry. -/
theorem Tab.get_mem {α : Type} (t : Tab α) (d : α) (k : Nat) : Tab.get t d k = d ∨ (k, Tab.get t d k) ∈ t := by
  induction t with
  | nil => simp
  | cons q t ih =>
    obtain ⟨i, w⟩ := q
    simp only [Tab.get]
    split
    · simp_all
    · simp only [List.mem_cons]; tauto

/-- A property of every entry and of the default holds of whatever is read. -/
theorem Tab.get_all {α : Type} {t : Tab α} {d : α} {P : α → Prop} (hd : P d) (h : ∀ p ∈ t, P p.2) (k : Nat) : P (Tab.get t d k) := by
  rcases Tab.get_mem t d k with e | e
  · rw [e]; exact hd
  · exact h _ e

/-- A property of every entry survives a write of a value that has it. -/
theorem Tab.set_all {α : Type} {t : Tab α} {P : α → Prop} {k : Nat} {v : α} (hv : P v) (h : ∀ p ∈ t, P p.2) :
    ∀ p ∈ t.set k v, P p.2 := by
  intro p hp
  rcases Tab.mem_set hp with e | e
  · rw [e]; exact hv
  · exact h _ e

/-! ## Listed bytes -/

theorem risingFrom_mono {l : List Host.Cell} {a b : Nat} (h : risingFrom b l = true) (hab : a ≤ b) : risingFrom a l = true := by
  cases l with
  | nil => rfl
  | cons p t => simp only [risingFrom, Bool.and_eq_true, decide_eq_true_eq] at h ⊢; exact ⟨by omega, h.2⟩

theorem cellPut_rising {l : List Host.Cell} {lo a : Nat} {v : Byte} (h : risingFrom lo l = true) (ha : lo ≤ a) :
    risingFrom lo (cellPut l a v) = true := by
  induction l generalizing lo with
  | nil => simp [cellPut, risingFrom, ha]
  | cons p t ih =>
    obtain ⟨b, w⟩ := p
    simp only [risingFrom, Bool.and_eq_true, decide_eq_true_eq] at h
    simp only [cellPut, beq_iff_eq]
    split
    · subst_vars; simp [risingFrom, h]
    · split
      · simp only [risingFrom, Bool.and_eq_true, decide_eq_true_eq]; exact ⟨ha, by omega, h.2⟩
      · simp only [risingFrom, Bool.and_eq_true, decide_eq_true_eq]; exact ⟨h.1, ih h.2 (by omega)⟩

theorem cellDrop_rising {l : List Host.Cell} {lo a : Nat} (h : risingFrom lo l = true) : risingFrom lo (cellDrop l a) = true := by
  induction l generalizing lo with
  | nil => rfl
  | cons p t ih =>
    obtain ⟨b, w⟩ := p
    have h' := h
    simp only [risingFrom, Bool.and_eq_true, decide_eq_true_eq] at h
    simp only [cellDrop, beq_iff_eq]
    split
    · exact risingFrom_mono h.2 (by omega)
    · split
      · exact h'
      · simp only [risingFrom, Bool.and_eq_true, decide_eq_true_eq]; exact ⟨h.1, ih h.2⟩

theorem cellPut_mem {l : List Host.Cell} {a : Nat} {v : Byte} {c : Host.Cell} (h : c ∈ cellPut l a v) : c = (a, v) ∨ c ∈ l := by
  induction l with
  | nil => simp_all [cellPut]
  | cons p t ih =>
    obtain ⟨b, w⟩ := p
    simp only [cellPut] at h
    split at h
    · simp only [List.mem_cons] at h ⊢; tauto
    · split at h
      · simp only [List.mem_cons] at h ⊢; tauto
      · simp only [List.mem_cons] at h ⊢; tauto

theorem cellDrop_mem {l : List Host.Cell} {a : Nat} {c : Host.Cell} (h : c ∈ cellDrop l a) : c ∈ l := by
  induction l with
  | nil => simp_all [cellDrop]
  | cons p t ih =>
    obtain ⟨b, w⟩ := p
    simp only [cellDrop] at h
    split at h
    · simp only [List.mem_cons]; tauto
    · split at h
      · exact h
      · simp only [List.mem_cons] at h ⊢; tauto

/-- The listed byte after one is put, in any list. -/
theorem cellGet_put {l : List Host.Cell} {lo a b : Nat} {v : Byte} (h : risingFrom lo l = true) :
    cellGet (cellPut l a v) b = if b = a then some v else cellGet l b := by
  induction l generalizing lo with
  | nil => simp only [cellPut, cellGet, beq_iff_eq]; split <;> split <;> (try split) <;> simp_all
  | cons p t ih =>
    obtain ⟨i, w⟩ := p
    simp only [risingFrom, Bool.and_eq_true, decide_eq_true_eq] at h
    simp only [cellPut, beq_iff_eq]
    split
    · subst_vars; simp only [cellGet, beq_iff_eq]; grind
    · split
      · simp only [cellGet, beq_iff_eq]; grind
      · simp only [cellGet, beq_iff_eq, ih h.2]; grind

theorem cellGet_below {l : List Host.Cell} {lo a : Nat} (h : risingFrom lo l = true) (ha : a < lo) : cellGet l a = none := by
  cases l with
  | nil => rfl
  | cons p t =>
    obtain ⟨i, w⟩ := p
    simp only [risingFrom, Bool.and_eq_true, decide_eq_true_eq] at h
    have h1 : i ≠ a := by omega
    have h2 : a < i := by omega
    simp [cellGet, h1, h2]

theorem cellGet_drop {l : List Host.Cell} {lo a b : Nat} (h : risingFrom lo l = true) :
    cellGet (cellDrop l a) b = if b = a then none else cellGet l b := by
  induction l generalizing lo with
  | nil => simp [cellDrop, cellGet]
  | cons p t ih =>
    obtain ⟨i, w⟩ := p
    simp only [risingFrom, Bool.and_eq_true, decide_eq_true_eq] at h
    simp only [cellDrop, beq_iff_eq]
    split
    · subst_vars
      by_cases hb : b = i
      · simp [hb, cellGet_below h.2]
      · simp only [cellGet, beq_iff_eq, hb, if_false]
        by_cases hlt : b < i
        · rw [cellGet_below h.2 (by omega)]; simp [Ne.symm hb, hlt]
        · simp [Ne.symm hb, hlt]
    · split
      · by_cases hb : b = a
        · subst hb; simp_all [cellGet]
        · simp [hb]
      · by_cases hb : b = a
        · subst hb; simp_all [cellGet, ih h.2]
        · simp only [cellGet, beq_iff_eq, ih h.2, hb, if_false]

/-! ## Stores -/

@[simp] theorem Mem.setByte_undef (m : Mem) (a : Nat) (v : Byte) : (m.setByte a v).undef = m.undef := rfl
@[simp] theorem Mem.setByte_pattern (m : Mem) (a : Nat) (v : Byte) : (m.setByte a v).pattern = m.pattern := rfl
@[simp] theorem Mem.setByte_unlisted (m : Mem) (a b : Nat) (v : Byte) : (m.setByte a v).unlisted b = m.unlisted b := rfl

/-- A byte write keeps the canonical form. -/
theorem Mem.wf_setByte {m : Mem} (a : Nat) (v : Byte) (h : m.wf = true) : (m.setByte a v).wf = true := by
  simp only [Mem.wf, Bool.and_eq_true, Bool.or_eq_true, List.all_eq_true, bne_iff_ne] at h ⊢
  simp only [Mem.setByte_undef, Mem.setByte_unlisted]
  refine ⟨?_, ?_⟩
  · simp only [Mem.setByte]
    split
    · exact cellDrop_rising h.1
    · exact cellPut_rising h.1 (Nat.zero_le _)
  · rcases h.2 with hu | hc
    · exact Or.inl hu
    · by_cases hn : m.undef.isSome = true
      · exact Or.inl hn
      · refine Or.inr fun c hm => ?_
        have hnone : m.undef.isNone = true := by cases hx : m.undef <;> simp_all
        simp only [Mem.setByte, hnone, Bool.true_and, beq_iff_eq] at hm
        split at hm
        · exact hc c (cellDrop_mem hm)
        · rcases cellPut_mem hm with e | e
          · subst e; assumption
          · exact hc c e

/-- A byte read after a byte write (R83). -/
theorem Mem.byte_setByte {m : Mem} (a b : Nat) (v : Byte) (h : m.wf = true) :
    (m.setByte a v).byte b = if b = a then v else m.byte b := by
  simp only [Mem.wf, Bool.and_eq_true] at h
  simp only [Mem.byte, Mem.setByte_unlisted]
  simp only [Mem.setByte]
  split
  · rename_i hc
    simp only [Bool.and_eq_true, beq_iff_eq] at hc
    rw [cellGet_drop h.1]
    split <;> simp_all
  · rw [cellGet_put h.1]
    split <;> simp_all

@[simp] theorem Mem.write_undef (m : Mem) (a : Nat) (vs : List Byte) : (m.write a vs).undef = m.undef := by
  induction vs generalizing m a with
  | nil => rfl
  | cons v vs ih => simp [Mem.write, ih]

theorem Mem.wf_write {m : Mem} (a : Nat) (vs : List Byte) (h : m.wf = true) : (m.write a vs).wf = true := by
  induction vs generalizing m a with
  | nil => exact h
  | cons v vs ih => exact ih _ (Mem.wf_setByte a v h)

theorem Mem.wf_writeOpt {m : Mem} (a : Nat) (vs : List (Option Byte)) (h : m.wf = true) : (m.writeOpt a vs).wf = true := by
  induction vs generalizing m a with
  | nil => exact h
  | cons v vs ih =>
    cases v with
    | none => exact ih _ h
    | some v => exact ih _ (Mem.wf_setByte a v h)

/-- A byte read after a write: inside the written bytes the new one, outside them the old one. -/
theorem Mem.byte_write {m : Mem} (a b : Nat) (vs : List Byte) (h : m.wf = true) :
    (m.write a vs).byte b = if a ≤ b ∧ b < a + vs.length then vs.getD (b - a) 0 else m.byte b := by
  induction vs generalizing m a with
  | nil => simp only [Mem.write, List.length_nil, Nat.add_zero]; rw [if_neg (by omega)]
  | cons v vs ih =>
    simp only [Mem.write, ih (a + 1) (Mem.wf_setByte a v h), Mem.byte_setByte a b v h, List.length_cons]
    by_cases h1 : b = a
    · subst h1; simp
    · by_cases h2 : a + 1 ≤ b ∧ b < a + 1 + vs.length
      · rw [if_pos h2, if_pos (by omega), show b - a = (b - (a + 1)) + 1 by omega]; simp
      · rw [if_neg h2, if_neg h1, if_neg (by omega)]

@[simp] theorem Mem.setMark_wf (m : Mem) (k : Nat) (on : Bool) : (m.setMark k on).wf = m.wf := rfl
@[simp] theorem Mem.setMark_byte (m : Mem) (k : Nat) (on : Bool) (a : Nat) : (m.setMark k on).byte a = m.byte a := rfl

theorem foldl_keep {α β γ : Type} {f : α → β → α} {p : α → γ} (l : List β) (a : α) (h : ∀ x b, p (f x b) = p x) :
    p (l.foldl f a) = p a := by
  induction l generalizing a with
  | nil => rfl
  | cons b l ih => rw [List.foldl_cons, ih, h]

@[simp] theorem Mem.markWrite_wf (m : Mem) (a n : Nat) (f : Nat → Bool) : (m.markWrite a n f).wf = m.wf :=
  foldl_keep (p := Mem.wf) _ _ (fun _ _ => rfl)

@[simp] theorem Mem.markWrite_byte (m : Mem) (a n : Nat) (f : Nat → Bool) (b : Nat) : (m.markWrite a n f).byte b = m.byte b :=
  foldl_keep (p := fun m => Mem.byte m b) _ _ (fun _ _ => rfl)

/-- A store with marks keeps the canonical form. -/
theorem Mem.wf_store {m : Mem} (a : Nat) (vs : List Byte) (f : Nat → Bool) (h : m.wf = true) : (m.store a vs f).wf = true := by
  simp [Mem.store, Mem.wf_write a vs h]

/-- A byte read after a store with marks. -/
theorem Mem.byte_store {m : Mem} (a b : Nat) (vs : List Byte) (f : Nat → Bool) (h : m.wf = true) :
    (m.store a vs f).byte b = if a ≤ b ∧ b < a + vs.length then vs.getD (b - a) 0 else m.byte b := by
  simp [Mem.store, Mem.byte_write a b vs h]

@[simp] theorem Mem.loseRange_wf (m : Mem) (lo hi : Nat) : (m.loseRange lo hi).wf = m.wf := rfl
@[simp] theorem Mem.filled_wf (p : BitVec 64) : (Mem.filled p).wf = true := rfl
@[simp] theorem Mem.undefined_wf (n : Nat) : (Mem.undefined n).wf = true := rfl
@[simp] theorem Mem.reset_wf : Mem.reset.wf = true := rfl

end Sys2Proof.Machine
end

