-- ==== Sys2Proof/WellFormed.lean ====
section
/-! DEFINITION. Well-formed commands: operand values that the manual admits and the operand types do not already enforce. exec is
total on every command; a command that is not well-formed is one that the block's surroundings never send. -/

namespace Sys2Proof

/-- An access of a register space offset is naturally aligned (R412, R509). -/
def alignedAccess (off : Nat) (wide : Bool) : Bool := off % (if wide then 8 else 4) == 0

/-- Phases fitted to a regulator (Table 15-8): a sample reads one current for each. -/
def RegulatorId.phases : RegulatorId → Nat
  | .cabinet _ => 7
  | .chest _ => 5
  | .plain _ => 4
  | .edge _ => 4
  | .ports _ => 5
  | .alwaysOn => 3

/-- What a partner shows has the lengths of Table 14-6 and Sequence 14-1. -/
def Partner.ok (q : Partner) : Bool :=
  q.cert.length == 256 && q.nonce.length == 48 && q.signature.length == 96 && decide (q.port.toNat < 36) &&
    (q.cmpRecord.isEmpty || q.cmpRecord.length == 32) && q.cmpHeld.all (fun r => r.length == 32)

/-- A route of an ASSIGN: a device number, and up to 4 ports in ascending order (R407). -/
def routeOk (r : Nat × Nat × List Nat) : Bool :=
  decide (r.1 < 64) && decide (r.2.2.length ≤ 4) && r.2.2.all (fun p => decide (p < 36)) &&
    (r.2.2.zip (r.2.2.drop 1)).all (fun p => decide (p.1 < p.2))

/-- The 32-byte words of a unit (R15, R16). -/
def FillUnit.words : FillUnit → Nat
  | .stack _ => 0x90000000
  | .sideboard _ => 0x300000

/-- Well-formed commands. -/
def Instr.wf (i : Instr) : Bool :=
  match i with
  | .copyComplete _ idx => decide (idx < 64)
  | .attend _ idx _ _ => decide (idx < 256)
  | .append _ idx _ => decide (idx < 256)
  | .gather _ idx _ _ => decide (idx < 256)
  | .update _ idx _ _ => decide (idx < 256)
  | .drawerCompletion _ idx => decide (idx < 256)
  | .patrolScrub u word _ _ => decide (word.toNat < u.words)
  | .registerWrite _ off wide _ => alignedAccess off.toNat wide
  | .regRead off wide => alignedAccess off.toNat wide
  | .regWrite off wide _ => alignedAccess off.toNat wide
  | .regulatorSample r amps => amps.length == r.phases
  | .frameReceive _ frame errors _ => frame.length == 1792 && errors.all (fun e => decide (e.1 < 1792))
  | .portTrain _ q => q.ok
  | .failedPortRetry _ q => q.ok
  | .authRetry _ q => q.ok
  | .discoveryReport r => r.ports.length == 36
  | .assign _ routes partners => routes.all routeOk && partners.all (fun e => decide (e.1 < 36))
  | .hostRead _ _ len => decide (0 < len) && decide (len ≤ 4096)
  | .hostWrite _ _ data _ => !data.isEmpty && decide (data.length ≤ 512)
  | .w2Resize (.size n) => decide (30 ≤ n.val)
  | .w2Resize (.memSpace _) => true
  | .hostReadCompletion _ _ ok data _ => ok || data.length == 2
  | _ => true

end Sys2Proof
end

