-- ==== Sys2Proof/Laws/PerInstr.lean ====
section
/-! SUPPORT. Laws made per command: family Units says that the bench, stack, port or cabinet a command names is one that the device
has (R7, R15, R17, R18, R37). -/

namespace Sys2Proof.Laws.Units

/-- The number of a unit that a fill writes and that scrubs itself. -/
def fillUnit : FillUnit → Nat × Nat
  | .stack s => (s.val, 24)
  | .sideboard c => (c.val, 12)

/-- The bench whose suite fence a marker ends. -/
def markerUnits : SuiteMarker → List (Nat × Nat)
  | .back b _ => [(96 * b.cab.val + b.bench.val, 1152)]
  | .ask _ _ => []
  | .drain _ => []
  | .drained _ _ => []

/-- The numbers of the units that a command names, each with the number of such units in a device. -/
def units (i : Instr) : List (Nat × Nat) :=
  match i with
  | .bundleIssue b _ _ => [(96 * b.cab.val + b.bench.val, 1152)]
  | .mma b _ _ _ => [(96 * b.cab.val + b.bench.val, 1152)]
  | .mpush b _ _ _ => [(96 * b.cab.val + b.bench.val, 1152)]
  | .msta b _ _ _ _ _ => [(96 * b.cab.val + b.bench.val, 1152)]
  | .mlda b _ _ _ _ _ => [(96 * b.cab.val + b.bench.val, 1152)]
  | .mldb b _ _ _ _ _ _ => [(96 * b.cab.val + b.bench.val, 1152)]
  | .vld b _ _ _ _ => [(96 * b.cab.val + b.bench.val, 1152)]
  | .vst b _ _ _ _ => [(96 * b.cab.val + b.bench.val, 1152)]
  | .ldx b _ _ _ _ _ => [(96 * b.cab.val + b.bench.val, 1152)]
  | .stx b _ _ _ _ => [(96 * b.cab.val + b.bench.val, 1152)]
  | .move b _ _ _ => [(96 * b.cab.val + b.bench.val, 1152)]
  | .copyGather b _ _ _ => [(96 * b.cab.val + b.bench.val, 1152)]
  | .scatter b _ _ _ => [(96 * b.cab.val + b.bench.val, 1152)]
  | .tally b _ _ _ => [(96 * b.cab.val + b.bench.val, 1152)]
  | .copyComplete b _ => [(96 * b.cab.val + b.bench.val, 1152)]
  | .cwait b _ _ _ => [(96 * b.cab.val + b.bench.val, 1152)]
  | .fence b _ _ => [(96 * b.cab.val + b.bench.val, 1152)]
  | .atom b _ _ _ _ _ _ => [(96 * b.cab.val + b.bench.val, 1152)]
  | .vpop b _ _ => [(96 * b.cab.val + b.bench.val, 1152)]
  | .vsetl b _ _ _ _ => [(96 * b.cab.val + b.bench.val, 1152)]
  | .vfma b _ _ _ _ => [(96 * b.cab.val + b.bench.val, 1152)]
  | .vbin b _ _ _ _ _ _ => [(96 * b.cab.val + b.bench.val, 1152)]
  | .vun b _ _ _ _ => [(96 * b.cab.val + b.bench.val, 1152)]
  | .vred b _ _ _ _ _ => [(96 * b.cab.val + b.bench.val, 1152)]
  | .vscan b _ _ _ _ _ => [(96 * b.cab.val + b.bench.val, 1152)]
  | .vsegscan b _ _ _ _ _ _ => [(96 * b.cab.val + b.bench.val, 1152)]
  | .vbcast b _ _ _ => [(96 * b.cab.val + b.bench.val, 1152)]
  | .send b _ _ _ _ _ => [(96 * b.cab.val + b.bench.val, 1152)]
  | .recv b _ _ _ _ _ => [(96 * b.cab.val + b.bench.val, 1152)]
  | .poll b _ _ _ => [(96 * b.cab.val + b.bench.val, 1152)]
  | .nop b _ => [(96 * b.cab.val + b.bench.val, 1152)]
  | .movi b _ _ _ => [(96 * b.cab.val + b.bench.val, 1152)]
  | .addi b _ _ _ _ => [(96 * b.cab.val + b.bench.val, 1152)]
  | .alu b _ _ _ _ _ => [(96 * b.cab.val + b.bench.val, 1152)]
  | .br b _ _ => [(96 * b.cab.val + b.bench.val, 1152)]
  | .brc b _ _ _ _ => [(96 * b.cab.val + b.bench.val, 1152)]
  | .brx b _ _ _ => [(96 * b.cab.val + b.bench.val, 1152)]
  | .seta b _ _ _ _ => [(96 * b.cab.val + b.bench.val, 1152)]
  | .geta b _ _ _ _ => [(96 * b.cab.val + b.bench.val, 1152)]
  | .setn b _ _ _ => [(96 * b.cab.val + b.bench.val, 1152)]
  | .gets b _ _ _ => [(96 * b.cab.val + b.bench.val, 1152)]
  | .stepend b _ => [(96 * b.cab.val + b.bench.val, 1152)]
  | .halt b _ => [(96 * b.cab.val + b.bench.val, 1152)]
  | .mpushBackpressureAdmit b => [(96 * b.cab.val + b.bench.val, 1152)]
  | .vpopRowsArrive b => [(96 * b.cab.val + b.bench.val, 1152)]
  | .messageArrival _ b _ => [(96 * b.cab.val + b.bench.val, 1152)]
  | .destFencedReturn _ _ _ => []
  | .hostMailboxRecord _ => []
  | .sideboardWriteMessage _ _ c => [(c.val, 12)]
  | .drawerRequest _ c => [(c.val, 12)]
  | .attend c _ _ _ => [(c.val, 12)]
  | .append c _ _ => [(c.val, 12)]
  | .gather c _ _ _ => [(c.val, 12)]
  | .update c _ _ _ => [(c.val, 12)]
  | .drawerCompletion c _ => [(c.val, 12)]
  | .fallbackAnswer _ c => [(c.val, 12)]
  | .mirrorAppendAnswer _ c => [(c.val, 12)]
  | .commit c => [(c.val, 12)]
  | .abandon c => [(c.val, 12)]
  | .activityCeilingAdjust c _ => [(c.val, 12)]
  | .drawerLost c _ _ => [(c.val, 12)]
  | .refreshPerform s _ _ => [(s.val, 24)]
  | .writeBatchDrain s _ => [(s.val, 24)]
  | .writeBatchAge s _ => [(s.val, 24)]
  | .patrolScrub u _ _ _ => [fillUnit u]
  | .channelRetrain s _ _ _ => [(s.val, 24)]
  | .channelHoldEnd s ch => [(s.val, 24), (ch.val, 32)]
  | .channelRepairHandover s => [(s.val, 24)]
  | .channelLost s _ => [(s.val, 24)]
  | .drawerPortDrain c => [(c.val, 12)]
  | .drainMarker b _ => [(96 * b.cab.val + b.bench.val, 1152)]
  | .fenceSuiteMarker m => markerUnits m
  | .spareSwap b _ => [(96 * b.cab.val + b.bench.val, 1152)]
  | .fillStart _ _ => []
  | .fillComplete u => [fillUnit u]
  | .stkIlvWrite _ s _ _ => [(s.val, 24)]
  | .stkClassCtlWrite _ s _ => [(s.val, 24)]
  | .sbAowWrite _ c _ _ => [(c.val, 12)]
  | .drwModeWrite _ c _ => [(c.val, 12)]
  | .drwMirrorWrite _ c _ => [(c.val, 12)]
  | .drwFallbackWrite _ c _ => [(c.val, 12)]
  | .devPlanBaseWrite _ _ => []
  | .load _ => []
  | .unload _ => []
  | .unloadStepTimeout => []
  | .start _ => []
  | .haltReq _ b => [(96 * b.cab.val + b.bench.val, 1152)]
  | .resume _ b => [(96 * b.cab.val + b.bench.val, 1152)]
  | .clearFault _ b => [(96 * b.cab.val + b.bench.val, 1152)]
  | .inboxFlush _ b => [(96 * b.cab.val + b.bench.val, 1152)]
  | .benchClrCounts _ b => [(96 * b.cab.val + b.bench.val, 1152)]
  | .inboxQWrite _ b _ _ => [(96 * b.cab.val + b.bench.val, 1152)]
  | .rowSteerWrite _ c _ => [(c.val, 12)]
  | .benchFaultRead _ b => [(96 * b.cab.val + b.bench.val, 1152)]
  | .matClrCounts _ b => [(96 * b.cab.val + b.bench.val, 1152)]
  | .flush _ b _ => [(96 * b.cab.val + b.bench.val, 1152)]
  | .shelfModeWrite _ b _ => [(96 * b.cab.val + b.bench.val, 1152)]
  | .shelfClrCounts _ b _ => [(96 * b.cab.val + b.bench.val, 1152)]
  | .copyClrCounts _ b => [(96 * b.cab.val + b.bench.val, 1152)]
  | .drwClrCounts _ c => [(c.val, 12)]
  | .hmbBaseWrite _ _ => []
  | .hmbHeadWrite _ _ => []
  | .hmbClrCounts _ _ => []
  | .seqBaseWrite _ _ _ => []
  | .seqClrCounts _ _ => []
  | .flogBaseWrite _ _ => []
  | .flogHeadWrite _ _ => []
  | .flogClrCounts _ _ => []
  | .cmpLoad _ _ => []
  | .cmpClrCounts _ _ => []
  | .scrubClrCounts _ s _ => [(s.val, 24)]
  | .portClrCounts _ p _ => [(p.val, 36)]
  | .pwrClrCounts _ _ _ => []
  | .sensorSuspectClear _ _ => []
  | .registerWrite _ _ _ _ => []
  | .domainReqOn _ _ _ => []
  | .domainReqRetention _ _ _ => []
  | .domainReqOff _ _ _ => []
  | .domainEntryComplete _ _ => []
  | .domainOnComplete _ _ => []
  | .regulatorSample _ _ => []
  | .sensorReading _ _ _ => []
  | .throttleLoop _ _ => []
  | .powerCapLoop _ => []
  | .cmdTailDoorbell _ _ _ => []
  | .resultHeadDoorbell _ _ _ => []
  | .submit => []
  | .ready => []
  | .reissue => []
  | .cancel => []
  | .deadline => []
  | .prefixDefine => []
  | .prefixRelease => []
  | .adapterLoad => []
  | .tile => []
  | .tileCancel => []
  | .badOpcode => []
  | .stepAdmission => []
  | .tileDispatch => []
  | .tileCompletion _ => []
  | .tokenReport _ => []
  | .stepCommitDecision => []
  | .stepDiscard => []
  | .benchStepDiscard b => [(96 * b.cab.val + b.bench.val, 1152)]
  | .followerSlotTable _ _ _ => []
  | .followerReport _ _ _ => []
  | .followerDecision _ _ => []
  | .stepWatchdogExpiry _ => []
  | .faultLogRecord => []
  | .frameReceive p _ _ _ => [(p.val, 36)]
  | .nak p _ => [(p.val, 36)]
  | .laneDrop p _ => [(p.val, 36)]
  | .laneLockLoss p _ => [(p.val, 36)]
  | .replayTimeout p => [(p.val, 36)]
  | .portTrain p _ => [(p.val, 36)]
  | .retrain _ p _ => [(p.val, 36)]
  | .portEnableWrite _ p _ => [(p.val, 36)]
  | .failedPortRetry p _ => [(p.val, 36)]
  | .authTimeout p => [(p.val, 36)]
  | .authRetry p _ => [(p.val, 36)]
  | .rateWindowRestart p => [(p.val, 36)]
  | .credCommit _ => []
  | .discover _ => []
  | .discoveryStart => []
  | .discoverMessage p _ _ => [(p.val, 36)]
  | .discoveryReport _ => []
  | .discoveryReportTimeout => []
  | .assign _ _ _ => []
  | .restoreRoutes _ => []
  | .hostRead _ _ _ => []
  | .hostWrite _ _ _ _ => []
  | .hostReadTimeout _ => []
  | .interruptRequest _ _ => []
  | .pcieReset => []
  | .perstNAssert => []
  | .w2Resize _ => []
  | .vaux33Rise => []
  | .vaux33Loss => []
  | .vin12Loss => []
  | .supplyValid _ _ _ => []
  | .resetNAssert _ => []
  | .warm _ _ => []
  | .lrefclkLoss _ => []
  | .prefclkLoss => []
  | .program _ _ => []
  | .finish _ => []
  | .abort _ => []
  | .revoke _ => []
  | .advanceSvn _ => []
  | .resetMap _ _ => []
  | .trigArm _ b _ => [(96 * b.cab.val + b.bench.val, 1152)]
  | .obsAckRise => []
  | .obsAckFall => []
  | .extest => []
  | .idcode _ => []
  | .samplePreload _ => []
  | .bypass _ _ => []
  | .clamp => []
  | .highz => []
  | .extestPulse => []
  | .extestTrain => []
  | .trstNAssert _ => []
  | .entdaa _ => []
  | .regRead _ _ => []
  | .regWrite _ _ _ => []
  | .setEndpointId _ => []
  | .getEndpointId => []
  | .getMessageTypeSupport => []
  | .getMctpVersionSupport _ => []
  | .gettid => []
  | .getpldmtypes => []
  | .getpldmcommands _ => []
  | .getpldmversion _ => []
  | .getsensorreading _ => []
  | .getstatesensorreadings _ => []
  | .getpdr _ => []
  | .getpdrrepositoryinfo => []
  | .pollforplatformeventmessage => []
  | .eventmessagebuffersize _ => []
  | .spdmRequest _ _ => []
  | .planLoadComplete => []
  | .checkerSelftestComplete c _ => [(c.val, 12)]
  | .fenceSuiteTimeout b => [(96 * b.cab.val + b.bench.val, 1152)]
  | .hostReadCompletion _ _ _ _ _ => []
  | .assignAcknowledgement _ _ => []
  | .resetNRelease _ => []
  | .perstNRelease _ => []
  | .fuseOperationComplete => []
  | .flashOperationComplete => []
  | .obsSampleOnChange => []

/-- Every unit that the command names exists. -/
def Statement (i : Instr) : Prop := ∀ u ∈ units i, u.1 < u.2

theorem none_ok : ∀ u ∈ ([] : List (Nat × Nat)), u.1 < u.2 := by simp

theorem one_ok {a b : Nat} (h : a < b) : ∀ u ∈ [(a, b)], u.1 < u.2 := by simpa using h

theorem bench_ok (b : BenchId) : ∀ u ∈ [(96 * b.cab.val + b.bench.val, 1152)], u.1 < u.2 := one_ok (by omega)

theorem fill_ok (u : FillUnit) : ∀ v ∈ [fillUnit u], v.1 < v.2 := by
  cases u <;> exact one_ok (Fin.isLt _)

theorem marker_ok (m : SuiteMarker) : ∀ u ∈ markerUnits m, u.1 < u.2 := by
  cases m <;> first | exact bench_ok _ | exact none_ok

theorem two_ok {p q : Nat × Nat} (h : ∀ u ∈ [p], u.1 < u.2) (g : ∀ u ∈ [q], u.1 < u.2) : ∀ u ∈ [p, q], u.1 < u.2 := by
  simp_all

theorem bundleIssue (b : BenchId) (errs : List SramErr) (spareOk : Bool) : Statement (.bundleIssue b errs spareOk) := bench_ok b
theorem mma (b : BenchId) (tag : BitVec 16) (acc : Fin 4) (z : Bool) : Statement (.mma b tag acc z) := bench_ok b
theorem mpush (b : BenchId) (tag : BitVec 16) (acc : Fin 4) (clr : Bool) : Statement (.mpush b tag acc clr) := bench_ok b
theorem msta (b : BenchId) (tag : BitVec 16) (acc : Fin 4) (clr : Bool) (a : AOp) (fmt : BitVec 4) : Statement (.msta b tag acc clr a fmt) := bench_ok b
theorem mlda (b : BenchId) (tag : BitVec 16) (a : AOp) (fmt : BitVec 4) (tr : Bool) (sa : AOp) : Statement (.mlda b tag a fmt tr sa) := bench_ok b
theorem mldb (b : BenchId) (tag : BitVec 16) (a : AOp) (fmt : BitVec 4) (tr : Bool) (sa : AOp) (pw : BitVec 4) : Statement (.mldb b tag a fmt tr sa pw) := bench_ok b
theorem vld (b : BenchId) (tag : BitVec 16) (vd : Fin 32) (a : AOp) (fmt : BitVec 4) : Statement (.vld b tag vd a fmt) := bench_ok b
theorem vst (b : BenchId) (tag : BitVec 16) (vs : Fin 32) (a : AOp) (fmt : BitVec 4) : Statement (.vst b tag vs a fmt) := bench_ok b
theorem ldx (b : BenchId) (tag : BitVec 16) (xd : Fin 32) (a : AOp) (size : Fin 4) (sx : Bool) : Statement (.ldx b tag xd a size sx) := bench_ok b
theorem stx (b : BenchId) (tag : BitVec 16) (xs : Fin 32) (a : AOp) (size : Fin 4) : Statement (.stx b tag xs a size) := bench_ok b
theorem move (b : BenchId) (tag : BitVec 16) (a : AOp) (ct : Fin 8) : Statement (.move b tag a ct) := bench_ok b
theorem copyGather (b : BenchId) (tag : BitVec 16) (a : AOp) (ct : Fin 8) : Statement (.copyGather b tag a ct) := bench_ok b
theorem scatter (b : BenchId) (tag : BitVec 16) (a : AOp) (ct : Fin 8) : Statement (.scatter b tag a ct) := bench_ok b
theorem tally (b : BenchId) (tag : BitVec 16) (a : AOp) (ct : Fin 8) : Statement (.tally b tag a ct) := bench_ok b
theorem copyComplete (b : BenchId) (idx : Nat) : Statement (.copyComplete b idx) := bench_ok b
theorem cwait (b : BenchId) (tag : BitVec 16) (ct : Fin 8) (max : BitVec 7) : Statement (.cwait b tag ct max) := bench_ok b
theorem fence (b : BenchId) (tag : BitVec 16) (scope : FenceScope) : Statement (.fence b tag scope) := bench_ok b
theorem atom (b : BenchId) (tag : BitVec 16) (op : BitVec 4) (a : AOp) (xd xs xc : Fin 32) : Statement (.atom b tag op a xd xs xc) := bench_ok b
theorem vpop (b : BenchId) (tag : BitVec 16) (vd : Fin 32) : Statement (.vpop b tag vd) := bench_ok b
theorem vsetl (b : BenchId) (tag : BitVec 16) (src : Bool) (imm : BitVec 8) (xs : Fin 32) : Statement (.vsetl b tag src imm xs) := bench_ok b
theorem vfma (b : BenchId) (tag : BitVec 16) (vd va vb : Fin 32) : Statement (.vfma b tag vd va vb) := bench_ok b
theorem vbin (b : BenchId) (tag : BitVec 16) (vd va vb : Fin 32) (func : BitVec 4) (bs : Bool) : Statement (.vbin b tag vd va vb func bs) := bench_ok b
theorem vun (b : BenchId) (tag : BitVec 16) (vd va : Fin 32) (func : BitVec 4) : Statement (.vun b tag vd va func) := bench_ok b
theorem vred (b : BenchId) (tag : BitVec 16) (vd va : Fin 32) (func : BitVec 2) (half : Bool) : Statement (.vred b tag vd va func half) := bench_ok b
theorem vscan (b : BenchId) (tag : BitVec 16) (vd va : Fin 32) (func : BitVec 2) (excl : Bool) : Statement (.vscan b tag vd va func excl) := bench_ok b
theorem vsegscan (b : BenchId) (tag : BitVec 16) (vd va vf : Fin 32) (func : BitVec 2) (excl : Bool) : Statement (.vsegscan b tag vd va vf func excl) := bench_ok b
theorem vbcast (b : BenchId) (tag : BitVec 16) (vd : Fin 32) (imm : BitVec 32) : Statement (.vbcast b tag vd imm) := bench_ok b
theorem send (b : BenchId) (tag : BitVec 16) (q : Fin 8) (a : AOp) (xdest xlen : Fin 32) : Statement (.send b tag q a xdest xlen) := bench_ok b
theorem recv (b : BenchId) (tag : BitVec 16) (q : Fin 8) (a : AOp) (xlen xsrc : Fin 32) : Statement (.recv b tag q a xlen xsrc) := bench_ok b
theorem poll (b : BenchId) (tag : BitVec 16) (q : Fin 8) (xd : Fin 32) : Statement (.poll b tag q xd) := bench_ok b
theorem nop (b : BenchId) (tag : BitVec 16) : Statement (.nop b tag) := bench_ok b
theorem movi (b : BenchId) (tag : BitVec 16) (xd : Fin 32) (imm : BitVec 32) : Statement (.movi b tag xd imm) := bench_ok b
theorem addi (b : BenchId) (tag : BitVec 16) (xd xa : Fin 32) (imm : BitVec 16) : Statement (.addi b tag xd xa imm) := bench_ok b
theorem alu (b : BenchId) (tag : BitVec 16) (xd xa xb : Fin 32) (func : BitVec 4) : Statement (.alu b tag xd xa xb func) := bench_ok b
theorem br (b : BenchId) (tag : BitVec 16) (off : BitVec 26) : Statement (.br b tag off) := bench_ok b
theorem brc (b : BenchId) (tag : BitVec 16) (xa : Fin 32) (cond : BitVec 2) (off : BitVec 19) : Statement (.brc b tag xa cond off) := bench_ok b
theorem brx (b : BenchId) (tag : BitVec 16) (xa : Fin 32) (link : Bool) : Statement (.brx b tag xa link) := bench_ok b
theorem seta (b : BenchId) (tag : BitVec 16) (ar : Fin 64) (field : BitVec 2) (xs : Fin 32) : Statement (.seta b tag ar field xs) := bench_ok b
theorem geta (b : BenchId) (tag : BitVec 16) (ar : Fin 64) (field : BitVec 2) (xd : Fin 32) : Statement (.geta b tag ar field xd) := bench_ok b
theorem setn (b : BenchId) (tag : BitVec 16) (n : Fin 16) (xs : Fin 32) : Statement (.setn b tag n xs) := bench_ok b
theorem gets (b : BenchId) (tag : BitVec 16) (xd : Fin 32) (sel : BitVec 4) : Statement (.gets b tag xd sel) := bench_ok b
theorem stepend (b : BenchId) (tag : BitVec 16) : Statement (.stepend b tag) := bench_ok b
theorem halt (b : BenchId) (tag : BitVec 16) : Statement (.halt b tag) := bench_ok b
theorem mpushBackpressureAdmit (b : BenchId) : Statement (.mpushBackpressureAdmit b) := bench_ok b
theorem vpopRowsArrive (b : BenchId) : Statement (.vpopRowsArrive b) := bench_ok b
theorem messageArrival (src : BitVec 18) (b : BenchId) (bcast : Bool) : Statement (.messageArrival src b bcast) := bench_ok b
theorem destFencedReturn (src dst : BitVec 18) (seq : BitVec 48) : Statement (.destFencedReturn src dst seq) := none_ok
theorem hostMailboxRecord (src : BitVec 18) : Statement (.hostMailboxRecord src) := none_ok
theorem sideboardWriteMessage (src : BitVec 18) (dev : Option (BitVec 6)) (c : Cab) : Statement (.sideboardWriteMessage src dev c) := one_ok c.isLt
theorem drawerRequest (src : BitVec 18) (c : Cab) : Statement (.drawerRequest src c) := one_ok c.isLt
theorem attend (c : Cab) (idx : Nat) (bank : Fin 1024) (files : FileErrs) : Statement (.attend c idx bank files) := one_ok c.isLt
theorem append (c : Cab) (idx : Nat) (files : FileErrs) : Statement (.append c idx files) := one_ok c.isLt
theorem gather (c : Cab) (idx : Nat) (bank : Fin 1024) (files : FileErrs) : Statement (.gather c idx bank files) := one_ok c.isLt
theorem update (c : Cab) (idx : Nat) (bank : Fin 1024) (files : FileErrs) : Statement (.update c idx bank files) := one_ok c.isLt
theorem drawerCompletion (c : Cab) (idx : Nat) : Statement (.drawerCompletion c idx) := one_ok c.isLt
theorem fallbackAnswer (src : BitVec 18) (c : Cab) : Statement (.fallbackAnswer src c) := one_ok c.isLt
theorem mirrorAppendAnswer (src : BitVec 18) (c : Cab) : Statement (.mirrorAppendAnswer src c) := one_ok c.isLt
theorem commit (c : Cab) : Statement (.commit c) := one_ok c.isLt
theorem abandon (c : Cab) : Statement (.abandon c) := one_ok c.isLt
theorem activityCeilingAdjust (c : Cab) (milliwatts : Nat) : Statement (.activityCeilingAdjust c milliwatts) := one_ok c.isLt
theorem drawerLost (c : Cab) (bank : Fin 1024) (fails : List TestUnit) : Statement (.drawerLost c bank fails) := one_ok c.isLt
theorem refreshPerform (s : Stk) (bank : Fin 1024) (busy : Bool) : Statement (.refreshPerform s bank busy) := one_ok s.isLt
theorem writeBatchDrain (s : Stk) (ch : Fin 32) : Statement (.writeBatchDrain s ch) := one_ok s.isLt
theorem writeBatchAge (s : Stk) (ch : Fin 32) : Statement (.writeBatchAge s ch) := one_ok s.isLt
theorem patrolScrub (u : FillUnit) (word : BitVec 32) (now later : WordErr) : Statement (.patrolScrub u word now later) := fill_ok u
theorem channelRetrain (s : Stk) (ch : Fin 33) (ok within10 : Bool) : Statement (.channelRetrain s ch ok within10) := one_ok s.isLt
theorem channelHoldEnd (s : Stk) (ch : Fin 32) : Statement (.channelHoldEnd s ch) := two_ok (one_ok s.isLt) (one_ok ch.isLt)
theorem channelRepairHandover (s : Stk) : Statement (.channelRepairHandover s) := one_ok s.isLt
theorem channelLost (s : Stk) (part : LostPart) : Statement (.channelLost s part) := one_ok s.isLt
theorem drawerPortDrain (c : Cab) : Statement (.drawerPortDrain c) := one_ok c.isLt
theorem drainMarker (b : BenchId) (p : Place) : Statement (.drainMarker b p) := bench_ok b
theorem fenceSuiteMarker (m : SuiteMarker) : Statement (.fenceSuiteMarker m) := marker_ok m
theorem spareSwap (b : BenchId) (spareOk : Bool) : Statement (.spareSwap b spareOk) := bench_ok b
theorem fillStart (path : Path) (v : BitVec 32) : Statement (.fillStart path v) := none_ok
theorem fillComplete (u : FillUnit) : Statement (.fillComplete u) := fill_ok u
theorem stkIlvWrite (path : Path) (s : Stk) (i : Fin 8) (v : BitVec 32) : Statement (.stkIlvWrite path s i v) := one_ok s.isLt
theorem stkClassCtlWrite (path : Path) (s : Stk) (v : BitVec 32) : Statement (.stkClassCtlWrite path s v) := one_ok s.isLt
theorem sbAowWrite (path : Path) (c : Cab) (n : Fin 16) (v : BitVec 64) : Statement (.sbAowWrite path c n v) := one_ok c.isLt
theorem drwModeWrite (path : Path) (c : Cab) (v : BitVec 32) : Statement (.drwModeWrite path c v) := one_ok c.isLt
theorem drwMirrorWrite (path : Path) (c : Cab) (v : BitVec 32) : Statement (.drwMirrorWrite path c v) := one_ok c.isLt
theorem drwFallbackWrite (path : Path) (c : Cab) (v : BitVec 32) : Statement (.drwFallbackWrite path c v) := one_ok c.isLt
theorem devPlanBaseWrite (path : Path) (v : BitVec 64) : Statement (.devPlanBaseWrite path v) := none_ok
theorem load (path : Path) : Statement (.load path) := none_ok
theorem unload (path : Path) : Statement (.unload path) := none_ok
theorem unloadStepTimeout : Statement (.unloadStepTimeout) := none_ok
theorem start (path : Path) : Statement (.start path) := none_ok
theorem haltReq (path : Path) (b : BenchId) : Statement (.haltReq path b) := bench_ok b
theorem resume (path : Path) (b : BenchId) : Statement (.resume path b) := bench_ok b
theorem clearFault (path : Path) (b : BenchId) : Statement (.clearFault path b) := bench_ok b
theorem inboxFlush (path : Path) (b : BenchId) : Statement (.inboxFlush path b) := bench_ok b
theorem benchClrCounts (path : Path) (b : BenchId) : Statement (.benchClrCounts path b) := bench_ok b
theorem inboxQWrite (path : Path) (b : BenchId) (q : Fin 8) (v : BitVec 32) : Statement (.inboxQWrite path b q v) := bench_ok b
theorem rowSteerWrite (path : Path) (c : Cab) (v : BitVec 32) : Statement (.rowSteerWrite path c v) := one_ok c.isLt
theorem benchFaultRead (path : Path) (b : BenchId) : Statement (.benchFaultRead path b) := bench_ok b
theorem matClrCounts (path : Path) (b : BenchId) : Statement (.matClrCounts path b) := bench_ok b
theorem flush (path : Path) (b : BenchId) (mode : Bool) : Statement (.flush path b mode) := bench_ok b
theorem shelfModeWrite (path : Path) (b : BenchId) (mode : Bool) : Statement (.shelfModeWrite path b mode) := bench_ok b
theorem shelfClrCounts (path : Path) (b : BenchId) (mode : Bool) : Statement (.shelfClrCounts path b mode) := bench_ok b
theorem copyClrCounts (path : Path) (b : BenchId) : Statement (.copyClrCounts path b) := bench_ok b
theorem drwClrCounts (path : Path) (c : Cab) : Statement (.drwClrCounts path c) := one_ok c.isLt
theorem hmbBaseWrite (path : Path) (v : BitVec 64) : Statement (.hmbBaseWrite path v) := none_ok
theorem hmbHeadWrite (path : Path) (v : BitVec 32) : Statement (.hmbHeadWrite path v) := none_ok
theorem hmbClrCounts (path : Path) (v : BitVec 32) : Statement (.hmbClrCounts path v) := none_ok
theorem seqBaseWrite (path : Path) (result : Bool) (v : BitVec 64) : Statement (.seqBaseWrite path result v) := none_ok
theorem seqClrCounts (path : Path) (v : BitVec 32) : Statement (.seqClrCounts path v) := none_ok
theorem flogBaseWrite (path : Path) (v : BitVec 64) : Statement (.flogBaseWrite path v) := none_ok
theorem flogHeadWrite (path : Path) (v : BitVec 32) : Statement (.flogHeadWrite path v) := none_ok
theorem flogClrCounts (path : Path) (v : BitVec 32) : Statement (.flogClrCounts path v) := none_ok
theorem cmpLoad (path : Path) (v : BitVec 64) : Statement (.cmpLoad path v) := none_ok
theorem cmpClrCounts (path : Path) (v : BitVec 64) : Statement (.cmpClrCounts path v) := none_ok
theorem scrubClrCounts (path : Path) (s : Stk) (v : BitVec 32) : Statement (.scrubClrCounts path s v) := one_ok s.isLt
theorem portClrCounts (path : Path) (p : Pt) (v : BitVec 32) : Statement (.portClrCounts path p v) := one_ok p.isLt
theorem pwrClrCounts (path : Path) (d : DomainId) (v : BitVec 32) : Statement (.pwrClrCounts path d v) := none_ok
theorem sensorSuspectClear (path : Path) (n : SensorId) : Statement (.sensorSuspectClear path n) := none_ok
theorem registerWrite (path : Path) (off : BitVec 26) (wide : Bool) (v : BitVec 64) : Statement (.registerWrite path off wide v) := none_ok
theorem domainReqOn (path : Path) (d : DomainId) (v : BitVec 32) : Statement (.domainReqOn path d v) := none_ok
theorem domainReqRetention (path : Path) (d : DomainId) (v : BitVec 32) : Statement (.domainReqRetention path d v) := none_ok
theorem domainReqOff (path : Path) (d : DomainId) (v : BitVec 32) : Statement (.domainReqOff path d v) := none_ok
theorem domainEntryComplete (d : DomainId) (bad : List (Fin 33)) : Statement (.domainEntryComplete d bad) := none_ok
theorem domainOnComplete (d : DomainId) (bad : List (Fin 33)) : Statement (.domainOnComplete d bad) := none_ok
theorem regulatorSample (r : RegulatorId) (amps : List Nat) : Statement (.regulatorSample r amps) := none_ok
theorem sensorReading (n : SensorId) (raw : BitVec 16) (up : StartUp) : Statement (.sensorReading n raw up) := none_ok
theorem throttleLoop (d : DomainId) (underVolt : Bool) : Statement (.throttleLoop d underVolt) := none_ok
theorem powerCapLoop (deciAmps : Nat) : Statement (.powerCapLoop deciAmps) := none_ok
theorem cmdTailDoorbell (dev : BitVec 6) (via : Option Via) (v : BitVec 32) : Statement (.cmdTailDoorbell dev via v) := none_ok
theorem resultHeadDoorbell (dev : BitVec 6) (via : Option Via) (v : BitVec 32) : Statement (.resultHeadDoorbell dev via v) := none_ok
theorem submit : Statement (.submit) := none_ok
theorem ready : Statement (.ready) := none_ok
theorem reissue : Statement (.reissue) := none_ok
theorem cancel : Statement (.cancel) := none_ok
theorem deadline : Statement (.deadline) := none_ok
theorem prefixDefine : Statement (.prefixDefine) := none_ok
theorem prefixRelease : Statement (.prefixRelease) := none_ok
theorem adapterLoad : Statement (.adapterLoad) := none_ok
theorem tile : Statement (.tile) := none_ok
theorem tileCancel : Statement (.tileCancel) := none_ok
theorem badOpcode : Statement (.badOpcode) := none_ok
theorem stepAdmission : Statement (.stepAdmission) := none_ok
theorem tileDispatch : Statement (.tileDispatch) := none_ok
theorem tileCompletion (src : BitVec 18) : Statement (.tileCompletion src) := none_ok
theorem tokenReport (src : BitVec 18) : Statement (.tokenReport src) := none_ok
theorem stepCommitDecision : Statement (.stepCommitDecision) := none_ok
theorem stepDiscard : Statement (.stepDiscard) := none_ok
theorem benchStepDiscard (b : BenchId) : Statement (.benchStepDiscard b) := bench_ok b
theorem followerSlotTable (step : BitVec 48) (template : BitVec 16) (table : List Byte) : Statement (.followerSlotTable step template table) := none_ok
theorem followerReport (dev : BitVec 6) (step : BitVec 48) (tell : FollowerTell) : Statement (.followerReport dev step tell) := none_ok
theorem followerDecision (step : BitVec 48) (commit : Bool) : Statement (.followerDecision step commit) := none_ok
theorem stepWatchdogExpiry (task : Option (BitVec 32)) : Statement (.stepWatchdogExpiry task) := none_ok
theorem faultLogRecord : Statement (.faultLogRecord) := none_ok
theorem frameReceive (p : Pt) (frame : List Byte) (errors : List (Nat × Byte)) (pieces : BitVec 25) : Statement (.frameReceive p frame errors pieces) := one_ok p.isLt
theorem nak (p : Pt) (ackSeq : BitVec 48) : Statement (.nak p ackSeq) := one_ok p.isLt
theorem laneDrop (p : Pt) (lane : Fin 4) : Statement (.laneDrop p lane) := one_ok p.isLt
theorem laneLockLoss (p : Pt) (lanes : BitVec 4) : Statement (.laneLockLoss p lanes) := one_ok p.isLt
theorem replayTimeout (p : Pt) : Statement (.replayTimeout p) := one_ok p.isLt
theorem portTrain (p : Pt) (partner : Partner) : Statement (.portTrain p partner) := one_ok p.isLt
theorem retrain (path : Path) (p : Pt) (v : BitVec 32) : Statement (.retrain path p v) := one_ok p.isLt
theorem portEnableWrite (path : Path) (p : Pt) (v : BitVec 32) : Statement (.portEnableWrite path p v) := one_ok p.isLt
theorem failedPortRetry (p : Pt) (partner : Partner) : Statement (.failedPortRetry p partner) := one_ok p.isLt
theorem authTimeout (p : Pt) : Statement (.authTimeout p) := one_ok p.isLt
theorem authRetry (p : Pt) (partner : Partner) : Statement (.authRetry p partner) := one_ok p.isLt
theorem rateWindowRestart (p : Pt) : Statement (.rateWindowRestart p) := one_ok p.isLt
theorem credCommit (path : Path) : Statement (.credCommit path) := none_ok
theorem discover (path : Path) : Statement (.discover path) := none_ok
theorem discoveryStart : Statement (.discoveryStart) := none_ok
theorem discoverMessage (p : Pt) (head : BitVec 384) (round : BitVec 16) : Statement (.discoverMessage p head round) := one_ok p.isLt
theorem discoveryReport (r : DiscReport) : Statement (.discoveryReport r) := none_ok
theorem discoveryReportTimeout : Statement (.discoveryReportTimeout) := none_ok
theorem assign (number : BitVec 6) (routes : List (Nat × Nat × List Nat)) (partners : List (Nat × Option (BitVec 6))) : Statement (.assign number routes partners) := none_ok
theorem restoreRoutes (path : Path) : Statement (.restoreRoutes path) := none_ok
theorem hostRead (w : HostWindow) (off : Nat) (len : Nat) : Statement (.hostRead w off len) := none_ok
theorem hostWrite (w : HostWindow) (off : Nat) (data : List Byte) (poisoned : Bool) : Statement (.hostWrite w off data poisoned) := none_ok
theorem hostReadTimeout (idx : Nat) : Statement (.hostReadTimeout idx) := none_ok
theorem interruptRequest (vector : BitVec 11) (via : Via) : Statement (.interruptRequest vector via) := none_ok
theorem pcieReset : Statement (.pcieReset) := none_ok
theorem perstNAssert : Statement (.perstNAssert) := none_ok
theorem w2Resize (w : W2Write) : Statement (.w2Resize w) := none_ok
theorem vaux33Rise : Statement (.vaux33Rise) := none_ok
theorem vaux33Loss : Statement (.vaux33Loss) := none_ok
theorem vin12Loss : Statement (.vin12Loss) := none_ok
theorem supplyValid (vin12 vaux33 : Bool) (up : StartUp) : Statement (.supplyValid vin12 vaux33 up) := none_ok
theorem resetNAssert (len : PulseLen) : Statement (.resetNAssert len) := none_ok
theorem warm (path : Path) (up : StartUp) : Statement (.warm path up) := none_ok
theorem lrefclkLoss (e : Fin 4) : Statement (.lrefclkLoss e) := none_ok
theorem prefclkLoss : Statement (.prefclkLoss) := none_ok
theorem program (path : Path) (v : BitVec 32) : Statement (.program path v) := none_ok
theorem finish (path : Path) : Statement (.finish path) := none_ok
theorem abort (path : Path) : Statement (.abort path) := none_ok
theorem revoke (path : Path) : Statement (.revoke path) := none_ok
theorem advanceSvn (path : Path) : Statement (.advanceSvn path) := none_ok
theorem resetMap (path : Path) (key : BitVec 16) : Statement (.resetMap path key) := none_ok
theorem trigArm (path : Path) (b : BenchId) (v : BitVec 64) : Statement (.trigArm path b v) := bench_ok b
theorem obsAckRise : Statement (.obsAckRise) := none_ok
theorem obsAckFall : Statement (.obsAckFall) := none_ok
theorem extest : Statement (.extest) := none_ok
theorem idcode (up : StartUp) : Statement (.idcode up) := none_ok
theorem samplePreload (up : StartUp) : Statement (.samplePreload up) := none_ok
theorem bypass (code : BitVec 8) (up : StartUp) : Statement (.bypass code up) := none_ok
theorem clamp : Statement (.clamp) := none_ok
theorem highz : Statement (.highz) := none_ok
theorem extestPulse : Statement (.extestPulse) := none_ok
theorem extestTrain : Statement (.extestTrain) := none_ok
theorem trstNAssert (up : StartUp) : Statement (.trstNAssert up) := none_ok
theorem entdaa (addr : BitVec 7) : Statement (.entdaa addr) := none_ok
theorem regRead (off : BitVec 26) (wide : Bool) : Statement (.regRead off wide) := none_ok
theorem regWrite (off : BitVec 26) (wide : Bool) (v : BitVec 64) : Statement (.regWrite off wide v) := none_ok
theorem setEndpointId (eid : BitVec 8) : Statement (.setEndpointId eid) := none_ok
theorem getEndpointId : Statement (.getEndpointId) := none_ok
theorem getMessageTypeSupport : Statement (.getMessageTypeSupport) := none_ok
theorem getMctpVersionSupport (type : BitVec 8) : Statement (.getMctpVersionSupport type) := none_ok
theorem gettid : Statement (.gettid) := none_ok
theorem getpldmtypes : Statement (.getpldmtypes) := none_ok
theorem getpldmcommands (type : BitVec 6) : Statement (.getpldmcommands type) := none_ok
theorem getpldmversion (type : BitVec 6) : Statement (.getpldmversion type) := none_ok
theorem getsensorreading (id : BitVec 16) : Statement (.getsensorreading id) := none_ok
theorem getstatesensorreadings (id : BitVec 16) : Statement (.getstatesensorreadings id) := none_ok
theorem getpdr (handle : BitVec 32) : Statement (.getpdr handle) := none_ok
theorem getpdrrepositoryinfo : Statement (.getpdrrepositoryinfo) := none_ok
theorem pollforplatformeventmessage : Statement (.pollforplatformeventmessage) := none_ok
theorem eventmessagebuffersize (size : BitVec 16) : Statement (.eventmessagebuffersize size) := none_ok
theorem spdmRequest (tr : SpdmTransport) (req : SpdmRequest) : Statement (.spdmRequest tr req) := none_ok
theorem planLoadComplete : Statement (.planLoadComplete) := none_ok
theorem checkerSelftestComplete (c : Cab) (failures : List TestUnit) : Statement (.checkerSelftestComplete c failures) := one_ok c.isLt
theorem fenceSuiteTimeout (b : BenchId) : Statement (.fenceSuiteTimeout b) := bench_ok b
theorem hostReadCompletion (a : HostAnswer) (via : Via) (ok : Bool) (data : List Byte) (poisoned : Bool) : Statement (.hostReadCompletion a via ok data poisoned) := none_ok
theorem assignAcknowledgement (dev : BitVec 6) (ok : Bool) : Statement (.assignAcknowledgement dev ok) := none_ok
theorem resetNRelease (up : StartUp) : Statement (.resetNRelease up) := none_ok
theorem perstNRelease (partner : Partner) : Statement (.perstNRelease partner) := none_ok
theorem fuseOperationComplete : Statement (.fuseOperationComplete) := none_ok
theorem flashOperationComplete : Statement (.flashOperationComplete) := none_ok
theorem obsSampleOnChange : Statement (.obsSampleOnChange) := none_ok

end Sys2Proof.Laws.Units
end

