-- ==== Sys2Proof/Laws/State.lean ====
section
/-! SUPPORT. Laws of the state: for each named update of the device one lemma per field it leaves alone, and what a unit reads after
a write of it. -/

namespace Sys2Proof.Machine

/-! ### setBench -/

@[simp] theorem Dev.setBench_cabs (d : Dev) (k : Nat) (b : Bench) : (d.setBench k b).cabs = d.cabs := rfl
@[simp] theorem Dev.setBench_stks (d : Dev) (k : Nat) (b : Bench) : (d.setBench k b).stks = d.stks := rfl
@[simp] theorem Dev.setBench_sbs (d : Dev) (k : Nat) (b : Bench) : (d.setBench k b).sbs = d.sbs := rfl
@[simp] theorem Dev.setBench_drawers (d : Dev) (k : Nat) (b : Bench) : (d.setBench k b).drawers = d.drawers := rfl
@[simp] theorem Dev.setBench_plan (d : Dev) (k : Nat) (b : Bench) : (d.setBench k b).plan = d.plan := rfl
@[simp] theorem Dev.setBench_hmb (d : Dev) (k : Nat) (b : Bench) : (d.setBench k b).hmb = d.hmb := rfl
@[simp] theorem Dev.setBench_flog (d : Dev) (k : Nat) (b : Bench) : (d.setBench k b).flog = d.flog := rfl
@[simp] theorem Dev.setBench_cmp (d : Dev) (k : Nat) (b : Bench) : (d.setBench k b).cmp = d.cmp := rfl
@[simp] theorem Dev.setBench_fill (d : Dev) (k : Nat) (b : Bench) : (d.setBench k b).fill = d.fill := rfl
@[simp] theorem Dev.setBench_pwr (d : Dev) (k : Nat) (b : Bench) : (d.setBench k b).pwr = d.pwr := rfl
@[simp] theorem Dev.setBench_ports (d : Dev) (k : Nat) (b : Bench) : (d.setBench k b).ports = d.ports := rfl
@[simp] theorem Dev.setBench_suite (d : Dev) (k : Nat) (b : Bench) : (d.setBench k b).suite = d.suite := rfl
@[simp] theorem Dev.setBench_bridge (d : Dev) (k : Nat) (b : Bench) : (d.setBench k b).bridge = d.bridge := rfl
@[simp] theorem Dev.setBench_seq (d : Dev) (k : Nat) (b : Bench) : (d.setBench k b).seq = d.seq := rfl
@[simp] theorem Dev.setBench_wdCtl (d : Dev) (k : Nat) (b : Bench) : (d.setBench k b).wdCtl = d.wdCtl := rfl
@[simp] theorem Dev.setBench_lateCount (d : Dev) (k : Nat) (b : Bench) : (d.setBench k b).lateCount = d.lateCount := rfl
@[simp] theorem Dev.setBench_net (d : Dev) (k : Nat) (b : Bench) : (d.setBench k b).net = d.net := rfl
@[simp] theorem Dev.setBench_away (d : Dev) (k : Nat) (b : Bench) : (d.setBench k b).away = d.away := rfl
@[simp] theorem Dev.setBench_discards (d : Dev) (k : Nat) (b : Bench) : (d.setBench k b).discards = d.discards := rfl
@[simp] theorem Dev.setBench_irqs (d : Dev) (k : Nat) (b : Bench) : (d.setBench k b).irqs = d.irqs := rfl
@[simp] theorem Dev.setBench_boot (d : Dev) (k : Nat) (b : Bench) : (d.setBench k b).boot = d.boot := rfl
@[simp] theorem Dev.setBench_fw (d : Dev) (k : Nat) (b : Bench) : (d.setBench k b).fw = d.fw := rfl
@[simp] theorem Dev.setBench_journal (d : Dev) (k : Nat) (b : Bench) : (d.setBench k b).journal = d.journal := rfl
@[simp] theorem Dev.setBench_mgmt (d : Dev) (k : Nat) (b : Bench) : (d.setBench k b).mgmt = d.mgmt := rfl
@[simp] theorem Dev.setBench_tap (d : Dev) (k : Nat) (b : Bench) : (d.setBench k b).tap = d.tap := rfl
@[simp] theorem Dev.setBench_obs (d : Dev) (k : Nat) (b : Bench) : (d.setBench k b).obs = d.obs := rfl
@[simp] theorem Dev.setBench_number (d : Dev) (k : Nat) (b : Bench) : (d.setBench k b).number = d.number := rfl
@[simp] theorem Dev.setBench_step (d : Dev) (k : Nat) (b : Bench) : (d.setBench k b).step = d.step := rfl
@[simp] theorem Dev.setBench_template (d : Dev) (k : Nat) (b : Bench) : (d.setBench k b).template = d.template := rfl
@[simp] theorem Dev.setBench_free (d : Dev) (k : Nat) (b : Bench) : (d.setBench k b).free = d.free := rfl

/-! ### modBench -/

@[simp] theorem Dev.modBench_cabs (d : Dev) (k : Nat) (f : Bench → Bench) : (d.modBench k f).cabs = d.cabs := rfl
@[simp] theorem Dev.modBench_stks (d : Dev) (k : Nat) (f : Bench → Bench) : (d.modBench k f).stks = d.stks := rfl
@[simp] theorem Dev.modBench_sbs (d : Dev) (k : Nat) (f : Bench → Bench) : (d.modBench k f).sbs = d.sbs := rfl
@[simp] theorem Dev.modBench_drawers (d : Dev) (k : Nat) (f : Bench → Bench) : (d.modBench k f).drawers = d.drawers := rfl
@[simp] theorem Dev.modBench_plan (d : Dev) (k : Nat) (f : Bench → Bench) : (d.modBench k f).plan = d.plan := rfl
@[simp] theorem Dev.modBench_hmb (d : Dev) (k : Nat) (f : Bench → Bench) : (d.modBench k f).hmb = d.hmb := rfl
@[simp] theorem Dev.modBench_flog (d : Dev) (k : Nat) (f : Bench → Bench) : (d.modBench k f).flog = d.flog := rfl
@[simp] theorem Dev.modBench_cmp (d : Dev) (k : Nat) (f : Bench → Bench) : (d.modBench k f).cmp = d.cmp := rfl
@[simp] theorem Dev.modBench_fill (d : Dev) (k : Nat) (f : Bench → Bench) : (d.modBench k f).fill = d.fill := rfl
@[simp] theorem Dev.modBench_pwr (d : Dev) (k : Nat) (f : Bench → Bench) : (d.modBench k f).pwr = d.pwr := rfl
@[simp] theorem Dev.modBench_ports (d : Dev) (k : Nat) (f : Bench → Bench) : (d.modBench k f).ports = d.ports := rfl
@[simp] theorem Dev.modBench_suite (d : Dev) (k : Nat) (f : Bench → Bench) : (d.modBench k f).suite = d.suite := rfl
@[simp] theorem Dev.modBench_bridge (d : Dev) (k : Nat) (f : Bench → Bench) : (d.modBench k f).bridge = d.bridge := rfl
@[simp] theorem Dev.modBench_seq (d : Dev) (k : Nat) (f : Bench → Bench) : (d.modBench k f).seq = d.seq := rfl
@[simp] theorem Dev.modBench_wdCtl (d : Dev) (k : Nat) (f : Bench → Bench) : (d.modBench k f).wdCtl = d.wdCtl := rfl
@[simp] theorem Dev.modBench_lateCount (d : Dev) (k : Nat) (f : Bench → Bench) : (d.modBench k f).lateCount = d.lateCount := rfl
@[simp] theorem Dev.modBench_net (d : Dev) (k : Nat) (f : Bench → Bench) : (d.modBench k f).net = d.net := rfl
@[simp] theorem Dev.modBench_away (d : Dev) (k : Nat) (f : Bench → Bench) : (d.modBench k f).away = d.away := rfl
@[simp] theorem Dev.modBench_discards (d : Dev) (k : Nat) (f : Bench → Bench) : (d.modBench k f).discards = d.discards := rfl
@[simp] theorem Dev.modBench_irqs (d : Dev) (k : Nat) (f : Bench → Bench) : (d.modBench k f).irqs = d.irqs := rfl
@[simp] theorem Dev.modBench_boot (d : Dev) (k : Nat) (f : Bench → Bench) : (d.modBench k f).boot = d.boot := rfl
@[simp] theorem Dev.modBench_fw (d : Dev) (k : Nat) (f : Bench → Bench) : (d.modBench k f).fw = d.fw := rfl
@[simp] theorem Dev.modBench_journal (d : Dev) (k : Nat) (f : Bench → Bench) : (d.modBench k f).journal = d.journal := rfl
@[simp] theorem Dev.modBench_mgmt (d : Dev) (k : Nat) (f : Bench → Bench) : (d.modBench k f).mgmt = d.mgmt := rfl
@[simp] theorem Dev.modBench_tap (d : Dev) (k : Nat) (f : Bench → Bench) : (d.modBench k f).tap = d.tap := rfl
@[simp] theorem Dev.modBench_obs (d : Dev) (k : Nat) (f : Bench → Bench) : (d.modBench k f).obs = d.obs := rfl
@[simp] theorem Dev.modBench_number (d : Dev) (k : Nat) (f : Bench → Bench) : (d.modBench k f).number = d.number := rfl
@[simp] theorem Dev.modBench_step (d : Dev) (k : Nat) (f : Bench → Bench) : (d.modBench k f).step = d.step := rfl
@[simp] theorem Dev.modBench_template (d : Dev) (k : Nat) (f : Bench → Bench) : (d.modBench k f).template = d.template := rfl
@[simp] theorem Dev.modBench_free (d : Dev) (k : Nat) (f : Bench → Bench) : (d.modBench k f).free = d.free := rfl

/-! ### mapBenches -/

@[simp] theorem Dev.mapBenches_cabs (d : Dev) (f : Nat → Bench → Bench) : (d.mapBenches f).cabs = d.cabs := rfl
@[simp] theorem Dev.mapBenches_stks (d : Dev) (f : Nat → Bench → Bench) : (d.mapBenches f).stks = d.stks := rfl
@[simp] theorem Dev.mapBenches_sbs (d : Dev) (f : Nat → Bench → Bench) : (d.mapBenches f).sbs = d.sbs := rfl
@[simp] theorem Dev.mapBenches_drawers (d : Dev) (f : Nat → Bench → Bench) : (d.mapBenches f).drawers = d.drawers := rfl
@[simp] theorem Dev.mapBenches_plan (d : Dev) (f : Nat → Bench → Bench) : (d.mapBenches f).plan = d.plan := rfl
@[simp] theorem Dev.mapBenches_hmb (d : Dev) (f : Nat → Bench → Bench) : (d.mapBenches f).hmb = d.hmb := rfl
@[simp] theorem Dev.mapBenches_flog (d : Dev) (f : Nat → Bench → Bench) : (d.mapBenches f).flog = d.flog := rfl
@[simp] theorem Dev.mapBenches_cmp (d : Dev) (f : Nat → Bench → Bench) : (d.mapBenches f).cmp = d.cmp := rfl
@[simp] theorem Dev.mapBenches_fill (d : Dev) (f : Nat → Bench → Bench) : (d.mapBenches f).fill = d.fill := rfl
@[simp] theorem Dev.mapBenches_pwr (d : Dev) (f : Nat → Bench → Bench) : (d.mapBenches f).pwr = d.pwr := rfl
@[simp] theorem Dev.mapBenches_ports (d : Dev) (f : Nat → Bench → Bench) : (d.mapBenches f).ports = d.ports := rfl
@[simp] theorem Dev.mapBenches_suite (d : Dev) (f : Nat → Bench → Bench) : (d.mapBenches f).suite = d.suite := rfl
@[simp] theorem Dev.mapBenches_bridge (d : Dev) (f : Nat → Bench → Bench) : (d.mapBenches f).bridge = d.bridge := rfl
@[simp] theorem Dev.mapBenches_seq (d : Dev) (f : Nat → Bench → Bench) : (d.mapBenches f).seq = d.seq := rfl
@[simp] theorem Dev.mapBenches_wdCtl (d : Dev) (f : Nat → Bench → Bench) : (d.mapBenches f).wdCtl = d.wdCtl := rfl
@[simp] theorem Dev.mapBenches_lateCount (d : Dev) (f : Nat → Bench → Bench) : (d.mapBenches f).lateCount = d.lateCount := rfl
@[simp] theorem Dev.mapBenches_net (d : Dev) (f : Nat → Bench → Bench) : (d.mapBenches f).net = d.net := rfl
@[simp] theorem Dev.mapBenches_away (d : Dev) (f : Nat → Bench → Bench) : (d.mapBenches f).away = d.away := rfl
@[simp] theorem Dev.mapBenches_discards (d : Dev) (f : Nat → Bench → Bench) : (d.mapBenches f).discards = d.discards := rfl
@[simp] theorem Dev.mapBenches_irqs (d : Dev) (f : Nat → Bench → Bench) : (d.mapBenches f).irqs = d.irqs := rfl
@[simp] theorem Dev.mapBenches_boot (d : Dev) (f : Nat → Bench → Bench) : (d.mapBenches f).boot = d.boot := rfl
@[simp] theorem Dev.mapBenches_fw (d : Dev) (f : Nat → Bench → Bench) : (d.mapBenches f).fw = d.fw := rfl
@[simp] theorem Dev.mapBenches_journal (d : Dev) (f : Nat → Bench → Bench) : (d.mapBenches f).journal = d.journal := rfl
@[simp] theorem Dev.mapBenches_mgmt (d : Dev) (f : Nat → Bench → Bench) : (d.mapBenches f).mgmt = d.mgmt := rfl
@[simp] theorem Dev.mapBenches_tap (d : Dev) (f : Nat → Bench → Bench) : (d.mapBenches f).tap = d.tap := rfl
@[simp] theorem Dev.mapBenches_obs (d : Dev) (f : Nat → Bench → Bench) : (d.mapBenches f).obs = d.obs := rfl
@[simp] theorem Dev.mapBenches_number (d : Dev) (f : Nat → Bench → Bench) : (d.mapBenches f).number = d.number := rfl
@[simp] theorem Dev.mapBenches_step (d : Dev) (f : Nat → Bench → Bench) : (d.mapBenches f).step = d.step := rfl
@[simp] theorem Dev.mapBenches_template (d : Dev) (f : Nat → Bench → Bench) : (d.mapBenches f).template = d.template := rfl
@[simp] theorem Dev.mapBenches_free (d : Dev) (f : Nat → Bench → Bench) : (d.mapBenches f).free = d.free := rfl

/-! ### setCab -/

@[simp] theorem Dev.setCab_benches (d : Dev) (k : Nat) (x : Cabinet) : (d.setCab k x).benches = d.benches := rfl
@[simp] theorem Dev.setCab_stks (d : Dev) (k : Nat) (x : Cabinet) : (d.setCab k x).stks = d.stks := rfl
@[simp] theorem Dev.setCab_sbs (d : Dev) (k : Nat) (x : Cabinet) : (d.setCab k x).sbs = d.sbs := rfl
@[simp] theorem Dev.setCab_drawers (d : Dev) (k : Nat) (x : Cabinet) : (d.setCab k x).drawers = d.drawers := rfl
@[simp] theorem Dev.setCab_plan (d : Dev) (k : Nat) (x : Cabinet) : (d.setCab k x).plan = d.plan := rfl
@[simp] theorem Dev.setCab_hmb (d : Dev) (k : Nat) (x : Cabinet) : (d.setCab k x).hmb = d.hmb := rfl
@[simp] theorem Dev.setCab_flog (d : Dev) (k : Nat) (x : Cabinet) : (d.setCab k x).flog = d.flog := rfl
@[simp] theorem Dev.setCab_cmp (d : Dev) (k : Nat) (x : Cabinet) : (d.setCab k x).cmp = d.cmp := rfl
@[simp] theorem Dev.setCab_fill (d : Dev) (k : Nat) (x : Cabinet) : (d.setCab k x).fill = d.fill := rfl
@[simp] theorem Dev.setCab_pwr (d : Dev) (k : Nat) (x : Cabinet) : (d.setCab k x).pwr = d.pwr := rfl
@[simp] theorem Dev.setCab_ports (d : Dev) (k : Nat) (x : Cabinet) : (d.setCab k x).ports = d.ports := rfl
@[simp] theorem Dev.setCab_suite (d : Dev) (k : Nat) (x : Cabinet) : (d.setCab k x).suite = d.suite := rfl
@[simp] theorem Dev.setCab_bridge (d : Dev) (k : Nat) (x : Cabinet) : (d.setCab k x).bridge = d.bridge := rfl
@[simp] theorem Dev.setCab_seq (d : Dev) (k : Nat) (x : Cabinet) : (d.setCab k x).seq = d.seq := rfl
@[simp] theorem Dev.setCab_wdCtl (d : Dev) (k : Nat) (x : Cabinet) : (d.setCab k x).wdCtl = d.wdCtl := rfl
@[simp] theorem Dev.setCab_lateCount (d : Dev) (k : Nat) (x : Cabinet) : (d.setCab k x).lateCount = d.lateCount := rfl
@[simp] theorem Dev.setCab_net (d : Dev) (k : Nat) (x : Cabinet) : (d.setCab k x).net = d.net := rfl
@[simp] theorem Dev.setCab_away (d : Dev) (k : Nat) (x : Cabinet) : (d.setCab k x).away = d.away := rfl
@[simp] theorem Dev.setCab_discards (d : Dev) (k : Nat) (x : Cabinet) : (d.setCab k x).discards = d.discards := rfl
@[simp] theorem Dev.setCab_irqs (d : Dev) (k : Nat) (x : Cabinet) : (d.setCab k x).irqs = d.irqs := rfl
@[simp] theorem Dev.setCab_boot (d : Dev) (k : Nat) (x : Cabinet) : (d.setCab k x).boot = d.boot := rfl
@[simp] theorem Dev.setCab_fw (d : Dev) (k : Nat) (x : Cabinet) : (d.setCab k x).fw = d.fw := rfl
@[simp] theorem Dev.setCab_journal (d : Dev) (k : Nat) (x : Cabinet) : (d.setCab k x).journal = d.journal := rfl
@[simp] theorem Dev.setCab_mgmt (d : Dev) (k : Nat) (x : Cabinet) : (d.setCab k x).mgmt = d.mgmt := rfl
@[simp] theorem Dev.setCab_tap (d : Dev) (k : Nat) (x : Cabinet) : (d.setCab k x).tap = d.tap := rfl
@[simp] theorem Dev.setCab_obs (d : Dev) (k : Nat) (x : Cabinet) : (d.setCab k x).obs = d.obs := rfl
@[simp] theorem Dev.setCab_number (d : Dev) (k : Nat) (x : Cabinet) : (d.setCab k x).number = d.number := rfl
@[simp] theorem Dev.setCab_step (d : Dev) (k : Nat) (x : Cabinet) : (d.setCab k x).step = d.step := rfl
@[simp] theorem Dev.setCab_template (d : Dev) (k : Nat) (x : Cabinet) : (d.setCab k x).template = d.template := rfl
@[simp] theorem Dev.setCab_free (d : Dev) (k : Nat) (x : Cabinet) : (d.setCab k x).free = d.free := rfl

/-! ### setStk -/

@[simp] theorem Dev.setStk_benches (d : Dev) (k : Nat) (x : Stack) : (d.setStk k x).benches = d.benches := rfl
@[simp] theorem Dev.setStk_cabs (d : Dev) (k : Nat) (x : Stack) : (d.setStk k x).cabs = d.cabs := rfl
@[simp] theorem Dev.setStk_sbs (d : Dev) (k : Nat) (x : Stack) : (d.setStk k x).sbs = d.sbs := rfl
@[simp] theorem Dev.setStk_drawers (d : Dev) (k : Nat) (x : Stack) : (d.setStk k x).drawers = d.drawers := rfl
@[simp] theorem Dev.setStk_plan (d : Dev) (k : Nat) (x : Stack) : (d.setStk k x).plan = d.plan := rfl
@[simp] theorem Dev.setStk_hmb (d : Dev) (k : Nat) (x : Stack) : (d.setStk k x).hmb = d.hmb := rfl
@[simp] theorem Dev.setStk_flog (d : Dev) (k : Nat) (x : Stack) : (d.setStk k x).flog = d.flog := rfl
@[simp] theorem Dev.setStk_cmp (d : Dev) (k : Nat) (x : Stack) : (d.setStk k x).cmp = d.cmp := rfl
@[simp] theorem Dev.setStk_fill (d : Dev) (k : Nat) (x : Stack) : (d.setStk k x).fill = d.fill := rfl
@[simp] theorem Dev.setStk_pwr (d : Dev) (k : Nat) (x : Stack) : (d.setStk k x).pwr = d.pwr := rfl
@[simp] theorem Dev.setStk_ports (d : Dev) (k : Nat) (x : Stack) : (d.setStk k x).ports = d.ports := rfl
@[simp] theorem Dev.setStk_suite (d : Dev) (k : Nat) (x : Stack) : (d.setStk k x).suite = d.suite := rfl
@[simp] theorem Dev.setStk_bridge (d : Dev) (k : Nat) (x : Stack) : (d.setStk k x).bridge = d.bridge := rfl
@[simp] theorem Dev.setStk_seq (d : Dev) (k : Nat) (x : Stack) : (d.setStk k x).seq = d.seq := rfl
@[simp] theorem Dev.setStk_wdCtl (d : Dev) (k : Nat) (x : Stack) : (d.setStk k x).wdCtl = d.wdCtl := rfl
@[simp] theorem Dev.setStk_lateCount (d : Dev) (k : Nat) (x : Stack) : (d.setStk k x).lateCount = d.lateCount := rfl
@[simp] theorem Dev.setStk_net (d : Dev) (k : Nat) (x : Stack) : (d.setStk k x).net = d.net := rfl
@[simp] theorem Dev.setStk_away (d : Dev) (k : Nat) (x : Stack) : (d.setStk k x).away = d.away := rfl
@[simp] theorem Dev.setStk_discards (d : Dev) (k : Nat) (x : Stack) : (d.setStk k x).discards = d.discards := rfl
@[simp] theorem Dev.setStk_irqs (d : Dev) (k : Nat) (x : Stack) : (d.setStk k x).irqs = d.irqs := rfl
@[simp] theorem Dev.setStk_boot (d : Dev) (k : Nat) (x : Stack) : (d.setStk k x).boot = d.boot := rfl
@[simp] theorem Dev.setStk_fw (d : Dev) (k : Nat) (x : Stack) : (d.setStk k x).fw = d.fw := rfl
@[simp] theorem Dev.setStk_journal (d : Dev) (k : Nat) (x : Stack) : (d.setStk k x).journal = d.journal := rfl
@[simp] theorem Dev.setStk_mgmt (d : Dev) (k : Nat) (x : Stack) : (d.setStk k x).mgmt = d.mgmt := rfl
@[simp] theorem Dev.setStk_tap (d : Dev) (k : Nat) (x : Stack) : (d.setStk k x).tap = d.tap := rfl
@[simp] theorem Dev.setStk_obs (d : Dev) (k : Nat) (x : Stack) : (d.setStk k x).obs = d.obs := rfl
@[simp] theorem Dev.setStk_number (d : Dev) (k : Nat) (x : Stack) : (d.setStk k x).number = d.number := rfl
@[simp] theorem Dev.setStk_step (d : Dev) (k : Nat) (x : Stack) : (d.setStk k x).step = d.step := rfl
@[simp] theorem Dev.setStk_template (d : Dev) (k : Nat) (x : Stack) : (d.setStk k x).template = d.template := rfl
@[simp] theorem Dev.setStk_free (d : Dev) (k : Nat) (x : Stack) : (d.setStk k x).free = d.free := rfl

/-! ### setSb -/

@[simp] theorem Dev.setSb_benches (d : Dev) (k : Nat) (x : Sideboard) : (d.setSb k x).benches = d.benches := rfl
@[simp] theorem Dev.setSb_cabs (d : Dev) (k : Nat) (x : Sideboard) : (d.setSb k x).cabs = d.cabs := rfl
@[simp] theorem Dev.setSb_stks (d : Dev) (k : Nat) (x : Sideboard) : (d.setSb k x).stks = d.stks := rfl
@[simp] theorem Dev.setSb_drawers (d : Dev) (k : Nat) (x : Sideboard) : (d.setSb k x).drawers = d.drawers := rfl
@[simp] theorem Dev.setSb_plan (d : Dev) (k : Nat) (x : Sideboard) : (d.setSb k x).plan = d.plan := rfl
@[simp] theorem Dev.setSb_hmb (d : Dev) (k : Nat) (x : Sideboard) : (d.setSb k x).hmb = d.hmb := rfl
@[simp] theorem Dev.setSb_flog (d : Dev) (k : Nat) (x : Sideboard) : (d.setSb k x).flog = d.flog := rfl
@[simp] theorem Dev.setSb_cmp (d : Dev) (k : Nat) (x : Sideboard) : (d.setSb k x).cmp = d.cmp := rfl
@[simp] theorem Dev.setSb_fill (d : Dev) (k : Nat) (x : Sideboard) : (d.setSb k x).fill = d.fill := rfl
@[simp] theorem Dev.setSb_pwr (d : Dev) (k : Nat) (x : Sideboard) : (d.setSb k x).pwr = d.pwr := rfl
@[simp] theorem Dev.setSb_ports (d : Dev) (k : Nat) (x : Sideboard) : (d.setSb k x).ports = d.ports := rfl
@[simp] theorem Dev.setSb_suite (d : Dev) (k : Nat) (x : Sideboard) : (d.setSb k x).suite = d.suite := rfl
@[simp] theorem Dev.setSb_bridge (d : Dev) (k : Nat) (x : Sideboard) : (d.setSb k x).bridge = d.bridge := rfl
@[simp] theorem Dev.setSb_seq (d : Dev) (k : Nat) (x : Sideboard) : (d.setSb k x).seq = d.seq := rfl
@[simp] theorem Dev.setSb_wdCtl (d : Dev) (k : Nat) (x : Sideboard) : (d.setSb k x).wdCtl = d.wdCtl := rfl
@[simp] theorem Dev.setSb_lateCount (d : Dev) (k : Nat) (x : Sideboard) : (d.setSb k x).lateCount = d.lateCount := rfl
@[simp] theorem Dev.setSb_net (d : Dev) (k : Nat) (x : Sideboard) : (d.setSb k x).net = d.net := rfl
@[simp] theorem Dev.setSb_away (d : Dev) (k : Nat) (x : Sideboard) : (d.setSb k x).away = d.away := rfl
@[simp] theorem Dev.setSb_discards (d : Dev) (k : Nat) (x : Sideboard) : (d.setSb k x).discards = d.discards := rfl
@[simp] theorem Dev.setSb_irqs (d : Dev) (k : Nat) (x : Sideboard) : (d.setSb k x).irqs = d.irqs := rfl
@[simp] theorem Dev.setSb_boot (d : Dev) (k : Nat) (x : Sideboard) : (d.setSb k x).boot = d.boot := rfl
@[simp] theorem Dev.setSb_fw (d : Dev) (k : Nat) (x : Sideboard) : (d.setSb k x).fw = d.fw := rfl
@[simp] theorem Dev.setSb_journal (d : Dev) (k : Nat) (x : Sideboard) : (d.setSb k x).journal = d.journal := rfl
@[simp] theorem Dev.setSb_mgmt (d : Dev) (k : Nat) (x : Sideboard) : (d.setSb k x).mgmt = d.mgmt := rfl
@[simp] theorem Dev.setSb_tap (d : Dev) (k : Nat) (x : Sideboard) : (d.setSb k x).tap = d.tap := rfl
@[simp] theorem Dev.setSb_obs (d : Dev) (k : Nat) (x : Sideboard) : (d.setSb k x).obs = d.obs := rfl
@[simp] theorem Dev.setSb_number (d : Dev) (k : Nat) (x : Sideboard) : (d.setSb k x).number = d.number := rfl
@[simp] theorem Dev.setSb_step (d : Dev) (k : Nat) (x : Sideboard) : (d.setSb k x).step = d.step := rfl
@[simp] theorem Dev.setSb_template (d : Dev) (k : Nat) (x : Sideboard) : (d.setSb k x).template = d.template := rfl
@[simp] theorem Dev.setSb_free (d : Dev) (k : Nat) (x : Sideboard) : (d.setSb k x).free = d.free := rfl

/-! ### setDrw -/

@[simp] theorem Dev.setDrw_benches (d : Dev) (k : Nat) (x : Drawer) : (d.setDrw k x).benches = d.benches := rfl
@[simp] theorem Dev.setDrw_cabs (d : Dev) (k : Nat) (x : Drawer) : (d.setDrw k x).cabs = d.cabs := rfl
@[simp] theorem Dev.setDrw_stks (d : Dev) (k : Nat) (x : Drawer) : (d.setDrw k x).stks = d.stks := rfl
@[simp] theorem Dev.setDrw_sbs (d : Dev) (k : Nat) (x : Drawer) : (d.setDrw k x).sbs = d.sbs := rfl
@[simp] theorem Dev.setDrw_plan (d : Dev) (k : Nat) (x : Drawer) : (d.setDrw k x).plan = d.plan := rfl
@[simp] theorem Dev.setDrw_hmb (d : Dev) (k : Nat) (x : Drawer) : (d.setDrw k x).hmb = d.hmb := rfl
@[simp] theorem Dev.setDrw_flog (d : Dev) (k : Nat) (x : Drawer) : (d.setDrw k x).flog = d.flog := rfl
@[simp] theorem Dev.setDrw_cmp (d : Dev) (k : Nat) (x : Drawer) : (d.setDrw k x).cmp = d.cmp := rfl
@[simp] theorem Dev.setDrw_fill (d : Dev) (k : Nat) (x : Drawer) : (d.setDrw k x).fill = d.fill := rfl
@[simp] theorem Dev.setDrw_pwr (d : Dev) (k : Nat) (x : Drawer) : (d.setDrw k x).pwr = d.pwr := rfl
@[simp] theorem Dev.setDrw_ports (d : Dev) (k : Nat) (x : Drawer) : (d.setDrw k x).ports = d.ports := rfl
@[simp] theorem Dev.setDrw_suite (d : Dev) (k : Nat) (x : Drawer) : (d.setDrw k x).suite = d.suite := rfl
@[simp] theorem Dev.setDrw_bridge (d : Dev) (k : Nat) (x : Drawer) : (d.setDrw k x).bridge = d.bridge := rfl
@[simp] theorem Dev.setDrw_seq (d : Dev) (k : Nat) (x : Drawer) : (d.setDrw k x).seq = d.seq := rfl
@[simp] theorem Dev.setDrw_wdCtl (d : Dev) (k : Nat) (x : Drawer) : (d.setDrw k x).wdCtl = d.wdCtl := rfl
@[simp] theorem Dev.setDrw_lateCount (d : Dev) (k : Nat) (x : Drawer) : (d.setDrw k x).lateCount = d.lateCount := rfl
@[simp] theorem Dev.setDrw_net (d : Dev) (k : Nat) (x : Drawer) : (d.setDrw k x).net = d.net := rfl
@[simp] theorem Dev.setDrw_away (d : Dev) (k : Nat) (x : Drawer) : (d.setDrw k x).away = d.away := rfl
@[simp] theorem Dev.setDrw_discards (d : Dev) (k : Nat) (x : Drawer) : (d.setDrw k x).discards = d.discards := rfl
@[simp] theorem Dev.setDrw_irqs (d : Dev) (k : Nat) (x : Drawer) : (d.setDrw k x).irqs = d.irqs := rfl
@[simp] theorem Dev.setDrw_boot (d : Dev) (k : Nat) (x : Drawer) : (d.setDrw k x).boot = d.boot := rfl
@[simp] theorem Dev.setDrw_fw (d : Dev) (k : Nat) (x : Drawer) : (d.setDrw k x).fw = d.fw := rfl
@[simp] theorem Dev.setDrw_journal (d : Dev) (k : Nat) (x : Drawer) : (d.setDrw k x).journal = d.journal := rfl
@[simp] theorem Dev.setDrw_mgmt (d : Dev) (k : Nat) (x : Drawer) : (d.setDrw k x).mgmt = d.mgmt := rfl
@[simp] theorem Dev.setDrw_tap (d : Dev) (k : Nat) (x : Drawer) : (d.setDrw k x).tap = d.tap := rfl
@[simp] theorem Dev.setDrw_obs (d : Dev) (k : Nat) (x : Drawer) : (d.setDrw k x).obs = d.obs := rfl
@[simp] theorem Dev.setDrw_number (d : Dev) (k : Nat) (x : Drawer) : (d.setDrw k x).number = d.number := rfl
@[simp] theorem Dev.setDrw_step (d : Dev) (k : Nat) (x : Drawer) : (d.setDrw k x).step = d.step := rfl
@[simp] theorem Dev.setDrw_template (d : Dev) (k : Nat) (x : Drawer) : (d.setDrw k x).template = d.template := rfl
@[simp] theorem Dev.setDrw_free (d : Dev) (k : Nat) (x : Drawer) : (d.setDrw k x).free = d.free := rfl

/-! ### setPort -/

@[simp] theorem Dev.setPort_benches (d : Dev) (k : Nat) (x : Port) : (d.setPort k x).benches = d.benches := rfl
@[simp] theorem Dev.setPort_cabs (d : Dev) (k : Nat) (x : Port) : (d.setPort k x).cabs = d.cabs := rfl
@[simp] theorem Dev.setPort_stks (d : Dev) (k : Nat) (x : Port) : (d.setPort k x).stks = d.stks := rfl
@[simp] theorem Dev.setPort_sbs (d : Dev) (k : Nat) (x : Port) : (d.setPort k x).sbs = d.sbs := rfl
@[simp] theorem Dev.setPort_drawers (d : Dev) (k : Nat) (x : Port) : (d.setPort k x).drawers = d.drawers := rfl
@[simp] theorem Dev.setPort_plan (d : Dev) (k : Nat) (x : Port) : (d.setPort k x).plan = d.plan := rfl
@[simp] theorem Dev.setPort_hmb (d : Dev) (k : Nat) (x : Port) : (d.setPort k x).hmb = d.hmb := rfl
@[simp] theorem Dev.setPort_flog (d : Dev) (k : Nat) (x : Port) : (d.setPort k x).flog = d.flog := rfl
@[simp] theorem Dev.setPort_cmp (d : Dev) (k : Nat) (x : Port) : (d.setPort k x).cmp = d.cmp := rfl
@[simp] theorem Dev.setPort_fill (d : Dev) (k : Nat) (x : Port) : (d.setPort k x).fill = d.fill := rfl
@[simp] theorem Dev.setPort_pwr (d : Dev) (k : Nat) (x : Port) : (d.setPort k x).pwr = d.pwr := rfl
@[simp] theorem Dev.setPort_suite (d : Dev) (k : Nat) (x : Port) : (d.setPort k x).suite = d.suite := rfl
@[simp] theorem Dev.setPort_bridge (d : Dev) (k : Nat) (x : Port) : (d.setPort k x).bridge = d.bridge := rfl
@[simp] theorem Dev.setPort_seq (d : Dev) (k : Nat) (x : Port) : (d.setPort k x).seq = d.seq := rfl
@[simp] theorem Dev.setPort_wdCtl (d : Dev) (k : Nat) (x : Port) : (d.setPort k x).wdCtl = d.wdCtl := rfl
@[simp] theorem Dev.setPort_lateCount (d : Dev) (k : Nat) (x : Port) : (d.setPort k x).lateCount = d.lateCount := rfl
@[simp] theorem Dev.setPort_net (d : Dev) (k : Nat) (x : Port) : (d.setPort k x).net = d.net := rfl
@[simp] theorem Dev.setPort_away (d : Dev) (k : Nat) (x : Port) : (d.setPort k x).away = d.away := rfl
@[simp] theorem Dev.setPort_discards (d : Dev) (k : Nat) (x : Port) : (d.setPort k x).discards = d.discards := rfl
@[simp] theorem Dev.setPort_irqs (d : Dev) (k : Nat) (x : Port) : (d.setPort k x).irqs = d.irqs := rfl
@[simp] theorem Dev.setPort_boot (d : Dev) (k : Nat) (x : Port) : (d.setPort k x).boot = d.boot := rfl
@[simp] theorem Dev.setPort_fw (d : Dev) (k : Nat) (x : Port) : (d.setPort k x).fw = d.fw := rfl
@[simp] theorem Dev.setPort_journal (d : Dev) (k : Nat) (x : Port) : (d.setPort k x).journal = d.journal := rfl
@[simp] theorem Dev.setPort_mgmt (d : Dev) (k : Nat) (x : Port) : (d.setPort k x).mgmt = d.mgmt := rfl
@[simp] theorem Dev.setPort_tap (d : Dev) (k : Nat) (x : Port) : (d.setPort k x).tap = d.tap := rfl
@[simp] theorem Dev.setPort_obs (d : Dev) (k : Nat) (x : Port) : (d.setPort k x).obs = d.obs := rfl
@[simp] theorem Dev.setPort_number (d : Dev) (k : Nat) (x : Port) : (d.setPort k x).number = d.number := rfl
@[simp] theorem Dev.setPort_step (d : Dev) (k : Nat) (x : Port) : (d.setPort k x).step = d.step := rfl
@[simp] theorem Dev.setPort_template (d : Dev) (k : Nat) (x : Port) : (d.setPort k x).template = d.template := rfl
@[simp] theorem Dev.setPort_free (d : Dev) (k : Nat) (x : Port) : (d.setPort k x).free = d.free := rfl

/-! ### setDom -/

@[simp] theorem Dev.setDom_benches (d : Dev) (k : Nat) (x : Dom) : (d.setDom k x).benches = d.benches := rfl
@[simp] theorem Dev.setDom_cabs (d : Dev) (k : Nat) (x : Dom) : (d.setDom k x).cabs = d.cabs := rfl
@[simp] theorem Dev.setDom_stks (d : Dev) (k : Nat) (x : Dom) : (d.setDom k x).stks = d.stks := rfl
@[simp] theorem Dev.setDom_sbs (d : Dev) (k : Nat) (x : Dom) : (d.setDom k x).sbs = d.sbs := rfl
@[simp] theorem Dev.setDom_drawers (d : Dev) (k : Nat) (x : Dom) : (d.setDom k x).drawers = d.drawers := rfl
@[simp] theorem Dev.setDom_plan (d : Dev) (k : Nat) (x : Dom) : (d.setDom k x).plan = d.plan := rfl
@[simp] theorem Dev.setDom_hmb (d : Dev) (k : Nat) (x : Dom) : (d.setDom k x).hmb = d.hmb := rfl
@[simp] theorem Dev.setDom_flog (d : Dev) (k : Nat) (x : Dom) : (d.setDom k x).flog = d.flog := rfl
@[simp] theorem Dev.setDom_cmp (d : Dev) (k : Nat) (x : Dom) : (d.setDom k x).cmp = d.cmp := rfl
@[simp] theorem Dev.setDom_fill (d : Dev) (k : Nat) (x : Dom) : (d.setDom k x).fill = d.fill := rfl
@[simp] theorem Dev.setDom_ports (d : Dev) (k : Nat) (x : Dom) : (d.setDom k x).ports = d.ports := rfl
@[simp] theorem Dev.setDom_suite (d : Dev) (k : Nat) (x : Dom) : (d.setDom k x).suite = d.suite := rfl
@[simp] theorem Dev.setDom_bridge (d : Dev) (k : Nat) (x : Dom) : (d.setDom k x).bridge = d.bridge := rfl
@[simp] theorem Dev.setDom_seq (d : Dev) (k : Nat) (x : Dom) : (d.setDom k x).seq = d.seq := rfl
@[simp] theorem Dev.setDom_wdCtl (d : Dev) (k : Nat) (x : Dom) : (d.setDom k x).wdCtl = d.wdCtl := rfl
@[simp] theorem Dev.setDom_lateCount (d : Dev) (k : Nat) (x : Dom) : (d.setDom k x).lateCount = d.lateCount := rfl
@[simp] theorem Dev.setDom_net (d : Dev) (k : Nat) (x : Dom) : (d.setDom k x).net = d.net := rfl
@[simp] theorem Dev.setDom_away (d : Dev) (k : Nat) (x : Dom) : (d.setDom k x).away = d.away := rfl
@[simp] theorem Dev.setDom_discards (d : Dev) (k : Nat) (x : Dom) : (d.setDom k x).discards = d.discards := rfl
@[simp] theorem Dev.setDom_irqs (d : Dev) (k : Nat) (x : Dom) : (d.setDom k x).irqs = d.irqs := rfl
@[simp] theorem Dev.setDom_boot (d : Dev) (k : Nat) (x : Dom) : (d.setDom k x).boot = d.boot := rfl
@[simp] theorem Dev.setDom_fw (d : Dev) (k : Nat) (x : Dom) : (d.setDom k x).fw = d.fw := rfl
@[simp] theorem Dev.setDom_journal (d : Dev) (k : Nat) (x : Dom) : (d.setDom k x).journal = d.journal := rfl
@[simp] theorem Dev.setDom_mgmt (d : Dev) (k : Nat) (x : Dom) : (d.setDom k x).mgmt = d.mgmt := rfl
@[simp] theorem Dev.setDom_tap (d : Dev) (k : Nat) (x : Dom) : (d.setDom k x).tap = d.tap := rfl
@[simp] theorem Dev.setDom_obs (d : Dev) (k : Nat) (x : Dom) : (d.setDom k x).obs = d.obs := rfl
@[simp] theorem Dev.setDom_number (d : Dev) (k : Nat) (x : Dom) : (d.setDom k x).number = d.number := rfl
@[simp] theorem Dev.setDom_step (d : Dev) (k : Nat) (x : Dom) : (d.setDom k x).step = d.step := rfl
@[simp] theorem Dev.setDom_template (d : Dev) (k : Nat) (x : Dom) : (d.setDom k x).template = d.template := rfl
@[simp] theorem Dev.setDom_free (d : Dev) (k : Nat) (x : Dom) : (d.setDom k x).free = d.free := rfl

/-! ### fresh -/

@[simp] theorem Dev.fresh_benches (d : Dev) : (d.fresh).benches = d.benches := rfl
@[simp] theorem Dev.fresh_cabs (d : Dev) : (d.fresh).cabs = d.cabs := rfl
@[simp] theorem Dev.fresh_stks (d : Dev) : (d.fresh).stks = d.stks := rfl
@[simp] theorem Dev.fresh_sbs (d : Dev) : (d.fresh).sbs = d.sbs := rfl
@[simp] theorem Dev.fresh_drawers (d : Dev) : (d.fresh).drawers = d.drawers := rfl
@[simp] theorem Dev.fresh_plan (d : Dev) : (d.fresh).plan = d.plan := rfl
@[simp] theorem Dev.fresh_hmb (d : Dev) : (d.fresh).hmb = d.hmb := rfl
@[simp] theorem Dev.fresh_flog (d : Dev) : (d.fresh).flog = d.flog := rfl
@[simp] theorem Dev.fresh_cmp (d : Dev) : (d.fresh).cmp = d.cmp := rfl
@[simp] theorem Dev.fresh_fill (d : Dev) : (d.fresh).fill = d.fill := rfl
@[simp] theorem Dev.fresh_pwr (d : Dev) : (d.fresh).pwr = d.pwr := rfl
@[simp] theorem Dev.fresh_ports (d : Dev) : (d.fresh).ports = d.ports := rfl
@[simp] theorem Dev.fresh_suite (d : Dev) : (d.fresh).suite = d.suite := rfl
@[simp] theorem Dev.fresh_bridge (d : Dev) : (d.fresh).bridge = d.bridge := rfl
@[simp] theorem Dev.fresh_seq (d : Dev) : (d.fresh).seq = d.seq := rfl
@[simp] theorem Dev.fresh_wdCtl (d : Dev) : (d.fresh).wdCtl = d.wdCtl := rfl
@[simp] theorem Dev.fresh_lateCount (d : Dev) : (d.fresh).lateCount = d.lateCount := rfl
@[simp] theorem Dev.fresh_net (d : Dev) : (d.fresh).net = d.net := rfl
@[simp] theorem Dev.fresh_away (d : Dev) : (d.fresh).away = d.away := rfl
@[simp] theorem Dev.fresh_discards (d : Dev) : (d.fresh).discards = d.discards := rfl
@[simp] theorem Dev.fresh_irqs (d : Dev) : (d.fresh).irqs = d.irqs := rfl
@[simp] theorem Dev.fresh_boot (d : Dev) : (d.fresh).boot = d.boot := rfl
@[simp] theorem Dev.fresh_fw (d : Dev) : (d.fresh).fw = d.fw := rfl
@[simp] theorem Dev.fresh_journal (d : Dev) : (d.fresh).journal = d.journal := rfl
@[simp] theorem Dev.fresh_mgmt (d : Dev) : (d.fresh).mgmt = d.mgmt := rfl
@[simp] theorem Dev.fresh_tap (d : Dev) : (d.fresh).tap = d.tap := rfl
@[simp] theorem Dev.fresh_obs (d : Dev) : (d.fresh).obs = d.obs := rfl
@[simp] theorem Dev.fresh_number (d : Dev) : (d.fresh).number = d.number := rfl
@[simp] theorem Dev.fresh_step (d : Dev) : (d.fresh).step = d.step := rfl
@[simp] theorem Dev.fresh_template (d : Dev) : (d.fresh).template = d.template := rfl

/-! ### offer -/

@[simp] theorem Dev.offer_benches (d : Dev) (r : LogRec) : (d.offer r).benches = d.benches := rfl
@[simp] theorem Dev.offer_cabs (d : Dev) (r : LogRec) : (d.offer r).cabs = d.cabs := rfl
@[simp] theorem Dev.offer_stks (d : Dev) (r : LogRec) : (d.offer r).stks = d.stks := rfl
@[simp] theorem Dev.offer_sbs (d : Dev) (r : LogRec) : (d.offer r).sbs = d.sbs := rfl
@[simp] theorem Dev.offer_drawers (d : Dev) (r : LogRec) : (d.offer r).drawers = d.drawers := rfl
@[simp] theorem Dev.offer_plan (d : Dev) (r : LogRec) : (d.offer r).plan = d.plan := rfl
@[simp] theorem Dev.offer_hmb (d : Dev) (r : LogRec) : (d.offer r).hmb = d.hmb := rfl
@[simp] theorem Dev.offer_cmp (d : Dev) (r : LogRec) : (d.offer r).cmp = d.cmp := rfl
@[simp] theorem Dev.offer_fill (d : Dev) (r : LogRec) : (d.offer r).fill = d.fill := rfl
@[simp] theorem Dev.offer_pwr (d : Dev) (r : LogRec) : (d.offer r).pwr = d.pwr := rfl
@[simp] theorem Dev.offer_ports (d : Dev) (r : LogRec) : (d.offer r).ports = d.ports := rfl
@[simp] theorem Dev.offer_suite (d : Dev) (r : LogRec) : (d.offer r).suite = d.suite := rfl
@[simp] theorem Dev.offer_bridge (d : Dev) (r : LogRec) : (d.offer r).bridge = d.bridge := rfl
@[simp] theorem Dev.offer_seq (d : Dev) (r : LogRec) : (d.offer r).seq = d.seq := rfl
@[simp] theorem Dev.offer_wdCtl (d : Dev) (r : LogRec) : (d.offer r).wdCtl = d.wdCtl := rfl
@[simp] theorem Dev.offer_lateCount (d : Dev) (r : LogRec) : (d.offer r).lateCount = d.lateCount := rfl
@[simp] theorem Dev.offer_net (d : Dev) (r : LogRec) : (d.offer r).net = d.net := rfl
@[simp] theorem Dev.offer_away (d : Dev) (r : LogRec) : (d.offer r).away = d.away := rfl
@[simp] theorem Dev.offer_discards (d : Dev) (r : LogRec) : (d.offer r).discards = d.discards := rfl
@[simp] theorem Dev.offer_irqs (d : Dev) (r : LogRec) : (d.offer r).irqs = d.irqs := rfl
@[simp] theorem Dev.offer_boot (d : Dev) (r : LogRec) : (d.offer r).boot = d.boot := rfl
@[simp] theorem Dev.offer_fw (d : Dev) (r : LogRec) : (d.offer r).fw = d.fw := rfl
@[simp] theorem Dev.offer_journal (d : Dev) (r : LogRec) : (d.offer r).journal = d.journal := rfl
@[simp] theorem Dev.offer_mgmt (d : Dev) (r : LogRec) : (d.offer r).mgmt = d.mgmt := rfl
@[simp] theorem Dev.offer_tap (d : Dev) (r : LogRec) : (d.offer r).tap = d.tap := rfl
@[simp] theorem Dev.offer_obs (d : Dev) (r : LogRec) : (d.offer r).obs = d.obs := rfl
@[simp] theorem Dev.offer_number (d : Dev) (r : LogRec) : (d.offer r).number = d.number := rfl
@[simp] theorem Dev.offer_step (d : Dev) (r : LogRec) : (d.offer r).step = d.step := rfl
@[simp] theorem Dev.offer_template (d : Dev) (r : LogRec) : (d.offer r).template = d.template := rfl
@[simp] theorem Dev.offer_free (d : Dev) (r : LogRec) : (d.offer r).free = d.free := rfl

/-! ### unitRecord -/

@[simp] theorem Dev.unitRecord_benches (d : Dev) (kind c i : Nat) (code : BitVec 16) (n : UnitNote) : (d.unitRecord kind c i code n).benches = d.benches := rfl
@[simp] theorem Dev.unitRecord_cabs (d : Dev) (kind c i : Nat) (code : BitVec 16) (n : UnitNote) : (d.unitRecord kind c i code n).cabs = d.cabs := rfl
@[simp] theorem Dev.unitRecord_stks (d : Dev) (kind c i : Nat) (code : BitVec 16) (n : UnitNote) : (d.unitRecord kind c i code n).stks = d.stks := rfl
@[simp] theorem Dev.unitRecord_sbs (d : Dev) (kind c i : Nat) (code : BitVec 16) (n : UnitNote) : (d.unitRecord kind c i code n).sbs = d.sbs := rfl
@[simp] theorem Dev.unitRecord_drawers (d : Dev) (kind c i : Nat) (code : BitVec 16) (n : UnitNote) : (d.unitRecord kind c i code n).drawers = d.drawers := rfl
@[simp] theorem Dev.unitRecord_plan (d : Dev) (kind c i : Nat) (code : BitVec 16) (n : UnitNote) : (d.unitRecord kind c i code n).plan = d.plan := rfl
@[simp] theorem Dev.unitRecord_hmb (d : Dev) (kind c i : Nat) (code : BitVec 16) (n : UnitNote) : (d.unitRecord kind c i code n).hmb = d.hmb := rfl
@[simp] theorem Dev.unitRecord_cmp (d : Dev) (kind c i : Nat) (code : BitVec 16) (n : UnitNote) : (d.unitRecord kind c i code n).cmp = d.cmp := rfl
@[simp] theorem Dev.unitRecord_fill (d : Dev) (kind c i : Nat) (code : BitVec 16) (n : UnitNote) : (d.unitRecord kind c i code n).fill = d.fill := rfl
@[simp] theorem Dev.unitRecord_pwr (d : Dev) (kind c i : Nat) (code : BitVec 16) (n : UnitNote) : (d.unitRecord kind c i code n).pwr = d.pwr := rfl
@[simp] theorem Dev.unitRecord_ports (d : Dev) (kind c i : Nat) (code : BitVec 16) (n : UnitNote) : (d.unitRecord kind c i code n).ports = d.ports := rfl
@[simp] theorem Dev.unitRecord_suite (d : Dev) (kind c i : Nat) (code : BitVec 16) (n : UnitNote) : (d.unitRecord kind c i code n).suite = d.suite := rfl
@[simp] theorem Dev.unitRecord_bridge (d : Dev) (kind c i : Nat) (code : BitVec 16) (n : UnitNote) : (d.unitRecord kind c i code n).bridge = d.bridge := rfl
@[simp] theorem Dev.unitRecord_seq (d : Dev) (kind c i : Nat) (code : BitVec 16) (n : UnitNote) : (d.unitRecord kind c i code n).seq = d.seq := rfl
@[simp] theorem Dev.unitRecord_wdCtl (d : Dev) (kind c i : Nat) (code : BitVec 16) (n : UnitNote) : (d.unitRecord kind c i code n).wdCtl = d.wdCtl := rfl
@[simp] theorem Dev.unitRecord_lateCount (d : Dev) (kind c i : Nat) (code : BitVec 16) (n : UnitNote) : (d.unitRecord kind c i code n).lateCount = d.lateCount := rfl
@[simp] theorem Dev.unitRecord_net (d : Dev) (kind c i : Nat) (code : BitVec 16) (n : UnitNote) : (d.unitRecord kind c i code n).net = d.net := rfl
@[simp] theorem Dev.unitRecord_away (d : Dev) (kind c i : Nat) (code : BitVec 16) (n : UnitNote) : (d.unitRecord kind c i code n).away = d.away := rfl
@[simp] theorem Dev.unitRecord_discards (d : Dev) (kind c i : Nat) (code : BitVec 16) (n : UnitNote) : (d.unitRecord kind c i code n).discards = d.discards := rfl
@[simp] theorem Dev.unitRecord_irqs (d : Dev) (kind c i : Nat) (code : BitVec 16) (n : UnitNote) : (d.unitRecord kind c i code n).irqs = d.irqs := rfl
@[simp] theorem Dev.unitRecord_boot (d : Dev) (kind c i : Nat) (code : BitVec 16) (n : UnitNote) : (d.unitRecord kind c i code n).boot = d.boot := rfl
@[simp] theorem Dev.unitRecord_fw (d : Dev) (kind c i : Nat) (code : BitVec 16) (n : UnitNote) : (d.unitRecord kind c i code n).fw = d.fw := rfl
@[simp] theorem Dev.unitRecord_journal (d : Dev) (kind c i : Nat) (code : BitVec 16) (n : UnitNote) : (d.unitRecord kind c i code n).journal = d.journal := rfl
@[simp] theorem Dev.unitRecord_mgmt (d : Dev) (kind c i : Nat) (code : BitVec 16) (n : UnitNote) : (d.unitRecord kind c i code n).mgmt = d.mgmt := rfl
@[simp] theorem Dev.unitRecord_tap (d : Dev) (kind c i : Nat) (code : BitVec 16) (n : UnitNote) : (d.unitRecord kind c i code n).tap = d.tap := rfl
@[simp] theorem Dev.unitRecord_obs (d : Dev) (kind c i : Nat) (code : BitVec 16) (n : UnitNote) : (d.unitRecord kind c i code n).obs = d.obs := rfl
@[simp] theorem Dev.unitRecord_number (d : Dev) (kind c i : Nat) (code : BitVec 16) (n : UnitNote) : (d.unitRecord kind c i code n).number = d.number := rfl
@[simp] theorem Dev.unitRecord_step (d : Dev) (kind c i : Nat) (code : BitVec 16) (n : UnitNote) : (d.unitRecord kind c i code n).step = d.step := rfl
@[simp] theorem Dev.unitRecord_template (d : Dev) (kind c i : Nat) (code : BitVec 16) (n : UnitNote) : (d.unitRecord kind c i code n).template = d.template := rfl
@[simp] theorem Dev.unitRecord_free (d : Dev) (kind c i : Nat) (code : BitVec 16) (n : UnitNote) : (d.unitRecord kind c i code n).free = d.free := rfl

/-! ### discard -/

@[simp] theorem Dev.discard_benches (d : Dev) (code : BitVec 16) : (d.discard code).benches = d.benches := rfl
@[simp] theorem Dev.discard_cabs (d : Dev) (code : BitVec 16) : (d.discard code).cabs = d.cabs := rfl
@[simp] theorem Dev.discard_stks (d : Dev) (code : BitVec 16) : (d.discard code).stks = d.stks := rfl
@[simp] theorem Dev.discard_sbs (d : Dev) (code : BitVec 16) : (d.discard code).sbs = d.sbs := rfl
@[simp] theorem Dev.discard_drawers (d : Dev) (code : BitVec 16) : (d.discard code).drawers = d.drawers := rfl
@[simp] theorem Dev.discard_plan (d : Dev) (code : BitVec 16) : (d.discard code).plan = d.plan := rfl
@[simp] theorem Dev.discard_hmb (d : Dev) (code : BitVec 16) : (d.discard code).hmb = d.hmb := rfl
@[simp] theorem Dev.discard_flog (d : Dev) (code : BitVec 16) : (d.discard code).flog = d.flog := rfl
@[simp] theorem Dev.discard_cmp (d : Dev) (code : BitVec 16) : (d.discard code).cmp = d.cmp := rfl
@[simp] theorem Dev.discard_fill (d : Dev) (code : BitVec 16) : (d.discard code).fill = d.fill := rfl
@[simp] theorem Dev.discard_pwr (d : Dev) (code : BitVec 16) : (d.discard code).pwr = d.pwr := rfl
@[simp] theorem Dev.discard_ports (d : Dev) (code : BitVec 16) : (d.discard code).ports = d.ports := rfl
@[simp] theorem Dev.discard_suite (d : Dev) (code : BitVec 16) : (d.discard code).suite = d.suite := rfl
@[simp] theorem Dev.discard_bridge (d : Dev) (code : BitVec 16) : (d.discard code).bridge = d.bridge := rfl
@[simp] theorem Dev.discard_seq (d : Dev) (code : BitVec 16) : (d.discard code).seq = d.seq := rfl
@[simp] theorem Dev.discard_wdCtl (d : Dev) (code : BitVec 16) : (d.discard code).wdCtl = d.wdCtl := rfl
@[simp] theorem Dev.discard_lateCount (d : Dev) (code : BitVec 16) : (d.discard code).lateCount = d.lateCount := rfl
@[simp] theorem Dev.discard_net (d : Dev) (code : BitVec 16) : (d.discard code).net = d.net := rfl
@[simp] theorem Dev.discard_away (d : Dev) (code : BitVec 16) : (d.discard code).away = d.away := rfl
@[simp] theorem Dev.discard_irqs (d : Dev) (code : BitVec 16) : (d.discard code).irqs = d.irqs := rfl
@[simp] theorem Dev.discard_boot (d : Dev) (code : BitVec 16) : (d.discard code).boot = d.boot := rfl
@[simp] theorem Dev.discard_fw (d : Dev) (code : BitVec 16) : (d.discard code).fw = d.fw := rfl
@[simp] theorem Dev.discard_journal (d : Dev) (code : BitVec 16) : (d.discard code).journal = d.journal := rfl
@[simp] theorem Dev.discard_mgmt (d : Dev) (code : BitVec 16) : (d.discard code).mgmt = d.mgmt := rfl
@[simp] theorem Dev.discard_tap (d : Dev) (code : BitVec 16) : (d.discard code).tap = d.tap := rfl
@[simp] theorem Dev.discard_obs (d : Dev) (code : BitVec 16) : (d.discard code).obs = d.obs := rfl
@[simp] theorem Dev.discard_number (d : Dev) (code : BitVec 16) : (d.discard code).number = d.number := rfl
@[simp] theorem Dev.discard_step (d : Dev) (code : BitVec 16) : (d.discard code).step = d.step := rfl
@[simp] theorem Dev.discard_template (d : Dev) (code : BitVec 16) : (d.discard code).template = d.template := rfl
@[simp] theorem Dev.discard_free (d : Dev) (code : BitVec 16) : (d.discard code).free = d.free := rfl

/-! ### unitDiscard -/

@[simp] theorem Dev.unitDiscard_benches (d : Dev) (kind c i : Nat) (code : BitVec 16) (n : UnitNote) : (d.unitDiscard kind c i code n).benches = d.benches := rfl
@[simp] theorem Dev.unitDiscard_cabs (d : Dev) (kind c i : Nat) (code : BitVec 16) (n : UnitNote) : (d.unitDiscard kind c i code n).cabs = d.cabs := rfl
@[simp] theorem Dev.unitDiscard_stks (d : Dev) (kind c i : Nat) (code : BitVec 16) (n : UnitNote) : (d.unitDiscard kind c i code n).stks = d.stks := rfl
@[simp] theorem Dev.unitDiscard_sbs (d : Dev) (kind c i : Nat) (code : BitVec 16) (n : UnitNote) : (d.unitDiscard kind c i code n).sbs = d.sbs := rfl
@[simp] theorem Dev.unitDiscard_drawers (d : Dev) (kind c i : Nat) (code : BitVec 16) (n : UnitNote) : (d.unitDiscard kind c i code n).drawers = d.drawers := rfl
@[simp] theorem Dev.unitDiscard_plan (d : Dev) (kind c i : Nat) (code : BitVec 16) (n : UnitNote) : (d.unitDiscard kind c i code n).plan = d.plan := rfl
@[simp] theorem Dev.unitDiscard_hmb (d : Dev) (kind c i : Nat) (code : BitVec 16) (n : UnitNote) : (d.unitDiscard kind c i code n).hmb = d.hmb := rfl
@[simp] theorem Dev.unitDiscard_cmp (d : Dev) (kind c i : Nat) (code : BitVec 16) (n : UnitNote) : (d.unitDiscard kind c i code n).cmp = d.cmp := rfl
@[simp] theorem Dev.unitDiscard_fill (d : Dev) (kind c i : Nat) (code : BitVec 16) (n : UnitNote) : (d.unitDiscard kind c i code n).fill = d.fill := rfl
@[simp] theorem Dev.unitDiscard_pwr (d : Dev) (kind c i : Nat) (code : BitVec 16) (n : UnitNote) : (d.unitDiscard kind c i code n).pwr = d.pwr := rfl
@[simp] theorem Dev.unitDiscard_ports (d : Dev) (kind c i : Nat) (code : BitVec 16) (n : UnitNote) : (d.unitDiscard kind c i code n).ports = d.ports := rfl
@[simp] theorem Dev.unitDiscard_suite (d : Dev) (kind c i : Nat) (code : BitVec 16) (n : UnitNote) : (d.unitDiscard kind c i code n).suite = d.suite := rfl
@[simp] theorem Dev.unitDiscard_bridge (d : Dev) (kind c i : Nat) (code : BitVec 16) (n : UnitNote) : (d.unitDiscard kind c i code n).bridge = d.bridge := rfl
@[simp] theorem Dev.unitDiscard_seq (d : Dev) (kind c i : Nat) (code : BitVec 16) (n : UnitNote) : (d.unitDiscard kind c i code n).seq = d.seq := rfl
@[simp] theorem Dev.unitDiscard_wdCtl (d : Dev) (kind c i : Nat) (code : BitVec 16) (n : UnitNote) : (d.unitDiscard kind c i code n).wdCtl = d.wdCtl := rfl
@[simp] theorem Dev.unitDiscard_lateCount (d : Dev) (kind c i : Nat) (code : BitVec 16) (n : UnitNote) : (d.unitDiscard kind c i code n).lateCount = d.lateCount := rfl
@[simp] theorem Dev.unitDiscard_net (d : Dev) (kind c i : Nat) (code : BitVec 16) (n : UnitNote) : (d.unitDiscard kind c i code n).net = d.net := rfl
@[simp] theorem Dev.unitDiscard_away (d : Dev) (kind c i : Nat) (code : BitVec 16) (n : UnitNote) : (d.unitDiscard kind c i code n).away = d.away := rfl
@[simp] theorem Dev.unitDiscard_irqs (d : Dev) (kind c i : Nat) (code : BitVec 16) (n : UnitNote) : (d.unitDiscard kind c i code n).irqs = d.irqs := rfl
@[simp] theorem Dev.unitDiscard_boot (d : Dev) (kind c i : Nat) (code : BitVec 16) (n : UnitNote) : (d.unitDiscard kind c i code n).boot = d.boot := rfl
@[simp] theorem Dev.unitDiscard_fw (d : Dev) (kind c i : Nat) (code : BitVec 16) (n : UnitNote) : (d.unitDiscard kind c i code n).fw = d.fw := rfl
@[simp] theorem Dev.unitDiscard_journal (d : Dev) (kind c i : Nat) (code : BitVec 16) (n : UnitNote) : (d.unitDiscard kind c i code n).journal = d.journal := rfl
@[simp] theorem Dev.unitDiscard_mgmt (d : Dev) (kind c i : Nat) (code : BitVec 16) (n : UnitNote) : (d.unitDiscard kind c i code n).mgmt = d.mgmt := rfl
@[simp] theorem Dev.unitDiscard_tap (d : Dev) (kind c i : Nat) (code : BitVec 16) (n : UnitNote) : (d.unitDiscard kind c i code n).tap = d.tap := rfl
@[simp] theorem Dev.unitDiscard_obs (d : Dev) (kind c i : Nat) (code : BitVec 16) (n : UnitNote) : (d.unitDiscard kind c i code n).obs = d.obs := rfl
@[simp] theorem Dev.unitDiscard_number (d : Dev) (kind c i : Nat) (code : BitVec 16) (n : UnitNote) : (d.unitDiscard kind c i code n).number = d.number := rfl
@[simp] theorem Dev.unitDiscard_step (d : Dev) (kind c i : Nat) (code : BitVec 16) (n : UnitNote) : (d.unitDiscard kind c i code n).step = d.step := rfl
@[simp] theorem Dev.unitDiscard_template (d : Dev) (kind c i : Nat) (code : BitVec 16) (n : UnitNote) : (d.unitDiscard kind c i code n).template = d.template := rfl
@[simp] theorem Dev.unitDiscard_free (d : Dev) (kind c i : Nat) (code : BitVec 16) (n : UnitNote) : (d.unitDiscard kind c i code n).free = d.free := rfl

/-! ### regRefused -/

@[simp] theorem Dev.regRefused_benches (d : Dev) (kind c i : Nat) (code : BitVec 16) (off : Nat) : (d.regRefused kind c i code off).benches = d.benches := rfl
@[simp] theorem Dev.regRefused_cabs (d : Dev) (kind c i : Nat) (code : BitVec 16) (off : Nat) : (d.regRefused kind c i code off).cabs = d.cabs := rfl
@[simp] theorem Dev.regRefused_stks (d : Dev) (kind c i : Nat) (code : BitVec 16) (off : Nat) : (d.regRefused kind c i code off).stks = d.stks := rfl
@[simp] theorem Dev.regRefused_sbs (d : Dev) (kind c i : Nat) (code : BitVec 16) (off : Nat) : (d.regRefused kind c i code off).sbs = d.sbs := rfl
@[simp] theorem Dev.regRefused_drawers (d : Dev) (kind c i : Nat) (code : BitVec 16) (off : Nat) : (d.regRefused kind c i code off).drawers = d.drawers := rfl
@[simp] theorem Dev.regRefused_plan (d : Dev) (kind c i : Nat) (code : BitVec 16) (off : Nat) : (d.regRefused kind c i code off).plan = d.plan := rfl
@[simp] theorem Dev.regRefused_hmb (d : Dev) (kind c i : Nat) (code : BitVec 16) (off : Nat) : (d.regRefused kind c i code off).hmb = d.hmb := rfl
@[simp] theorem Dev.regRefused_cmp (d : Dev) (kind c i : Nat) (code : BitVec 16) (off : Nat) : (d.regRefused kind c i code off).cmp = d.cmp := rfl
@[simp] theorem Dev.regRefused_fill (d : Dev) (kind c i : Nat) (code : BitVec 16) (off : Nat) : (d.regRefused kind c i code off).fill = d.fill := rfl
@[simp] theorem Dev.regRefused_pwr (d : Dev) (kind c i : Nat) (code : BitVec 16) (off : Nat) : (d.regRefused kind c i code off).pwr = d.pwr := rfl
@[simp] theorem Dev.regRefused_ports (d : Dev) (kind c i : Nat) (code : BitVec 16) (off : Nat) : (d.regRefused kind c i code off).ports = d.ports := rfl
@[simp] theorem Dev.regRefused_suite (d : Dev) (kind c i : Nat) (code : BitVec 16) (off : Nat) : (d.regRefused kind c i code off).suite = d.suite := rfl
@[simp] theorem Dev.regRefused_bridge (d : Dev) (kind c i : Nat) (code : BitVec 16) (off : Nat) : (d.regRefused kind c i code off).bridge = d.bridge := rfl
@[simp] theorem Dev.regRefused_seq (d : Dev) (kind c i : Nat) (code : BitVec 16) (off : Nat) : (d.regRefused kind c i code off).seq = d.seq := rfl
@[simp] theorem Dev.regRefused_wdCtl (d : Dev) (kind c i : Nat) (code : BitVec 16) (off : Nat) : (d.regRefused kind c i code off).wdCtl = d.wdCtl := rfl
@[simp] theorem Dev.regRefused_lateCount (d : Dev) (kind c i : Nat) (code : BitVec 16) (off : Nat) : (d.regRefused kind c i code off).lateCount = d.lateCount := rfl
@[simp] theorem Dev.regRefused_net (d : Dev) (kind c i : Nat) (code : BitVec 16) (off : Nat) : (d.regRefused kind c i code off).net = d.net := rfl
@[simp] theorem Dev.regRefused_away (d : Dev) (kind c i : Nat) (code : BitVec 16) (off : Nat) : (d.regRefused kind c i code off).away = d.away := rfl
@[simp] theorem Dev.regRefused_discards (d : Dev) (kind c i : Nat) (code : BitVec 16) (off : Nat) : (d.regRefused kind c i code off).discards = d.discards := rfl
@[simp] theorem Dev.regRefused_irqs (d : Dev) (kind c i : Nat) (code : BitVec 16) (off : Nat) : (d.regRefused kind c i code off).irqs = d.irqs := rfl
@[simp] theorem Dev.regRefused_boot (d : Dev) (kind c i : Nat) (code : BitVec 16) (off : Nat) : (d.regRefused kind c i code off).boot = d.boot := rfl
@[simp] theorem Dev.regRefused_fw (d : Dev) (kind c i : Nat) (code : BitVec 16) (off : Nat) : (d.regRefused kind c i code off).fw = d.fw := rfl
@[simp] theorem Dev.regRefused_journal (d : Dev) (kind c i : Nat) (code : BitVec 16) (off : Nat) : (d.regRefused kind c i code off).journal = d.journal := rfl
@[simp] theorem Dev.regRefused_mgmt (d : Dev) (kind c i : Nat) (code : BitVec 16) (off : Nat) : (d.regRefused kind c i code off).mgmt = d.mgmt := rfl
@[simp] theorem Dev.regRefused_tap (d : Dev) (kind c i : Nat) (code : BitVec 16) (off : Nat) : (d.regRefused kind c i code off).tap = d.tap := rfl
@[simp] theorem Dev.regRefused_obs (d : Dev) (kind c i : Nat) (code : BitVec 16) (off : Nat) : (d.regRefused kind c i code off).obs = d.obs := rfl
@[simp] theorem Dev.regRefused_number (d : Dev) (kind c i : Nat) (code : BitVec 16) (off : Nat) : (d.regRefused kind c i code off).number = d.number := rfl
@[simp] theorem Dev.regRefused_step (d : Dev) (kind c i : Nat) (code : BitVec 16) (off : Nat) : (d.regRefused kind c i code off).step = d.step := rfl
@[simp] theorem Dev.regRefused_template (d : Dev) (kind c i : Nat) (code : BitVec 16) (off : Nat) : (d.regRefused kind c i code off).template = d.template := rfl
@[simp] theorem Dev.regRefused_free (d : Dev) (kind c i : Nat) (code : BitVec 16) (off : Nat) : (d.regRefused kind c i code off).free = d.free := rfl

/-! ### trace -/

@[simp] theorem Dev.trace_cabs (d : Dev) (k kind : Nat) (iss : Issue) (peer data : Nat) : (d.trace k kind iss peer data).cabs = d.cabs := rfl
@[simp] theorem Dev.trace_stks (d : Dev) (k kind : Nat) (iss : Issue) (peer data : Nat) : (d.trace k kind iss peer data).stks = d.stks := rfl
@[simp] theorem Dev.trace_sbs (d : Dev) (k kind : Nat) (iss : Issue) (peer data : Nat) : (d.trace k kind iss peer data).sbs = d.sbs := rfl
@[simp] theorem Dev.trace_drawers (d : Dev) (k kind : Nat) (iss : Issue) (peer data : Nat) : (d.trace k kind iss peer data).drawers = d.drawers := rfl
@[simp] theorem Dev.trace_plan (d : Dev) (k kind : Nat) (iss : Issue) (peer data : Nat) : (d.trace k kind iss peer data).plan = d.plan := rfl
@[simp] theorem Dev.trace_hmb (d : Dev) (k kind : Nat) (iss : Issue) (peer data : Nat) : (d.trace k kind iss peer data).hmb = d.hmb := rfl
@[simp] theorem Dev.trace_flog (d : Dev) (k kind : Nat) (iss : Issue) (peer data : Nat) : (d.trace k kind iss peer data).flog = d.flog := rfl
@[simp] theorem Dev.trace_cmp (d : Dev) (k kind : Nat) (iss : Issue) (peer data : Nat) : (d.trace k kind iss peer data).cmp = d.cmp := rfl
@[simp] theorem Dev.trace_fill (d : Dev) (k kind : Nat) (iss : Issue) (peer data : Nat) : (d.trace k kind iss peer data).fill = d.fill := rfl
@[simp] theorem Dev.trace_pwr (d : Dev) (k kind : Nat) (iss : Issue) (peer data : Nat) : (d.trace k kind iss peer data).pwr = d.pwr := rfl
@[simp] theorem Dev.trace_ports (d : Dev) (k kind : Nat) (iss : Issue) (peer data : Nat) : (d.trace k kind iss peer data).ports = d.ports := rfl
@[simp] theorem Dev.trace_suite (d : Dev) (k kind : Nat) (iss : Issue) (peer data : Nat) : (d.trace k kind iss peer data).suite = d.suite := rfl
@[simp] theorem Dev.trace_bridge (d : Dev) (k kind : Nat) (iss : Issue) (peer data : Nat) : (d.trace k kind iss peer data).bridge = d.bridge := rfl
@[simp] theorem Dev.trace_seq (d : Dev) (k kind : Nat) (iss : Issue) (peer data : Nat) : (d.trace k kind iss peer data).seq = d.seq := rfl
@[simp] theorem Dev.trace_wdCtl (d : Dev) (k kind : Nat) (iss : Issue) (peer data : Nat) : (d.trace k kind iss peer data).wdCtl = d.wdCtl := rfl
@[simp] theorem Dev.trace_lateCount (d : Dev) (k kind : Nat) (iss : Issue) (peer data : Nat) : (d.trace k kind iss peer data).lateCount = d.lateCount := rfl
@[simp] theorem Dev.trace_net (d : Dev) (k kind : Nat) (iss : Issue) (peer data : Nat) : (d.trace k kind iss peer data).net = d.net := rfl
@[simp] theorem Dev.trace_away (d : Dev) (k kind : Nat) (iss : Issue) (peer data : Nat) : (d.trace k kind iss peer data).away = d.away := rfl
@[simp] theorem Dev.trace_discards (d : Dev) (k kind : Nat) (iss : Issue) (peer data : Nat) : (d.trace k kind iss peer data).discards = d.discards := rfl
@[simp] theorem Dev.trace_irqs (d : Dev) (k kind : Nat) (iss : Issue) (peer data : Nat) : (d.trace k kind iss peer data).irqs = d.irqs := rfl
@[simp] theorem Dev.trace_boot (d : Dev) (k kind : Nat) (iss : Issue) (peer data : Nat) : (d.trace k kind iss peer data).boot = d.boot := rfl
@[simp] theorem Dev.trace_fw (d : Dev) (k kind : Nat) (iss : Issue) (peer data : Nat) : (d.trace k kind iss peer data).fw = d.fw := rfl
@[simp] theorem Dev.trace_journal (d : Dev) (k kind : Nat) (iss : Issue) (peer data : Nat) : (d.trace k kind iss peer data).journal = d.journal := rfl
@[simp] theorem Dev.trace_mgmt (d : Dev) (k kind : Nat) (iss : Issue) (peer data : Nat) : (d.trace k kind iss peer data).mgmt = d.mgmt := rfl
@[simp] theorem Dev.trace_tap (d : Dev) (k kind : Nat) (iss : Issue) (peer data : Nat) : (d.trace k kind iss peer data).tap = d.tap := rfl
@[simp] theorem Dev.trace_obs (d : Dev) (k kind : Nat) (iss : Issue) (peer data : Nat) : (d.trace k kind iss peer data).obs = d.obs := rfl
@[simp] theorem Dev.trace_number (d : Dev) (k kind : Nat) (iss : Issue) (peer data : Nat) : (d.trace k kind iss peer data).number = d.number := rfl
@[simp] theorem Dev.trace_step (d : Dev) (k kind : Nat) (iss : Issue) (peer data : Nat) : (d.trace k kind iss peer data).step = d.step := rfl
@[simp] theorem Dev.trace_template (d : Dev) (k kind : Nat) (iss : Issue) (peer data : Nat) : (d.trace k kind iss peer data).template = d.template := rfl
@[simp] theorem Dev.trace_free (d : Dev) (k kind : Nat) (iss : Issue) (peer data : Nat) : (d.trace k kind iss peer data).free = d.free := rfl

/-! ### telemetry -/

@[simp] theorem Dev.telemetry_benches (d : Dev) (kind sensor value : Nat) (record : List Byte) : (d.telemetry kind sensor value record).benches = d.benches := rfl
@[simp] theorem Dev.telemetry_cabs (d : Dev) (kind sensor value : Nat) (record : List Byte) : (d.telemetry kind sensor value record).cabs = d.cabs := rfl
@[simp] theorem Dev.telemetry_stks (d : Dev) (kind sensor value : Nat) (record : List Byte) : (d.telemetry kind sensor value record).stks = d.stks := rfl
@[simp] theorem Dev.telemetry_sbs (d : Dev) (kind sensor value : Nat) (record : List Byte) : (d.telemetry kind sensor value record).sbs = d.sbs := rfl
@[simp] theorem Dev.telemetry_drawers (d : Dev) (kind sensor value : Nat) (record : List Byte) : (d.telemetry kind sensor value record).drawers = d.drawers := rfl
@[simp] theorem Dev.telemetry_plan (d : Dev) (kind sensor value : Nat) (record : List Byte) : (d.telemetry kind sensor value record).plan = d.plan := rfl
@[simp] theorem Dev.telemetry_hmb (d : Dev) (kind sensor value : Nat) (record : List Byte) : (d.telemetry kind sensor value record).hmb = d.hmb := rfl
@[simp] theorem Dev.telemetry_flog (d : Dev) (kind sensor value : Nat) (record : List Byte) : (d.telemetry kind sensor value record).flog = d.flog := rfl
@[simp] theorem Dev.telemetry_cmp (d : Dev) (kind sensor value : Nat) (record : List Byte) : (d.telemetry kind sensor value record).cmp = d.cmp := rfl
@[simp] theorem Dev.telemetry_fill (d : Dev) (kind sensor value : Nat) (record : List Byte) : (d.telemetry kind sensor value record).fill = d.fill := rfl
@[simp] theorem Dev.telemetry_pwr (d : Dev) (kind sensor value : Nat) (record : List Byte) : (d.telemetry kind sensor value record).pwr = d.pwr := rfl
@[simp] theorem Dev.telemetry_ports (d : Dev) (kind sensor value : Nat) (record : List Byte) : (d.telemetry kind sensor value record).ports = d.ports := rfl
@[simp] theorem Dev.telemetry_suite (d : Dev) (kind sensor value : Nat) (record : List Byte) : (d.telemetry kind sensor value record).suite = d.suite := rfl
@[simp] theorem Dev.telemetry_bridge (d : Dev) (kind sensor value : Nat) (record : List Byte) : (d.telemetry kind sensor value record).bridge = d.bridge := rfl
@[simp] theorem Dev.telemetry_seq (d : Dev) (kind sensor value : Nat) (record : List Byte) : (d.telemetry kind sensor value record).seq = d.seq := rfl
@[simp] theorem Dev.telemetry_wdCtl (d : Dev) (kind sensor value : Nat) (record : List Byte) : (d.telemetry kind sensor value record).wdCtl = d.wdCtl := rfl
@[simp] theorem Dev.telemetry_lateCount (d : Dev) (kind sensor value : Nat) (record : List Byte) : (d.telemetry kind sensor value record).lateCount = d.lateCount := rfl
@[simp] theorem Dev.telemetry_net (d : Dev) (kind sensor value : Nat) (record : List Byte) : (d.telemetry kind sensor value record).net = d.net := rfl
@[simp] theorem Dev.telemetry_away (d : Dev) (kind sensor value : Nat) (record : List Byte) : (d.telemetry kind sensor value record).away = d.away := rfl
@[simp] theorem Dev.telemetry_discards (d : Dev) (kind sensor value : Nat) (record : List Byte) : (d.telemetry kind sensor value record).discards = d.discards := rfl
@[simp] theorem Dev.telemetry_irqs (d : Dev) (kind sensor value : Nat) (record : List Byte) : (d.telemetry kind sensor value record).irqs = d.irqs := rfl
@[simp] theorem Dev.telemetry_boot (d : Dev) (kind sensor value : Nat) (record : List Byte) : (d.telemetry kind sensor value record).boot = d.boot := rfl
@[simp] theorem Dev.telemetry_fw (d : Dev) (kind sensor value : Nat) (record : List Byte) : (d.telemetry kind sensor value record).fw = d.fw := rfl
@[simp] theorem Dev.telemetry_journal (d : Dev) (kind sensor value : Nat) (record : List Byte) : (d.telemetry kind sensor value record).journal = d.journal := rfl
@[simp] theorem Dev.telemetry_tap (d : Dev) (kind sensor value : Nat) (record : List Byte) : (d.telemetry kind sensor value record).tap = d.tap := rfl
@[simp] theorem Dev.telemetry_obs (d : Dev) (kind sensor value : Nat) (record : List Byte) : (d.telemetry kind sensor value record).obs = d.obs := rfl
@[simp] theorem Dev.telemetry_number (d : Dev) (kind sensor value : Nat) (record : List Byte) : (d.telemetry kind sensor value record).number = d.number := rfl
@[simp] theorem Dev.telemetry_step (d : Dev) (kind sensor value : Nat) (record : List Byte) : (d.telemetry kind sensor value record).step = d.step := rfl
@[simp] theorem Dev.telemetry_template (d : Dev) (kind sensor value : Nat) (record : List Byte) : (d.telemetry kind sensor value record).template = d.template := rfl
@[simp] theorem Dev.telemetry_free (d : Dev) (kind sensor value : Nat) (record : List Byte) : (d.telemetry kind sensor value record).free = d.free := rfl

/-! ### benchRecord -/

@[simp] theorem Dev.benchRecord_cabs (d : Dev) (k : Nat) (code : BitVec 16) (iss : Issue) (step : BitVec 16) (detail : Nat) : (d.benchRecord k code iss step detail).cabs = d.cabs := rfl
@[simp] theorem Dev.benchRecord_stks (d : Dev) (k : Nat) (code : BitVec 16) (iss : Issue) (step : BitVec 16) (detail : Nat) : (d.benchRecord k code iss step detail).stks = d.stks := rfl
@[simp] theorem Dev.benchRecord_sbs (d : Dev) (k : Nat) (code : BitVec 16) (iss : Issue) (step : BitVec 16) (detail : Nat) : (d.benchRecord k code iss step detail).sbs = d.sbs := rfl
@[simp] theorem Dev.benchRecord_drawers (d : Dev) (k : Nat) (code : BitVec 16) (iss : Issue) (step : BitVec 16) (detail : Nat) : (d.benchRecord k code iss step detail).drawers = d.drawers := rfl
@[simp] theorem Dev.benchRecord_plan (d : Dev) (k : Nat) (code : BitVec 16) (iss : Issue) (step : BitVec 16) (detail : Nat) : (d.benchRecord k code iss step detail).plan = d.plan := rfl
@[simp] theorem Dev.benchRecord_hmb (d : Dev) (k : Nat) (code : BitVec 16) (iss : Issue) (step : BitVec 16) (detail : Nat) : (d.benchRecord k code iss step detail).hmb = d.hmb := rfl
@[simp] theorem Dev.benchRecord_cmp (d : Dev) (k : Nat) (code : BitVec 16) (iss : Issue) (step : BitVec 16) (detail : Nat) : (d.benchRecord k code iss step detail).cmp = d.cmp := rfl
@[simp] theorem Dev.benchRecord_fill (d : Dev) (k : Nat) (code : BitVec 16) (iss : Issue) (step : BitVec 16) (detail : Nat) : (d.benchRecord k code iss step detail).fill = d.fill := rfl
@[simp] theorem Dev.benchRecord_pwr (d : Dev) (k : Nat) (code : BitVec 16) (iss : Issue) (step : BitVec 16) (detail : Nat) : (d.benchRecord k code iss step detail).pwr = d.pwr := rfl
@[simp] theorem Dev.benchRecord_ports (d : Dev) (k : Nat) (code : BitVec 16) (iss : Issue) (step : BitVec 16) (detail : Nat) : (d.benchRecord k code iss step detail).ports = d.ports := rfl
@[simp] theorem Dev.benchRecord_suite (d : Dev) (k : Nat) (code : BitVec 16) (iss : Issue) (step : BitVec 16) (detail : Nat) : (d.benchRecord k code iss step detail).suite = d.suite := rfl
@[simp] theorem Dev.benchRecord_bridge (d : Dev) (k : Nat) (code : BitVec 16) (iss : Issue) (step : BitVec 16) (detail : Nat) : (d.benchRecord k code iss step detail).bridge = d.bridge := rfl
@[simp] theorem Dev.benchRecord_seq (d : Dev) (k : Nat) (code : BitVec 16) (iss : Issue) (step : BitVec 16) (detail : Nat) : (d.benchRecord k code iss step detail).seq = d.seq := rfl
@[simp] theorem Dev.benchRecord_wdCtl (d : Dev) (k : Nat) (code : BitVec 16) (iss : Issue) (step : BitVec 16) (detail : Nat) : (d.benchRecord k code iss step detail).wdCtl = d.wdCtl := rfl
@[simp] theorem Dev.benchRecord_lateCount (d : Dev) (k : Nat) (code : BitVec 16) (iss : Issue) (step : BitVec 16) (detail : Nat) : (d.benchRecord k code iss step detail).lateCount = d.lateCount := rfl
@[simp] theorem Dev.benchRecord_net (d : Dev) (k : Nat) (code : BitVec 16) (iss : Issue) (step : BitVec 16) (detail : Nat) : (d.benchRecord k code iss step detail).net = d.net := rfl
@[simp] theorem Dev.benchRecord_away (d : Dev) (k : Nat) (code : BitVec 16) (iss : Issue) (step : BitVec 16) (detail : Nat) : (d.benchRecord k code iss step detail).away = d.away := rfl
@[simp] theorem Dev.benchRecord_discards (d : Dev) (k : Nat) (code : BitVec 16) (iss : Issue) (step : BitVec 16) (detail : Nat) : (d.benchRecord k code iss step detail).discards = d.discards := rfl
@[simp] theorem Dev.benchRecord_irqs (d : Dev) (k : Nat) (code : BitVec 16) (iss : Issue) (step : BitVec 16) (detail : Nat) : (d.benchRecord k code iss step detail).irqs = d.irqs := rfl
@[simp] theorem Dev.benchRecord_boot (d : Dev) (k : Nat) (code : BitVec 16) (iss : Issue) (step : BitVec 16) (detail : Nat) : (d.benchRecord k code iss step detail).boot = d.boot := rfl
@[simp] theorem Dev.benchRecord_fw (d : Dev) (k : Nat) (code : BitVec 16) (iss : Issue) (step : BitVec 16) (detail : Nat) : (d.benchRecord k code iss step detail).fw = d.fw := rfl
@[simp] theorem Dev.benchRecord_journal (d : Dev) (k : Nat) (code : BitVec 16) (iss : Issue) (step : BitVec 16) (detail : Nat) : (d.benchRecord k code iss step detail).journal = d.journal := rfl
@[simp] theorem Dev.benchRecord_mgmt (d : Dev) (k : Nat) (code : BitVec 16) (iss : Issue) (step : BitVec 16) (detail : Nat) : (d.benchRecord k code iss step detail).mgmt = d.mgmt := rfl
@[simp] theorem Dev.benchRecord_tap (d : Dev) (k : Nat) (code : BitVec 16) (iss : Issue) (step : BitVec 16) (detail : Nat) : (d.benchRecord k code iss step detail).tap = d.tap := rfl
@[simp] theorem Dev.benchRecord_obs (d : Dev) (k : Nat) (code : BitVec 16) (iss : Issue) (step : BitVec 16) (detail : Nat) : (d.benchRecord k code iss step detail).obs = d.obs := rfl
@[simp] theorem Dev.benchRecord_number (d : Dev) (k : Nat) (code : BitVec 16) (iss : Issue) (step : BitVec 16) (detail : Nat) : (d.benchRecord k code iss step detail).number = d.number := rfl
@[simp] theorem Dev.benchRecord_step (d : Dev) (k : Nat) (code : BitVec 16) (iss : Issue) (step : BitVec 16) (detail : Nat) : (d.benchRecord k code iss step detail).step = d.step := rfl
@[simp] theorem Dev.benchRecord_template (d : Dev) (k : Nat) (code : BitVec 16) (iss : Issue) (step : BitVec 16) (detail : Nat) : (d.benchRecord k code iss step detail).template = d.template := rfl
@[simp] theorem Dev.benchRecord_free (d : Dev) (k : Nat) (code : BitVec 16) (iss : Issue) (step : BitVec 16) (detail : Nat) : (d.benchRecord k code iss step detail).free = d.free := rfl

/-! ### Units read after a write -/

@[simp] theorem Dev.bench_setBench_self (d : Dev) (k : Nat) (x : Bench) : (d.setBench k x).bench k = x := Tab.get_set_self _ _ _ _
theorem Dev.bench_setBench_ne (d : Dev) (x : Bench) {k j : Nat} (h : j ≠ k) : (d.setBench k x).bench j = d.bench j := Tab.get_set_ne _ _ _ h
@[simp] theorem Dev.bench_setCab (d : Dev) (k j : Nat) (x : Cabinet) : (d.setCab k x).bench j = d.bench j := rfl
@[simp] theorem Dev.bench_setStk (d : Dev) (k j : Nat) (x : Stack) : (d.setStk k x).bench j = d.bench j := rfl
@[simp] theorem Dev.bench_setSb (d : Dev) (k j : Nat) (x : Sideboard) : (d.setSb k x).bench j = d.bench j := rfl
@[simp] theorem Dev.bench_setDrw (d : Dev) (k j : Nat) (x : Drawer) : (d.setDrw k x).bench j = d.bench j := rfl
@[simp] theorem Dev.bench_setPort (d : Dev) (k j : Nat) (x : Port) : (d.setPort k x).bench j = d.bench j := rfl
@[simp] theorem Dev.bench_setDom (d : Dev) (k j : Nat) (x : Dom) : (d.setDom k x).bench j = d.bench j := rfl
@[simp] theorem Dev.bench_fresh (d : Dev) (j : Nat) : (d.fresh).bench j = d.bench j := rfl
@[simp] theorem Dev.bench_offer (d : Dev) (r : LogRec) (j : Nat) : (d.offer r).bench j = d.bench j := rfl
@[simp] theorem Dev.bench_unitRecord (d : Dev) (kind c i : Nat) (code : BitVec 16) (n : UnitNote) (j : Nat) : (d.unitRecord kind c i code n).bench j = d.bench j := rfl
@[simp] theorem Dev.bench_discard (d : Dev) (code : BitVec 16) (j : Nat) : (d.discard code).bench j = d.bench j := rfl
@[simp] theorem Dev.bench_unitDiscard (d : Dev) (kind c i : Nat) (code : BitVec 16) (n : UnitNote) (j : Nat) : (d.unitDiscard kind c i code n).bench j = d.bench j := rfl
@[simp] theorem Dev.bench_regRefused (d : Dev) (kind c i : Nat) (code : BitVec 16) (off : Nat) (j : Nat) : (d.regRefused kind c i code off).bench j = d.bench j := rfl
@[simp] theorem Dev.bench_telemetry (d : Dev) (kind sensor value : Nat) (record : List Byte) (j : Nat) : (d.telemetry kind sensor value record).bench j = d.bench j := rfl
@[simp] theorem Dev.cab_setCab_self (d : Dev) (k : Nat) (x : Cabinet) : (d.setCab k x).cab k = x := Tab.get_set_self _ _ _ _
theorem Dev.cab_setCab_ne (d : Dev) (x : Cabinet) {k j : Nat} (h : j ≠ k) : (d.setCab k x).cab j = d.cab j := Tab.get_set_ne _ _ _ h
@[simp] theorem Dev.cab_setBench (d : Dev) (k j : Nat) (x : Bench) : (d.setBench k x).cab j = d.cab j := rfl
@[simp] theorem Dev.cab_setStk (d : Dev) (k j : Nat) (x : Stack) : (d.setStk k x).cab j = d.cab j := rfl
@[simp] theorem Dev.cab_setSb (d : Dev) (k j : Nat) (x : Sideboard) : (d.setSb k x).cab j = d.cab j := rfl
@[simp] theorem Dev.cab_setDrw (d : Dev) (k j : Nat) (x : Drawer) : (d.setDrw k x).cab j = d.cab j := rfl
@[simp] theorem Dev.cab_setPort (d : Dev) (k j : Nat) (x : Port) : (d.setPort k x).cab j = d.cab j := rfl
@[simp] theorem Dev.cab_setDom (d : Dev) (k j : Nat) (x : Dom) : (d.setDom k x).cab j = d.cab j := rfl
@[simp] theorem Dev.cab_modBench (d : Dev) (k : Nat) (f : Bench → Bench) (j : Nat) : (d.modBench k f).cab j = d.cab j := rfl
@[simp] theorem Dev.cab_mapBenches (d : Dev) (f : Nat → Bench → Bench) (j : Nat) : (d.mapBenches f).cab j = d.cab j := rfl
@[simp] theorem Dev.cab_fresh (d : Dev) (j : Nat) : (d.fresh).cab j = d.cab j := rfl
@[simp] theorem Dev.cab_offer (d : Dev) (r : LogRec) (j : Nat) : (d.offer r).cab j = d.cab j := rfl
@[simp] theorem Dev.cab_unitRecord (d : Dev) (kind c i : Nat) (code : BitVec 16) (n : UnitNote) (j : Nat) : (d.unitRecord kind c i code n).cab j = d.cab j := rfl
@[simp] theorem Dev.cab_discard (d : Dev) (code : BitVec 16) (j : Nat) : (d.discard code).cab j = d.cab j := rfl
@[simp] theorem Dev.cab_unitDiscard (d : Dev) (kind c i : Nat) (code : BitVec 16) (n : UnitNote) (j : Nat) : (d.unitDiscard kind c i code n).cab j = d.cab j := rfl
@[simp] theorem Dev.cab_regRefused (d : Dev) (kind c i : Nat) (code : BitVec 16) (off : Nat) (j : Nat) : (d.regRefused kind c i code off).cab j = d.cab j := rfl
@[simp] theorem Dev.cab_trace (d : Dev) (k kind : Nat) (iss : Issue) (peer data : Nat) (j : Nat) : (d.trace k kind iss peer data).cab j = d.cab j := rfl
@[simp] theorem Dev.cab_telemetry (d : Dev) (kind sensor value : Nat) (record : List Byte) (j : Nat) : (d.telemetry kind sensor value record).cab j = d.cab j := rfl
@[simp] theorem Dev.cab_benchRecord (d : Dev) (k : Nat) (code : BitVec 16) (iss : Issue) (step : BitVec 16) (detail : Nat) (j : Nat) : (d.benchRecord k code iss step detail).cab j = d.cab j := rfl
@[simp] theorem Dev.stk_setStk_self (d : Dev) (k : Nat) (x : Stack) : (d.setStk k x).stk k = x := Tab.get_set_self _ _ _ _
theorem Dev.stk_setStk_ne (d : Dev) (x : Stack) {k j : Nat} (h : j ≠ k) : (d.setStk k x).stk j = d.stk j := Tab.get_set_ne _ _ _ h
@[simp] theorem Dev.stk_setBench (d : Dev) (k j : Nat) (x : Bench) : (d.setBench k x).stk j = d.stk j := rfl
@[simp] theorem Dev.stk_setCab (d : Dev) (k j : Nat) (x : Cabinet) : (d.setCab k x).stk j = d.stk j := rfl
@[simp] theorem Dev.stk_setSb (d : Dev) (k j : Nat) (x : Sideboard) : (d.setSb k x).stk j = d.stk j := rfl
@[simp] theorem Dev.stk_setDrw (d : Dev) (k j : Nat) (x : Drawer) : (d.setDrw k x).stk j = d.stk j := rfl
@[simp] theorem Dev.stk_setPort (d : Dev) (k j : Nat) (x : Port) : (d.setPort k x).stk j = d.stk j := rfl
@[simp] theorem Dev.stk_setDom (d : Dev) (k j : Nat) (x : Dom) : (d.setDom k x).stk j = d.stk j := rfl
@[simp] theorem Dev.stk_modBench (d : Dev) (k : Nat) (f : Bench → Bench) (j : Nat) : (d.modBench k f).stk j = d.stk j := rfl
@[simp] theorem Dev.stk_mapBenches (d : Dev) (f : Nat → Bench → Bench) (j : Nat) : (d.mapBenches f).stk j = d.stk j := rfl
@[simp] theorem Dev.stk_fresh (d : Dev) (j : Nat) : (d.fresh).stk j = d.stk j := rfl
@[simp] theorem Dev.stk_offer (d : Dev) (r : LogRec) (j : Nat) : (d.offer r).stk j = d.stk j := rfl
@[simp] theorem Dev.stk_unitRecord (d : Dev) (kind c i : Nat) (code : BitVec 16) (n : UnitNote) (j : Nat) : (d.unitRecord kind c i code n).stk j = d.stk j := rfl
@[simp] theorem Dev.stk_discard (d : Dev) (code : BitVec 16) (j : Nat) : (d.discard code).stk j = d.stk j := rfl
@[simp] theorem Dev.stk_unitDiscard (d : Dev) (kind c i : Nat) (code : BitVec 16) (n : UnitNote) (j : Nat) : (d.unitDiscard kind c i code n).stk j = d.stk j := rfl
@[simp] theorem Dev.stk_regRefused (d : Dev) (kind c i : Nat) (code : BitVec 16) (off : Nat) (j : Nat) : (d.regRefused kind c i code off).stk j = d.stk j := rfl
@[simp] theorem Dev.stk_trace (d : Dev) (k kind : Nat) (iss : Issue) (peer data : Nat) (j : Nat) : (d.trace k kind iss peer data).stk j = d.stk j := rfl
@[simp] theorem Dev.stk_telemetry (d : Dev) (kind sensor value : Nat) (record : List Byte) (j : Nat) : (d.telemetry kind sensor value record).stk j = d.stk j := rfl
@[simp] theorem Dev.stk_benchRecord (d : Dev) (k : Nat) (code : BitVec 16) (iss : Issue) (step : BitVec 16) (detail : Nat) (j : Nat) : (d.benchRecord k code iss step detail).stk j = d.stk j := rfl
@[simp] theorem Dev.sb_setSb_self (d : Dev) (k : Nat) (x : Sideboard) : (d.setSb k x).sb k = x := Tab.get_set_self _ _ _ _
theorem Dev.sb_setSb_ne (d : Dev) (x : Sideboard) {k j : Nat} (h : j ≠ k) : (d.setSb k x).sb j = d.sb j := Tab.get_set_ne _ _ _ h
@[simp] theorem Dev.sb_setBench (d : Dev) (k j : Nat) (x : Bench) : (d.setBench k x).sb j = d.sb j := rfl
@[simp] theorem Dev.sb_setCab (d : Dev) (k j : Nat) (x : Cabinet) : (d.setCab k x).sb j = d.sb j := rfl
@[simp] theorem Dev.sb_setStk (d : Dev) (k j : Nat) (x : Stack) : (d.setStk k x).sb j = d.sb j := rfl
@[simp] theorem Dev.sb_setDrw (d : Dev) (k j : Nat) (x : Drawer) : (d.setDrw k x).sb j = d.sb j := rfl
@[simp] theorem Dev.sb_setPort (d : Dev) (k j : Nat) (x : Port) : (d.setPort k x).sb j = d.sb j := rfl
@[simp] theorem Dev.sb_setDom (d : Dev) (k j : Nat) (x : Dom) : (d.setDom k x).sb j = d.sb j := rfl
@[simp] theorem Dev.sb_modBench (d : Dev) (k : Nat) (f : Bench → Bench) (j : Nat) : (d.modBench k f).sb j = d.sb j := rfl
@[simp] theorem Dev.sb_mapBenches (d : Dev) (f : Nat → Bench → Bench) (j : Nat) : (d.mapBenches f).sb j = d.sb j := rfl
@[simp] theorem Dev.sb_fresh (d : Dev) (j : Nat) : (d.fresh).sb j = d.sb j := rfl
@[simp] theorem Dev.sb_offer (d : Dev) (r : LogRec) (j : Nat) : (d.offer r).sb j = d.sb j := rfl
@[simp] theorem Dev.sb_unitRecord (d : Dev) (kind c i : Nat) (code : BitVec 16) (n : UnitNote) (j : Nat) : (d.unitRecord kind c i code n).sb j = d.sb j := rfl
@[simp] theorem Dev.sb_discard (d : Dev) (code : BitVec 16) (j : Nat) : (d.discard code).sb j = d.sb j := rfl
@[simp] theorem Dev.sb_unitDiscard (d : Dev) (kind c i : Nat) (code : BitVec 16) (n : UnitNote) (j : Nat) : (d.unitDiscard kind c i code n).sb j = d.sb j := rfl
@[simp] theorem Dev.sb_regRefused (d : Dev) (kind c i : Nat) (code : BitVec 16) (off : Nat) (j : Nat) : (d.regRefused kind c i code off).sb j = d.sb j := rfl
@[simp] theorem Dev.sb_trace (d : Dev) (k kind : Nat) (iss : Issue) (peer data : Nat) (j : Nat) : (d.trace k kind iss peer data).sb j = d.sb j := rfl
@[simp] theorem Dev.sb_telemetry (d : Dev) (kind sensor value : Nat) (record : List Byte) (j : Nat) : (d.telemetry kind sensor value record).sb j = d.sb j := rfl
@[simp] theorem Dev.sb_benchRecord (d : Dev) (k : Nat) (code : BitVec 16) (iss : Issue) (step : BitVec 16) (detail : Nat) (j : Nat) : (d.benchRecord k code iss step detail).sb j = d.sb j := rfl
@[simp] theorem Dev.drw_setDrw_self (d : Dev) (k : Nat) (x : Drawer) : (d.setDrw k x).drw k = x := Tab.get_set_self _ _ _ _
theorem Dev.drw_setDrw_ne (d : Dev) (x : Drawer) {k j : Nat} (h : j ≠ k) : (d.setDrw k x).drw j = d.drw j := Tab.get_set_ne _ _ _ h
@[simp] theorem Dev.drw_setBench (d : Dev) (k j : Nat) (x : Bench) : (d.setBench k x).drw j = d.drw j := rfl
@[simp] theorem Dev.drw_setCab (d : Dev) (k j : Nat) (x : Cabinet) : (d.setCab k x).drw j = d.drw j := rfl
@[simp] theorem Dev.drw_setStk (d : Dev) (k j : Nat) (x : Stack) : (d.setStk k x).drw j = d.drw j := rfl
@[simp] theorem Dev.drw_setSb (d : Dev) (k j : Nat) (x : Sideboard) : (d.setSb k x).drw j = d.drw j := rfl
@[simp] theorem Dev.drw_setPort (d : Dev) (k j : Nat) (x : Port) : (d.setPort k x).drw j = d.drw j := rfl
@[simp] theorem Dev.drw_setDom (d : Dev) (k j : Nat) (x : Dom) : (d.setDom k x).drw j = d.drw j := rfl
@[simp] theorem Dev.drw_modBench (d : Dev) (k : Nat) (f : Bench → Bench) (j : Nat) : (d.modBench k f).drw j = d.drw j := rfl
@[simp] theorem Dev.drw_mapBenches (d : Dev) (f : Nat → Bench → Bench) (j : Nat) : (d.mapBenches f).drw j = d.drw j := rfl
@[simp] theorem Dev.drw_fresh (d : Dev) (j : Nat) : (d.fresh).drw j = d.drw j := rfl
@[simp] theorem Dev.drw_offer (d : Dev) (r : LogRec) (j : Nat) : (d.offer r).drw j = d.drw j := rfl
@[simp] theorem Dev.drw_unitRecord (d : Dev) (kind c i : Nat) (code : BitVec 16) (n : UnitNote) (j : Nat) : (d.unitRecord kind c i code n).drw j = d.drw j := rfl
@[simp] theorem Dev.drw_discard (d : Dev) (code : BitVec 16) (j : Nat) : (d.discard code).drw j = d.drw j := rfl
@[simp] theorem Dev.drw_unitDiscard (d : Dev) (kind c i : Nat) (code : BitVec 16) (n : UnitNote) (j : Nat) : (d.unitDiscard kind c i code n).drw j = d.drw j := rfl
@[simp] theorem Dev.drw_regRefused (d : Dev) (kind c i : Nat) (code : BitVec 16) (off : Nat) (j : Nat) : (d.regRefused kind c i code off).drw j = d.drw j := rfl
@[simp] theorem Dev.drw_trace (d : Dev) (k kind : Nat) (iss : Issue) (peer data : Nat) (j : Nat) : (d.trace k kind iss peer data).drw j = d.drw j := rfl
@[simp] theorem Dev.drw_telemetry (d : Dev) (kind sensor value : Nat) (record : List Byte) (j : Nat) : (d.telemetry kind sensor value record).drw j = d.drw j := rfl
@[simp] theorem Dev.drw_benchRecord (d : Dev) (k : Nat) (code : BitVec 16) (iss : Issue) (step : BitVec 16) (detail : Nat) (j : Nat) : (d.benchRecord k code iss step detail).drw j = d.drw j := rfl
@[simp] theorem Dev.port_setPort_self (d : Dev) (k : Nat) (x : Port) : (d.setPort k x).port k = x := Tab.get_set_self _ _ _ _
theorem Dev.port_setPort_ne (d : Dev) (x : Port) {k j : Nat} (h : j ≠ k) : (d.setPort k x).port j = d.port j := Tab.get_set_ne _ _ _ h
@[simp] theorem Dev.port_setBench (d : Dev) (k j : Nat) (x : Bench) : (d.setBench k x).port j = d.port j := rfl
@[simp] theorem Dev.port_setCab (d : Dev) (k j : Nat) (x : Cabinet) : (d.setCab k x).port j = d.port j := rfl
@[simp] theorem Dev.port_setStk (d : Dev) (k j : Nat) (x : Stack) : (d.setStk k x).port j = d.port j := rfl
@[simp] theorem Dev.port_setSb (d : Dev) (k j : Nat) (x : Sideboard) : (d.setSb k x).port j = d.port j := rfl
@[simp] theorem Dev.port_setDrw (d : Dev) (k j : Nat) (x : Drawer) : (d.setDrw k x).port j = d.port j := rfl
@[simp] theorem Dev.port_setDom (d : Dev) (k j : Nat) (x : Dom) : (d.setDom k x).port j = d.port j := rfl
@[simp] theorem Dev.port_modBench (d : Dev) (k : Nat) (f : Bench → Bench) (j : Nat) : (d.modBench k f).port j = d.port j := rfl
@[simp] theorem Dev.port_mapBenches (d : Dev) (f : Nat → Bench → Bench) (j : Nat) : (d.mapBenches f).port j = d.port j := rfl
@[simp] theorem Dev.port_fresh (d : Dev) (j : Nat) : (d.fresh).port j = d.port j := rfl
@[simp] theorem Dev.port_offer (d : Dev) (r : LogRec) (j : Nat) : (d.offer r).port j = d.port j := rfl
@[simp] theorem Dev.port_unitRecord (d : Dev) (kind c i : Nat) (code : BitVec 16) (n : UnitNote) (j : Nat) : (d.unitRecord kind c i code n).port j = d.port j := rfl
@[simp] theorem Dev.port_discard (d : Dev) (code : BitVec 16) (j : Nat) : (d.discard code).port j = d.port j := rfl
@[simp] theorem Dev.port_unitDiscard (d : Dev) (kind c i : Nat) (code : BitVec 16) (n : UnitNote) (j : Nat) : (d.unitDiscard kind c i code n).port j = d.port j := rfl
@[simp] theorem Dev.port_regRefused (d : Dev) (kind c i : Nat) (code : BitVec 16) (off : Nat) (j : Nat) : (d.regRefused kind c i code off).port j = d.port j := rfl
@[simp] theorem Dev.port_trace (d : Dev) (k kind : Nat) (iss : Issue) (peer data : Nat) (j : Nat) : (d.trace k kind iss peer data).port j = d.port j := rfl
@[simp] theorem Dev.port_telemetry (d : Dev) (kind sensor value : Nat) (record : List Byte) (j : Nat) : (d.telemetry kind sensor value record).port j = d.port j := rfl
@[simp] theorem Dev.port_benchRecord (d : Dev) (k : Nat) (code : BitVec 16) (iss : Issue) (step : BitVec 16) (detail : Nat) (j : Nat) : (d.benchRecord k code iss step detail).port j = d.port j := rfl
@[simp] theorem Dev.dom_setDom_self (d : Dev) (k : Nat) (x : Dom) : (d.setDom k x).dom k = x := Tab.get_set_self _ _ _ _
theorem Dev.dom_setDom_ne (d : Dev) (x : Dom) {k j : Nat} (h : j ≠ k) : (d.setDom k x).dom j = d.dom j := Tab.get_set_ne _ _ _ h
@[simp] theorem Dev.dom_setBench (d : Dev) (k j : Nat) (x : Bench) : (d.setBench k x).dom j = d.dom j := rfl
@[simp] theorem Dev.dom_setCab (d : Dev) (k j : Nat) (x : Cabinet) : (d.setCab k x).dom j = d.dom j := rfl
@[simp] theorem Dev.dom_setStk (d : Dev) (k j : Nat) (x : Stack) : (d.setStk k x).dom j = d.dom j := rfl
@[simp] theorem Dev.dom_setSb (d : Dev) (k j : Nat) (x : Sideboard) : (d.setSb k x).dom j = d.dom j := rfl
@[simp] theorem Dev.dom_setDrw (d : Dev) (k j : Nat) (x : Drawer) : (d.setDrw k x).dom j = d.dom j := rfl
@[simp] theorem Dev.dom_setPort (d : Dev) (k j : Nat) (x : Port) : (d.setPort k x).dom j = d.dom j := rfl
@[simp] theorem Dev.dom_modBench (d : Dev) (k : Nat) (f : Bench → Bench) (j : Nat) : (d.modBench k f).dom j = d.dom j := rfl
@[simp] theorem Dev.dom_mapBenches (d : Dev) (f : Nat → Bench → Bench) (j : Nat) : (d.mapBenches f).dom j = d.dom j := rfl
@[simp] theorem Dev.dom_fresh (d : Dev) (j : Nat) : (d.fresh).dom j = d.dom j := rfl
@[simp] theorem Dev.dom_offer (d : Dev) (r : LogRec) (j : Nat) : (d.offer r).dom j = d.dom j := rfl
@[simp] theorem Dev.dom_unitRecord (d : Dev) (kind c i : Nat) (code : BitVec 16) (n : UnitNote) (j : Nat) : (d.unitRecord kind c i code n).dom j = d.dom j := rfl
@[simp] theorem Dev.dom_discard (d : Dev) (code : BitVec 16) (j : Nat) : (d.discard code).dom j = d.dom j := rfl
@[simp] theorem Dev.dom_unitDiscard (d : Dev) (kind c i : Nat) (code : BitVec 16) (n : UnitNote) (j : Nat) : (d.unitDiscard kind c i code n).dom j = d.dom j := rfl
@[simp] theorem Dev.dom_regRefused (d : Dev) (kind c i : Nat) (code : BitVec 16) (off : Nat) (j : Nat) : (d.regRefused kind c i code off).dom j = d.dom j := rfl
@[simp] theorem Dev.dom_trace (d : Dev) (k kind : Nat) (iss : Issue) (peer data : Nat) (j : Nat) : (d.trace k kind iss peer data).dom j = d.dom j := rfl
@[simp] theorem Dev.dom_telemetry (d : Dev) (kind sensor value : Nat) (record : List Byte) (j : Nat) : (d.telemetry kind sensor value record).dom j = d.dom j := rfl
@[simp] theorem Dev.dom_benchRecord (d : Dev) (k : Nat) (code : BitVec 16) (iss : Issue) (step : BitVec 16) (detail : Nat) (j : Nat) : (d.benchRecord k code iss step detail).dom j = d.dom j := rfl

@[simp] theorem Dev.bench_modBench_self (d : Dev) (k : Nat) (f : Bench → Bench) : (d.modBench k f).bench k = f (d.bench k) :=
  Tab.get_set_self _ _ _ _

theorem Dev.bench_modBench_ne (d : Dev) (f : Bench → Bench) {k j : Nat} (h : j ≠ k) : (d.modBench k f).bench j = d.bench j :=
  Tab.get_set_ne _ _ _ h

/-- A trace entry touches only its own bench. -/
theorem Dev.bench_trace_ne (d : Dev) (kind : Nat) (iss : Issue) (peer data : Nat) {k j : Nat} (h : j ≠ k) :
    (d.trace k kind iss peer data).bench j = d.bench j := Dev.bench_modBench_ne _ _ h

/-- The outcome of a meaning is a next state with the queue untouched. -/
theorem done_eq (s : State) (d : Dev) : done s d = .next { s with toDev := d } := rfl

@[simp] theorem State.toDev_mk (d : Dev) (q : List Sys2Proof.Instr) : (State.mk d q).toDev = d := rfl
@[simp] theorem State.pending_mk (d : Dev) (q : List Sys2Proof.Instr) : (State.mk d q).pending = q := rfl

end Sys2Proof.Machine
end

