-- ==== Sys2Proof/Laws/Slots.lean ====
section
/-! SUPPORT. Laws of the slots: what one slot instruction by itself does, once, for every instruction whose effect is a register
write, a store and what it begins elsewhere. -/

namespace Sys2Proof.Machine

/-- The shelf when a bundle neither pushes nor pops. -/
theorem shelfRepeat_idle (s : Shelf) (again : Bool) : shelfRepeat s again [] false = .go s none := rfl

/-- Only slot s writes, so slot s reads the store itself. -/
theorem viewMem_self (m : Mem) (free s : Nat) (ws : List StoreW) : viewMem m free s [(s, ws)] = m := by
  simp [viewMem]

theorem applyStores_one (m : Mem) (free s : Nat) (ws : List StoreW) : applyStores m free [(s, ws)] = ws.foldl Mem.put m := by
  cases ws <;> simp [applyStores]

/-- The bundle that a slot command stands for. -/
def soloBundle (slot : Nat) (tag : BitVec 16) (op : SlotOp) : Bundle :=
  { mask := BitVec.ofNat 8 (2 ^ slot), slots := [(slot, op)], count := 1, tag := tag, rep := 0, words := 1, fetched := false }

/-- Slots that neither push, pop nor act at a sideboard. -/
def SlotOp.plain (op : SlotOp) : Bool :=
  match op with
  | .mpush .. | .vpop .. | .atom .. => false
  | _ => true

/-- The bench at repeat 0. -/
def Dev.atRepeat0 (d : Dev) (k : Nat) : Dev := d.modBench k (fun b => { b with repIdx := 0 })

/-- The device after a plain slot has stored `st`, changed the registers by `f` and begun `late`. -/
def slotEffect (d : Dev) (k : Nat) (op : SlotOp) (slot : Nat) (tag : BitVec 16) (st : List StoreW) (f : Arch → Arch)
    (late : Dev → Dev) : Dev :=
  late (((d.atRepeat0 k).modBench k (fun b =>
    { b with
      store := st.foldl Mem.put b.store
      arch := if b.csv == 2#4 then f b.arch else (f b.arch).stepAll (soloBundle slot tag op).stepped })).fresh)

theorem touchAtoms_plain (d : Dev) (k slot : Nat) (tag : BitVec 16) (op : SlotOp) (h : op.plain = true) :
    d.touchAtoms k (soloBundle slot tag op) = d := by
  cases op <;> simp_all [Dev.touchAtoms, soloBundle, SlotOp.plain]

/-- One repeat of a plain slot (R81, R86). -/
theorem repeatOnce_plain {d : Dev} {k slot : Nat} {tag : BitVec 16} {op : SlotOp} {st : List StoreW} {f : Arch → Arch}
    {late : Dev → Dev} (hp : op.plain = true) (hw : (d.bench k).wait = none)
    (he : ∀ i, evalSlot (d.atRepeat0 k) k (soloBundle slot tag op) i (d.bench k).store none op = .ok st f late) :
    repeatOnce (d.atRepeat0 k) k (soloBundle slot tag op) 0 =
      (let e := slotEffect d k op slot tag st f late
       if (e.bench k).st == .running && !(e.bench k).awaitDiscard then .go e
       else .stop (e.modBench k (fun b => { b with repIdx := 0 }))) := by
  have hs : (d.atRepeat0 k).bench k = { d.bench k with repIdx := 0 } := by simp [Dev.atRepeat0]
  have ht : (soloBundle slot tag op).tiles (d.bench k).arch = [] := by
    cases op <;> simp_all [Bundle.tiles, soloBundle, SlotOp.plain]
  have hv : ([(slot, op)].any (fun s : Nat × SlotOp => s.2.isVpop)) = false := by
    cases op <;> simp_all [SlotOp.plain, SlotOp.isVpop]
  have hsl : (soloBundle slot tag op).slots = [(slot, op)] := rfl
  have hc : ((0 : Nat) + 1 == (soloBundle slot tag op).count) = true := rfl
  unfold repeatOnce
  simp only [touchAtoms_plain _ _ _ _ _ hp, hs, ht, hv, shelfRepeat_idle, hsl, List.map_cons, List.map_nil, he, Res.stores,
    viewMem_self, firstFault, firstWait, Dev.waitEnds, hw, List.foldl_cons, List.foldl_nil, applyStores_one, hc, Bool.and_true,
    slotEffect, Dev.modBench]

/-- A ready bench decodes the slot and runs it (R79). -/
theorem slotCommand_ready {d : Dev} {k slot : Nat} {tag : BitVec 16} {op : SlotOp} (h : SlotReady d k)
    (hr : op.reasons (d.bench k).csv = []) :
    slotCommand d k slot tag op = execBundle (d.atRepeat0 k) k (soloBundle slot tag op) := by
  obtain ⟨hi, hw, hb⟩ := h
  simp [slotCommand, hi, hw, hr, startBundle, soloBundle, Dev.atRepeat0]

/-- A plain slot that stores and writes registers retires (R86). -/
theorem slotCommand_retires {d : Dev} {k slot : Nat} {tag : BitVec 16} {op : SlotOp} {st : List StoreW} {f : Arch → Arch}
    (h : SlotReady d k) (hr : op.reasons (d.bench k).csv = []) (hp : op.plain = true) (hs : op ≠ .stepend)
    (he : ∀ i, evalSlot (d.atRepeat0 k) k (soloBundle slot tag op) i (d.bench k).store none op = .ok st f id) :
    slotCommand d k slot tag op =
      (slotEffect d k op slot tag st f id).retire k (soloBundle slot tag op) ((soloBundle slot tag op).nextPc (d.bench k).arch) := by
  have hst : (d.bench k).st = .running ∧ (d.bench k).awaitDiscard = false := by
    have := h.1
    simp only [Dev.issues, Bool.and_eq_true, beq_iff_eq, Bool.not_eq_true'] at this
    exact ⟨this.1.1.1, this.1.2⟩
  have hk : (d.atRepeat0 k).bench k = { d.bench k with repIdx := 0 } := by simp [Dev.atRepeat0]
  have hee : ((slotEffect d k op slot tag st f id).bench k).st = .running ∧
      ((slotEffect d k op slot tag st f id).bench k).awaitDiscard = false := by
    simp [slotEffect, hk, hst]
  have hg : (soloBundle slot tag op).has .stepend = false := by
    simp [Bundle.has, soloBundle, hs]
  have hcount : (soloBundle slot tag op).count = 1 := rfl
  rw [slotCommand_ready h hr]
  unfold execBundle
  simp only [hk, hcount, Nat.sub_zero, repeats, repeatOnce_plain hp h.2.1 he, hee, hg]
  simp

/-- Noting a halt reads neither the benches nor the count of free values, and changes neither (R63). -/
theorem noteHalt_beside (d : Dev) (bs : Tab Bench) (n : Nat) :
    { d.noteHalt with benches := bs, free := n } = ({ d with benches := bs, free := n } : Dev).noteHalt := by
  by_cases hs : (d.plan.st == .unloading) = true
  · cases hr : d.seq.run with
    | none => simp [Dev.noteHalt, Dev.abandonBare, hs, hr]
    | some r =>
      by_cases ha : r.abandon.isSome = true
      · simp [Dev.noteHalt, Dev.abandonBare, hs, hr, ha]
      · by_cases hl : (d.seq.sec.leader == d.number.toNat) = true <;>
          simp [Dev.noteHalt, Dev.abandonBare, hs, hr, ha, Dev.leader, hl, Dev.tell]
  · simp [Dev.noteHalt, hs]

@[simp] theorem noteHalt_benches (d : Dev) : d.noteHalt.benches = d.benches :=
  (congrArg Dev.benches (noteHalt_beside d d.benches d.free)).symm

@[simp] theorem bench_noteHalt (d : Dev) (j : Nat) : d.noteHalt.bench j = d.bench j := by simp [Dev.bench]

/-- Whether a halt is noted or not, the benches are those of before. -/
theorem ite_bench (c : Prop) [Decidable c] (d : Dev) (j : Nat) : (if c then d.noteHalt else d).bench j = d.bench j := by
  split <;> simp

@[simp] theorem bench_retire (d : Dev) (k : Nat) (bd : Bundle) (pc j : Nat) : (d.retire k bd pc).bench j = (d.retireBench k bd pc).bench j := by
  simp only [Dev.retire]; split <;> simp

/-- What retiring leaves of the bench. -/
theorem retire_bench (d : Dev) (k : Nat) (bd : Bundle) (pc : Nat) :
    ((d.retire k bd pc).bench k).arch = { (d.bench k).arch with pc := pc } ∧
      ((d.retire k bd pc).bench k).besideArch = (d.bench k).besideArch := by
  simp only [bench_retire, Dev.retireBench, Dev.bench_modBench_self, Dev.trace, Bench.capture]
  split <;> simp [Bench.besideArch]

theorem retire_others (d : Dev) (bd : Bundle) (pc : Nat) {k j : Nat} (h : j ≠ k) : (d.retire k bd pc).bench j = d.bench j := by
  simp only [bench_retire, Dev.retireBench]
  rw [Dev.bench_modBench_ne _ _ h, Dev.bench_trace_ne _ _ _ _ _ h, Dev.bench_modBench_ne _ _ h]

/-- Retiring touches nothing but the bench, and the step in flight where it halts that (R63). -/
theorem retire_rest (d : Dev) (k : Nat) (bd : Bundle) (pc n : Nat) :
    { d.retire k bd pc with benches := [], free := n } =
      { (if ((d.retire k bd pc).bench k).st = .halted then d.noteHalt else d) with benches := [], free := n } := by
  rw [bench_retire]
  unfold Dev.retire
  by_cases h : ((d.retireBench k bd pc).bench k).st = .halted
  · simp only [h, beq_self_eq_true, if_true]
    rw [noteHalt_beside, noteHalt_beside]; rfl
  · simp only [h, if_false, beq_iff_eq]; rfl

/-- What a plain slot leaves that stores `st` and changes the registers by `f`. -/
theorem slot_outcome {s : State} {k slot : Nat} {tag : BitVec 16} {op : SlotOp} {st : List StoreW} {f : Arch → Arch}
    (h : SlotReady s.toDev k) (hr : op.reasons (s.bench k).csv = []) (hp : op.plain = true) (hs : op ≠ .stepend)
    (he : ∀ i, evalSlot (s.atRepeat0 k) k (soloBundle slot tag op) i (s.bench k).store none op = .ok st f id) :
    ∃ t, done s (slotCommand s.toDev k slot tag op) = .next t ∧
      ArchStore s t k
        { (if (s.bench k).csv == 2#4 then f (s.bench k).arch else (f (s.bench k).arch).stepAll (soloBundle slot tag op).stepped) with
          pc := (soloBundle slot tag op).nextPc (s.bench k).arch }
        (st.foldl Mem.put (s.bench k).store) := by
  rw [slotCommand_retires h hr hp hs he]
  refine ⟨_, rfl, ⟨?_, fun j hj => ?_⟩, ?_, ?_⟩
  · have h := retire_rest (slotEffect s.toDev k op slot tag st f id) k (soloBundle slot tag op)
      ((soloBundle slot tag op).nextPc (s.bench k).arch) 0
    refine congrArg (fun d : Dev => ({ toDev := d, pending := s.pending } : State)) (h.trans ?_)
    split
    · rw [noteHalt_beside, noteHalt_beside]; rfl
    · rfl
  · show ((slotEffect s.toDev k op slot tag st f id).retire k _ _).bench j = _
    rw [retire_others _ _ _ hj]
    simp only [slotEffect, Dev.atRepeat0, id]
    rw [Dev.bench_fresh, Dev.bench_modBench_ne _ _ hj, Dev.bench_modBench_ne _ _ hj]
    exact (ite_bench _ s.toDev j).symm
  · refine (retire_bench _ _ _ _).1.trans ?_
    simp [slotEffect, Dev.atRepeat0]
  · refine (retire_bench _ _ _ _).2.trans ?_
    simp [slotEffect, Dev.atRepeat0, Bench.besideArch]

/-- The same for a slot that writes registers only and names no address register. -/
theorem slot_registers {s : State} {k slot : Nat} {tag : BitVec 16} {op : SlotOp} {f : Arch → Arch}
    (h : SlotReady s.toDev k) (hr : op.reasons (s.bench k).csv = []) (hp : op.plain = true) (hs : op ≠ .stepend) (ha : op.aops = [])
    (he : ∀ i, evalSlot (s.atRepeat0 k) k (soloBundle slot tag op) i (s.bench k).store none op = .regs f) :
    ∃ t, done s (slotCommand s.toDev k slot tag op) = .next t ∧
      ArchOnly s t k { f (s.bench k).arch with pc := (soloBundle slot tag op).nextPc (s.bench k).arch } := by
  have hz : (soloBundle slot tag op).stepped = [] := by simp [Bundle.stepped, soloBundle, ha]
  obtain ⟨t, ht, h1, h2, h3⟩ := slot_outcome h hr hp hs he
  refine ⟨t, ht, h1, ?_, h3⟩
  simpa [hz, Arch.stepAll] using h2

end Sys2Proof.Machine
end

