-- ==== Sys2Proof/Laws/Stores.lean ====
section
/-! SUPPORT. Laws of what changes a store besides its writes, of the order of host accesses, and of errors of SRAM. -/

namespace Sys2Proof.Machine

/-! ## Canonical form -/

theorem risingFrom_filter {l : List Host.Cell} {lo : Nat} (p : Host.Cell → Bool) (h : risingFrom lo l = true) :
    risingFrom lo (l.filter p) = true := by
  induction l generalizing lo with
  | nil => rfl
  | cons c t ih =>
    obtain ⟨a, v⟩ := c
    simp only [risingFrom, Bool.and_eq_true, decide_eq_true_eq] at h
    simp only [List.filter_cons]
    split
    · simp only [risingFrom, Bool.and_eq_true, decide_eq_true_eq]; exact ⟨h.1, ih h.2⟩
    · exact risingFrom_mono (ih h.2) (by omega)

/-- The end of a fill keeps the canonical form. -/
theorem Mem.wf_settle {m : Mem} (free : Nat) (h : m.wf = true) : (m.settle free).wf = true := by
  simp only [Mem.wf, Mem.settle, Bool.and_eq_true, Bool.or_eq_true, List.all_eq_true] at h ⊢
  exact ⟨risingFrom_filter _ h.1, h.2.imp_right fun hc c hm => hc c (List.mem_of_mem_filter hm)⟩

/-- So does a word left as it was read. -/
theorem Mem.wf_settleWord {m : Mem} (w : Nat) (r : WordRead) (h : m.wf = true) : (m.settleWord w r).wf = true := by
  unfold Mem.settleWord
  split
  · exact h
  · exact Mem.wf_store _ _ _ h

/-- So does a store of a slot. -/
theorem Mem.wf_put {m : Mem} (w : StoreW) (h : m.wf = true) : (m.put w).wf = true := Mem.wf_store _ _ _ h

/-! ## Host accesses in order (R337) -/

/-- An access that need not wait takes its turn at once. -/
theorem Dev.serve_one {d : Dev} {a : HostAcc} (h : (d.hostPrep a).hostBlocked a = false) :
    Dev.serve [a] d = (d.hostPrep a).hostNow a := by
  simp [Dev.serve, h]

/-- So does one that arrives while none waits. -/
theorem Dev.hostArrives_now {d : Dev} {a : HostAcc} (hp : d.bridge.parked = []) (h : (d.hostPrep a).hostBlocked a = false) :
    d.hostArrives a = (d.hostPrep a).hostNow a := by
  simp [Dev.hostArrives, hp, Dev.serve_one h]

/-- A write of the host waits for nothing. -/
theorem Dev.hostArrives_write {d : Dev} {w : HostWindow} {off : Nat} {data : List Byte} {p : Bool} {log2 : Nat} (hp : d.bridge.parked = []) :
    d.hostArrives (.write w off data p log2) = d.writeNow w off data p log2 := by
  rw [Dev.hostArrives_now hp rfl]; rfl

/-- Nothing waits: nothing goes on. -/
theorem Dev.resumeHost_idle {d : Dev} (hp : d.bridge.parked = []) : d.resumeHost = d := by
  simp [Dev.resumeHost, hp]

/-- Where no host access, coding table or plan waits for a held channel, the end of a hold lets nothing go on. -/
theorem Dev.resumeReads_idle {d : Dev} (hc : d.cmp.loadState ≠ 1) (hl : d.plan.held = false) (hp : d.bridge.parked = []) :
    d.resumeReads = d := by
  have h1 : d.resumeCmp = d := if_neg fun h => hc (beq_iff_eq.mp h)
  have h2 : d.resumeLoad = d := by simp [Dev.resumeLoad, hl]
  rw [Dev.resumeReads, h1, h2, Dev.resumeHost_idle hp]

/-! ## What follows a decision that has been carried out (R335, R264) -/

/-- With no record and no report of a follower waiting, the flush does nothing. -/
theorem Dev.flush_idle {d : Dev} (hr : d.seq.records = []) (hc : d.seq.closing = false) : d.flush = d := by
  unfold Dev.flush
  split
  · rfl
  · have h : d.writeRecords d.seq.records = d := by rw [hr, Dev.writeRecords, ← hr]
    rw [h]; simp [Dev.tellActed, hc]

/-- No unload, nothing to end. -/
theorem Dev.endUnload_idle {d : Dev} (h : d.plan.st ≠ .unloading) : d.endUnload = d := by
  simp [Dev.endUnload, h]

/-- No route waits to be restored. -/
theorem Dev.applyRestore_idle {d : Dev} (h : d.suite.restore = false) : d.applyRestore = d := by
  simp [Dev.applyRestore, h]

/-! ## Errors of SRAM (R347–R349) -/

/-- With no lasting error a bundle runs on what its reads delivered. -/
theorem bundleWithErrors_passing {d : Dev} {k : Nat} {errs : List SramErr} (ok : Bool) (hi : d.issues k = true)
    (h : ∀ e ∈ errs, d.sramLasting k e = false) :
    bundleWithErrors d k errs ok = bundleIssue (errs.foldl (fun d e => d.sramError k e) d) k := by
  simp +contextual [bundleWithErrors, hi, h]

/-- A bundle that meets no error. -/
theorem bundleWithErrors_nil (d : Dev) (k : Nat) (ok : Bool) : bundleWithErrors d k [] ok = bundleIssue d k := by
  cases h : d.issues k
  · simp [bundleWithErrors, bundleIssue, h]
  · exact bundleWithErrors_passing ok h (by simp)

/-- Work that meets no lasting error of the drawer's files is done. -/
theorem drawerWork_passing {d work : Dev} {c i n op : Nat} {f : FileErrs} (h : fileLasting f = false) : drawerWork d c i n op f work = work := by
  simp [drawerWork, h]

/-- Work of a drawer that meets a lasting error loses the drawer. -/
theorem drawerWork_lost {d work : Dev} {c i n op : Nat} {f : FileErrs} (h : fileLasting f = true) (hw : d.drawerWorks c i n op = true) :
    drawerWork d c i n op f work = drawerLost d c n f.fails := by
  simp [drawerWork, h, hw]

end Sys2Proof.Machine
end

