-- ==== Sys2Proof/Tests/Slice0.lean ====
section
/-! SUPPORT. Tests: the well-formedness checks refuse an ill-formed command of each kind, single steps on small states with results
taken from the manual, and for each statement with hypotheses a state and operands that meet them. -/

namespace Sys2Proof.Tests

set_option Elab.async false

open Sys2Proof.Machine

/-! ## Ill-formed commands are refused, one for each check -/

def b0 : BenchId := ⟨0, 0⟩
def partnerOk : Partner :=
  { lanes := 0xF, minVersion := 0x12, maxVersion := 0x20, answers := true, cert := List.replicate 256 0, nonce := List.replicate 48 0,
    signature := List.replicate 96 0, number := none, port := 0, cmpVersions := 0, cmpTx := false, cmpRx := false, cmpRecord := [],
    cmpHeld := [], pcieRate := 0, pcieWidth := 0 }

theorem test_wf_transfer_index : (Instr.copyComplete b0 64).wf = false ∧ (Instr.copyComplete b0 63).wf = true := by decide
theorem test_wf_request_index :
    (Instr.attend 0 256 0 ⟨[], []⟩).wf = false ∧ (Instr.append 0 256 ⟨[], []⟩).wf = false ∧ (Instr.gather 0 256 0 ⟨[], []⟩).wf = false ∧
      (Instr.update 0 256 0 ⟨[], []⟩).wf = false ∧ (Instr.drawerCompletion 0 256).wf = false ∧ (Instr.append 0 255 ⟨[], []⟩).wf = true := by decide
theorem test_wf_scrub_word : 
    (Instr.patrolScrub (.stack 0) 0x90000000 ⟨[], []⟩ ⟨[], []⟩).wf = false ∧ (Instr.patrolScrub (.stack 0) 0x8FFFFFFF ⟨[], []⟩ ⟨[], []⟩).wf = true ∧
      (Instr.patrolScrub (.sideboard 0) 0x300000 ⟨[], []⟩ ⟨[], []⟩).wf = false ∧ (Instr.patrolScrub (.sideboard 0) 0x2FFFFF ⟨[], []⟩ ⟨[], []⟩).wf = true := by decide
theorem test_wf_register_alignment :
    (Instr.registerWrite .host 4 true 0).wf = false ∧ (Instr.regRead 2 false).wf = false ∧ (Instr.regWrite 12 true 0).wf = false ∧
      (Instr.registerWrite .host 4 false 0).wf = true := by decide
theorem test_wf_phases : (Instr.regulatorSample (.cabinet 0) [1, 2]).wf = false ∧ (Instr.regulatorSample .alwaysOn [1, 2, 3]).wf = true := by
  decide
theorem test_wf_frame_length : 
    (Instr.frameReceive 0 [] [] 0).wf = false ∧ (Instr.frameReceive 0 (List.replicate 1792 0) [(1792, 1)] 0).wf = false ∧
      (Instr.frameReceive 0 (List.replicate 1792 0) [(1791, 1)] 0).wf = true := by decide +kernel
theorem test_wf_partner :
    (Instr.portTrain 0 { partnerOk with cert := [] }).wf = false ∧ (Instr.failedPortRetry 0 { partnerOk with nonce := [] }).wf = false ∧
      (Instr.authRetry 0 { partnerOk with signature := [] }).wf = false ∧ (Instr.portTrain 0 { partnerOk with port := 36 }).wf = false ∧
      (Instr.portTrain 0 { partnerOk with cmpRecord := [0] }).wf = false ∧ (Instr.portTrain 0 { partnerOk with cmpHeld := [[0]] }).wf = false ∧
      (Instr.portTrain 0 partnerOk).wf = true := by decide +kernel
theorem test_wf_report : (Instr.discoveryReport ⟨0, [], 0, 0, 0⟩).wf = false := by decide
theorem test_wf_routes :
    (Instr.assign 0 [(64, 1, [])] []).wf = false ∧ (Instr.assign 0 [(1, 1, [0, 1, 2, 3, 4])] []).wf = false ∧
      (Instr.assign 0 [(1, 1, [36])] []).wf = false ∧ (Instr.assign 0 [(1, 1, [3, 2])] []).wf = false ∧ (Instr.assign 0 [] [(36, none)]).wf = false ∧
      (Instr.assign 0 [(1, 1, [2, 3])] [(35, none)]).wf = true := by
  decide
theorem test_wf_host_access :
    (Instr.hostRead .w0 0 0).wf = false ∧ (Instr.hostRead .w0 0 4097).wf = false ∧ (Instr.hostWrite .w0 0 [] false).wf = false ∧
      (Instr.hostWrite .w0 0 (List.replicate 513 0) false).wf = false ∧ (Instr.w2Resize (.size 29)).wf = false ∧ (Instr.w2Resize (.size 41)).wf = true := by
  decide +kernel
theorem test_wf_refusal :
    (Instr.hostReadCompletion (.read 0) ⟨8, 0, true⟩ false [1] false).wf = false ∧
      (Instr.hostReadCompletion (.read 0) ⟨8, 0, true⟩ false [1, 2] false).wf = true := by decide

/-! ## Small states -/

/-- A store in which every byte reads 0. -/
def zeros : Mem := { Mem.reset with undef := none }
/-- Bench 0 of cabinet 0 runs under the given command-stream version with the given registers. -/
def withBench (csv : BitVec 4) (r : Arch) : State :=
  { State.reset with benches := [(0, { Bench.reset with st := .running, csv := csv, arch := r, store := zeros, program := zeros })] }

/-- x1 = 5, x2 = 7, x3 marked, x4 = 200, x5 = 64, n1 = 2, vl = 4. -/
def regs : Arch :=
  { Arch.reset with
    x := [(1, ⟨5, false⟩), (2, ⟨7, false⟩), (3, ⟨9, true⟩), (4, ⟨200, false⟩), (5, ⟨64, false⟩)]
    a := [(1, ⟨0x100, 0, 64, 0, false⟩), (2, ⟨0x100, 8, 0xFFFFFFFC, 16, false⟩)]
    v := [(1, ⟨[0x3F800000, 0x40000000, 0x40400000, 0x40800000], 0⟩)]
    vl := 4 }
def run3 : State := withBench 3 regs
def run2 : State := withBench 2 regs

/-- What a command leaves. -/
def after (c : Instr) (s : State) : State :=
  match exec c s with
  | .next t => t
  | _ => s

/-! ## Slots -/

theorem run3_ready : SlotReady run3.toDev (benchKey b0) := ⟨by decide +kernel, rfl, rfl⟩
theorem run2_ready : SlotReady run2.toDev (benchKey b0) := ⟨by decide +kernel, rfl, rfl⟩

theorem witness_scalar : (regs.getX 1).mark = false ∧ (regs.getX 2).mark = false ∧ (run3.bench 0).arch = regs := ⟨rfl, rfl, rfl⟩
theorem witness_address :
    (regs.getA 1).wrap = 0 ∧ (regs.getA 2).wrap ≠ 0 ∧ (regs.getX 1).val.toNat ≤ 16777215 ∧ (run3.bench 0).csv ≠ 2 := by decide +kernel
theorem witness_branches :
    let good (x : Int) : Prop := 0 ≤ x ∧ x ≤ 262140 ∧ x % 4 = 0
    good (regs.pc + 4 * (1 : BitVec 26).toInt) ∧ good (regs.pc + 4 * (1 : BitVec 19).toInt) ∧ good (regs.pc + 4 * (65535 : BitVec 26).toInt) ∧
      ¬ good (regs.pc + 4 * (-1 : BitVec 26).toInt) ∧ ¬ good (regs.pc + 4 * (65536 : BitVec 26).toInt) ∧
      (regs.getX 0).val = 0 ∧ (regs.getX 1).val ≠ 0 ∧ 0 ≤ (regs.getX 1).val.toInt ∧ ¬ (regs.getX 1).val.toInt < 0 ∧
      (regs.getX 4).val.toNat % 4 = 0 := by decide +kernel
theorem witness_length : (regs.getX 1).val.toNat ≤ 128 ∧ 128 < (regs.getX 4).val.toNat ∧ (regs.getX 4).mark = false := by decide +kernel
theorem witness_lanes : 1 ≤ regs.vl ∧ (regs.getV 1).consumed regs.vl = false ∧ (0 : BitVec 4).toNat ≤ 7 := by decide +kernel
theorem witness_memory :
    let x := (regs.aop ⟨true, 1⟩).ea
    (run3.bench 0).store.wf = true ∧ (regs.aop ⟨true, 1⟩).mark = false ∧ x % 2 ^ 3 = 0 ∧ x + 2 ^ 3 ≤ 0x400000 ∧
      x % fmtBytes 1 = 0 ∧ x + fmtBytes 1 * regs.vl ≤ 0x400000 := by decide +kernel
theorem witness_zero_length : SlotReady (withBench 3 { regs with vl := 0 }).toDev (benchKey b0) := ⟨by decide +kernel, rfl, rfl⟩

theorem test_addi_wraps : ((after (.addi b0 0 6 1 0xFFFA) run3).bench 0).arch.getX 6 = ⟨0xFFFFFFFFFFFFFFFF, false⟩ := by decide +kernel
theorem test_movi_extends : ((after (.movi b0 0 6 0x80000000) run3).bench 0).arch.getX 6 = ⟨0xFFFFFFFF80000000, false⟩ := by decide +kernel
theorem test_alu_sub : ((after (.alu b0 0 6 1 2 1) run3).bench 0).arch.getX 6 = ⟨0xFFFFFFFFFFFFFFFE, false⟩ := by decide +kernel
theorem test_alu_marked : ((after (.alu b0 0 6 1 3 0) run3).bench 0).faultCode = fltPoisonConsumed := by decide +kernel
theorem test_brc_taken : ((after (.brc b0 0 1 1 3) run3).bench 0).arch.pc = 12 := by decide +kernel
theorem test_brx_link : ((after (.brx b0 0 4 true) run3).bench 0).arch.getX 31 = ⟨8, false⟩ := by decide +kernel
theorem test_seta_wraps : (((after (.seta b0 0 2 1 4) run3).bench 0).arch.getA 2).off = 8 := by decide +kernel
theorem test_vsetl_too_long : ((after (.vsetl b0 0 true 0 4) run3).bench 0).faultCode = fltAkkOperand := by decide +kernel
theorem test_vfma : (((after (.vfma b0 0 2 1 1) run3).bench 0).arch.getV 2).lane 2 = 0x41100000 := by decide +kernel
theorem test_vred_add : (((after (.vred b0 0 2 1 0 false) run3).bench 0).arch.getV 2).lane 0 = 0x41200000 := by decide +kernel
theorem test_vscan_excl : (((after (.vscan b0 0 2 1 0 true) run3).bench 0).arch.getV 2).lane 2 = 0x40400000 := by decide +kernel
theorem test_stx_ldx :
    ((after (.ldx b0 0 6 ⟨false, 1⟩ 3 false) (after (.stx b0 0 2 ⟨false, 1⟩ 3) run3)).bench 0).arch.getX 6 = ⟨7, false⟩ := by decide +kernel
theorem test_ldx_steps : (((after (.ldx b0 0 6 ⟨true, 1⟩ 0 false) run3).bench 0).arch.getA 1).off = 64 := by decide +kernel
theorem test_wrap_steps : (((after (.ldx b0 0 6 ⟨true, 2⟩ 0 false) run3).bench 0).arch.getA 2).off = 4 := by decide +kernel
theorem test_version2_keeps_last_step : (((after (.ldx b0 0 6 ⟨true, 1⟩ 0 false) run2).bench 0).arch.getA 1).off = 0 := by decide +kernel
theorem test_vst_bytes : ((after (.vst b0 0 1 ⟨false, 1⟩ 1) run3).bench 0).store.read 0x100 4 = [0x38, 0x40, 0x44, 0x48] := by decide +kernel
theorem test_halt : ((after (.halt b0 0) run3).bench 0).st = .halted := by decide +kernel

/-! ## Matrix, shelf, copies, fences, messages -/

/-- Formats 1 in both loaders. -/
def loaded : Arch := { regs with la := { Loader.reset with fmt := 1 }, lb := { Loader.reset with fmt := 1 } }
/-- Bench 0 of a machine, changed by f. -/
def mod0 (s : State) (f : Bench → Bench) : State := { s with toDev := s.modBench 0 f }
/-- A shelf with n empty tiles in the given mode. -/
def shelfOf (n : Nat) (mode : Bool) : State :=
  mod0 run3 (fun b => { b with shelf := { b.shelf with items := List.replicate n ⟨[], []⟩, mode := mode } })
/-- Sideboard 0 is ON and filled, domain included. -/
def withSb : State :=
  { run3 with pwr := { run3.pwr with doms := [(sbDom 0, { Dom.reset with st := 1 })] }, sbs := [(0, { Sideboard.reset with filled := true, mem := zeros })] }
/-- A descriptor (Table 10-2), one row of n elements. -/
def desc (op fmt cmp src dst n p1 w6 list : Nat) : List Byte :=
  leBytes 8 (op * 2 ^ 60 + fmt * 2 ^ 52 + cmp * 2 ^ 39) ++ leBytes 8 src ++ leBytes 8 dst ++ leBytes 8 ((n - 1) * 2 ^ 48) ++
    leBytes 8 0 ++ leBytes 8 (p1 * 2 ^ 32 + p1 / 64) ++ leBytes 8 w6 ++ leBytes 8 list
/-- The descriptor at 0x100 of the bench store. -/
def withDesc (bs : List Byte) : State := mod0 withSb (fun b => { b with store := b.store.write 0x100 bs })
def moveDesc : List Byte := desc 1 1 0 (2 ^ 45 + 0x1000) (2 ^ 45 + 0x2000) 4 0 0 0
def gatherDesc : List Byte := desc 2 1 0 (2 ^ 45 + 0x1000) (2 ^ 45 + 0x2000) 4 0 0 0x800
def scatterDesc : List Byte := desc 3 1 0 (2 ^ 45 + 0x1000) (2 ^ 45 + 0x2000) 4 0 0 0x800
def tallyDesc : List Byte := desc 4 0xC 2 (2 ^ 45 + 0x1000) (2 ^ 44 + 0x2000) 1024 4096 (2 ^ 44) 0
/-- The message of bench 0 to itself, on queue 0. -/
def msg0 : Msg :=
  { dest := 0, target := 0, bcast := false, src := 0, queue := 0, seq := 0, tag := 0, planId := 0, epoch := 0, step := 0, payload := [1, 2],
    marks := [], issue := none }
/-- A word of program memory at 0, one NOP bundle (Tables 3-1, 3-12). -/
def withProgram (bs : List Byte) : State := mod0 run3 (fun b => { b with program := b.program.write 0 bs })

theorem witness_tile_loads :
    let x := (regs.aop ⟨false, 1⟩).ea
    (run3.bench 0).csv ≠ 2 ∧ (1 : BitVec 4) ∈ [1#4, 2#4, 8#4, 9#4, 0xA#4] ∧ x % 64 = 0 ∧ x + tileBytes 1 0 ≤ 0x400000 ∧
      isMx 3 = true ∧ x + 128 ≤ 0x400000 ∧ isMx 1 = false ∧ x + tileBytes 0xB 4 ≤ 0x400000 ∧ (regs.aop ⟨false, 1⟩).mark = false := by
  decide +kernel
theorem witness_mma :
    let r := ((withBench 3 loaded).bench 0).arch
    mmaPair r.la.fmt r.lb.fmt = true ∧ r.la.tileMarks = [] ∧ r.la.scaleMarks = [] ∧ r.lb.tileMarks = [] ∧ r.lb.scaleMarks = [] ∧
      (r.aop ⟨false, 1⟩).ea % 64 = 0 ∧ (r.aop ⟨false, 1⟩).ea + 4096 * fmtBytes 0xC ≤ 0x400000 := by decide +kernel
theorem witness_mma_nan : (fp32 0x7FC00000).isNaN = true ∧ (∃ p ∈ [(fp32 0x7FC00000, fp32 0)].zip [()], p.1.1.isNaN = true) := by
  decide +kernel
theorem witness_shelf :
    ((shelfOf 1 false).bench 0).shelf.items.length < 16 ∧ 16 ≤ ((shelfOf 16 false).bench 0).shelf.items.length ∧
      ((shelfOf 16 true).bench 0).shelf.mode = true ∧ ((shelfOf 0 false).bench 0).shelf.items = [] ∧
      ((shelfOf 1 false).bench 0).shelf.popped = none ∧ ((shelfOf 16 true).bench 0).shelf.bpWait = false := by decide +kernel
theorem witness_shelf_releases :
    let solo (slot : Nat) (op : SlotOp) : Bundle := { mask := BitVec.ofNat 8 (2 ^ slot), slots := [(slot, op)], count := 1, tag := 0, rep := 0, words := 1, fetched := false }
    let s := mod0 (shelfOf 1 true) (fun b => { b with wait := some ⟨5, solo 0 (.mpush 0 false)⟩, shelf := { b.shelf with bpWait := true, rest := some [[]] } })
    let v := mod0 (shelfOf 1 false) (fun b => { b with wait := some ⟨5, solo 2 (.vpop 1)⟩, shelf := { b.shelf with rest := some [] } })
    s.issues 0 = true ∧ (s.bench 0).repIdx = 0 ∧ (s.bench 0).shelf.bpWait = true ∧ (s.bench 0).shelf.items.length < 16 ∧ (s.bench 0).shelf.rest = some [[]] ∧
      v.issues 0 = true ∧ (v.bench 0).shelf.rest = some [] ∧ (v.bench 0).shelf.own = 0 ∧ (v.bench 0).shelf.items ≠ [] ∧ (v.bench 0).shelf.popped = none := by decide +kernel
/-- Bench 0 waits with a bundle of the one slot given. -/
def waits (s : State) (kind slot : Nat) (op : SlotOp) : State :=
  mod0 s (fun b => { b with wait := some ⟨kind, { mask := BitVec.ofNat 8 (2 ^ slot), slots := [(slot, op)], count := 1, tag := 0, rep := 0, words := 1, fetched := false }⟩ })
def recvWait : State := waits (mod0 run3 (fun b => { b with inbox := [msg0] })) 1 6 (.recv 0 ⟨false, 1⟩ 6 7)
def cwaitWait : State := waits run3 2 4 (.cwait 0 0)
def stependWait : State := waits run3 3 7 .stepend
/-- A fence of the scope given that every place has acknowledged. -/
def fenceWait (sc : FenceScope) : State := mod0 (waits run3 6 4 (.fence sc)) (fun b => { b with fence := some ⟨sc, [], false, []⟩ })
theorem witness_wait_releases :
    recvWait.issues 0 = true ∧ (recvWait.bench 0).repIdx = 0 ∧ (recvWait.bench 0).oldest 0 = some msg0 ∧ (recvWait.bench 0).store.wf = true ∧
      (regs.aop ⟨false, 1⟩).ea + msg0.payload.length ≤ 0x400000 ∧ cwaitWait.issues 0 = true ∧ (cwaitWait.bench 0).ct 0 ≤ (0 : BitVec 7).toNat ∧
      stependWait.issues 0 = true ∧ stependWait.released 0 = true := by decide +kernel
theorem witness_fence_ends :
    [FenceScope.bench, .device, .suite].all (fun sc => (fenceWait sc).issues 0 && (fenceWait sc).released 0 && ((fenceWait sc).bench 0).repIdx == 0) = true ∧
      ((fenceWait .suite).bench 0).fence = some ⟨.suite, [], false, []⟩ := by decide +kernel
/-- An error that a read and its retry show alike: one wrong bit, or two of one 64-bit word. -/
def oneBit : WordErr := ⟨[⟨0, 1⟩], [⟨0, 1⟩]⟩
def twoBits : WordErr := ⟨[⟨0, 3⟩], [⟨0, 3⟩]⟩
/-- It shows on the first read only. -/
def fleeting : WordErr := ⟨[⟨0, 3⟩], []⟩
theorem witness_sram_errors :
    run3.sramLasting 0 ⟨.store 5, oneBit⟩ = true ∧ run3.sramLasting 0 ⟨.store 5, twoBits⟩ = true ∧ run3.sramLasting 0 ⟨.store 5, fleeting⟩ = false ∧
      (retryRead (sramRead ((run3.bench 0).store.read 160 32) false) twoBits.first twoBits.again).lost = true ∧
      fileLasting ⟨[fleeting], []⟩ = false ∧ fileLasting ⟨[fleeting, oneBit], []⟩ = true := by decide +kernel

/-- The hypotheses of a copy command on the descriptor at 0x100. -/
def copyReady (s : State) (op : Nat) : Bool :=
  let a : AOp := ⟨true, 1⟩
  let m := (s.bench 0).store
  let x := ((s.bench 0).arch.aop a).ea
  let ds := descOf (m.read x 64)
  ds.op == op && (s.bench 0).st == .running && x % 64 == 0 && decide (x + 64 ≤ 0x400000) && (m.firstMark x 64).isNone &&
    (ds.firstFault s.cmp).isNone
theorem witness_move : copyReady (withDesc moveDesc) 1 = true := by decide +kernel
theorem witness_copy_gather : copyReady (withDesc gatherDesc) 2 = true := by decide +kernel
theorem witness_scatter : copyReady (withDesc scatterDesc) 3 = true := by decide +kernel
theorem witness_tally : copyReady (withDesc tallyDesc) 4 = true := by decide +kernel
def oneTransfer : State := mod0 run3 (fun b => { b with transfers := [⟨0, ⟨0, 0, 1, false, 0⟩, 0, false, [], none, []⟩] })
theorem witness_counters :
    (oneTransfer.bench 0).transfers[0]? ≠ none ∧ (oneTransfer.bench 0).ct 0 ≤ (1 : BitVec 7).toNat ∧
      (0 : BitVec 7).toNat < (oneTransfer.bench 0).ct 0 := by decide +kernel
/-- A transfer of bench 0 has written to channel 0 of stack 0, which is held, and its write waits there. -/
theorem witness_writes_wait :
    let x : Transfer := ⟨0, ⟨0, 0, 1, false, 0⟩, 0, false, [], none, [(0, 0)]⟩
    let s : State := { run3 with stks := [(0, { Stack.reset with holds := [⟨0, false, true⟩], held := [⟨0, [1], false, (Who.bench 0).owner⟩] })] }
    s.writesWait 0 x = true ∧ oneTransfer.writesWait 0 x = false := by decide +kernel
theorem witness_fences :
    run3.released 0 = true ∧ (run3.bench 0).fence = none ∧ oneTransfer.released 0 = false ∧ SlotReady oneTransfer.toDev (benchKey b0) :=
  ⟨by decide +kernel, rfl, by decide +kernel, by decide +kernel, rfl, rfl⟩
theorem witness_markers :
    let f : FenceRun := ⟨.suite, [.sideboard 0, .stack 0], true, []⟩
    let s := mod0 run3 (fun b => { b with fence := some f, wait := some ⟨6, soloBundle 1 0 (.fence .suite)⟩ })
    (s.bench 0).fence = some f ∧ .sideboard 0 ∈ f.places ∧ .stack 0 ∈ f.places ∧ (s.stk 0).hold = false ∧ f.suite = true ∧
      f.scope = .suite ∧ (s.bench 0).wait.isSome = true := by decide +kernel
/-- A read of Window 2 waits for channel 0 of stack 0, which is held. -/
theorem witness_parked_marker :
    let s : State := { run3 with
      stks := [(0, { Stack.reset with holds := [⟨0, false, true⟩], held := [⟨0, [1], false, Who.host.owner⟩] })], cabs := [(0, { Cabinet.reset with st := 1 })]
      pwr := { run3.pwr with doms := [(stkDom 0, { Dom.reset with st := 1 })] } }
    ((s.hostPrep (.regRead 0)).hostBlocked (.regRead 0)) = true ∧ s.suite.head = false ∧
      (let u : State := { s with suite := { s.suite with numbered := true } }
       ({ u with toDev := u.setPort 8 { Port.reset with st := 4, version := 0x20 } } : State).classH ⟨8, 0, true⟩ 1 false true).isOk = true := by
  decide +kernel
theorem witness_marked : (regs.getX 3).mark = true := rfl
theorem witness_atomics :
    let r : Arch := { regs with a := [(1, ⟨0x100000000040, 0, 8, 0, false⟩)] }
    let s := mod0 withSb (fun b => { b with arch := r })
    let x := (r.aop ⟨true, 1⟩).ea
    SlotReady s.toDev (benchKey b0) ∧ bits 47 44 x = 1 ∧ x % atomSize 10 = 0 ∧ s.sbRefusal (bits 43 0 x) (atomSize 10) = none ∧
      (s.sb 0).filled = true ∧ (s.sb (sbCab x)).mem.anyMark (sbOff x) (atomSize 10) = false ∧ (s.sb 0).upsets = [] ∧
      (s.sb 0).mem.wf = true ∧ (r.aop ⟨true, 1⟩).mark = false := ⟨⟨by decide +kernel, rfl, rfl⟩, by decide +kernel⟩
theorem witness_send :
    let r := regs
    let dest : BitVec 18 := (r.getX 0).val.setWidth 18
    1 ≤ (r.getX 1).val.toNat ∧ (r.getX 1).val.toNat ≤ 16384 ∧ (r.getX 0).val.toNat < 2 ^ 18 ∧ (r.aop ⟨false, 1⟩).ea + 5 ≤ 0x400000 ∧
      epValid dest = true ∧ epDev dest = run3.number.toNat ∧ run3.inRoute 0 dest = true ∧ run3.outboxBytes 0 + 64 + (5 + 63) / 64 * 64 ≤ 65536 := by decide +kernel
theorem witness_recv :
    let s := mod0 run3 (fun b => { b with inbox := [msg0] })
    (s.bench 0).oldest 0 = some msg0 ∧ (run3.bench 0).oldest 0 = none ∧ (s.bench 0).store.wf = true := by decide +kernel
theorem witness_bundles :
    let p := ((withProgram [0, 0, 0, 0x80, 0, 0, 0, 4]).bench 0).program
    let q := ((withProgram [0, 0, 0, 0]).bench 0).program
    (p.readNat 0 4 / 2 ^ 24 = 0x80 ∧ p.readNat 0 4 % 256 = 0 ∧ p.readNat (0 + 4) 4 = 0x04000000) ∧
      (q.readNat 0 4 / 2 ^ 24 = 0 ∧ q.readNat 0 4 % 16 = 0) ∧ 262144 ≤ ({ regs with pc := 262144 } : Arch).pc := by decide +kernel

theorem test_mpush_full_ignored : ((after (.mpush b0 0 0 false) (shelfOf 16 false)).bench 0).shelf.overruns = 1 := by decide +kernel
theorem test_vpop_empty_waits : ((after (.vpop b0 0 1) run3).bench 0).waitKind = 5 := by decide +kernel
theorem test_mma_bad_format : ((after (.mma b0 0 0 true) run3).bench 0).faultCode ≠ 0 := by decide +kernel
theorem test_move :
    let s := mod0 (withDesc moveDesc) (fun b => { b with store := b.store.write 0x1000 [1, 2, 3, 4, 5] })
    ((after (.move b0 0 ⟨false, 1⟩ 3) s).bench 0).store.read 0x2000 5 = [1, 2, 3, 4, 0] ∧
      ((after (.move b0 0 ⟨false, 1⟩ 3) s).bench 0).ct 3 = 1 := by decide +kernel
theorem test_cwait_waits : ((after (.cwait b0 0 0 0) oneTransfer).bench 0).waitKind = 2 := by decide +kernel
theorem test_atom_add :
    let s := mod0 withSb (fun b => { b with arch := { regs with a := [(1, ⟨0x100000000040, 0, 8, 0, false⟩)] } })
    ((after (.atom b0 0 0 ⟨false, 1⟩ 6 1 0) s).sb 0).mem.read 0x40 4 = [5, 0, 0, 0] := by decide +kernel
theorem test_send_flight : (after (.send b0 0 0 ⟨false, 1⟩ 0 1) run3).net.length = 1 := by decide +kernel
theorem test_recv_reads :
    ((after (.recv b0 0 0 ⟨false, 1⟩ 6 7) (mod0 run3 (fun b => { b with inbox := [msg0] }))).bench 0).store.read 0x100 2 = [1, 2] := by
  decide +kernel
theorem test_bundle_nop : ((after (.bundleIssue b0 [] true) (withProgram [0, 0, 0, 0x80, 0, 0, 0, 4])).bench 0).arch.pc = 8 := by decide +kernel
theorem test_recv_release : ((after (.bundleIssue b0 [] true) recvWait).bench 0).store.read 0x100 2 = [1, 2] ∧ ((after (.bundleIssue b0 [] true) recvWait).bench 0).wait = none := by
  decide +kernel
theorem test_fence_release :
    ((after (.bundleIssue b0 [] true) (fenceWait .device)).bench 0).fenceDevice = 1 ∧ ((after (.bundleIssue b0 [] true) (fenceWait .device)).bench 0).fence = none := by
  decide +kernel
theorem test_bundle_corrected_error :
    (after (.bundleIssue b0 [⟨.store 5, fleeting⟩] true) (withProgram [0, 0, 0, 0x80, 0, 0, 0, 4])).flog.offered = [] := by decide +kernel
theorem test_bundle_lasting_error :
    let t := after (.bundleIssue b0 [⟨.store 5, twoBits⟩] true) (withProgram [0, 0, 0, 0x80, 0, 0, 0, 4])
    t.discards.map (fun x => x.code) = [fltBenchLost] ∧ (t.cab 0).steer 0 = 0 := by decide +kernel
theorem test_bundle_no_slot : ((after (.bundleIssue b0 [] true) (withProgram [0, 0, 0, 0])).bench 0).faultCode = fltAkkEncoding := by decide +kernel
theorem test_stepend_holds : ((after (.stepend b0 0) run3).bench 0).atStepEnd = true := by decide +kernel

/-! ## Registers, stores and drawers -/

def on : Dom := { Dom.reset with st := 1 }
/-- Cabinet 0 is active, its domains, cabinet 1's sideboard and ED0 are ON, firmware runs, the host link is up. -/
def live : State :=
  { State.reset with
    benches := [(0, { Bench.reset with st := .running, csv := 3, arch := regs, store := zeros, program := zeros })]
    cabs := [(0, { Cabinet.reset with st := 1 })]
    stks := [(0, { Stack.reset with filled := true, mem := zeros, ilv := [(0, 0xB4800000)] })]
    sbs := [(0, { Sideboard.reset with filled := true, mem := zeros })]
    pwr := { Power.reset with doms := [(0, on), (104, on), (105, on), (106, on), (107, on), (164, on), (165, on), (166, on), (167, on), (360, on)] }
    boot := { Boot.reset with stage := 8 }
    suite := { Suite.reset with head := true, numbered := true }
    bridge := { Bridge.reset with linkUp := true }
    seq := { Seq.reset with cmdBase := 0x10006, resultBase := 0x10000E } }
/-- A path reaches a register of the live device. -/
def served (r : Reg) : Bool :=
  live.reached .host && live.reached .sideband && live.regServed r && decide (live.regArrive .host r = live.toDev) &&
    decide (live.regArrive .sideband r = live.toDev)

theorem witness_registers_reached :
    ([.benchCtl 0, .matCtl 0, .copyCtl 0, .shelfCtl 0, .inboxQ 0 0, .traceCtl 0, .benchFault 0, .ilv 0 0, .classCtl 0, .scrubCtl 0, .aow 0 0,
      .drwMode 0, .drwFallback 0, .drwMirror 0, .drwCtl 0, .rowSteer 0, .hmbBase, .flogBase, .cmdBase, .resultBase, .hmbHead, .flogHead, .hmbCtl,
      .flogCtl, .seqCtl, .cmpCtl, .planBase, .planCtl, .fillCtl, .wdCtl, .portCtl 4, .suiteCtl, .fwCtl, .repairCtl, .domCtl 0, .snsStatus 0, .pwrCap] :
      List Reg).all served = true := by decide +kernel

theorem witness_bench_control :
    (live.bench 0).st = .running ∧ (live.bench 0).wait = none ∧ (live.bench 0).atStepEnd = false ∧ (live.bench 0).awaitDiscard = false ∧
      ((mod0 live (fun b => { b with atStepEnd := true })).bench 0).atStepEnd = true ∧
      ((mod0 live (fun b => { b with st := .halted })).bench 0).st = .halted ∧ ((mod0 live (fun b => { b with st := .faulted })).bench 0).st = .faulted := by
  decide +kernel
theorem witness_bench_registers :
    live.inStep = false ∧ (live.bench 0).shelf.bpWait = false ∧ true ≠ (live.bench 0).shelf.mode ∧
      (((List.range 8).filter (· != 0)).map (fun i => ((live.bench 0).queue i).cap.toNat)).sum + (128 : BitVec 32).toNat % 256 ≤ 128 := by
  decide +kernel
theorem witness_stack_registers :
    live.planIdle = true ∧
    (let v : BitVec 32 := 0xA4800000
     bits 17 8 v.toNat < bits 27 18 v.toNat ∧ bits 27 18 v.toNat ≤ 288 ∧ bits 30 28 v.toNat ≤ 4 ∧
      ∀ j, j < 8 → j ≠ 0 → (ilvRange ((live.stk 0).ilvOf j)).2 ≤ bits 17 8 v.toNat ∨ bits 27 18 v.toNat ≤ (ilvRange ((live.stk 0).ilvOf j)).1) ∧
    (let v : BitVec 32 := 0x00103E02
     16 ≤ bits 23 16 v.toNat ∧ bits 15 8 v.toNat ≤ 62 ∧ 2 ≤ bits 7 0 v.toNat ∧ bits 15 8 v.toNat + bits 7 0 v.toNat ≤ 64) ∧
    (1 : BitVec 32).toNat % 2 ^ 12 ≠ 0 ∧
    (let v : BitVec 64 := 0x40
     v.getLsbD 63 = false ∧ bits 26 0 v.toNat % 64 = 0 ∧ bits 53 27 v.toNat % 64 = 0 ∧ bits 61 60 v.toNat ≤ 1) := by decide +kernel
theorem witness_drawer_registers :
    (2 : BitVec 32).toNat % 4 ≠ 3 ∧ bits 23 16 (0x805F0000 : BitVec 32).toNat ≤ 95 ∧
      ((0x8000000B : BitVec 32).toNat % 16 < 12 ∧ (0x8000000B : BitVec 32).toNat % 16 ≠ 0) ∧
      ((({ live with cabs := [(0, { Cabinet.reset with st := 2 })] } : State).cab 0).st = 2) ∧
      ({ live with cabs := [(0, { Cabinet.reset with st := 2 })] } : State).regServed (.rowSteer 0) = true := by decide +kernel
theorem witness_ring_registers :
    live.hmb.ctl.getLsbD 0 = false ∧ live.flog.ctl.getLsbD 0 = false ∧ 10 ≤ (20 : BitVec 64).toNat % 32 ∧ (20 : BitVec 64).toNat % 32 ≤ 20 ∧
      (16 : BitVec 64).toNat % 32 ≤ 16 ∧ 13 ≤ (13 : BitVec 64).toNat % 32 ∧
      ((3 : BitVec 32) - 0).toNat ≤ (({ live.hmb with tail := 5 } : Mailbox).tail - 0).toNat := by decide +kernel
/-- A 32-byte coding table of format 1 in which each symbol has the length 4 (Table 11-2), at 0x100 of stack 0. -/
def tableBytes : List Byte := [0, 1, 0, 0] ++ List.replicate 8 0x44 ++ (List.range 15).map (BitVec.ofNat 8) ++ List.replicate 5 0
def putStk (s : State) (off : Nat) (bs : List Byte) : State :=
  let st := s.stk 0
  let m := (List.range bs.length).foldl (fun m i => m.write (st.key (off + i)) [bs.getD i 0]) st.mem
  { s with toDev := s.setStk 0 { st with mem := m } }
def withTable : State := { putStk live 0x100 tableBytes with plan := { Plan.reset with st := .running } }
theorem witness_table_load :
    let d : Dev := { withTable.toDev with cmp := { withTable.cmp with addr := 0x100 } }
    (match d.edRead 0x100 32 with
      | (e, .ok (rec, false)) => rec == tableBytes && decide (e = d)
      | _ => false) = true ∧
    d.readWaits 0x100 32 = false ∧
    (match tableOf tableBytes with
      | some (slot, tab) => !withTable.slotBusy slot && (d.cmp.load slot tab).isSome
      | none => false) = true := by decide +kernel
theorem witness_table_load_unloaded :
    [PlanSt.none, .loaded, .failed].all (fun st =>
      let s : State := { withTable with plan := { withTable.plan with st := st }, cmp := { withTable.cmp with addr := 0x100 } }
      (match s.edRead 0x100 32 with
        | (e, .ok (rec, false)) => rec == tableBytes && decide (e = s.toDev)
        | _ => false) &&
      (match tableOf tableBytes with
        | some (slot, tab) => !s.slotBusy slot && (s.cmp.load slot tab).isSome
        | none => false)) = true := by decide +kernel
def magic : List Byte := [0x47, 0x53, 0x50, 0x4C, 0x41, 0x4E, 0x41, 0x4B]
/-- The device as a load leaves its domains. -/
def synced (s : State) : Dev := ({ s.toDev with plan := { s.plan with st := .loading } } : Dev).syncDomains
theorem witness_plan_load :
    let base := bits 47 12 live.plan.base.toNat * 4096
    live.planIdle = true ∧ live.boot.stage = 8 ∧ (synced live).imageWaits base = false ∧
      (synced { live with plan := { live.plan with base := 0x100000000000 } }).readPlan 0x100000000000 128 = none ∧
      (match (synced live).readPlan base 128 with
        | some (_, h) => h.take 8 != magic
        | none => false) = true := by decide +kernel
theorem witness_plan_domains : (live.cab 0).st ≠ 0 ∧ live.physSt 12 = 2 ∧ (live.dom 12).entering = none ∧ (live.cab 1).st = 0 := by decide +kernel
theorem witness_plan_header :
    let h := magic ++ leBytes 4 2 ++ leBytes 2 1 ++ leBytes 2 1 ++ leBytes 8 160 ++ List.replicate 104 0
    headerOk h = true ∧ (synced (putStk live 0 h)).imageWaits 0 = false ∧
    (match (synced (putStk live 0 h)).readPlan 0 128 with
      | some (d, bs) => bs == h && (({ d with plan := { d.plan with offered := BitVec.ofNat 16 (atN h 8 2) } } : Dev).readPlan 0 (atN h 16 8)).isSome
      | none => false) = true := by decide +kernel
theorem witness_start :
    let s : State := { live with plan := { Plan.reset with st := .loaded } }
    s.leader = true ∧ s.ringSet s.seq.cmdBase (128 * 2 ^ ringLog2 s.seq.cmdBase) = true ∧
      s.ringSet s.seq.resultBase (64 * 2 ^ ringLog2 s.seq.resultBase) = true ∧
      s.seq.resultBound ≤ 64 * 2 ^ ringLog2 s.seq.resultBase := by decide +kernel

theorem test_load_follows :
    let t := after (.load .host) live
    (t.dom 12).st = 2 ∧ (t.dom 0).st = 1 ∧ (t.dom 360).st = 0 ∧ t.plan.st = .failed := by decide +kernel
theorem test_halt_req : ((after (.haltReq .host b0) live).bench 0).st = .halted := by decide +kernel
theorem test_fault_read_clears :
    ((after (.benchFaultRead .host b0) (mod0 live (fun b => { b with faultPending := true }))).bench 0).faultPending = false := by decide +kernel
theorem test_ilv_overlap_refused :
    ((after (.stkIlvWrite .host 0 1 0xA4800000) live).stk 0).ilvOf 1 = ((live.stk 0).ilvOf 1) := by decide +kernel

/-! ## Messages, stacks and drawers -/

def msgTo (dest : BitVec 18) (payload : List Byte) : Msg := { msg0 with dest := dest, target := dest, payload := payload }
/-- Bench 0 with a queue of capacity 1 that checks epochs, and one message in flight to it. -/
def inboxCase (cap : BitVec 8) (epoch : BitVec 16) : State :=
  { mod0 live (fun b => { b with queues := [(0, ⟨epoch, true, cap⟩)] }) with net := [msg0] }
theorem witness_arrival :
    (let s := inboxCase 1 0
     firstAdmitted (s.bench 0) 0 (s.benchEp 0) false s.net (s.waitingAt 0) = ([], some msg0) ∧ s.fenced 0 = false ∧ s.domOn (s.benchDom 0) = true ∧
      (s.bench 0).judge msg0 = .store) ∧
    (let s := inboxCase 1 7
     firstAdmitted (s.bench 0) 0 (s.benchEp 0) false s.net (s.waitingAt 0) = ([], some msg0) ∧ (s.bench 0).judge msg0 = .stale) ∧
    (let s := inboxCase 0 0
     firstAdmitted (s.bench 0) 0 (s.benchEp 0) false s.net (s.waitingAt 0) = ([], some msg0) ∧ (s.bench 0).judge msg0 = .oversize) := by decide +kernel
def withIssue : Msg := { msg0 with dest := 1, target := 1, issue := some ⟨9, 0, 6, false, 0⟩ }
theorem witness_fenced_return :
    let s : State := { live with net := [withIssue] }
    epDev 1 = s.number.toNat ∧ epVal 1 ≠ 0xFF ∧ s.epOpen 1 = false ∧
      s.net.find? (fun x => x.src == s.benchEp 0 && x.dest == 1) = some withIssue := by decide +kernel
def mail : Msg := msgTo (BitVec.ofNat 18 0xFFE) [1, 2, 3]
theorem witness_mailbox :
    let s : State := { live with net := [mail] }
    let u : State := { s with hmb := { s.hmb with ctl := 1, base := 0x1000A } }
    let off : State := { s with pwr := Power.reset }
    let v : State := { s with toDev := s.setDom ed0Dom { on with entering := some 0 } }
    s.domOn ed0Dom = true ∧ (s.dom ed0Dom).entering = none ∧ off.domOn ed0Dom = false ∧ off.net = s.net ∧ v.domOn ed0Dom = true ∧ (v.dom ed0Dom).entering.isSome = true ∧
    s.net.find? (fun m => m.src == 0 && epVal m.target == 0xFE && epDev m.target == s.number.toNat) = some mail ∧
      s.hmb.ctl.getLsbD 0 = false ∧ u.hmb.ctl.getLsbD 0 = true ∧ u.ringOk (ringAddr u.hmb.base) (64 * 2 ^ ringLog2 u.hmb.base) = true := by
  decide +kernel
/-- A sideboard write message of Table 6-7 with REPLACE: 64 bytes at offset 0x1000. -/
def sbMsg (s : State) (bs : List Byte) : Msg := msgTo (s.epOf 0 0xF0) bs
def sbGood : List Byte := leBytes 4 0x1000 ++ [1] ++ List.replicate 59 0 ++ List.replicate 64 7
theorem witness_sideboard_message :
    let m := sbMsg live sbGood
    let s : State := { live with net := [m] }
    s.net.find? (fun m => m.src == 0 && m.target == s.epOf 0 0xF0) = some m ∧ s.fenced 0 = false ∧ s.domOn (sbDom 0) = true ∧
      (sbHeader sbGood).bad sbGood.length = false ∧ s.sbReserved 0 (sbHeader sbGood) sbGood.length = false ∧ (sbHeader sbGood).flags = 1 ∧
      (s.sb 0).upsets = [] ∧ (s.sb 0).mem.wf = true ∧ (sbHeader (List.replicate 10 0)).bad 10 = true := by decide +kernel
theorem witness_stack_maintenance :
    live.stkRuns 0 = true ∧ (live.stk 0).upsets = [] ∧ (live.stk 0).hold = false ∧
      (({ live with toDev := live.setSb 0 { live.sb 0 with dq := [⟨0, [1], [], false⟩] } } : State).sb 0).dq ≠ [] := by decide +kernel
theorem witness_channels :
    let st := live.stk 0
    live.stkRuns 0 = true ∧ st.spareActive = false ∧ st.spareLost = false ∧ st.copying = false ∧
      (let u : Stack := { st with holds := [⟨3, true, true⟩] }
       u.holds.find? (fun h => h.ch.toNat == (3 : Fin 32).val) = some ⟨BitVec.ofNat 5 3, true, true⟩ ∧ (∀ h ∈ u.holds, h.ch.toNat ≠ 4)) ∧
      ({ st with copying := true } : Stack).copying = true ∧ ({ st with copying := true } : Stack).chanHeld 0 = false ∧
      ({ st with copying := true, holds := [⟨0, true, true⟩] } : Stack).chanHeld 0 = true := by decide +kernel
theorem witness_fills :
    live.fillable = true ∧ (0x1 : BitVec 32).getLsbD 0 = true ∧ live.active 0 = true ∧ live.domOn (stkDom 0) = true ∧
      (let s : State := { live with fill := { live.fill with st := 1, stks := [0], sideboards := [0] } }
       0 ∈ s.fill.stks ∧ 0 ∈ s.fill.sideboards ∧ s.active 0 = true ∧ (s.stk 0).hold = false) ∧
      ({ live.stk 0 with holds := [⟨3, true, true⟩] } : Stack).hold = true := by decide +kernel
theorem witness_bench_discard : ((mod0 live (fun b => { b with mustDiscard := true })).bench 0).mustDiscard = true := by decide +kernel
theorem witness_spare_swap :
    live.fenced 0 = false ∧ (live.dom (live.benchDom 0)).st ≠ 0 ∧ (live.cab 0).steer 0 = 0xF ∧
      (let s : State := { live with cabs := [(0, { Cabinet.reset with st := 1, rowSteer := 0xFFFFFFF5 })] }
       (s.cab 0).steer 0 ≠ 0xF ∧ s.fenced 0 = false ∧ (s.dom (s.benchDom 0)).st ≠ 0) := by decide +kernel

/-- A request template (Table 7-2) over 16 dimensions of format 1, one group, one sector column, c0 = 1. -/
def tpl (op : Nat) : List Byte := [BitVec.ofNat 8 op, 1, 16, 0, 1, 1, 0, 0, 1, 0, 0, 0] ++ leBytes 4 0x3F800000 ++ List.replicate 8 0
/-- A request of Table 7-5: template 0, one entry of the list at 0x1000, n tokens. -/
def drwReq (n notify flags : Nat) (operands : List Byte) : List Byte :=
  [0, 0, BitVec.ofNat 8 flags, 0] ++ leBytes 4 0x1000 ++ leBytes 4 1 ++ leBytes 4 0 ++ leBytes 4 notify ++ leBytes 4 77 ++ leBytes 2 n ++
    List.replicate 38 0 ++ operands
def drwMsg (payload : List Byte) : Msg := msgTo (live.epOf 0 0xF1) payload
/-- Cabinet 0's controller with one template, the requests given, and messages in flight. -/
def chest (op : Nat) (reqs : List DrwReq) (net : List Msg) : State :=
  { live with drawers := [(0, { Drawer.reset with templates := [tpl op], reqs := reqs })], net := net }
def held (payload : List Byte) : DrwReq := ⟨drwMsg payload, true, [0], [], [], 0, 0, false, false⟩

theorem chest_ready (op : Nat) (reqs : List DrwReq) (net : List Msg) : DrawerReady (chest op reqs net).toDev 0 := by
  refine ⟨by rfl, ?_⟩
  intro id hid
  simp only [List.mem_cons, List.not_mem_nil, or_false] at hid
  rcases hid with rfl | rfl | rfl <;> exact ⟨rfl, rfl⟩
theorem witness_nothing_forwarded : NothingForwarded (chest 1 [held (drwReq 0 0 0 [])] []).toDev 0 := by
  intro r hr
  simp only [show ((chest 1 [held (drwReq 0 0 0 [])] []).drw 0).reqs = [held (drwReq 0 0 0 [])] from rfl, List.mem_singleton] at hr
  subst hr; rfl
theorem witness_drawer_arrival :
    let m := drwMsg (drwReq 0 0 0 (List.replicate 16 0))
    let s := chest 1 [] [m]
    let w := s.drw 0
    let h := drwHdr m.payload
    let t := w.template h.template
    s.net.find? (fun m => m.src == 0 && m.target == s.epOf 0 0xF1) = some m ∧ s.drwAnswer 0 m = false ∧ w.reqs.length < 256 ∧
      (m.step - w.step).toNat < 32768 ∧ h.template < w.templates.length ∧ h.bad t m.payload.length = false ∧ m.step = w.step ∧ t.op ≠ 2 ∧
      listFault (s.stk (2 * 0)) t h m.step.toNat (readList (s.sb 0) h.list h.count) = none ∧ w.lost = [] ∧
      h.bad t 70 = true ∧ 32768 ≤ ((0 : BitVec 16) - 1).toNat ∧ ((5 : BitVec 16) - 0).toNat < 32768 := by decide +kernel
theorem witness_drawer_list_fault :
    let m := drwMsg (drwReq 0 0 0 (List.replicate 16 0))
    let s : State := { chest 1 [] [m] with sbs := [(0, { Sideboard.reset with filled := true, mem := zeros.write 0x1001 [0x04] })] }
    (listFault (s.stk (2 * 0)) ((s.drw 0).template 0) (drwHdr m.payload) m.step.toNat (readList (s.sb 0) 0x1000 1)).isSome = true := by
  decide +kernel
theorem witness_drawer_answers :
    let a : Msg := drwMsg (leBytes 4 77 ++ leBytes 2 5 ++ List.replicate 10 0)
    let r : DrwReq := { held (drwReq 0 0 0 []) with banks := [], forwarded := [5] }
    let s : State := { chest 1 [r] [a] with drawers := [(0, { Drawer.reset with templates := [tpl 1], reqs := [r], fallback := 0x80000000 })] }
    s.net.find? (fun m => m.src == 0 && m.target == s.epOf 0 0xF1) = some a ∧ (s.drw 0).reqs[0]? = some r ∧ a.payload.length = 16 ∧
      (drwHdr r.msg.payload).token = atN a.payload 0 4 ∧ r.msg.step = a.step ∧ s.drwAnswer 0 a = true ∧ epVal 0 ≠ 0xF1 ∧
      atN a.payload 4 2 ∈ r.forwarded := by decide +kernel
theorem witness_mirror_answer :
    let src := live.epOf 1 0xF1
    let a : Msg := { drwMsg (leBytes 4 77 ++ List.replicate 12 0) with src := src }
    let r : DrwReq := { held (drwReq 0 0 0 []) with banks := [], mirrorWait := true }
    let s := chest 2 [r] [a]
    s.net.find? (fun m => m.src == src && m.target == s.epOf 0 0xF1) = some a ∧ epVal src = 0xF1 ∧ r.mirrorWait = true ∧
      (drwHdr r.msg.payload).token = atN a.payload 0 4 := by decide +kernel
theorem witness_completion :
    let r : DrwReq := { held (drwReq 0 0 1 []) with banks := [] }
    let q : DrwReq := { held (drwReq 0 0 0 []) with banks := [] }
    let dest := BitVec.ofNat 18 (drwHdr r.msg.payload).notify
    r.finished = true ∧ bit 0 (drwHdr r.msg.payload).flags = true ∧ epValid dest = true ∧ epVal dest ≠ 0xFF ∧ epDev dest = live.number.toNat ∧
      live.epOpen dest = true ∧ q.finished = true ∧ bit 0 (drwHdr q.msg.payload).flags = false := by decide +kernel
theorem witness_chest_clean : (live.stk (2 * 0)).Clean 0 := ⟨rfl, rfl, rfl, rfl, by decide, rfl⟩
theorem witness_attend :
    let r := held (drwReq 0 0 0 (List.replicate 16 0))
    let s := chest 1 [r] []
    let w := s.drw 0
    let h := drwHdr r.msg.payload
    let t := w.template h.template
    let es := (readList (s.sb 0) h.list h.count).filter (fun e => e.bank == 0)
    let qs := chunksOf t.g t.dim (elemsFV t.qfmt (t.g * t.dim) (r.msg.payload.drop 64))
    w.reqs[0]? = some r ∧ r.started = true ∧ w.blocked 0 0 = false ∧ 0 ∈ r.banks ∧ r.msg.marks = [] ∧ t.op = 1 ∧
      listFault (s.stk 0) t h r.msg.step.toNat es = none ∧ partsOf es = [0] ∧
      (∀ p ∈ partsOf es, s.sbRefusal (0 * 2 ^ 40 + (h.result + p * (128 + 4 * t.g * t.dim)) % 2 ^ 27)
        (match (attendPart s.toDev 0 t qs (es.filter (fun e => e.part == p))).2 with
          | .ok bytes => bytes
          | .error _ => []).length = none) := by decide +kernel
theorem witness_gather :
    let r := held (drwReq 0 0 0 [])
    let s := chest 3 [r] []
    let t := (s.drw 0).template 0
    t.op = 3 ∧ t.sum = false ∧ listFault (s.stk 0) t (drwHdr r.msg.payload) 0 (readList (s.sb 0) 0x1000 1) = none ∧
      s.sbRefusal 0 (64 * t.ncol) = none := by decide +kernel
theorem witness_update :
    let r := held (drwReq 0 0 0 [])
    let s := chest 4 [r] []
    let t := (s.drw 0).template 0
    t.op = 4 ∧ listFault (s.stk 0) t (drwHdr r.msg.payload) 0 (readList (s.sb 0) 0x1000 1) = none ∧
      (readList (s.sb 0) 0x1000 1).filter (fun e => e.bank == 0) = [⟨0, 0, 0⟩] := by decide +kernel
theorem witness_append :
    let r := held (drwReq 1 0 0 (List.replicate 32 3))
    let s := chest 2 [r] []
    let w := s.drw 0
    let h := drwHdr r.msg.payload
    let t := w.template 0
    let e : WEntry := ⟨0, 0, 0⟩
    readList (s.sb 0) h.list 1 = [e] ∧ r.banks = [0] ∧ e.bank = 0 ∧ t.op = 2 ∧ h.n = 1 ∧ bit 1 h.flags = false ∧ e.staged = 0 ∧
      appendFault s.toDev 0 t h r.msg.step.toNat e none = none ∧ w.isLost e.bank = false ∧ w.mirror.msb = false ∧ epVal r.msg.src ≠ 0xF1 ∧
      r.msg.payload.length = 64 + 2 * t.tok ∧ (s.sb 0).dq = [] ∧ (s.sb 0).mem.wf = true ∧ h.list + 16 ≤ 2 ^ 27 := by decide +kernel
theorem witness_drawer_files :
    (chest 1 [held (drwReq 0 0 0 (List.replicate 16 0))] []).drawerWorks 0 0 0 1 = true ∧ (chest 3 [held (drwReq 0 0 0 [])] []).drawerWorks 0 0 0 3 = true ∧
      (chest 4 [held (drwReq 0 0 0 [])] []).drawerWorks 0 0 0 4 = true ∧ (chest 2 [held (drwReq 1 0 0 (List.replicate 32 3))] []).drawerWorks 0 0 0 2 = true ∧
      (held (drwReq 1 0 0 [])).banks = [0] := by decide +kernel
/-- A request that appends, of the current step. -/
theorem witness_drawer_append :
    let m := drwMsg (drwReq 1 0 0 (List.replicate 32 3))
    let s := chest 2 [] [m]
    let w := s.drw 0
    let h := drwHdr m.payload
    (w.template h.template).op = 2 ∧ h.bad (w.template h.template) m.payload.length = false ∧ m.step = w.step ∧ s.drwAnswer 0 m = false := by decide +kernel
theorem witness_drawer_step :
    let s : State := { live with drawers := [(0, { Drawer.reset with action := some (true, 0), log := [⟨0x1000, 0, none⟩] })] }
    let w := s.drw 0
    w.action = some (true, 0) ∧ s.seq.records = [] ∧ s.seq.fromLeader = [] ∧ s.fenced 0 = false ∧ s.plan.st ≠ .unloading ∧ w.logged none = [0x1000] ∧ (s.sb 0).dq = [] ∧
      (s.sb 0).mem.wf = true := by decide +kernel
theorem witness_drawer_lost :
    live.fenced 0 = false ∧ live.domOn (drwDom 0) = true ∧ (live.drw 0).isLost 3 = false ∧ (live.drw 0).fallback.msb = false ∧
      ({ live.drw 0 with fallback := 0x80000000 } : Drawer).fallback.msb = true ∧ (live.drw 0).lost.length < 8 := by decide +kernel

theorem test_arrival_stale : ((after (.messageArrival 0 b0 false) (inboxCase 1 7)).bench 0).stale = 1 := by decide +kernel
theorem test_append_key :
    let s := after (.append 0 0 ⟨[], []⟩) (chest 2 [held (drwReq 1 0 0 (List.replicate 16 3 ++ List.replicate 16 4))] [])
    (s.stk 0).mem.byte (rowKey 0 0 0) = 4 ∧ (s.drw 0).log = [⟨0x1000, 0, none⟩] := by decide +kernel
theorem test_drawer_file_lost :
    let s := after (.append 0 0 ⟨[oneBit], []⟩) (chest 2 [held (drwReq 1 0 0 (List.replicate 16 3 ++ List.replicate 16 4))] [])
    (s.stk 0).mem.byte (rowKey 0 0 0) = 0 ∧ (s.drw 0).log = [] ∧ (s.cab 0).cause = fltDrwLost := by decide +kernel
theorem test_fill_waits :
    let s : State := { live with fill := { live.fill with st := 1, stks := [0] }, stks := [(0, { live.stk 0 with filled := false, holds := [⟨3, true, true⟩] })] }
    ((after (.fillComplete (.stack 0)) s).stk 0).filled = false := by decide +kernel
theorem test_mailbox_waits :
    (after (.hostMailboxRecord 0) { live with net := [mail], pwr := Power.reset }).net = [mail] := by decide +kernel
theorem test_ceiling_falls : ((after (.activityCeilingAdjust 0 58001) live).drw 0).ceiling = 992 := by decide +kernel
theorem test_drawer_lost_fences : ((after (.drawerLost 0 3 []) live).cab 0).cause = fltDrwLost := by decide +kernel
theorem test_fill_reads_pattern :
    ((after (.fillStart .host 1) { live with fill := { live.fill with pattern := 0x55 } }).stk 0).mem.read 0 2 = [0x55, 0] := by decide +kernel

/-! ## The sequencer -/

def secOne : Section7 :=
  { templates := [⟨1, 0, 0, 0⟩], kinds := [⟨0, 1, 0, 3, 0⟩], leader := 0, devices := 1, slotArea := 0, slotSize := 64, vocab := 100, tileFloor := 0 }
def genReq : Req := { Req.reset with st := .generating, clientId := 5, len := 1, maxNew := 9, readySets := 1 }
/-- A running plan on cabinet 0 with this device as the leader, the requests given, and ring counters as given. -/
def running (reqs : Tab Req) : State :=
  { live with
    plan := { Plan.reset with st := .running, cabSet := 1 }
    seq := { live.seq with sec := secOne, reqs := reqs } }
/-- The command of 128 bytes that begins with the bytes given. -/
def cmd (bs : List Byte) : List Byte := bs ++ List.replicate (128 - bs.length) 0
def ringState (q : Seq → Seq) (reqs : Tab Req) (bs : List Byte) : State :=
  let s := putStk (running reqs) 0x10000 (cmd bs)
  { s with seq := q { s.seq with cmdTail := 1 } }
def readyCmd : List Byte := [2, 0, 0, 0, 0, 0, 0, 0, 4]

theorem witness_cmd_at : CmdAt (ringState id [(0, genReq)] readyCmd) (cmd readyCmd) :=
  ⟨by decide +kernel, rfl, rfl, rfl, by decide +kernel, by decide +kernel, false, by decide +kernel⟩
theorem witness_submit :
    let e := cmd ([1, 0, 3, 0, 0, 0, 0, 0, 7] ++ List.replicate 23 0 ++ leBytes 4 1 ++ leBytes 4 1 ++ List.replicate 16 0 ++ leBytes 4 0x80000000 ++
      leBytes 4 0x3F800000)
    at1 e 0 = 1 ∧ cmdSlot e = 3 ∧ ((running []).seq.req 3).st = .free ∧ atN e 16 8 = 0 ∧ (running []).seq.prefixOf 0 = none ∧
      submitFields secOne 0 e = true ∧ bit 0 (at1 e 67) = false := by decide +kernel
theorem witness_ready :
    let e := cmd readyCmd
    at1 e 0 = 2 ∧ genReq.absent = false ∧ cmdZero e = true ∧ cmdTailZero e 12 = true ∧ atN e 8 4 ≤ 32768 ∧ genReq.readySets ≤ atN e 8 4 := by
  decide +kernel
theorem witness_request_commands :
    ({ genReq with st := .held } : Req).st = .held ∧ (running [(0, genReq)]).seq.inRun 0 = false ∧
      (let e := cmd ([5, 0, 0, 0, 0, 0, 0, 0] ++ leBytes 6 3)
       at1 e 0 = 5 ∧ cmdZero e = true ∧ atN e 14 2 = 0 ∧ cmdTailZero e 16 = true ∧ (running []).step.toNat < atN e 8 6 ∧
        atN e 8 6 ≤ ({ running [] with step := 3 } : State).step.toNat) := by decide +kernel
def aRun : StepRun :=
  StepRun.start 0 [⟨0, 0, 1, 1, true⟩] [] [] 128 0 4 [] []
theorem witness_request_in_run : ({ (running [(0, genReq)]).seq with run := some aRun } : Seq).inRun 0 = true := by decide +kernel
theorem witness_prefix_commands :
    (let e := cmd ([6, 0, 0, 0, 0, 0, 0, 0] ++ leBytes 8 9 ++ leBytes 4 16)
     at1 e 0 = 6 ∧ cmdZero e = true ∧ cmdSlot e = 0 ∧ atN e 8 8 ≠ 0 ∧ 1 ≤ atN e 16 4 ∧ atN e 16 4 ≤ 2097151 ∧ cmdTailZero e 20 = true) ∧
      ({ (running []).seq with prefixes := [⟨9, 16, 0, false⟩] } : Seq).prefixOf 9 = some ⟨9, 16, 0, false⟩ ∧
      ({ (running []).seq with prefixes := [⟨9, 16, 1, false⟩] } : Seq).prefixOf 9 = some ⟨9, 16, 1, false⟩ := by decide +kernel
theorem witness_adapter_and_tile :
    (let e := cmd [8, 0, 2, 0, 0, 0, 0, 0, 6, 1]
     at1 e 0 = 8 ∧ cmdSlot e ≤ 255 ∧ cmdZero e = true ∧ at1 e 9 ≤ 1 ∧ cmdTailZero e 10 = true ∧ (running []).seq.adapters.find 2 = none) ∧
    (let e := cmd [9, 0, 0, 0, 0, 0, 0, 0, 4, 0, 0, 0, 0, 0xFF, 0, 0]
     at1 e 0 = 9 ∧ cmdZero e = true ∧ cmdSlot e = 0 ∧ atN e 8 4 ≠ 0xFFFFFFFF ∧ at1 e 12 < secOne.kinds.length ∧ at1 e 13 = 0xFF ∧
      bit (at1 e 14) secOne.devices.toNat = true ∧ at1 e 15 = 0 ∧ (running []).seq.hasTask (atN e 8 4) = false) := by decide +kernel
def task4 : TileTask := ⟨4, 0, 0xFF, 0, 0, List.replicate 104 0, 0⟩
theorem witness_tile_cancel : ([task4] : List TileTask).find? (fun x => x.task.toNat == atN (cmd [10, 0, 0, 0, 0, 0, 0, 0, 4]) 8 4) = some task4 := by
  decide +kernel

/-! ### Steps -/

theorem witness_admission :
    let s := running [(0, genReq)]
    s.canAdmit = true ∧ s.suite.restore = false ∧
      s.chooseStep (s.step.toNat + 1) (s.seq.reqs.length + 1) [] = (s.toDev, [], some (0, [0], [])) ∧ s.idsWait [] [] = false ∧
      unitsOf (64 + 96 * (1 + 0) + 32 * (s.retireAt (s.step.toNat + 1) []).length) ≤ s.seq.room :=
  ⟨by decide +kernel, rfl, rfl, by decide +kernel, by decide +kernel⟩
theorem witness_nothing_eligible :
    let s := running []
    s.canAdmit = true ∧ s.chooseStep (s.step.toNat + 1) (s.seq.reqs.length + 1) [] = (s.toDev, [], none) ∧ s.seq.tiles = [] ∧
      s.retireAt (s.step.toNat + 1) [] = [] := ⟨by decide +kernel, rfl, rfl, rfl⟩
def seqMsg (payload : List Byte) : Msg := msgTo (live.epOf 12 0xF2) payload
/-- A token report of one entry (Tables 9-8, 9-9): request 0, its next position 2, token 42. -/
def report : List Byte := leBytes 2 1 ++ leBytes 2 1 ++ List.replicate 12 0 ++ (leBytes 2 0 ++ leBytes 2 0 ++ leBytes 4 2 ++ leBytes 4 42 ++ leBytes 4 0 ++
  List.replicate 64 0)
def inFlight (run : StepRun) (net : List Msg) : State :=
  let s := running [(0, genReq)]
  { s with net := net, seq := { s.seq with run := some run } }
theorem witness_report :
    let s := inFlight aRun [seqMsg report]
    let m := seqMsg report
    s.toSeq 0 = some m ∧ s.domOn ed0Dom = true ∧ atN m.payload 0 2 = 1 ∧ aRun.template ≠ 0xFFFF ∧ s.leader = true ∧ m.step = s.step.setWidth 16 ∧
      1 ≤ atN m.payload 2 2 ∧ atN m.payload 2 2 ≤ 204 ∧ m.payload.length = 16 + 80 * atN m.payload 2 2 ∧
      ((m.payload.take 16).drop 4).all (fun b => b == 0) = true ∧
      (s.seq.readReport aRun (atN m.payload 2 2) (m.payload.drop 16) aRun.reports).isSome = true := by decide +kernel
theorem witness_bad_report :
    let s := inFlight aRun []
    s.seq.readReport aRun 1 (List.replicate 80 0) aRun.reports = none ∧ aRun.abandon = none := by decide +kernel
def reported : StepRun := { aRun with reports := [⟨0, 42, 0, List.replicate 64 0⟩] }
theorem witness_decision :
    let s := inFlight reported []
    s.leader = true ∧ s.actionsPending = false ∧ s.seq.records = [] ∧ s.plan.st ≠ .unloading ∧ reported.abandon = none ∧
      s.allReported reported = true ∧ (∀ i ∈ reported.members, (s.seq.samples reported i).isSome = true → ∃ x ∈ reported.reports, x.req = i) ∧
      0 ∈ s.planCabs ∧ s.fenced 0 = false ∧ s.domOn (sbDom 0) = true ∧ (s.seq.req 0).outside s.step.toNat = (0, false) ∧
      (s.seq.req 0).tokenReason 42 ((s.seq.req 0).generated + 1) 2 = 0 := by decide +kernel
theorem witness_discard :
    let s : State := { inFlight aRun [] with discards := [⟨fltAkkPc, 0⟩] }
    s.discards = [⟨fltAkkPc, 0⟩] ∧ s.seq.run = some aRun ∧ aRun.abandon = none ∧ aRun.mult ≠ 0 ∧ (running []).seq.run = none := by
  decide +kernel
theorem witness_unload_step :
    let s : State := { inFlight aRun [] with plan := { (running []).plan with st := .unloading, stepTimer := true } }
    s.plan.st = .unloading ∧ s.plan.stepTimer = true ∧ s.actionsPending = false ∧
      (∃ c ∈ s.planCabs, s.fenced c = false ∧ s.domOn (sbDom c) = true) ∧
      ({ s with drawers := [(0, { Drawer.reset with action := some (true, 0) })] } : State).actionsPending = true := by decide +kernel
theorem witness_follower :
    let s : State := { running [] with number := 3 }
    s.plan.st = .running ∧ s.leader = false ∧ s.suite.restore = false ∧ s.seq.run = none ∧ s.holdsAdmission = false ∧ s.seq.toldHeld = (false, false) ∧ s.canFollow = true ∧ s.seq.fromLeader = [] ∧
      (∀ k ∈ s.planBenches, (s.bench k).mustDiscard = false) ∧ (3 : BitVec 6).toNat ∈ ({ aRun with followers := [3] } : StepRun).followers := by
  decide +kernel
/-- A leader of two devices, which waits for device 3 or has given it up. -/
def twoLeads (followers late : List Nat) : State :=
  let s := inFlight { aRun with followers := followers } []
  { s with seq := { s.seq with sec := { secOne with devices := 9 }, lateFollowers := late } }
theorem witness_follower_waits :
    let s : State := { inFlight aRun [] with number := 3 }
    let t : State := { s with drawers := [(0, { Drawer.reset with action := some (true, 0) })] }
    s.plan.st = .running ∧ s.leader = false ∧ s.canFollow = false ∧ s.seq.fromLeader = [] ∧ s.seq.toldHeld = s.holding ∧ s.seq.run = some aRun ∧
      s.planLoaded = true ∧ t.drawersActing = true ∧ (2 : Nat) ∈ ({ s.seq with acting := [2, 3] } : Seq).acting := by decide +kernel
/-- Request 0 holds the last reference to a released prefix: its retirement needs two units more, for the prefix's notice (R254, R257). -/
theorem witness_retirement_waits :
    let q : Seq := { (running [(0, { genReq with handle := 9 })]).seq with prefixes := [⟨9, 16, 1, true⟩] }
    let s : State := { running [] with seq := { q with resultTail := 2 ^ 14 - 3 } }
    s.retireUnits 0 = 4 ∧ s.seq.room = 3 ∧ (running [(0, genReq)]).retireUnits 0 = 2 ∧ (s.seq.req 0).absent = false ∧ s.seq.inRun 0 = false := by
  decide +kernel
theorem witness_follower_reports :
    (twoLeads [3] []).leader = true ∧ (3 : BitVec 6).toNat ∈ (twoLeads [3] []).followers ∧ (twoLeads [3] []).seq.run.isSome = true ∧
      (3 : BitVec 6).toNat ∈ (twoLeads [] [3]).seq.lateFollowers ∧ (3 : BitVec 6).toNat ∉ ({ aRun with followers := [] } : StepRun).followers ∧
      QuietSequencer (twoLeads [3] []).toDev ∧ (twoLeads [3] []).actionsPending = false :=
  ⟨by decide, by decide +kernel, by decide, by decide, by decide, ⟨rfl, rfl, rfl, by decide⟩, by decide +kernel⟩
def tileRun : StepRun := { aRun with template := 0xFFFF, gens := [], idle := [0] }
theorem witness_tile_dispatch :
    let s := inFlight tileRun []
    let s : State := { s with seq := { s.seq with tiles := [task4] } }
    s.tilePhase = some tileRun ∧ tileRun.stopping = false ∧ s.nextTile tileRun = some (task4, 0) ∧ 0 < s.seq.room := by decide +kernel
theorem witness_tile_completion :
    let run : StepRun := { tileRun with running := [⟨task4, 0, 8⟩], idle := [] }
    let m := seqMsg (leBytes 2 2 ++ leBytes 2 0 ++ leBytes 4 4 ++ leBytes 2 8)
    let s := inFlight run [m]
    s.toSeq 0 = some m ∧ s.domOn ed0Dom = true ∧ atN m.payload 0 2 = 2 ∧ s.tilePhase = some run ∧
      run.running.find? (fun x => x.task.task == BitVec.ofNat 32 (atN m.payload 4 4) && x.epoch == BitVec.ofNat 16 (atN m.payload 8 2)) =
        some ⟨task4, 0, 8⟩ := by decide +kernel
theorem witness_doorbell :
    let s : State := { running [] with suite := { live.suite with head := false } }
    s.suite.head = false ∧ s.suite.numbered = true ∧ s.follower = false ∧ s.plan.st ≠ .unloading ∧ ((64 : BitVec 32) - 0).toNat ≤ 2 ^ ringLog2 s.seq.cmdBase ∧
      ¬ ((65 : BitVec 32) - 0).toNat ≤ 2 ^ ringLog2 s.seq.cmdBase ∧ ((0 : BitVec 32) - 0).toNat ≤ (s.seq.resultTail - s.seq.resultHead).toNat ∧
      ({ s with number := 3 } : State).follower = true := by decide +kernel
theorem witness_no_held_writes : (∀ p ∈ (running []).stks, p.2.held = []) ∧ (∀ j, ((running []).sb j).dq = []) ∧
    (running []).bridge.parked = [] ∧ (running []).bridge.sent = [] := by
  refine ⟨by decide, fun j => ?_, rfl, rfl⟩
  cases j <;> rfl
theorem witness_load_complete :
    let h := magic ++ leBytes 4 2 ++ leBytes 2 1 ++ leBytes 2 1 ++ leBytes 8 160 ++ List.replicate 136 0
    let s : State := { live with plan := { Plan.reset with st := .loading, image := h } }
    s.plan.st = .loading ∧ s.plan.held = false ∧ (imageOf h).cabs = [0] ∧ (imageOf h).cabs.all s.active = true ∧
      (match s.planTables (imageOf h) with
        | .ok _ => true
        | .error _ => false) = true := by decide +kernel
theorem witness_fault_log :
    let r : LogRec := ⟨1, List.replicate 32 0, true⟩
    let s : State := { live with flog := { live.flog with ctl := 1, base := 0x1000A, offered := [r] } }
    s.flog.offered = [r] ∧ s.flog.ctl.getLsbD 0 = true ∧ s.flog.full = false ∧ s.ringOk 0x10000 64 = true ∧ r.lasting = true ∧
      live.flog.ctl.getLsbD 0 = false ∧
      (let u : State := { s with flog := { s.flog with base := 0x40000001000A } }
       4 ≤ bits 47 44 (ringAddr u.flog.base + 64 * (u.flog.tail.toNat % 2 ^ ringLog2 u.flog.base)) ∧ u.flog.full = false ∧ r.ownSelector = false) := by decide +kernel
theorem test_log_selector :
    let s : State := { live with flog := { live.flog with ctl := 1, base := 0x40000001000A, offered := [⟨1, List.replicate 32 0, true⟩] } }
    let t := after .faultLogRecord s
    t.flog.lost = 1 ∧ t.flog.offered.map (fun r => atN r.record 0 2) = [fltAddrSelector.toNat] ∧ (after .faultLogRecord t).flog.offered = [] := by decide +kernel

theorem test_ready_cmd : ((after .ready (ringState id [(0, genReq)] readyCmd)).seq.req 0).readySets = 4 := by decide +kernel
theorem test_bad_opcode :
    let s := after .badOpcode (ringState id [] [11])
    s.seq.refused = 1 ∧ s.seq.cmdHead = 1 := by decide +kernel
theorem test_admission : (after .stepAdmission (running [(0, genReq)])).step = 1 := by decide +kernel
theorem test_report_kept : ((after (.tokenReport 0) (inFlight aRun [seqMsg report])).seq.run.map (fun r => r.reports.length)) = some 1 := by decide +kernel
theorem test_commit_moves : ((after .stepCommitDecision (inFlight reported [])).seq.req 0).len = 2 := by decide +kernel
theorem test_unload_step_latched :
    let s := inFlight aRun []
    let s : State := { s with plan := { s.plan with st := .unloading, stepTimer := true }, drawers := [(0, { Drawer.reset with action := some (true, 0) })] }
    ((after .unloadStepTimeout s).seq.run.map (fun r => r.abandon)) = some (some 0) := by decide +kernel
theorem test_watchdog_abandons :
    ((after (.stepWatchdogExpiry none) (inFlight aRun [])).seq.run.map (fun r => r.abandon)) = some (some fltStepTimeout) := by decide +kernel

/-! ## Links, suite and host -/

def withPort (p : Nat) (x : Port) : State := { running [] with toDev := (running []).setPort p x }
/-- A port in service with four lanes of version 2.0. -/
def upPort : Port := { Port.reset with st := 4, version := 0x20, lanes := 0xF, rate := 0, rxCredit := creditCap 0x20 }
def zeroFrame : List Byte := List.replicate 1792 0
/-- A frame with FSEQ 1 that carries a header flit and one payload flit of class M from endpoint 0 to bench 0 (Table 14-2). -/
def twoFlits : List Byte := leBytes 6 1 ++ List.replicate 12 0 ++ [0x0A] ++ List.replicate 1773 0
def goodFrame : List Byte := twoFlits.take 56 ++ leBytes 8 (frameCrc twoFlits).toNat ++ twoFlits.drop 64

theorem witness_port_up :
    let s := withPort 8 upPort
    (s.port 8).up = true ∧ (s.port 8).out = [] ∧ (s.port 8).unacked = [] ∧ (s.port 8).badFrame = none ∧ (s.port 8).nakked = false ∧ (s.port 8).lost = 0 ∧
      (s.port 8).rxCredit = creditCap (s.port 8).version ∧ (s.port 8).rx = [] ∧ (s.port 8).limit 2 = 0 ∧
      (s.port 8).lanes.getLsbD 0 = true ∧
      2 ≤ laneCount (keepLanes 0x20 (0xF &&& ~~~ BitVec.ofNat 4 1)) ∧ laneCount (keepLanes 0x20 (0x3 &&& ~~~ BitVec.ofNat 4 1)) < 2 ∧
      3 ≤ laneCount ((0x7 : BitVec 4) &&& 0xF) := by decide +kernel
/-- Nine wrong symbols in one codeword are more than FEC corrects (R389). -/
def badSymbols : List (Nat × Byte) := (List.range 9).map (fun i => (64 + 8 * i, 1))
set_option maxRecDepth 100000 in
theorem witness_bad_frame :
    frameIntact (fecFrame zeroFrame badSymbols) = false ∧ ({ upPort with nakked := true } : Port).nakked = true ∧
      BitVec.ofNat 48 (atN (fecFrame zeroFrame badSymbols) 0 6) ≠ upPort.rxSeq + 1 ∧ fecFrame zeroFrame (badSymbols.drop 1) = zeroFrame := by decide +kernel
set_option maxRecDepth 100000 in
theorem witness_empty_frame : frameIntact (fecFrame zeroFrame []) = true ∧ at1 zeroFrame 25 ≠ 2 ∧ frameFlits zeroFrame 0 = [] := by decide +kernel
set_option maxRecDepth 100000 in
theorem witness_message_frame :
    frameIntact (fecFrame goodFrame []) = true ∧ at1 goodFrame 25 ≠ 2 ∧
    (match frameFlits goodFrame 0 with
      | [h, b] =>
        let m := msgOf h.data b.bytes
        let s := withPort 8 upPort
        h.cls == 2 && b.cls == 2 && !b.piece && decide (bits 24 11 (atN h.data 0 8) < 64) && !headerBad h.data m && s.inSuite (epDev m.src) && s.planLoaded &&
          m.planId == s.plan.planId && epDev m.dest == s.number.toNat && epVal m.dest != 0xF0 &&
          BitVec.ofNat 48 (atN goodFrame 0 6) == (s.port 8).rxSeq + 1
      | _ => false) = true := by decide +kernel
set_option maxRecDepth 100000 in
theorem witness_awaited_and_duplicate :
    let x : Port := { upPort with rxSeq := 1 }
    frameFlits goodFrame 0 ≠ [] ∧ (atN goodFrame 0 6 == (upPort.rxSeq + 1).toNat && !(frameFlits goodFrame 0).isEmpty) = true ∧
      (x.rxSeq - BitVec.ofNat 48 (atN goodFrame 0 6)).toNat < 2 ^ 47 ∧
      1 ≤ laneCount ((0x3 : BitVec 4) &&& upPort.lanes) ∧ laneCount ((0x3 : BitVec 4) &&& upPort.lanes) ≤ 2 ∧ 2 ≤ laneCount (keepLanes 0x20 (0xF &&& ~~~ 0x3#4)) := by
  decide +kernel
theorem witness_replay :
    let x : Port := { upPort with unacked := [⟨1, [], 0, (0, 0, 0), 0⟩] }
    x.unacked ≠ [] ∧ x.expiries < 3 ∧ ({ x with expiries := 3 } : Port).expiries = 3 := by decide +kernel
theorem witness_training :
    let s := withPort 8 Port.reset
    (s.port 8).needRetrain = false ∧ (s.port 8).enabled = true ∧ s.portCore 8 = true ∧ s.pcieGroup 8 = false ∧ s.pcieGroup 0 = true ∧
      (s.port 8).st = 0 ∧ laneCount (0x1 : BitVec 4) < 2 ∧ 2 ≤ laneCount partnerOk.lanes ∧
      commonVersion (bit 1 (s.port 8).ctl.toNat) 0x21 0x30 = none ∧
      commonVersion (bit 1 (s.port 8).ctl.toNat) partnerOk.minVersion partnerOk.maxVersion = some 0x20 ∧ (s.port 8).authFails ≠ 15 ∧
      s.boot.perstLow = false ∧ ({ s with boot := { s.boot with perstLow := true } } : State).boot.perstLow = true ∧
      ({ s with suite := { s.suite with cred := some [] } } : State).suite.cred = some [] ∧ ({ upPort with st := 5, cred := some [] } : Port).cred = some [] ∧
      s.suite.cred = none ∧ ({ partnerOk with answers := false } : Partner).answers = false ∧ partnerOk.cert.length = 256 ∧
      ({ Port.reset with st := 6 } : Port).st = 6 ∧ Port.reset.apart = false ∧ pcieLink partnerOk = none ∧
      pcieLink { partnerOk with pcieRate := 5, pcieWidth := 8 } = some (5, 8) := by decide +kernel
theorem witness_authentication :
    let s := withPort 8 { Port.reset with st := 3 }
    (s.port 8).st = 3 ∧ (s.port 8).enabled = true ∧ (s.port 8).authFails ≠ 15 ∧ (withPort 8 { Port.reset with st := 5 } |>.port 8).st = 5 := by
  decide +kernel
theorem witness_port_ctl :
    let s := withPort 8 upPort
    s.regServed (.portCtl 8) = true ∧ (s.port 8).st ≠ 9 ∧ (s.port 8).enabled = true ∧ (5 : BitVec 32).getLsbD 0 = true ∧ (5 : BitVec 32).getLsbD 2 = true ∧
      (0 : BitVec 32).getLsbD 0 = false ∧ ({ upPort with ctl := 2 } : Port).enabled = false := by decide +kernel

/-! ### Suite -/

theorem witness_suite_commands :
    let s : State := { running [] with suite := { live.suite with cred := some (List.replicate 0x180 1) } }
    s.suite.head = true ∧ s.suite.mayHead = true ∧ (running []).suite.mayHead = false ∧ (running []).seq.run = none ∧
      (inFlight aRun []).seq.run.isSome = true ∧ (withPort 8 upPort).trusted 8 = true ∧
      ({ live.suite with head := false, answered := some (9, 1) } : Suite).answered = some (9, 1) ∧ (1 : BitVec 16) ≠ 2 ∧ (9 : BitVec 384) ≠ 8 ∧ (running []).planLoaded = true ∧
      ({ live.suite with head := false } : Suite).answered = none ∧ (1 : BitVec 6) ≠ (running []).number ∧ live.planLoaded = false ∧ ([8] : List Nat).length ≤ 4 ∧
      (5 : BitVec 6).toNat ∈ ({ live.suite with assigning := [5] } : Suite).assigning := by decide +kernel
theorem witness_last_report :
    let s : State := { live with suite := { live.suite with discovery := 1 } }
    let r : DiscReport := ⟨7, [], 1, 0, 0⟩
    s.suite.head = true ∧ s.suite.discovery = 1 ∧ s.suite.assigning = [] ∧ (∀ x ∈ s.suite.reports, x.identity ≠ r.identity) ∧
      ({ s.toDev with suite := { s.suite with reports := s.suite.reports ++ [r] } } : Dev).allReports = true ∧ s.suite.reports = [] ∧
      s.planLoaded = false :=
  ⟨rfl, rfl, rfl, by decide, rfl, rfl, by decide +kernel⟩
/-- Reports that name three partners cannot be complete with two devices known. -/
theorem witness_report_missing :
    let s : State := { live with suite := { live.suite with discovery := 1 } }
    let r : DiscReport := ⟨7, [(4, 1, 0), (4, 2, 0), (4, 3, 0)], 1, 0, 0⟩
    ({ s.toDev with suite := { s.suite with reports := s.suite.reports ++ [r] } } : Dev).allReports = false := by
  intro s r
  have h : ∀ t : BitVec 32, ([1#32, 2#32, 3#32].all (fun x => [t, hashTag 7].contains x)) = false := by
    intro t
    by_cases h1 : t = 1#32
    · subst h1; decide +kernel
    · by_cases h2 : t = 2#32
      · subst h2; decide +kernel
      · have : ([t, hashTag 7].contains 1#32 && [t, hashTag 7].contains 2#32) = false := by
          have e1 : (1#32 == t) = false := by simpa [beq_eq_false_iff_ne] using fun h => h1 h.symm
          have e2 : (2#32 == t) = false := by simpa [beq_eq_false_iff_ne] using fun h => h2 h.symm
          simp only [List.contains_cons, List.contains_nil, e1, e2, Bool.false_or, Bool.or_false]
          decide +kernel
        simp only [List.all_cons, List.all_nil, Bool.and_true, ← Bool.and_assoc, this, Bool.false_and]
  exact h _
theorem witness_host :
    let s : State := { live with bridge := { live.bridge with w2Log2 := 34, segs := [(0, 1)] } }
    s.hostUp = true ∧ 16 % 8 = 0 ∧ 16 + 8 ≤ 2 ^ 26 ∧ 6 % 4 ≠ 0 ∧ s.segmentAt 34 0 = some (0, 0) ∧ s.hostTarget 0 = .own ∧
      (s.dom (stkDom 0)).entering = none ∧ (s.stk 0).upsets = [] ∧ s.stkRefusal 0 8 .host false = none ∧ s.stkRefusal 0 8 .host true = none := by
  decide +kernel
theorem witness_host_other :
    let s : State := { withPort 8 upPort with
      bridge := { live.bridge with segs := [(0, 5 * 2 ^ 58 + 1)], reads := [⟨5, 0, 8⟩], lateReads := 1 }
      suite := { live.suite with devs := [(5, 0x8000000000000000)], routes := [(5, ⟨1, [8], some 0⟩)] } }
    s.segmentAt 34 0 = some (5, 0) ∧ s.hostTarget 5 = .other 5 ∧ s.bridge.reads[0]? = some ⟨5, 0, 8⟩ ∧ s.bridge.reads[1]? = none ∧
      0 < s.bridge.lateReads ∧ 30 ≤ (31 : Fin 42).val ∧
      (s.classH ⟨8, 0, true⟩ 1 false true).isOk = true ∧ (s.classH ⟨8, 0, true⟩ (hostFlits 4) false false).isOk = true ∧ s.pageOf (5 * 0x4000) = .other 5 ∧
      s.sentTo 5 = false ∧ ({ s with bridge := { s.bridge with sent := [⟨5, 0, [1], false, false⟩] } } : State).sentTo 5 = true := by decide +kernel
theorem witness_perst :
    live.suite.head = true ∧ live.portCore 0 = true ∧ ∀ j, j < 4 → (live.port j).enabled = true ∧ (live.port j).needRetrain = false ∧ ((live.port j).st = 0 ∨ (live.port j).st = 1) := by
  decide +kernel

theorem witness_perst_lanes : ((live.setPort 2 { Port.reset with st := 9, lanes := 0xF }).port 2).st = 9 := by decide +kernel
theorem test_perst_lanes :
    let s : State := { live with toDev := live.setPort 2 { Port.reset with st := 9, lanes := 0xF } }
    ((after .perstNAssert s).port 2).lanes = 0 := by decide +kernel
theorem test_nak_counts : ((after (.nak 8 0) (withPort 8 upPort)).port 8).replays = 1 := by decide +kernel
theorem test_lane_loss_fails : ((after (.laneLockLoss 8 7) (withPort 8 upPort)).port 8).st = 6 := by decide +kernel
theorem test_train_no_version : ((after (.portTrain 8 { partnerOk with minVersion := 0x21, maxVersion := 0x30 }) (withPort 8 Port.reset)).port 8).st = 8 := by
  decide +kernel
theorem test_host_read_w0 : (after (.hostRead .w0 0x38 4) live).bridge.cpl = some (.data [4, 0, 0, 0] false) := by decide +kernel
theorem test_host_misaligned : (after (.hostRead .w0 6 4) live).bridge.cpl = some .abort := by decide +kernel
theorem test_host_write_stack :
    let s := after (.hostWrite .w2 0 [9, 8, 7, 6] false) { live with bridge := { live.bridge with segs := [(0, 1)] } }
    (s.stk 0).view.byte ((s.stk 0).key 1) = 8 := by decide +kernel

/-! ### Held channels, other devices, waits -/

theorem live_quiet : QuietSequencer live.toDev := ⟨rfl, rfl, rfl, by decide⟩
theorem live_nothing_held : NothingHeld live.toDev := ⟨by decide, rfl, rfl⟩
theorem live_host_quiet : HostQuiet live.toDev := by
  refine ⟨rfl, fun p hp h hh => ?_⟩
  rw [List.mem_singleton.mp hp] at hh
  exact absurd hh List.not_mem_nil
/-- Channel 0 of stack 0 is held, and a write of the host to it waits. -/
def heldLive : State := { live with
  stks := [(0, { live.stk 0 with holds := [⟨0, false, true⟩], held := [⟨0, [1], false, Who.host.owner⟩], classCtl := 0x00103E02 })]
  bridge := { live.bridge with segs := [(0, 1)] } }
theorem witness_held_channel :
    heldLive.stkRuns 0 = true ∧ (heldLive.stk 0).chanHeld 0 = true ∧ (heldLive.stk 0).chanHeld 1 = false ∧ (heldLive.stk 0).upsets = [] ∧
      live.stkRuns 5 = false ∧ heldLive.readWaits 0 8 = true ∧ heldLive.performHost.hostHeld = true ∧ live.performHost.hostHeld = false ∧
      heldLive.bridge.parked = [] ∧ heldLive.hostUp = true := by decide +kernel
theorem witness_load_waits : heldLive.planIdle = true ∧ heldLive.boot.stage = 8 ∧ (synced heldLive).imageWaits 0 = true := by decide +kernel
theorem witness_scrubs :
    (live.stkRuns 0 && (live.stk 0).filled && !(live.stk 0).hold && (live.stk 0).scrubCtl.getLsbD 12) = true ∧
      (!live.fenced 0 && live.domOn (sbDom 0) && (live.sb 0).filled) = true ∧ (live.sb 5).filled = false ∧ (live.sb 0).upsets = [] ∧
      (live.stk 0).postponed.get 0 3 + 1 < 8 := by decide +kernel
/-- The fence of bench 0 waits at stack 0, whose channel 0 has been retrained. -/
def fencedHold (lasting : Bool) : State := mod0 { live with
    stks := [(0, { live.stk 0 with holds := [⟨0, true, lasting⟩] })] }
  (fun b => { b with fence := some ⟨.device, [.stack 0], false, [0]⟩ })
theorem witness_hold_end :
    let s := fencedHold false
    (s.stk 0).hold = true ∧ (s.stk 0).holds.find? (fun h => h.ch.toNat == (0 : Fin 32).val) = some ⟨BitVec.ofNat 5 0, true, false⟩ ∧ (s.stk 0).upsets = [] ∧
      (s.stk 0).holds.filter (fun h => h.ch.toNat != 0) = [] ∧ ([⟨1, true, true⟩, ⟨0, true, false⟩] : List ChanHold).filter (fun h => h.ch.toNat != 0) ≠ [] ∧
      (s.bench 0).fence = some ⟨.device, [.stack 0], false, [0]⟩ ∧ (0 : Stk) ∈ [(0 : Stk)] ∧ s.fenced 0 = false ∧
      (∀ p ∈ heldLive.benches, p.2.fence = none) ∧
      (∀ h ∈ (heldLive.stk 0).held, h.key / chanSize ≠ 1) := by decide +kernel
/-- Two chips of the suite: device 5 is reached through port 8. -/
def twoDevices (m : Msg) : State :=
  { withPort 8 upPort with away := [m], suite := { live.suite with routes := [(5, ⟨1, [8], some 0⟩)] } }
theorem witness_away :
    let dst := BitVec.ofNat 18 (5 * 4096 + 1)
    let m : Msg := { withIssue with dest := dst, target := dst }
    let s := twoDevices m
    epDev dst ≠ s.number.toNat ∧ s.away.find? (fun x => x.src == s.benchEp 0 && x.dest == dst && x.seq == m.seq) = some m ∧ m.issue.isSome = true ∧
      QuietSequencer s.toDev := ⟨by decide, by decide +kernel, rfl, rfl, rfl, rfl, by decide⟩
theorem witness_sideboard_away :
    let dst := BitVec.ofNat 18 (5 * 4096 + 3 * 256 + 0xF0)
    let m : Msg := msgTo dst sbGood
    (twoDevices m).away.find? (fun m => m.src == 0 && epDev m.dest == (5 : BitVec 6).toNat && epCab m.dest == 3 && epVal m.dest == 0xF0) = some m := by
  decide +kernel
theorem witness_arrival_waits :
    let s : State := { mod0 live (fun b => { b with queues := [(0, ⟨0, true, 1⟩)], inbox := [{ msg0 with payload := List.replicate 1000 0 }] }) with net := [msg0] }
    (firstAdmitted (s.bench 0) 0 (s.benchEp 0) false s.net (s.waitingAt 0)).2 = none ∧
      s.net.any (fun m => m.src == 0 && m.target == s.benchEp 0 && m.bcast == false) = true := by decide +kernel
/-- A copy from stack 0, whose channel 0 is held or not, to the bench store. -/
def copyHeld (hold : Bool) : State :=
  mod0 { live with stks := [(0, { live.stk 0 with holds := if hold then [⟨0, false, true⟩] else [] })] } (fun b => { b with store := b.store.write 0x100 (desc 1 1 0 0 (2 ^ 45 + 0x2000) 4 0 0 0) })
theorem witness_copy_waits :
    let ds := ((live.bench 0).store.write 0x100 (desc 1 1 0 0 (2 ^ 45 + 0x2000) 4 0 0 0)).read 0x100 64
    ((Xfer.start (copyHeld true).toDev []).run 0 (descOf ds)).stop = some .wait ∧ ((Xfer.start (copyHeld false).toDev []).run 0 (descOf ds)).stop = none ∧
      ((copyHeld true).bench 0).transfers.length < 64 ∧ (descOf ds).firstFault live.cmp = none := by decide +kernel
theorem witness_transfers :
    (oneTransfer.bench 0).transfers[0]?.map (fun x => x.todo) = some none ∧
      ((mod0 live (fun b => { b with transfers := [⟨0, ⟨0, 0, 1, false, 0⟩, 0, false, [], some (List.replicate 64 0), []⟩] })).bench 0).transfers[0]?.map (fun x => x.todo) =
        some (some (List.replicate 64 0)) := by decide +kernel
theorem witness_link_request :
    let s := withPort 8 upPort
    (s.classH ⟨8, 0, true⟩ 1 false true).isOk = true ∧ bits 47 44 0 < 3 ∧ s.windowOpen 1 0 8 = false := by decide +kernel
theorem witness_forwarded_write :
    let s : State := { live with bridge := { live.bridge with sent := [⟨5, 0, [1], false, false⟩] } }
    s.bridge.sent[0]? = some ⟨5, 0, [1], false, false⟩ := by decide +kernel
theorem witness_register_values :
    (let v : BitVec 64 := 0x8000000000000000 + 0x80 * 2 ^ 27 + 0x40
     v.getLsbD 63 = true ∧ bits 26 0 v.toNat % 64 = 0 ∧ bits 53 27 v.toNat % 64 = 0 ∧ bits 61 60 v.toNat ≤ 1 ∧ bits 26 0 v.toNat < bits 53 27 v.toNat ∧
      bits 53 27 v.toNat + (live.sb 0).reserve * 0x40000 ≤ 0x6000000 ∧ ∀ j, j < 16 → bit 63 ((live.sb 0).aowOf j) = false) ∧
    64 < bits 15 8 (0x103F10 : BitVec 32).toNat + bits 7 0 (0x103F10 : BitVec 32).toNat ∧ live.planIdle = true ∧ (running []).planIdle = false := by
  decide +kernel
theorem witness_fenced_commit :
    let s : State := { live with
      cabs := [(0, { Cabinet.reset with st := 2 })], drawers := [(0, { Drawer.reset with action := some (true, 0) })] }
    s.fenced 0 = true ∧ (s.drw 0).action = some (true, 0) ∧ QuietSequencer s.toDev := ⟨rfl, rfl, rfl, rfl, rfl, by decide⟩
theorem test_window4_waits :
    let s : State := { withPort 8 upPort with
      bridge := { live.bridge with sent := [⟨5, 0, [1], false, false⟩] }
      suite := { live.suite with devs := [(5, 0x8000000000000000)], routes := [(5, ⟨1, [8], some 0⟩)] } }
    (after (.hostRead .w4 (5 * 0x4000) 4) s).bridge.parked = [.page (5 * 0x4000) 4 true] := by decide +kernel
theorem test_memory_space_edge :
    let s := after (.w2Resize (.size 31)) live
    s.bridge.w2Log2 = 34 ∧ (after (.w2Resize (.memSpace true)) s).bridge.w2Log2 = 31 := by decide +kernel
theorem test_second_hold_stands :
    let s := after (.channelRetrain 0 5 true false) heldLive
    (s.stk 0).holds = [⟨0, false, true⟩, ⟨5, true, false⟩] ∧ ((after (.channelHoldEnd 0 5) s).stk 0).holds = [⟨0, false, true⟩] := by decide +kernel
theorem test_scrub_moves_on : ((after (.patrolScrub (.sideboard 0) 0x2FFFFF ⟨[], []⟩ ⟨[], []⟩) live).sb 0).scrubAt = 0 := by decide +kernel
theorem test_batch_waits : ((after (.writeBatchDrain 0 0) heldLive).stk 0).held.length = 1 := by decide +kernel
theorem test_batch_drains :
    let s : State := { heldLive with toDev := heldLive.setStk 0 { heldLive.stk 0 with holds := [] } }
    ((after (.writeBatchAge 0 0) s).stk 0).held = [] ∧ ((after (.writeBatchAge 0 0) s).stk 0).mem.byte 0 = 1 := by decide +kernel
theorem test_refresh_postponed : ((after (.refreshPerform 0 3 true) live).stk 0).postponed.get 0 3 = 1 := by decide +kernel

/-! ## Power, bring-up, firmware, management -/

theorem witness_domain_requests :
    let id := domId (.bench 0 7 12)
    let m := live.dom id
    live.regServed (.domCtl id) = true ∧ (1 : BitVec 32).getLsbD 3 = false ∧ isPortDom id = false ∧
      (∀ n, domNeeds id = some n → (live.dom n).entering = none) ∧ (live.setDom id { m with capStep := 0, discard := false }).refuser id 1 = none ∧
      m.st ≠ 1 := by
  refine ⟨by decide +kernel, by decide, by decide +kernel, ?_, by decide +kernel, by decide +kernel⟩
  intro n hn
  have : n = 104 := by
    have h : domNeeds (domId (.bench 0 7 12)) = some 104 := by decide +kernel
    rw [h] at hn
    exact (Option.some.inj hn).symm
  subst this; rfl
theorem witness_domain_refused :
    let id := domId (.bench 0 0 0)
    ((live.setDom id { live.dom id with capStep := 0, discard := false }).refuser id 0).isSome = true := by decide +kernel
theorem witness_domain_entries :
    let s : State := { live with pwr := { live.pwr with doms := [(0, { on with entering := some 2 }), (1, { Dom.reset with entering := some 1 })] } }
    (s.dom (domId (.bench 0 0 0))).entering = some 2 ∧ (2 : BitVec 2) ≠ 1 ∧ (s.dom (domId (.bench 0 0 1))).entering = some 1 ∧
      domId (.bench 0 0 0) % 256 ≠ 105 ∧ (0 : BitVec 32).toNat % 4 = 0 ∧ s.planIdle = true := by decide +kernel
/-- An access through the sideband to a register that a domain serves while it enters RETENTION (R433). -/
def enteringStack : State := { live with pwr := { live.pwr with doms := [(106, { on with entering := some 2 }), (164, on)] } }
theorem witness_entering_access :
    let s := enteringStack
    s.boot.vaux33 = true ∧ s.boot.stage ≠ 10 ∧ s.reached .sideband = true ∧ regAt 0x400008 = some (.classCtl 0) ∧
      s.serverOf (.classCtl 0) = .domain 106 ∧ (s.dom 106).st = 1 ∧ (s.dom 106).entering = some 2 ∧
      s.serverOf (.sbStatus 0) = .cabinet 0 104 ∧ s.fenced 0 = false := by decide +kernel
theorem test_access_aborts_entry :
    ((after (.regRead 0x400008 false) enteringStack).dom 106).entering = none ∧ ((after (.regRead 0x400008 false) enteringStack).dom 106).aborted = 1 := by
  decide +kernel
theorem witness_regulators :
    let id := regulId (.cabinet 0)
    let on_ := (List.range (regFitted id)).filter (fun i => !(live.regul id).lost.contains i)
    live.regRuns id = true ∧ State.reset.regRuns id = false ∧ on_ = [0, 1, 2, 3, 4, 5, 6] ∧ (∀ i ∈ on_, ([3, 3, 3, 3, 3, 3, 3] : List Nat).getD i 0 = 3) ∧
      ([3, 3, 3, 0, 3, 3, 3] : List Nat).getD 3 0 = 0 := by decide +kernel
theorem witness_sensors :
    let id := sensorId (.bench 0 3 5)
    let x := live.sensor id
    let good := (neighbours id).filter (fun j => !(live.sensor j).suspect)
    x.suspect = false ∧ 2 ≤ good.length ∧ (2 * (10 : BitVec 16).toInt - median2 (good.map (fun j => (live.sensor j).raw.toInt))).natAbs ≤ 64 ∧
      live.pwr.resetPending = none ∧ x.hot = false := by decide +kernel
/-- Every sensor at 110 °C and once confirmed. -/
def hotDevice : State :=
  { live with
    pwr := { live.pwr with sensors := (List.range 104).map (fun i => (i, { Sensor.reset with raw := 1760, hot := true, level := 3 })) } }
theorem witness_thermal_shutdown :
    let id := sensorId (.bench 0 3 5)
    let x := hotDevice.sensor id
    let good := (neighbours id).filter (fun j => !(hotDevice.sensor j).suspect)
    x.suspect = false ∧ 2 ≤ good.length ∧
      (2 * (1760 : BitVec 16).toInt - median2 (good.map (fun j => (hotDevice.sensor j).raw.toInt))).natAbs ≤ 64 ∧ x.hot = true ∧
      threshold (stackSensor id) 3 ≤ (1760 : BitVec 16).toInt ∧ id % 256 < 160 ∧ hotDevice.pwr.hold = false ∧
      ({ x with suspect := true } : Sensor).suspect = true := by decide +kernel

theorem witness_bringup :
    let s : State := { State.reset with boot := { Boot.reset with vin12 := true } }
    s.boot.vin12 = true ∧ s.boot.vaux33 = true ∧ s.boot.scanHold = false ∧ s.pwr.hold = false ∧ s.boot.stage = 0 ∧ s.boot.resetLow = false ∧
      StartUp.clean.fuseFault = false ∧ s.bootChoice = some (false, false, 0, 0) ∧ ({ StartUp.clean with fuseFault := true } : StartUp).fuseFault = true ∧
      s.boot.lastReset.toNat ≤ 1 ∧ live.boot.stage ≠ 0 ∧ live.pwr.hold = false ∧
      ({ s with fw := { s.fw with revoked := 1 } } : State).bootChoice = none ∧ live.regServed .resetCtl = true := by decide +kernel
theorem witness_restarting_cabinet :
    let s : State := { live with
      cabs := [(0, { Cabinet.reset with st := 3 })]
      stks := [(0, { Stack.reset with trained := true }), (1, { Stack.reset with trained := true })] }
    (s.cab 0).st = 3 ∧ (s.cab 0).tested = false ∧ s.domOn (sbDom 0) = true ∧ s.domOn (stkDom 0) = true ∧ s.domOn (stkDom 1) = true ∧
      (s.stk 0).trained = true ∧ (s.stk 1).trained = true ∧ (s.stk 0).badChannels = [] ∧ (s.stk 1).badChannels = [] := by decide +kernel

theorem witness_firmware_update :
    let v : BitVec 32 := 0x00800000
    let f := live.fw
    let g : Fw := { f with owner := some .host, copyB := .delivered 3 0 none }
    f.op = none ∧ v.toNat % 32 = 0 ∧ f.foreign .host = false ∧ g.owner = some .host ∧ (g.copy true).check g (Config.arbiter 0) = .ok (3, 0) ∧
      ({ g with revoked := 1 } : Fw).owner = some .host ∧
      (({ g with revoked := 1 } : Fw).copy true).check { g with revoked := 1 } (Config.arbiter 0) = .error 5 ∧ f.owner = none ∧
      (∃ b : Boot, b.stage ≠ 9 ∧ f.counter < b.svn.toNat) ∧ live.boot.svn.toNat ≤ f.counter :=
  ⟨rfl, by decide, rfl, rfl, rfl, rfl, rfl, rfl, ⟨{ Boot.reset with svn := 2 }, by decide, by decide⟩, by decide⟩
theorem witness_operations :
    live.boot.stage = 8 ∧ ({ live with boot := { live.boot with copies := true } } : State).boot.copies = true ∧
      ({ live with cabs := [(0, { Cabinet.reset with st := 2, rowSteer := 0xFFFFFFF5 })] } : State).mapChanged = true ∧
      ({ live.fw with op := some (.program 3) } : Fw).op = some (.program 3) ∧ ({ live.fw with op := some .finish } : Fw).op = some .finish ∧
      ({ live.fw with op := some (.advance 2) } : Fw).op = some (.advance 2) ∧ ({ live.fw with op := some (.revoke 1) } : Fw).op = some (.revoke 1) ∧
      (1 : BitVec 16) ≠ 0x5EED := by decide +kernel
theorem live_mem_ok : live.MemOk := by
  refine ⟨?_, ?_, ?_, trivial, rfl⟩ <;> intro p hp <;> rw [List.mem_singleton.mp hp]
  · exact ⟨rfl, rfl, rfl⟩
  · rfl
  · rfl

theorem witness_management :
    live.boot.vaux33 = true ∧ live.boot.stage ≠ 10 ∧ live.boot.stage = 8 ∧ live.reached .sideband = true ∧ live.regServed .wdCtl = true ∧
      live.mgmt.events = [] ∧ ({ live.mgmt with events := [[1]] } : Mgmt).events = [[1]] ∧ (9 : BitVec 8) ∉ ([0xFF, 0, 1, 5] : List (BitVec 8)) ∧
      (9 : BitVec 6) ∉ ([0, 2, 5, 63] : List (BitVec 6)) ∧ State.reset.boot.stage ≠ 8 ∧ State.reset.boot.stage ≠ 10 ∧
      ({ live.mgmt with mctp := { SpdmConn.reset with asked := true } } : Mgmt).mctp.asked = true ∧ sensorIds[0]? = some 0 ∧
      sensorIds.length < (0xFFFFFFFF : BitVec 32).toNat ∧ ({ live with boot := { live.boot with vaux33 := false } } : State).boot.vaux33 = false := by decide +kernel
theorem witness_multiplexer :
    let o : Obs := { Obs.reset with ctl := 0x10000 }
    let p : Obs := { Obs.reset with ctl := 0x30000 }
    Obs.reset.enabled = false ∧ o.enabled = true ∧ o.onChange = false ∧ o.req = false ∧ p.enabled = true ∧ p.onChange = true ∧ p.ack = false ∧
      ({ p with req := true } : Obs).req = true ∧ live.boot.scanHold = false ∧ live.pwr.hold = false := by decide +kernel

theorem test_boot_from_reset :
    (after (.supplyValid true true .clean) { State.reset with bridge := { Bridge.reset with headSel := false } }).boot.stage = 8 := by decide +kernel
theorem test_boot_revoked :
    (after (.supplyValid true true .clean) { State.reset with fw := { Fw.reset with revoked := 1 } }).boot.stage = 9 := by decide +kernel
theorem test_reset_in_reset :
    (after .vin12Loss (after (.resetNAssert .long) live)).journal.total = (after (.resetNAssert .long) live).journal.total ∧
      (after (.resetNAssert .long) live).boot.lastReset = 1 := by decide +kernel
theorem test_fuse_fault : (after (.supplyValid true true { StartUp.clean with fuseFault := true }) State.reset).boot.stage = 10 := by decide +kernel
theorem test_idcode : (after (.idcode .clean) live).tap.dr = .identification 0xBA0095CB := by decide +kernel
theorem test_abort_erases :
    let s : State := { live with fw := { live.fw with owner := some .host, copyB := .delivered 3 0 none } }
    (after (.abort .host) s).fw.owner = none ∧ (match (after (.abort .host) s).fw.copyB with
      | .written _ _ => true
      | .delivered _ _ _ => false) = true := by decide +kernel
theorem test_short_reset : (after (.resetNAssert .short) live).boot = live.boot := by decide +kernel
theorem test_power_cap_rises : (after (.powerCapLoop 3801) live).pwr.pcapStep = 1 := by decide +kernel
theorem test_domain_on : ((after (.domainReqOn .host (.bench 0 7 12) 1) live).dom (domId (.bench 0 7 12))).entering = some 1 := by decide +kernel
theorem test_shutdown : (after (.sensorReading (.bench 0 3 5) 1760 .clean) hotDevice).pwr.cause = fltThermalShutdown := by decide +kernel
theorem test_program :
    (after (.program .host 0x00800000) live).fw.op = some (.program 1) := by decide +kernel
theorem test_reset_map_key :
    (after (.resetMap .host 0x5EED) live).boot.resetMap = true ∧ (after (.resetMap .host 1) live).boot.resetMap = false := by decide +kernel
theorem test_extest_resets : (after .extest live).boot.scanHold = true := by decide +kernel
theorem test_mctp_types : (after .getMessageTypeSupport live).mgmt.answer = .data [0, 1, 5] := by decide +kernel
theorem test_reg_read_misaligned : (after (.regRead 2 false) live).mgmt.answer = .error 0x80 := by decide +kernel
theorem test_queue_order :
    (match step { live with pending := [.powerCapLoop 5, .setEndpointId 3] } with
      | .next t => t.pending == [.setEndpointId 3] && t.pwr.current == 5
      | _ => false) = true := by decide +kernel
theorem test_idle : step live = .next live := rfl
theorem test_no_word_spells : decodeTableWord 32 0 = none := rfl

/-! ## The machine -/

theorem witness_invariant : Inv live ∧ Steps live live := ⟨live_mem_ok, rfl⟩
theorem witness_steps_with_command : Steps { live with pending := [.setEndpointId 3] } { live with mgmt := { live.mgmt with eid := 3, answer := .data [3] } } := rfl
theorem witness_queue_entries :
    let b : Bench := { Bench.reset with queues := [(0, ⟨7, true, 1⟩)] }
    let m (n : Nat) : Msg := { msg0 with epoch := 7, payload := List.replicate n 0 }
    (Bench.reset.queue 0).cap = 0 ∧ 1024 * (b.queue 0).cap.toNat < (m 1025).payload.length ∧ 0 < (b.queue 0).cap.toNat ∧ (b.queue 0).chk = true ∧
      msg0.epoch ≠ (b.queue 0).epoch ∧ (m 2).epoch = (b.queue 0).epoch ∧ b.dropStep ≠ some 0 ∧
      b.queueUsed 0 + (m 2).room ≤ 1024 * (b.queue 0).cap.toNat ∧
      1024 * (b.queue 0).cap.toNat < ({ b with inbox := [m 1000] } : Bench).queueUsed 0 + (m 2).room := by decide +kernel
theorem witness_register_file : (1 : Fin 32) ≠ 0 ∧ (regs.getA 1).wrap = 0 ∧ (regs.getA 2).wrap ≠ 0 ∧ 128 ≤ 128 := by decide +kernel

end Sys2Proof.Tests
end

section
/-! Scope of the model: what one step does, that no command stops it, and what reset leaves. -/

namespace Sys2Proof.Machine

/-! ## The step -/

/-- Each command's meaning ends in `done`: a device, with the queue as it was. -/
theorem exec_eq_done (c : Sys2Proof.Instr) (s : State) : ∃ d, exec c s = done s d := by
  cases c <;> exact ⟨_, rfl⟩

/-- Settles O1: the step matches on the queue, and each of its two cases is the claim. -/
theorem stepTakesFront : Obligations.StepTakesFront := by
  unfold Obligations.StepTakesFront
  refine fun s => ⟨fun c rest => rfl, fun hempty => ?_⟩
  simp only [step, hempty]

/-- Settles O2: whatever device a command leaves, `done` keeps the queue. -/
theorem everyCommandCompletes : Obligations.EveryCommandCompletes := by
  unfold Obligations.EveryCommandCompletes
  intro c s
  obtain ⟨d, hd⟩ := exec_eq_done c s
  exact ⟨_, hd.trans (done_eq s d), rfl⟩

/-! ## Reset -/

/-- At reset no store lists a byte but the erased firmware copy, which lists none either. -/
theorem inv_reset : Inv State.reset :=
  ⟨fun _ h => absurd h List.not_mem_nil, fun _ h => absurd h List.not_mem_nil, fun _ h => absurd h List.not_mem_nil, trivial, rfl⟩

/-- Settles O5: the tables of units are empty at reset, so that every unit reads its own reset value. -/
theorem resetValues : Obligations.ResetValues := by
  unfold Obligations.ResetValues
  have bench_off (k : Nat) : (State.reset.bench k).st = .off ∧ (State.reset.bench k).arch.vl = 128 := ⟨rfl, rfl⟩
  exact ⟨rfl, inv_reset, bench_off, rfl, rfl, rfl, rfl, rfl, rfl, rfl, rfl, rfl, rfl, rfl, rfl, rfl, fun _ => ⟨rfl, rfl⟩,
    fun _ => ⟨rfl, rfl, rfl⟩, fun _ => rfl, rfl, rfl, fun _ => ⟨rfl, rfl⟩, rfl, rfl, rfl, rfl⟩

end Sys2Proof.Machine
end

section
/-! The fault log and its ring (R376–R380): what taking the oldest record leaves, whether the ring takes it or not. -/

namespace Sys2Proof.Machine

/-! ## Little-endian groups and tables -/

theorem take_leBytes {k n : Nat} (v : Nat) (h : k ≤ n) : (leBytes n v).take k = leBytes k v := by
  induction n generalizing k v with
  | zero => obtain rfl := Nat.le_zero.mp h; rfl
  | succ n ih =>
    cases k with
    | zero => rfl
    | succ k => simp only [leBytes, List.take_succ_cons, ih _ (Nat.le_of_succ_le_succ h)]

theorem drop_leBytes (k n v : Nat) : (leBytes (n + k) v).drop k = leBytes n (v / 256 ^ k) := by
  induction k generalizing v with
  | zero => simp
  | succ k ih =>
    have : n + (k + 1) = (n + k) + 1 := by omega
    rw [this, leBytes, List.drop_succ_cons, ih, Nat.div_div_eq_div_mul, Nat.pow_succ']

@[simp] theorem length_leBytes (n v : Nat) : (leBytes n v).length = n := by
  induction n generalizing v with
  | zero => rfl
  | succ n ih => simp [leBytes, ih]

/-- A number read back from its little-endian bytes (R520). -/
theorem leNat_leBytes (n v : Nat) : leNat (leBytes n v) = v % 256 ^ n := by
  induction n generalizing v with
  | zero => simp [leBytes, leNat, Nat.mod_one]
  | succ n ih =>
    simp only [leBytes, leNat, ih, BitVec.toNat_ofNat, Nat.pow_succ']
    exact (Nat.mod_mul ..).symm

/-- The entry of a key that has been written. -/
theorem Tab.find_set_self {α : Type} (t : Tab α) (k : Nat) (v : α) : Tab.find (t.set k v) k = some v := by
  induction t with
  | nil => simp [Tab.set, Tab.find]
  | cons p t ih =>
    obtain ⟨j, w⟩ := p
    by_cases hj : j = k
    · simp [Tab.set, Tab.find, hj]
    · by_cases hlt : k < j
      · simp [Tab.set, Tab.find, hj, hlt]
      · simp [Tab.set, Tab.find, hj, hlt, ih]

/-! ## Unit records (R377) -/

theorem b2n_le_one (b : Bool) : b2n b ≤ 1 := by cases b <;> decide

/-- A unit record offers one record, which names its code and its unit (Table 13-7). -/
theorem unitRecord_flog (d : Dev) (kind c i : Nat) (code : BitVec 16) (n : UnitNote) :
    ∃ (r : LogRec) (seqs : Tab (BitVec 48)),
      (d.unitRecord kind c i code n).flog = { d.flog with offered := d.flog.offered ++ [r], unitSeq := seqs } ∧ r.kind = 2 ∧
      leNat (r.record.take 2) = code.toNat ∧ leNat ((r.record.drop 14).take 2) = (4096 * kind + 256 * c + i) % 65536 := by
  refine ⟨_, _, rfl, rfl, ?_, ?_⟩
  · simp only [rec32, List.append_assoc]
    rw [List.take_append_of_le_length (by simp), take_leBytes _ (by omega), leNat_leBytes]
    have := code.isLt
    omega
  · simp only [rec32, List.append_assoc]
    rw [List.drop_append, List.drop_eq_nil_of_le (by simp), List.nil_append, length_leBytes,
      List.drop_append_of_le_length (by simp), List.take_append_of_le_length (by simp [drop_leBytes 6 2])]
    rw [drop_leBytes 6 2, take_leBytes _ (by omega), leNat_leBytes]
    have hplan := d.plan.planId.isLt
    have hrest := b2n_le_one n.atRest
    have hdiscard := b2n_le_one n.discard
    have hlasting := b2n_le_one n.lasting
    have hretried := b2n_le_one n.retried
    omega

@[simp] theorem unitRecord_offered_length (d : Dev) (kind c i : Nat) (code : BitVec 16) (n : UnitNote) :
    (d.unitRecord kind c i code n).flog.offered.length = d.flog.offered.length + 1 := by
  obtain ⟨r, _, hr, _⟩ := unitRecord_flog d kind c i code n
  simp [hr]

/-! ## Taking the oldest record -/

/-- The log has taken `r`, with `rest` still offered (R376): a lasting record stands in the bureau's ring. -/
def FaultLog.took (f : FaultLog) (r : LogRec) (rest : List LogRec) : FaultLog :=
  { f with
    offered := rest, lseq := f.lseq + 1
    keep := if r.lasting then f.keep.set (f.keepTotal % 256) (logEntry f.lseq r) else f.keep
    keepTotal := if r.lasting then f.keepTotal + 1 else f.keepTotal }

/-- The place of the next entry in the ring. -/
def FaultLog.place (f : FaultLog) : Nat := ringAddr f.base + 64 * (f.tail.toNat % 2 ^ ringLog2 f.base)

/-- The device as the log unit has taken `r`. -/
def Dev.takes (d : Dev) (r : LogRec) (rest : List LogRec) : Dev := (({ d with flog := { d.flog with offered := rest } } : Dev).logTake r).1

theorem takes_flog (d : Dev) (r : LogRec) (rest : List LogRec) : (d.takes r rest).flog = d.flog.took r rest := by
  unfold Dev.takes Dev.logTake FaultLog.took
  cases r.lasting <;> rfl

theorem takes_ringOk (d : Dev) (r : LogRec) (rest : List LogRec) (a n : Nat) : (d.takes r rest).ringOk a n = d.ringOk a n := by
  unfold Dev.takes Dev.logTake
  cases r.lasting <;> rfl

/-- An arrival at a domain changes the state of the domains at most (R433). -/
theorem arrive_pwr (d : Dev) (id : Nat) (block : BitVec 16) : ∃ p, d.arrive id block = { d with pwr := p } := by
  simp only [Dev.arrive]
  split <;> exact ⟨_, rfl⟩

@[simp] theorem arrive_flog (d : Dev) (id : Nat) (block : BitVec 16) : (d.arrive id block).flog = d.flog := by
  obtain ⟨p, hp⟩ := arrive_pwr d id block
  rw [hp]

@[simp] theorem putUnit_flog (d : Dev) (a : Nat) (bytes : List Byte) (lo hi : Bool) : (d.putUnit a bytes lo hi).flog = d.flog := by
  simp [Dev.putUnit]

@[simp] theorem interrupt_flog (d : Dev) (vector : BitVec 11) : (d.interrupt vector).flog = d.flog := by
  unfold Dev.interrupt; split <;> rfl

/-! ## FAULT_LOG_RECORD -/

section
variable {d : Dev} {r : LogRec} {rest : List LogRec} (h : d.flog.offered = r :: rest)
include h

/-- The command runs on the device as the log unit has taken the record. -/
theorem faultLogRecord_takes : ∃ entry, faultLogRecord d =
    (let e := d.takes r rest
     let f := d.flog.took r rest
     if !f.ctl.getLsbD 0 || d.flog.full then { e with flog := f.lose }
     else if !d.ringOk d.flog.place 64 then ({ e with flog := f.lose } : Dev).logSelector d.flog.place r
     else
       let w := e.putUnit d.flog.place entry false false
       let w : Dev := { w with flog := { f with tail := f.tail + 1 } }
       if f.ctl.getLsbD 2 then w.interrupt (BitVec.ofNat 11 (bits 26 16 f.ctl.toNat)) else w) := by
  refine ⟨(({ d with flog := { d.flog with offered := rest } } : Dev).logTake r).2, ?_⟩
  have hf := takes_flog d r rest
  have hok := takes_ringOk d r rest d.flog.place 64
  simp only [← hf, ← hok]
  have hfull : d.flog.full = (d.takes r rest).flog.full := by rw [hf]; rfl
  have hplace : d.flog.place = (d.takes r rest).flog.place := by rw [hf]; rfl
  rw [hfull, hplace]
  unfold faultLogRecord
  rw [h]
  simp only [putUnit_flog]
  rfl

/-- The ring is enabled and has room at a place that takes writes: the entry stands there. -/
theorem faultLogRecord_written (hon : d.flog.ctl.getLsbD 0 = true) (hroom : d.flog.full = false)
    (hok : d.ringOk d.flog.place 64 = true) :
    (faultLogRecord d).flog = { d.flog.took r rest with tail := d.flog.tail + 1 } := by
  obtain ⟨entry, he⟩ := faultLogRecord_takes h
  have hctl : (d.flog.took r rest).ctl.getLsbD 0 = true := hon
  simp only [he, hctl, hroom, hok, Bool.not_true, Bool.or_self, Bool.false_eq_true, if_false]
  split
  · exact interrupt_flog _ _
  · rfl

/-- The ring is disabled or full: the record is lost. -/
theorem faultLogRecord_shut (hshut : d.flog.ctl.getLsbD 0 = false ∨ d.flog.full = true) :
    (faultLogRecord d).flog = (d.flog.took r rest).lose := by
  obtain ⟨entry, he⟩ := faultLogRecord_takes h
  have hctl : (!(d.flog.took r rest).ctl.getLsbD 0 || d.flog.full) = true := by
    rcases hshut with hoff | hfull
    · have hoff : (d.flog.took r rest).ctl.getLsbD 0 = false := hoff
      rw [hoff]; rfl
    · rw [hfull, Bool.or_true]
  simp only [he, hctl, if_true]

/-- The place in the ring takes no writes: the record is lost, and the log unit may record that it met a reserved selector. -/
theorem faultLogRecord_unwritable (hon : d.flog.ctl.getLsbD 0 = true) (hroom : d.flog.full = false)
    (hok : d.ringOk d.flog.place 64 = false) :
    faultLogRecord d = ({ d.takes r rest with flog := (d.flog.took r rest).lose } : Dev).logSelector d.flog.place r := by
  obtain ⟨entry, he⟩ := faultLogRecord_takes h
  have hctl : (d.flog.took r rest).ctl.getLsbD 0 = true := hon
  simp only [he, hctl, hroom, hok, Bool.not_true, Bool.not_false, Bool.or_self, Bool.false_eq_true, if_false, if_true]

end

/-- The log unit meets a reserved selector with a record that is not its own of one (R11; log 114). -/
def Reserved (a : Nat) (r : LogRec) : Prop := 4 ≤ bits 47 44 a ∧ r.ownSelector = false

theorem logSelector_flog (d : Dev) (a : Nat) (r : LogRec) :
    ∃ (offered : List LogRec) (seqs : Tab (BitVec 48)),
      (d.logSelector a r).flog = { d.flog with offered := offered, unitSeq := seqs } ∧
      (¬ Reserved a r → offered = d.flog.offered) ∧
      (Reserved a r → ∃ x, offered = d.flog.offered ++ [x] ∧ x.ownSelector = true) := by
  by_cases h : Reserved a r
  · obtain ⟨x, seqs, hx, hkind, hcode, hunit⟩ := unitRecord_flog d 10 0 0 fltAddrSelector {}
    obtain ⟨hsel, hown⟩ := id h
    refine ⟨_, seqs, ?_, (absurd h ·), fun _ => ⟨x, rfl, ?_⟩⟩
    · simpa [Dev.logSelector, hsel, hown] using hx
    · simp [LogRec.ownSelector, hkind, hcode, hunit]
  · refine ⟨_, d.flog.unitSeq, congrArg Dev.flog (if_neg ?_), fun _ => rfl, (absurd · h)⟩
    simpa [Reserved] using h

/-- The ring takes the next entry. -/
def Dev.logOpen (d : Dev) : Prop := d.flog.ctl.getLsbD 0 = true ∧ d.flog.full = false ∧ d.ringOk d.flog.place 64 = true

/-- The log unit's own record of a reserved selector follows the record taken. -/
def Dev.logRefused (d : Dev) (r : LogRec) : Prop :=
  d.flog.ctl.getLsbD 0 = true ∧ d.flog.full = false ∧ Reserved d.flog.place r

/-- What a record that the ring does not take leaves. -/
theorem faultLogRecord_lost {d : Dev} {r : LogRec} {rest : List LogRec} (h : d.flog.offered = r :: rest) (hshut : ¬ d.logOpen) :
    ∃ (offered : List LogRec) (seqs : Tab (BitVec 48)),
      (faultLogRecord d).flog = { (d.flog.took r rest).lose with offered := offered, unitSeq := seqs } ∧
      (¬ d.logRefused r → offered = rest) ∧ (d.logRefused r → ∃ x, offered = rest ++ [x] ∧ x.ownSelector = true) := by
  by_cases hring : d.flog.ctl.getLsbD 0 = true ∧ d.flog.full = false
  · obtain ⟨hon, hroom⟩ := hring
    have hok : d.ringOk d.flog.place 64 = false := by simpa [Dev.logOpen, hon, hroom] using hshut
    rw [faultLogRecord_unwritable h hon hroom hok]
    obtain ⟨offered, seqs, hflog, hkept, hown⟩ :=
      logSelector_flog { d.takes r rest with flog := (d.flog.took r rest).lose } d.flog.place r
    exact ⟨offered, seqs, hflog, fun hr => hkept fun hres => hr ⟨hon, hroom, hres⟩, fun ⟨_, _, hres⟩ => hown hres⟩
  · have hoff : d.flog.ctl.getLsbD 0 = false ∨ d.flog.full = true := by
      simpa only [not_and_or, Bool.not_eq_true, Bool.not_eq_false] using hring
    rw [faultLogRecord_shut h hoff]
    exact ⟨rest, d.flog.unitSeq, rfl, fun _ => rfl, fun ⟨hon, hroom, _⟩ => absurd ⟨hon, hroom⟩ hring⟩

/-- A lasting record is kept whether the ring takes it or not. -/
theorem faultLogRecord_keeps {d : Dev} {r : LogRec} {rest : List LogRec} (h : d.flog.offered = r :: rest) (hl : r.lasting = true) :
    (faultLogRecord d).flog.keepTotal = d.flog.keepTotal + 1 ∧
      (faultLogRecord d).flog.keep.find (d.flog.keepTotal % 256) = some (logEntry d.flog.lseq r) := by
  have htook : (d.flog.took r rest).keepTotal = d.flog.keepTotal + 1 ∧
      (d.flog.took r rest).keep.find (d.flog.keepTotal % 256) = some (logEntry d.flog.lseq r) := by
    simp [FaultLog.took, hl, Tab.find_set_self]
  by_cases hopen : d.logOpen
  · obtain ⟨hon, hroom, hok⟩ := hopen
    rw [faultLogRecord_written h hon hroom hok]
    exact htook
  · obtain ⟨_, _, hflog, _⟩ := faultLogRecord_lost h hopen
    rw [hflog]
    exact htook

end Sys2Proof.Machine
end

section
/-! Tile phases (R259–R263): what dispatches leave, those of END included, and the two commands of a phase. -/

namespace Sys2Proof.Machine

/-! ## Messages that leave -/

/-- A message on its way changes nothing but the network, where it displaces no other, the links and the log. -/
theorem emit_eq (d : Dev) (c : Nat) (m : Msg) :
    ∃ net away ports flog, d.emit c m = { d with net := net, away := away, ports := ports, flog := flog } ∧ d.net ⊆ net := by
  unfold Dev.emit
  split
  · split
    · exact ⟨_, d.away, d.ports, d.flog, rfl, List.subset_append_left _ _⟩
    · exact ⟨d.net, d.away, d.ports, _, rfl, List.Subset.refl _⟩
  · split
    · exact ⟨d.net, _, _, d.flog, rfl, List.Subset.refl _⟩
    · exact ⟨d.net, d.away, d.ports, _, rfl, List.Subset.refl _⟩

theorem seqSend_eq (d : Dev) (m : Msg) :
    ∃ net away ports flog, d.seqSend m = { d with net := net, away := away, ports := ports, flog := flog } ∧ d.net ⊆ net := by
  unfold Dev.seqSend
  split
  · exact ⟨_, d.away, d.ports, d.flog, rfl, List.subset_append_left _ _⟩
  · split
    · exact emit_eq d 12 m
    · exact ⟨d.net, d.away, d.ports, _, rfl, List.Subset.refl _⟩

@[simp] theorem seqSend_seq (d : Dev) (m : Msg) : (d.seqSend m).seq = d.seq := by
  obtain ⟨_, _, _, _, h, _⟩ := seqSend_eq d m; rw [h]
@[simp] theorem seqSend_number (d : Dev) (m : Msg) : (d.seqSend m).number = d.number := by
  obtain ⟨_, _, _, _, h, _⟩ := seqSend_eq d m; rw [h]
@[simp] theorem seqSend_suite (d : Dev) (m : Msg) : (d.seqSend m).suite = d.suite := by
  obtain ⟨_, _, _, _, h, _⟩ := seqSend_eq d m; rw [h]
@[simp] theorem seqSend_benches (d : Dev) (m : Msg) : (d.seqSend m).benches = d.benches := by
  obtain ⟨_, _, _, _, h, _⟩ := seqSend_eq d m; rw [h]

theorem seqSend_net (d : Dev) (m : Msg) : d.net ⊆ (d.seqSend m).net := by
  obtain ⟨_, _, _, _, h, hnet⟩ := seqSend_eq d m; rw [h]; exact hnet

/-- A message of the sequencer to this device is in its network. -/
theorem mem_seqSend_net {d : Dev} {m : Msg} (h : epDev m.dest = d.number.toNat) : m ∈ (d.seqSend m).net := by
  simp [Dev.seqSend, h]

/-- The endpoint of a seat names the seat's device. -/
theorem epDev_seatEp {k : Nat} (h : k / 1152 < 64) : epDev (seatEp k) = k / 1152 := by
  have hcab : k % 1152 / 96 < 12 := by omega
  have hbench : k % 96 < 96 := by omega
  simp only [epDev, seatEp, bits, BitVec.toNat_ofNat]
  generalize k / 1152 = dev, k % 1152 / 96 = cab, k % 96 = bench at *
  omega

/-! ## One dispatch (R260, R261) -/

@[simp] theorem writeEpoch_queue (b : Bench) (q : Nat) (e : BitVec 16) (chk : Bool) :
    (b.writeEpoch q e chk).queue q = { b.queue q with epoch := e, chk := chk } := by
  unfold Bench.writeEpoch
  split <;> simp [Bench.queue]

@[simp] theorem seatEpoch_seq (d : Dev) (seat : Nat) (q : Fin 8) (e : BitVec 16) : (d.seatEpoch seat q e).seq = d.seq := by
  unfold Dev.seatEpoch; split <;> rfl
@[simp] theorem seatEpoch_number (d : Dev) (seat : Nat) (q : Fin 8) (e : BitVec 16) : (d.seatEpoch seat q e).number = d.number := by
  unfold Dev.seatEpoch; split <;> rfl
@[simp] theorem seatEpoch_net (d : Dev) (seat : Nat) (q : Fin 8) (e : BitVec 16) : (d.seatEpoch seat q e).net = d.net := by
  unfold Dev.seatEpoch; split <;> rfl

theorem seatEpoch_sent (d : Dev) (seat : Nat) (q : Fin 8) (e : BitVec 16) : d.suite.sent ⊆ (d.seatEpoch seat q e).suite.sent := by
  unfold Dev.seatEpoch
  split
  · exact List.Subset.refl _
  · exact List.subset_append_left _ _

/-- The bench of another seat of this device keeps its queues. -/
theorem seatEpoch_bench_ne {d : Dev} {seat k : Nat} (q : Fin 8) (e : BitVec 16) (hk : k / 1152 = d.number.toNat) (hne : k ≠ seat) :
    (d.seatEpoch seat q e).bench (k % 1152) = d.bench (k % 1152) := by
  unfold Dev.seatEpoch
  split
  · next hseat =>
    have hseat := beq_iff_eq.mp hseat
    exact Dev.bench_modBench_ne _ _ (by omega)
  · rfl

@[simp] theorem dispatch_snd (d : Dev) (seat : Nat) (q : Fin 8) (task : BitVec 32) (args : List Byte) :
    (d.dispatch seat q task args).2 = d.freshEpoch := rfl

@[simp] theorem dispatch_seq (d : Dev) (seat : Nat) (q : Fin 8) (task : BitVec 32) (args : List Byte) :
    (d.dispatch seat q task args).1.seq = { d.seq with epoch := d.freshEpoch, msgSeq := d.seq.msgSeq + 1 } := by
  simp [Dev.dispatch]

@[simp] theorem dispatch_number (d : Dev) (seat : Nat) (q : Fin 8) (task : BitVec 32) (args : List Byte) :
    (d.dispatch seat q task args).1.number = d.number := by
  simp [Dev.dispatch]

@[simp] theorem dispatch_suite (d : Dev) (seat : Nat) (q : Fin 8) (task : BitVec 32) (args : List Byte) :
    (d.dispatch seat q task args).1.suite = (d.seatEpoch seat q d.freshEpoch).suite := by
  simp [Dev.dispatch]

@[simp] theorem dispatch_benches (d : Dev) (seat : Nat) (q : Fin 8) (task : BitVec 32) (args : List Byte) :
    (d.dispatch seat q task args).1.benches = (d.seatEpoch seat q d.freshEpoch).benches := by
  simp [Dev.dispatch]

theorem dispatch_bench (d : Dev) (seat : Nat) (q : Fin 8) (task : BitVec 32) (args : List Byte) (j : Nat) :
    (d.dispatch seat q task args).1.bench j = (d.seatEpoch seat q d.freshEpoch).bench j := by
  simp only [Dev.bench, dispatch_benches]

theorem dispatch_net (d : Dev) (seat : Nat) (q : Fin 8) (task : BitVec 32) (args : List Byte) :
    d.net ⊆ (d.dispatch seat q task args).1.net := by
  refine List.Subset.trans ?_ (seqSend_net _ _)
  simp

/-- A dispatch to a bench of this device: the fresh epoch stands in the queue, and the message is in the network. -/
theorem dispatch_here {d : Dev} {seat : Nat} (q : Fin 8) (task : BitVec 32) (args : List Byte) (h : seat / 1152 = d.number.toNat) :
    (((d.dispatch seat q task args).1.bench (seat % 1152)).queue q.val).epoch = d.freshEpoch ∧
      ∃ m ∈ (d.dispatch seat q task args).1.net, m.dest = seatEp seat ∧ m.queue = q ∧ m.epoch = d.freshEpoch ∧
        atN m.payload 0 4 = task.toNat := by
  have hdev : epDev (seatEp seat) = d.number.toNat := (epDev_seatEp (h ▸ d.number.isLt)).trans h
  constructor
  · rw [dispatch_bench]
    simp [Dev.seatEpoch, h]
  · refine ⟨_, mem_seqSend_net ?_, rfl, rfl, rfl, ?_⟩
    · simpa using hdev
    · simp only [atN, List.drop_zero, List.append_assoc]
      rw [List.take_append_of_le_length (by simp), take_leBytes _ le_rfl, leNat_leBytes]
      exact Nat.mod_eq_of_lt task.isLt

/-- A dispatch to a bench of another device: its device is told the fresh epoch (log 44). -/
theorem dispatch_away {d : Dev} {seat : Nat} (q : Fin 8) (task : BitVec 32) (args : List Byte) (h : seat / 1152 ≠ d.number.toNat) :
    .epoch (seatEp seat) q d.freshEpoch ∈ (d.dispatch seat q task args).1.suite.sent := by
  simp [Dev.seatEpoch, h]

/-! ## What dispatches leave -/

/-- `e` is `d` after dispatches to none but the seats `ks`, of tasks that neither come from the queue nor count as running: those of END
(R262). -/
structure Dispatched (ks : List Nat) (d e : Dev) : Prop where
  number : e.number = d.number
  tiles : e.seq.tiles = d.seq.tiles
  run : ∀ r, d.seq.run = some r → ∃ r', e.seq.run = some r' ∧ r'.running = r.running ∧ r'.tiles = r.tiles ∧ r'.idle ⊆ r.idle
  net : d.net ⊆ e.net
  sent : d.suite.sent ⊆ e.suite.sent
  bench : ∀ k, k / 1152 = d.number.toNat → k ∉ ks → e.bench (k % 1152) = d.bench (k % 1152)

theorem Dispatched.refl (ks : List Nat) (d : Dev) : Dispatched ks d d where
  number := rfl
  tiles := rfl
  run := fun r hr => ⟨r, hr, rfl, rfl, List.Subset.refl _⟩
  net := List.Subset.refl _
  sent := List.Subset.refl _
  bench := fun _ _ _ => rfl

theorem Dispatched.trans {ks : List Nat} {d e f : Dev} (h : Dispatched ks d e) (g : Dispatched ks e f) : Dispatched ks d f where
  number := g.number.trans h.number
  tiles := g.tiles.trans h.tiles
  run := fun r hr => by
    obtain ⟨r', hr', hrun, htiles, hidle⟩ := h.run r hr
    obtain ⟨r'', hr'', hrun', htiles', hidle'⟩ := g.run r' hr'
    exact ⟨r'', hr'', hrun'.trans hrun, htiles'.trans htiles, List.Subset.trans hidle' hidle⟩
  net := List.Subset.trans h.net g.net
  sent := List.Subset.trans h.sent g.sent
  bench := fun k hk hks => (g.bench k (by rw [h.number]; exact hk) hks).trans (h.bench k hk hks)

/-- The step in flight goes on with fewer idle benches. -/
theorem Dispatched.setRun {ks : List Nat} {d : Dev} {r r' : StepRun} (h : d.seq.run = some r) (hrun : r'.running = r.running)
    (htiles : r'.tiles = r.tiles) (hidle : r'.idle ⊆ r.idle) :
    Dispatched ks d { d with seq := { d.seq with run := some r' } } where
  number := rfl
  tiles := rfl
  run := fun x hx => by
    obtain rfl := Option.some.inj (h.symm.trans hx)
    exact ⟨r', rfl, hrun, htiles, hidle⟩
  net := List.Subset.refl _
  sent := List.Subset.refl _
  bench := fun _ _ _ => rfl

theorem dispatched_dispatch {ks : List Nat} (d : Dev) {seat : Nat} (q : Fin 8) (task : BitVec 32) (args : List Byte) (h : seat ∈ ks) :
    Dispatched ks d (d.dispatch seat q task args).1 where
  number := by simp
  tiles := by simp
  run := fun r hr => ⟨r, by simpa using hr, rfl, rfl, List.Subset.refl _⟩
  net := dispatch_net d seat q task args
  sent := by rw [dispatch_suite]; exact seatEpoch_sent d seat q _
  bench := fun k hk hks => by
    rw [dispatch_bench]
    exact seatEpoch_bench_ne q _ hk fun he => hks (he ▸ h)

theorem dispatched_sendEnds {ks l : List Nat} (d : Dev) (h : l ⊆ ks) : Dispatched ks d (d.sendEnds l) := by
  induction l generalizing d with
  | nil => exact Dispatched.refl ks d
  | cons k t ih =>
    obtain ⟨hk, ht⟩ := List.cons_subset.mp h
    unfold Dev.sendEnds
    split
    · exact Dispatched.refl ks d
    · next r hr =>
      split
      · next kd _ =>
        split
        · exact ih d ht
        · refine ((dispatched_dispatch d kd.queue 0xFFFFFFFF#32 (List.replicate 104 0) hk).trans ?_).trans (ih _ ht)
          exact Dispatched.setRun (r := r) (by simpa using hr) rfl rfl (List.filter_subset_self _)
      · exact ih d ht

/-- The check of R262 dispatches END at most, to idle benches. -/
theorem dispatched_tileCheck {d : Dev} {r : StepRun} (h : d.seq.run = some r) : Dispatched r.idle d d.tileCheck := by
  unfold Dev.tileCheck
  split
  · exact Dispatched.refl _ d
  · next x hx =>
    have hxr : x = r := by
      simp only [Dev.tilePhase, h] at hx
      split at hx
      · exact (Option.some.inj hx).symm
      · cases hx
    subst hxr
    simp only
    split
    · exact Dispatched.refl _ d
    · have hstops := Dispatched.setRun (ks := x.idle) (r' := { x with stopping := true }) h rfl rfl (List.Subset.refl _)
      exact hstops.trans (dispatched_sendEnds _ (List.Subset.refl _))

/-! ## TILE_DISPATCH (R260) -/

/-- The device with task `t` dispatched to seat `k` on the queue of `kd`, before the check of R262. -/
def Dev.placed (d : Dev) (run : StepRun) (t : TileTask) (k : Nat) (kd : TileKind) : Dev :=
  let e := (d.dispatch k kd.queue t.task t.args).1
  { e with seq := { e.seq with
    admitNeeds := 0, tiles := d.seq.tiles.filter (fun x => x.task != t.task)
    run := some { run with
      idle := run.idle.filter (· != k), running := run.running ++ [⟨t, k, d.freshEpoch⟩], reserve := run.reserve + 32 } } }

/-- A task with an idle bench is placed where the result ring has room for its entry. -/
theorem tileDispatch_places {d : Dev} {run : StepRun} {t : TileTask} {k : Nat} {kd : TileKind} (hphase : d.tilePhase = some run)
    (hgoes : run.stopping = false) (hnext : d.nextTile run = some (t, k)) (hkind : d.seq.sec.kinds[t.kind]? = some kd)
    (hroom : 0 < d.seq.room) : tileDispatch d = (d.placed run t k kd).tileCheck := by
  have hfull : (d.seq.room == 0) = false := by simp; omega
  simp [tileDispatch, hphase, hgoes, hnext, hkind, hfull, Dev.placed]

/-! ## TILE_COMPLETION (R261) -/

@[simp] theorem arrive_seq (d : Dev) (id : Nat) (block : BitVec 16) : (d.arrive id block).seq = d.seq := by
  obtain ⟨p, hp⟩ := arrive_pwr d id block
  rw [hp]
@[simp] theorem arrive_number (d : Dev) (id : Nat) (block : BitVec 16) : (d.arrive id block).number = d.number := by
  obtain ⟨p, hp⟩ := arrive_pwr d id block
  rw [hp]

/-- An arrival keeps a domain ON that is. -/
theorem domOn_arrive {d : Dev} {id : Nat} (block : BitVec 16) (h : d.domOn id = true) : (d.arrive id block).domOn id = true := by
  unfold Dev.arrive
  simp only
  split
  · simp [Dev.domOn]
  · exact h

/-- The sequencer takes the first message from a sender where its domain is ON (R433). -/
theorem takeSeq_takes {d : Dev} {src : BitVec 18} {m : Msg} {p : Msg → Bool} (hm : d.toSeq src = some m) (hon : d.domOn ed0Dom = true)
    (hp : p m = true) :
    ∃ e : Dev, d.takeSeq src p = (e, some m) ∧ e.seq = d.seq ∧ e.number = d.number := by
  refine ⟨{ d.arrive ed0Dom (d.senderBlock src) with net := (d.arrive ed0Dom (d.senderBlock src)).net.erase m }, ?_, by simp, by simp⟩
  simp [Dev.takeSeq, hm, hp, domOn_arrive _ hon]

/-- The tile phase is the sequencer's, on the plan's leader. -/
theorem tilePhase_congr {d e : Dev} (hseq : e.seq = d.seq) (hnumber : e.number = d.number) : e.tilePhase = d.tilePhase := by
  simp [Dev.tilePhase, Dev.leader, hseq, hnumber]

/-- The step in flight with the completion of placement `x` and its status. -/
def StepRun.completed (run : StepRun) (x : TileRun) (status : Nat) : StepRun :=
  { run with
    running := run.running.filter (fun y => y.task.task != x.task.task), idle := nsInsert x.seat run.idle
    tiles := run.tiles ++ [tileEntry x.task status] }

/-- The completion of a task's current placement ends it. -/
theorem tileCompletion_completes {d : Dev} {src : BitVec 18} {m : Msg} {run : StepRun} {x : TileRun} (hm : d.toSeq src = some m)
    (hon : d.domOn ed0Dom = true) (hkind : atN m.payload 0 2 = 2) (hphase : d.tilePhase = some run)
    (hx : run.running.find? (fun x => x.task.task == BitVec.ofNat 32 (atN m.payload 4 4) && x.epoch == BitVec.ofNat 16 (atN m.payload 8 2)) =
      some x) :
    ∃ e : Dev, e.seq.run = some (run.completed x (atN m.payload 2 2)) ∧ tileCompletion d src = e.tileCheck := by
  obtain ⟨e, htake, hseq, hnumber⟩ := takeSeq_takes (p := fun m => atN m.payload 0 2 == 2) hm hon (by simp [hkind])
  refine ⟨{ e with seq := { e.seq with run := some (run.completed x (atN m.payload 2 2)) } }, rfl, ?_⟩
  have htask : x.task.task = BitVec.ofNat 32 (atN m.payload 4 4) := by
    have := List.find?_some hx
    simp only [Bool.and_eq_true, beq_iff_eq] at this
    exact this.1
  simp only [tileCompletion, htake, tilePhase_congr hseq hnumber, hphase, hx, StepRun.completed, htask]

end Sys2Proof.Machine
end

section
/-! Doorbells (R237, R239, R272, R337), the end of a load (Sequence 2-2), and the statement about tile phases, rings and loads. -/

namespace Sys2Proof.Machine

/-! ## Nothing waits to be performed -/

/-- No stack and no sideboard holds a write that has not been performed. -/
structure NothingAccepted (d : Dev) : Prop where
  stks : ∀ p ∈ d.stks, p.2.held = []
  sbs : ∀ j, (d.sb j).dq = []

theorem NothingAccepted.stk {d : Dev} (h : NothingAccepted d) (j : Nat) : (d.stk j).held = [] :=
  Tab.get_all (P := fun x : Stack => x.held = []) rfl h.stks j

theorem performAll_idle {d : Dev} (h : NothingAccepted d) : d.performAll = d := by
  have hstks : d.performStks (fun _ => true) = d := List.foldl_fixed' (fun j => by simp [h.stk j]) _
  unfold Dev.performAll
  rw [hstks]
  exact List.foldl_fixed' (fun j => by simp [h.sbs j]) _

theorem hostHeld_idle {d : Dev} (h : NothingAccepted d) : d.hostHeld = false := by
  simp only [Dev.hostHeld, List.any_eq_false]
  intro p hp
  simp [h.stks p hp]

/-! ## A doorbell of this device takes its turn (R337, R239) -/

/-- With nothing before it, a doorbell of this device takes effect at once. -/
theorem hostArrives_bell {d : Dev} (result : Bool) (v : BitVec 32) (hnum : d.suite.numbered = true) (hp : d.bridge.parked = [])
    (hs : d.bridge.sent = []) (h : NothingAccepted d) :
    d.hostArrives (.bell d.number.toNat result v false) = d.doorbellHere result v := by
  have hprep : d.hostPrep (.bell d.number.toNat result v false) = d := performAll_idle h
  have hfree : (d.hostPrep (.bell d.number.toNat result v false)).hostBlocked (.bell d.number.toNat result v false) = false := by
    simp [hprep, Dev.hostBlocked, hostHeld_idle h, hs]
  rw [Dev.hostArrives_now hp hfree, hprep]
  simp [Dev.hostNow, Dev.bellNow, Dev.hostTarget, hnum]

/-- Class H traffic that passes its checks changes nothing but its port (Table 14-7). -/
theorem classH_ports {d e : Dev} {w : Via} {n : Nat} {bad request : Bool} (h : d.classH w n bad request = .ok e) :
    ∃ x, e = d.setPort w.port.val x := by
  unfold Dev.classH at h
  simp only at h
  split_ifs at h
  exact ⟨_, (Except.ok.inj h).symm⟩

/-- The device `d` at which a doorbell of this device arrives: itself at the suite head, with the port of the link elsewhere (R400). -/
def BellAt (s : Dev) (via : Option Via) (d : Dev) : Prop :=
  match via with
  | none => s.suite.head = true ∧ s.bridge.linkUp = true ∧ d = s
  | some w => s.suite.head = false ∧ s.classH w 2 false true = .ok d

/-- It differs from this device in its ports at most. -/
theorem BellAt.ports {s d : Dev} {via : Option Via} (h : BellAt s via d) : ∃ ps, d = { s with ports := ps } := by
  cases via with
  | none =>
    obtain ⟨_, _, rfl⟩ := h
    exact ⟨d.ports, rfl⟩
  | some w =>
    obtain ⟨x, rfl⟩ := classH_ports h.2
    exact ⟨_, rfl⟩

/-- The doorbell arrives, behind the host accesses that wait. -/
theorem BellAt.arrives {s d : Dev} {via : Option Via} (h : BellAt s via d) (hnum : s.suite.numbered = true) (result : Bool) (v : BitVec 32) :
    doorbell s s.number.toNat via result v = d.hostArrives (.bell s.number.toNat result v false) := by
  cases via with
  | none =>
    obtain ⟨hhead, hlink, rfl⟩ := h
    simp [doorbell, Dev.hostUp, hhead, hlink]
  | some w =>
    obtain ⟨hhead, hok⟩ := h
    obtain ⟨x, rfl⟩ := classH_ports hok
    have hflits : hostFlits 4 = 2 := rfl
    simp [doorbell, Dev.viaLink, hflits, hok, hhead, hnum]

/-- And takes effect there, where nothing is to be done before it. -/
theorem BellAt.doorbell {s d : Dev} {via : Option Via} (h : BellAt s via d) (hnum : s.suite.numbered = true) (hp : s.bridge.parked = [])
    (hs : s.bridge.sent = []) (hidle : NothingAccepted s) (result : Bool) (v : BitVec 32) :
    doorbell s s.number.toNat via result v = d.doorbellHere result v := by
  rw [h.arrives hnum]
  obtain ⟨ps, rfl⟩ := h.ports
  exact hostArrives_bell (d := { s with ports := ps }) result v hnum hp hs ⟨hidle.stks, hidle.sbs⟩

/-! ## The two counters (R239) -/

theorem badDoorbell_records {d e : Dev} (h : e = d.badDoorbell) :
    e.seq = d.seq ∧ e.flog.offered.length = d.flog.offered.length + 1 := by
  subst h
  exact ⟨rfl, unitRecord_offered_length ..⟩

/-- The new tail of the command ring lies between the old one and the end of the ring. -/
def Seq.tailOk (q : Seq) (v : BitVec 32) : Prop :=
  (q.cmdTail - q.cmdHead).toNat ≤ (v - q.cmdHead).toNat ∧ (v - q.cmdHead).toNat ≤ 2 ^ ringLog2 q.cmdBase

/-- The new head of the result ring does not pass its tail. -/
def Seq.headOk (q : Seq) (v : BitVec 32) : Prop := (v - q.resultHead).toNat ≤ (q.resultTail - q.resultHead).toNat

theorem writeCmdTail_taken {d : Dev} {v : BitVec 32} (hf : d.follower = false) (h : d.seq.tailOk v) :
    writeCmdTail d v = { d with seq := { d.seq with cmdTail := v } } := by
  refine if_neg ?_
  simpa only [hf, Bool.false_or, Bool.or_eq_true, decide_eq_true_eq, not_or, Nat.not_lt, Seq.tailOk] using h

theorem writeCmdTail_bad {d : Dev} {v : BitVec 32} (h : d.follower = true ∨ ¬ d.seq.tailOk v) : writeCmdTail d v = d.badDoorbell := by
  refine if_pos ?_
  simpa only [Seq.tailOk, not_and_or, Nat.not_le, Bool.or_eq_true, decide_eq_true_eq, or_assoc] using h

theorem writeResultHead_taken {d : Dev} {v : BitVec 32} (hf : d.follower = false) (h : d.seq.headOk v) (hq : QuietSequencer d) :
    writeResultHead d v = { d with seq := { d.seq with resultHead := v } } := by
  obtain ⟨hrecords, hclosing, _, hplan⟩ := hq
  have hflush : ({ d with seq := { d.seq with resultHead := v } } : Dev).flush = { d with seq := { d.seq with resultHead := v } } :=
    Dev.flush_idle hrecords hclosing
  refine (if_neg ?_).trans ((congrArg Dev.endUnload hflush).trans (Dev.endUnload_idle hplan))
  simpa only [hf, Bool.false_or, decide_eq_true_eq, Nat.not_lt, Seq.headOk] using h

theorem writeResultHead_bad {d : Dev} {v : BitVec 32} (h : d.follower = true ∨ ¬ d.seq.headOk v) : writeResultHead d v = d.badDoorbell := by
  refine if_pos ?_
  simpa only [Seq.headOk, Nat.not_le, Bool.or_eq_true, decide_eq_true_eq] using h

/-! ## The end of a load (Sequence 2-2) -/

/-- A load that has placed an image whose cabinets are active and whose tables load ends in LOADED, with the sequencer at its start. -/
theorem planLoadComplete_loads {d : Dev} {tables : Cmp} (hst : d.plan.st = .loading) (hheld : d.plan.held = false)
    (hcabs : (imageOf d.plan.image).cabs.all d.active = true) (htab : d.planTables (imageOf d.plan.image) = .ok tables) :
    let t := planLoadComplete d
    t.plan.st = .loaded ∧ t.plan.planId = (imageOf d.plan.image).planId ∧ t.step = 0 ∧
      t.discards = [] ∧ t.seq.run = none ∧ t.seq.cmdHead = 0 ∧ t.seq.cmdTail = 0 ∧ t.seq.resultHead = 0 ∧ t.seq.resultTail = 0 ∧
      t.seq.reqs = [] ∧ t.seq.prefixes = [] ∧ t.seq.adapters = [] ∧ t.seq.tiles = [] := by
  have hactive : (imageOf d.plan.image).cabs.any (fun c => !d.active c) = false := by
    simpa using hcabs
  simp [planLoadComplete, hst, hheld, hactive, htab]

/-! ## Tile phases, rings and loads -/

/-- Settles O51: each command leaves what its own lemma says, the check of R262 after the two of a tile phase dispatching END at most, to
benches that are idle. -/
theorem tilesAndRings : Obligations.TilesAndRings := by
  unfold Obligations.TilesAndRings
  intro s q
  refine ⟨?dispatch, ?completion, ?doorbells, ?load, ?log⟩
  case dispatch =>
    intro run task k kd hphase hgoes hnext hkind hroom
    obtain ⟨number, tiles, hrun, net, sent, bench⟩ :=
      dispatched_tileCheck (d := s.placed run task k kd) rfl
    obtain ⟨run', hrun', hrunning, _, hidle⟩ := hrun _ rfl
    have hk : k ∉ run.idle.filter (· != k) := by simp
    refine ⟨{ s with toDev := tileDispatch s.toDev }, run', rfl, ?_⟩
    rw [tileDispatch_places hphase hgoes hnext hkind hroom]
    refine ⟨hrun', hrunning, fun hmem => hk (hidle hmem), tiles, ?_⟩
    split
    · next hhere =>
      obtain ⟨hepoch, m, hm, hmsg⟩ := dispatch_here kd.queue task.task task.args hhere
      have hnumber : (s.placed run task k kd).number = s.number := dispatch_number ..
      refine ⟨?_, m, net hm, hmsg⟩
      rw [bench k (by rw [hnumber]; exact hhere) hk]
      exact hepoch
    · next haway => exact sent (dispatch_away kd.queue task.task task.args haway)
  case completion =>
    intro src m run x hm hon hkind hphase hx
    obtain ⟨e, he, hcompletes⟩ := tileCompletion_completes hm hon hkind hphase hx
    obtain ⟨run', hrun', hrunning, htiles, _⟩ := (dispatched_tileCheck he).run _ he
    refine ⟨{ s with toDev := tileCompletion s.toDev src }, run', rfl, ?_⟩
    rw [hcompletes]
    exact ⟨hrun', hrunning, htiles⟩
  case doorbells =>
    intro via d v hnum hvia cmdOk resultOk hp hs hstks hsbs
    have hat : BellAt s.toDev via d := by cases via <;> exact hvia
    have hbell (result : Bool) : doorbell s.toDev s.number.toNat via result v = d.doorbellHere result v :=
      hat.doorbell hnum hp hs ⟨hstks, hsbs⟩ result v
    obtain ⟨ps, rfl⟩ := hat.ports
    have cmd := congrArg (done s) (hbell false)
    have result := congrArg (done s) (hbell true)
    refine ⟨fun hf hok => cmd.trans ?_, fun hbad => ⟨_, cmd, ?_⟩, fun hf hok hq => result.trans ?_, fun hbad => ⟨_, result, ?_⟩⟩
    · exact congrArg (done s) (writeCmdTail_taken (d := { s.toDev with ports := ps }) hf hok)
    · exact badDoorbell_records (d := { s.toDev with ports := ps }) (writeCmdTail_bad hbad)
    · exact congrArg (done s) (writeResultHead_taken (d := { s.toDev with ports := ps }) hf hok hq)
    · exact badDoorbell_records (d := { s.toDev with ports := ps }) (writeResultHead_bad hbad)
  case load =>
    intro tables hst hheld hcabs htab
    exact ⟨{ s with toDev := planLoadComplete s.toDev }, rfl, planLoadComplete_loads hst hheld hcabs htab⟩
  case log =>
    intro r rest hoffered a open_
    refine ⟨?written, ?shut, ?lasting⟩
    case written =>
      intro ⟨hon, hroom, hok⟩
      refine ⟨{ s with toDev := faultLogRecord s.toDev }, rfl, ?_⟩
      rw [faultLogRecord_written hoffered hon hroom hok]
      exact ⟨rfl, rfl, rfl, rfl⟩
    case shut =>
      intro hshut
      obtain ⟨offered, seqs, hflog, hkept, hown⟩ := faultLogRecord_lost hoffered hshut
      refine ⟨{ s with toDev := faultLogRecord s.toDev }, rfl, ?_⟩
      rw [hflog]
      exact ⟨hkept, hown, rfl, rfl, rfl, rfl⟩
    case lasting =>
      exact fun hl => ⟨{ s with toDev := faultLogRecord s.toDev }, rfl, faultLogRecord_keeps hoffered hl⟩

end Sys2Proof.Machine
end

section
/-! Upkeep of the stores (R160, R161, R203, R326, R353, R525): refreshes, write batches, the patrol scrub and the drawer port's queue. -/

namespace Sys2Proof.Machine

/-! ## Tables -/

/-- An erased entry reads as the default. -/
@[simp] theorem Tab.get_erase_self {α : Type} (t : Tab α) (d : α) (k : Nat) : Tab.get (t.erase k) d k = d := by
  induction t with
  | nil => rfl
  | cons p t ih =>
    obtain ⟨j, v⟩ := p
    by_cases hj : j = k
    · simpa [Tab.erase, hj] using ih
    · simpa [Tab.erase, hj, Tab.get] using ih

/-! ## Words that show no error (R348) -/

/-- A stack without latent errors meets none. -/
theorem touchWords_clean {d : Dev} {s : Nat} (p : Nat → Bool) (h : (d.stk s).upsets = []) : d.touchWords s p = d := by
  simp [Dev.touchWords, h]

/-- Nor does a sideboard. -/
theorem touchSbWords_clean {d : Dev} {c : Nat} (p : Nat → Bool) (h : (d.sb c).upsets = []) : d.touchSbWords c p = d := by
  simp [Dev.touchSbWords, h]

/-- A read that shows no error changes nothing. -/
@[simp] theorem stkError_nil (d : Dev) (s w : Nat) (again : List SymErr) : d.stkError s ⟨w, [], again⟩ = d := rfl
@[simp] theorem sbError_nil (d : Dev) (c w : Nat) (again : List SymErr) : d.sbError c ⟨w, [], again⟩ = d := rfl
@[simp] theorem addUpset_nil (us : List Upset) (w : Nat) (again : List SymErr) : addUpset us w ⟨[], again⟩ = us := rfl
@[simp] theorem scrubPassed_nil (total lo hi : Nat) (offset : Nat → Nat) : scrubPassed total lo hi offset [] = [] := rfl

/-- With no latent error held writes are performed and nothing else happens (R205). -/
theorem performSome_clean {d : Dev} {s : Nat} (r : List HeldWrite × List HeldWrite) (h : (d.stk s).upsets = []) :
    d.performSome s r = d.setStk s ((d.stk s).performSome r) := by
  simp only [Dev.performSome, touchWords_clean _ h]

/-! ## Refresh (R160, R203) -/

theorem refreshPerform_idle {d : Dev} {s : Nat} (n : Nat) (busy : Bool) (h : d.stkRuns s = false) : refreshPerform d s n busy = d := by
  simp [refreshPerform, h]

/-- What a due refresh leaves owed. -/
def Stack.refreshed (st : Stack) (n : Nat) (busy : Bool) : Stack :=
  { st with postponed := if busy && decide (st.postponed.get 0 n + 1 < 8) then st.postponed.set n (st.postponed.get 0 n + 1)
                         else st.postponed.erase n }

theorem refreshPerform_running {d : Dev} {s : Nat} (n : Nat) (busy : Bool) (h : d.stkRuns s = true) :
    refreshPerform d s n busy = d.setStk s ((d.stk s).refreshed n busy) := by
  simp [refreshPerform, h, Stack.refreshed]

theorem refreshed_owed (st : Stack) (n : Nat) (busy : Bool) :
    (st.refreshed n busy).postponed.get 0 n = if busy = true ∧ st.postponed.get 0 n + 1 < 8 then st.postponed.get 0 n + 1 else 0 := by
  by_cases h : busy = true ∧ st.postponed.get 0 n + 1 < 8
  · simp [Stack.refreshed, h]
  · have : (busy && decide (st.postponed.get 0 n + 1 < 8)) = false := by simpa using h
    simp only [Stack.refreshed, this, if_neg h, Bool.false_eq_true, if_false, Tab.get_erase_self]

/-! ## Write batches (R161, R525) -/

/-- Sectors of 64 bytes that a list of held writes touches. -/
def heldSectors (hs : List HeldWrite) : Finset Nat := (hs.map (fun h => h.key / 64)).toFinset

theorem card_heldSectors (hs : List HeldWrite) : (hs.map (fun h => h.key / 64)).dedup.length = (heldSectors hs).card :=
  (List.card_toFinset _).symm

@[simp] theorem heldSectors_cons (h : HeldWrite) (hs : List HeldWrite) :
    heldSectors (h :: hs) = insert (h.key / 64) (heldSectors hs) := by
  simp [heldSectors]

/-- A batch takes a channel's writes from a first part of the held ones, at most `n` new sectors, and stops only before one too many. -/
theorem takeBatch_split (ch n : Nat) (secs : List Nat) (held : List HeldWrite) :
    ∃ k, (takeBatch ch n secs held).1 = (held.take k).filter (fun h => h.key / chanSize == ch) ∧
      (takeBatch ch n secs held).2 = (held.take k).filter (fun h => h.key / chanSize != ch) ++ held.drop k ∧
      (heldSectors (takeBatch ch n secs held).1 \ secs.toFinset).card ≤ n ∧
      (k = held.length ∨ (heldSectors (takeBatch ch n secs held).1 \ secs.toFinset).card = n) := by
  induction held generalizing n secs with
  | nil => exact ⟨0, rfl, rfl, by simp [takeBatch, heldSectors], .inl rfl⟩
  | cons h t ih =>
    by_cases hch : h.key / chanSize = ch
    case neg =>
      obtain ⟨k, hgo, hstay, hle, hend⟩ := ih n secs
      refine ⟨k + 1, ?_, ?_, ?_, ?_⟩ <;> simp_all [takeBatch]
    case pos =>
      by_cases hsec : h.key / 64 ∈ secs
      · obtain ⟨k, hgo, hstay, hle, hend⟩ := ih n secs
        have hsame : insert (h.key / 64) (heldSectors (takeBatch ch n secs t).1) \ secs.toFinset =
            heldSectors (takeBatch ch n secs t).1 \ secs.toFinset :=
          Finset.insert_sdiff_of_mem _ (List.mem_toFinset.mpr hsec)
        refine ⟨k + 1, ?_, ?_, ?_, ?_⟩ <;> simp_all [takeBatch]
      · cases n with
        | zero => exact ⟨0, by simp [takeBatch, hch, hsec], by simp [takeBatch, hch, hsec],
            by simp [takeBatch, hch, hsec, heldSectors], .inr (by simp [takeBatch, hch, hsec, heldSectors])⟩
        | succ m =>
          obtain ⟨k, hgo, hstay, hle, hend⟩ := ih m (h.key / 64 :: secs)
          have hcard : (insert (h.key / 64) (heldSectors (takeBatch ch m (h.key / 64 :: secs) t).1) \ secs.toFinset).card =
              (heldSectors (takeBatch ch m (h.key / 64 :: secs) t).1 \ (h.key / 64 :: secs).toFinset).card + 1 := by
            rw [List.toFinset_cons, Finset.sdiff_insert, Finset.insert_sdiff_of_notMem _ (by simpa using hsec)]
            rw [← Finset.card_erase_add_one (Finset.mem_insert_self _ _), Finset.erase_insert_eq_erase]
          refine ⟨k + 1, ?_, ?_, ?_, ?_⟩ <;> simp_all [takeBatch]
          
theorem takeBatch_batchSplit (ch n : Nat) (held : List HeldWrite) :
    BatchSplit ch n held (takeBatch ch n [] held).1 (takeBatch ch n [] held).2 := by
  obtain ⟨k, hgo, hstay, hle, hend⟩ := takeBatch_split ch n [] held
  simp only [List.toFinset_nil, Finset.sdiff_empty, ← card_heldSectors] at hle hend
  exact ⟨k, hgo, hstay, hle, hend⟩

theorem writeBatch_idle {d : Dev} {s ch : Nat} (h : d.stkRuns s = false ∨ (d.stk s).chanHeld ch = true) : d.writeBatch s ch = d := by
  rcases h with h | h <;> simp [Dev.writeBatch, h]

theorem writeBatch_running {d : Dev} {s ch : Nat} (hruns : d.stkRuns s = true) (hheld : (d.stk s).chanHeld ch = false)
    (hclean : (d.stk s).upsets = []) :
    d.writeBatch s ch = d.setStk s ((d.stk s).performSome (takeBatch ch (bits 23 16 (d.stk s).classCtl.toNat) [] (d.stk s).held)) := by
  simp [Dev.writeBatch, hruns, hheld, performSome_clean _ hclean]

/-! ## Patrol scrub (R353, R354) -/

/-- A unit that is written twice holds what was written last. -/
@[simp] theorem Tab.set_set {α : Type} (t : Tab α) (k : Nat) (v w : α) : (t.set k v).set k w = t.set k w := by
  induction t with
  | nil => simp [Tab.set]
  | cons p t ih =>
    obtain ⟨j, u⟩ := p
    by_cases hj : j = k
    · simp [Tab.set, hj]
    · by_cases hlt : k < j
      · simp [Tab.set, hj, hlt]
      · simp [Tab.set, hj, hlt, ih]

@[simp] theorem setStk_setStk (d : Dev) (s : Nat) (x y : Stack) : (d.setStk s x).setStk s y = d.setStk s y := by
  simp [Dev.setStk]

@[simp] theorem setSb_setSb (d : Dev) (c : Nat) (x y : Sideboard) : (d.setSb c x).setSb c y = d.setSb c y := by
  simp [Dev.setSb]

/-- The scrub of a word that shows no error, in a stack without latent errors, leaves the stack as it is. -/
theorem scrubWord_clean {d : Dev} {s : Nat} (w : Nat) (h : (d.stk s).upsets = []) : d.scrubWord s w ⟨[], []⟩ = d.setStk s (d.stk s) := by
  have hkeep : { d.stk s with upsets := [] } = d.stk s := by rw [← h]
  simp [Dev.scrubWord, touchWords_clean _ h, h, hkeep]

/-- A bit of a register, read from its number. -/
theorem bit_toNat {n : Nat} (i : Nat) (v : BitVec n) : bit i v.toNat = v.getLsbD i := BitVec.testBit_toNat v

/-- Whether the stack's scrub goes on (R164, R353; log 76). -/
def Dev.stkScrubs (d : Dev) (s : Nat) : Bool := d.stkRuns s && (d.stk s).filled && !(d.stk s).hold && (d.stk s).scrubCtl.getLsbD 12

theorem scrubStack_idle {d : Dev} {s : Nat} (word : Nat) (now later : WordErr) (h : d.stkScrubs s = false) :
    scrubStack d s word now later = d := by
  refine if_pos ?_
  simp only [Dev.stkScrubs, Bool.and_eq_false_iff, Bool.not_eq_false'] at h
  rcases h with ((h | h) | h) | h
  · simp [h]
  · simp [h]
  · simp [h]
  · simp only [bit_toNat, h, Bool.not_false, Bool.or_true, Bool.true_or]

theorem scrubStack_clean {d : Dev} {s word : Nat} (hword : word < 0x90000000) (h : d.stkScrubs s = true)
    (hclean : (d.stk s).upsets = []) :
    scrubStack d s word ⟨[], []⟩ ⟨[], []⟩ = d.setStk s { d.stk s with scrubAt := (word + 1) % 0x90000000 } := by
  simp only [Dev.stkScrubs, Bool.and_eq_true, Bool.not_eq_true'] at h
  obtain ⟨⟨⟨hruns, hfilled⟩, hhold⟩, hon⟩ := h
  have hsize : stkSize / 32 = 0x90000000 := rfl
  have hgo : (!d.stkRuns s || !(d.stk s).filled || (d.stk s).hold || !bit 12 (d.stk s).scrubCtl.toNat || decide (0x90000000 ≤ word)) = false := by
    simp only [hruns, hfilled, hhold, bit_toNat, hon, Nat.not_le.mpr hword, decide_false, Bool.not_true, Bool.or_self]
  simp only [scrubStack, hsize, hgo, hclean, List.map_nil, scrubPassed_nil, List.foldl_nil, Bool.false_eq_true, if_false]
  split
  · rfl
  · rw [scrubWord_clean _ (by simp)]
    simp

theorem scrubSideboard_idle {d : Dev} {c : Nat} (word : Nat) (now later : WordErr)
    (h : (!d.fenced c && d.domOn (sbDom c) && (d.sb c).filled) = false) : scrubSideboard d c word now later = d := by
  refine if_pos ?_
  simp only [Bool.and_eq_false_iff, Bool.not_eq_false'] at h
  rcases h with (h | h) | h <;> simp [h]

theorem scrubSideboard_clean {d : Dev} {c word : Nat} (hword : word < 0x300000)
    (h : (!d.fenced c && d.domOn (sbDom c) && (d.sb c).filled) = true) (hclean : (d.sb c).upsets = []) :
    scrubSideboard d c word ⟨[], []⟩ ⟨[], []⟩ = d.setSb c { d.sb c with scrubAt := (word + 1) % 0x300000 } := by
  simp only [Bool.and_eq_true, Bool.not_eq_true'] at h
  obtain ⟨⟨hfence, hon⟩, hfilled⟩ := h
  have hsize : sbSize / 32 = 0x300000 := rfl
  have hgo : (d.fenced c || !d.domOn (sbDom c) || !(d.sb c).filled || decide (0x300000 ≤ word)) = false := by
    simp [hfence, hon, hfilled, hword]
  simp only [scrubSideboard, hsize, hgo, hclean, List.map_nil, scrubPassed_nil, List.foldl_nil, Bool.false_eq_true, if_false]
  rw [touchSbWords_clean _ (by simp)]
  simp

/-! ## The drawer port's queue (R326) -/

/-- A write through a sideboard's port changes its store alone. -/
theorem sbWriteSectors_mem (sb : Sideboard) (replace : Bool) (parts : List (Nat × List Byte)) (marked : Nat → Bool) (hit : Option Nat) :
    ∃ m, (sbWriteSectors sb replace parts marked hit).1 = { sb with mem := m } := by
  induction parts generalizing sb hit with
  | nil => exact ⟨sb.mem, rfl⟩
  | cons p t ih =>
    simp only [sbWriteSectors]
    split
    · obtain ⟨m, hm⟩ := ih { sb with mem := sb.mem.store p.1 p.2 marked } hit
      exact ⟨m, hm⟩
    · obtain ⟨m, hm⟩ := ih { sb with mem := (sb.combine p.1 p.2 marked).1 }
        (if (sb.combine p.1 p.2 marked).2 && hit.isNone then some (p.1 / 64 * 64) else hit)
      exact ⟨m, hm⟩

/-- A write that replaces, sector by sector, stores its bytes and no other, whatever regions it crosses (R168). -/
theorem sbWriteSectors_replace {sb : Sideboard} {n x : Nat} {data : List Byte} (marked : Nat → Bool) (hit : Option Nat)
    (hlen : data.length ≤ n) (hwf : sb.mem.wf = true) :
    (sbWriteSectors sb true (cutSectors n x data) marked hit).2 = hit ∧
      ∀ i, (sbWriteSectors sb true (cutSectors n x data) marked hit).1.mem.byte i =
        if x ≤ i ∧ i < x + data.length then data.getD (i - x) 0 else sb.mem.byte i := by
  induction n generalizing sb x data with
  | zero =>
    obtain rfl := List.eq_nil_of_length_eq_zero (Nat.le_zero.mp hlen)
    exact ⟨rfl, fun i => (if_neg (by simp)).symm⟩
  | succ n ih =>
    cases data with
    | nil => exact ⟨rfl, fun i => (if_neg (by simp)).symm⟩
    | cons v vs =>
      have hk : 0 < 64 - x % 64 := by omega
      obtain ⟨hhit, hbytes⟩ := ih (sb := { sb with mem := sb.mem.store x ((v :: vs).take (64 - x % 64)) marked })
        (x := x + (64 - x % 64)) (data := (v :: vs).drop (64 - x % 64)) (by simp only [List.length_drop]; omega)
        (Mem.wf_store _ _ _ hwf)
      refine ⟨hhit, fun i => (hbytes i).trans ?_⟩
      rw [Mem.byte_store _ _ _ _ hwf, List.length_take, List.length_drop]
      generalize 64 - x % 64 = k at *
      generalize v :: vs = data at *
      by_cases htail : x + k ≤ i ∧ i < x + k + (data.length - k)
      · rw [if_pos htail, if_pos (by omega)]
        simp only [List.getD_eq_getElem?_getD, List.getElem?_drop]
        congr 2; omega
      · rw [if_neg htail]
        by_cases hhead : x ≤ i ∧ i < x + min k data.length
        · rw [if_pos hhead, if_pos (by omega)]
          simp only [List.getD_eq_getElem?_getD]
          rw [List.getElem?_take_of_lt (by omega)]
        · rw [if_neg hhead, if_neg (by omega)]

theorem drawerPortDrain_idle {d : Dev} {c : Nat} (h : (d.sb c).dq = [] ∨ d.fenced c = true) : drawerPortDrain d c = d := by
  unfold drawerPortDrain
  rcases h with h | h
  · simp [h]
  · simp [h]

theorem sb_congr {d e : Dev} (h : d.sbs = e.sbs) (j : Nat) : d.sb j = e.sb j := congrArg (fun t : Tab Sideboard => t.get Sideboard.reset j) h

theorem performDrawerWrite_sbs (d : Dev) (c : Nat) (w : PortWrite) :
    ∃ m, (d.performDrawerWrite c w).sbs = (d.setSb c { d.sb c with mem := m }).sbs := by
  obtain ⟨m, hm⟩ := sbWriteSectors_mem (d.sb c) w.replace (cutSectors w.data.length w.off w.data) (fun k => w.marks.contains k) none
  refine ⟨m, ?_⟩
  simp only [Dev.performDrawerWrite, Sideboard.performPort, hm]
  split <;> rfl

/-- The oldest write leaves the queue; the rest of the device sees at most a record. -/
theorem drawerPortDrain_oldest {d : Dev} {c : Nat} {w : PortWrite} {rest : List PortWrite} (hq : (d.sb c).dq = w :: rest)
    (hfence : d.fenced c = false) : ∃ m, (drawerPortDrain d c).sbs = (d.setSb c { d.sb c with dq := rest, mem := m }).sbs := by
  obtain ⟨m, hm⟩ := performDrawerWrite_sbs (d.setSb c { d.sb c with dq := rest }) c w
  refine ⟨m, ?_⟩
  simp only [Dev.sb_setSb_self, setSb_setSb] at hm
  simp only [drawerPortDrain, hq, hfence, Bool.false_eq_true, if_false, hm]

theorem drawerPortDrain_replace {d : Dev} {c : Nat} {w : PortWrite} {rest : List PortWrite} (hq : (d.sb c).dq = w :: rest)
    (hfence : d.fenced c = false) (hrep : w.replace = true) (hwf : (d.sb c).mem.wf = true) :
    ∃ sb', drawerPortDrain d c = d.setSb c sb' ∧ ∀ i, sb'.mem.byte i =
      if w.off ≤ i ∧ i < w.off + w.data.length then w.data.getD (i - w.off) 0 else (d.sb c).mem.byte i := by
  obtain ⟨hhit, hbytes⟩ := sbWriteSectors_replace (sb := { d.sb c with dq := rest }) (x := w.off) (fun k => w.marks.contains k) none
    (le_refl w.data.length) hwf
  refine ⟨_, ?_, hbytes⟩
  simp only [drawerPortDrain, hq, hfence, Dev.performDrawerWrite, Sideboard.performPort, hrep, Dev.sb_setSb_self, hhit,
    setSb_setSb, Bool.false_eq_true, if_false]

/-! ## The statement -/

theorem stk_setStk_frame (d : Dev) (s : Nat) (x : Stack) : ∀ j, j ≠ s → (d.setStk s x).stk j = d.stk j :=
  fun _ hj => Dev.stk_setStk_ne d x hj

/-- Settles O41: each of the five commands by what it does where it acts, and by what keeps it from acting. -/
theorem stackMaintenance : Obligations.StackMaintenance := by
  unfold Obligations.StackMaintenance
  refine ⟨fun sk s => ⟨fun bank busy => ⟨fun hruns => ?_, fun hidle => ?_⟩, fun ch => ⟨fun hruns hheld hclean => ?_, fun hidle => ?_⟩,
    fun word hword => ⟨fun hscrubs hclean => ?_, fun hidle now later => ?_⟩⟩,
    fun c s => ⟨fun word hword => ⟨fun hscrubs hclean => ?_, fun hidle now later => ?_⟩, fun w rest hq hfence => ?_, fun hidle => ?_⟩⟩
  · refine ⟨_, congrArg (done s) (refreshPerform_running bank.val busy hruns), rfl, stk_setStk_frame _ _ _, ?_, ?_⟩
    · simp [Stack.refreshed]
    · simp only [Dev.stk_setStk_self, refreshed_owed]
  · exact congrArg (done s) (refreshPerform_idle bank.val busy hidle)
  · have hbatch := congrArg (done s) (writeBatch_running hruns hheld hclean)
    exact ⟨_, _, takeBatch_batchSplit _ _ _, hbatch, hbatch⟩
  · have hbatch := congrArg (done s) (writeBatch_idle hidle)
    exact ⟨hbatch, hbatch⟩
  · exact ⟨_, congrArg (done s) (scrubStack_clean hword hscrubs hclean), rfl, stk_setStk_frame _ _ _, Dev.stk_setStk_self _ _ _⟩
  · exact congrArg (done s) (scrubStack_idle word.toNat now later hidle)
  · exact ⟨_, congrArg (done s) (scrubSideboard_clean hword hscrubs hclean), rfl, fun j hj => Dev.sb_setSb_ne _ _ hj, Dev.sb_setSb_self _ _ _⟩
  · exact congrArg (done s) (scrubSideboard_idle word.toNat now later hidle)
  · obtain ⟨m, hsbs⟩ := drawerPortDrain_oldest hq hfence
    have hsb := sb_congr hsbs
    refine ⟨_, rfl, ?_, fun j hj => (hsb j).trans (Dev.sb_setSb_ne _ _ hj), fun hrep hwf => ?_⟩
    · exact (congrArg Sideboard.dq (hsb c.val)).trans (by simp)
    · obtain ⟨sb', hdrain, hbytes⟩ := drawerPortDrain_replace hq hfence hrep hwf
      rw [hdrain]
      exact ⟨rfl, fun i => (by simpa using hbytes i)⟩
  · exact congrArg (done s) (drawerPortDrain_idle hidle)

end Sys2Proof.Machine
end

section
/-! Bench records (R103, R104) and fences on their way (R331, R332, R336): drain markers, the suite marker and its timeout. -/

namespace Sys2Proof.Machine

/-! ## What a trace entry and a fault record leave of their bench (R104, R474) -/

theorem capture_trace (b : Bench) (src : BitVec 18) (planId step kind : Nat) (iss : Issue) (peer data : Nat) (lost : Bool) :
    ∃ m t, b.capture src planId step kind iss peer data lost = { b with traceMem := m, trace := t } := by
  simp only [Bench.capture]
  split
  · exact ⟨_, _, rfl⟩
  · exact ⟨b.traceMem, b.trace, rfl⟩

theorem bench_trace_self (d : Dev) (k kind : Nat) (iss : Issue) (peer data : Nat) :
    ∃ m t, (d.trace k kind iss peer data).bench k = { d.bench k with traceMem := m, trace := t } := by
  simp only [Dev.trace, Dev.bench_modBench_self]
  exact capture_trace ..

theorem bench_benchRecord_self (d : Dev) (k : Nat) (code : BitVec 16) (iss : Issue) (step : BitVec 16) (detail : Nat) :
    ∃ m t, (d.benchRecord k code iss step detail).bench k = { d.bench k with
      traceMem := m, trace := t, faultSeq := (d.bench k).faultSeq + 1, faultOverrun := (d.bench k).faultOverrun || (d.bench k).faultPending
      faultCode := code, faultPending := true, faultStep := step, faultTag := iss.tag } := by
  obtain ⟨m, t, hmt⟩ := bench_trace_self (d.offer ⟨1, rec32 ((d.bench k).faultSeq.toNat * 65536 + code.toNat)
    (iss.tag.toNat * 2 ^ 48 + d.plan.planId.toNat * 2 ^ 32 + step.toNat * 65536 + ((d.bench k).queues.get QCfg.reset 0).epoch.toNat)
    ((d.benchEp k).toNat * 2 ^ 46 + (iss.pc % 2 ^ 18) * 2 ^ 28 + iss.slot * 2 ^ 25 + b2n iss.repeated * 2 ^ 24 + iss.index % 2 ^ 24)
    detail, false⟩) k 4 iss 0 ((d.bench k).faultSeq.toNat * 65536 + code.toNat)
  refine ⟨m, t, ?_⟩
  simp only [Dev.benchRecord, Dev.bench_modBench_self, hmt, Dev.bench_offer]

/-- A wait that ends leaves of its bench everything but the wait and the trace. -/
theorem bench_waitEnds_self {d : Dev} {k : Nat} {w : Wait} (bd : Bundle) (idx : Nat) (h : (d.bench k).wait = some w) :
    ∃ m t, (d.waitEnds k bd idx).bench k = { d.bench k with traceMem := m, trace := t, wait := none } := by
  obtain ⟨m, t, hmt⟩ := bench_trace_self d k 6 ⟨bd.tag, (d.bench k).arch.pc, 0, bd.rep.val != 0, idx⟩ 0 w.kind.toNat
  exact ⟨m, t, by simp only [Dev.waitEnds, h, Dev.bench_modBench_self, hmt]⟩

@[simp] theorem waitEnds_discards (d : Dev) (k : Nat) (bd : Bundle) (idx : Nat) : (d.waitEnds k bd idx).discards = d.discards := by
  simp only [Dev.waitEnds]; split <;> rfl
@[simp] theorem waitEnds_step (d : Dev) (k : Nat) (bd : Bundle) (idx : Nat) : (d.waitEnds k bd idx).step = d.step := by
  simp only [Dev.waitEnds]; split <;> rfl

/-- A fault after which the bench waits for the discard (R103). -/
theorem benchFault_awaits {d : Dev} {code : BitVec 16} (k : Nat) (iss : Issue) (detail : Nat)
    (h : code = fltPoisonConsumed ∨ code = fltFenceSuite) :
    d.benchFault k code iss detail = ((d.benchRecord k code iss (BitVec.ofNat 16 d.step.toNat) detail).modBench k
      (fun b => { b with awaitDiscard := true, haltReq := false })).discard code := by
  have hcode : (code == fltPoisonConsumed || code == fltFenceSuite) = true := by simpa using h
  simp only [Dev.benchFault, hcode, if_true]

/-! ## Drain markers (R20, R331) -/

theorem performDrawerWrite_dq (d : Dev) (c : Nat) (w : PortWrite) : ((d.performDrawerWrite c w).sb c).dq = (d.sb c).dq := by
  obtain ⟨m, hm⟩ := performDrawerWrite_sbs d c w
  simp only [sb_congr hm, Dev.sb_setSb_self]

theorem drainDrawerPort_dq {d : Dev} {c : Nat} (h : d.fenced c = false) : ((d.drainDrawerPort c).sb c).dq = [] := by
  simp only [Dev.drainDrawerPort, h, Bool.false_eq_true, if_false]
  refine (foldl_keep (p := fun d : Dev => (d.sb c).dq) _ _ fun d w => performDrawerWrite_dq d c w).trans ?_
  simp

/-- Every held write is due where all are. -/
theorem splitDue_all (hs : List HeldWrite) : splitDue (fun _ => true) hs = (hs, []) := by
  induction hs with
  | nil => rfl
  | cons h t ih => simp [splitDue, ih]

theorem drainStk_held (d : Dev) (s : Nat) : ((d.drainStk s (fun _ => true)).stk s).held = [] := by
  simp [Dev.drainStk, splitDue_all, Dev.performSome, Stack.performSome]

/-- The marker of bench k is acknowledged at place p. -/
def Dev.ackMarker (d : Dev) (k : Nat) (f : FenceRun) (p : Place) : Dev :=
  d.modBench k (fun b => { b with fence := some { f with places := f.places.filter (· != p) } })

section
variable {d : Dev} {k : Nat} {f : FenceRun} (hf : (d.bench k).fence = some f)
include hf

theorem drainMarker_sideboard {c : Cab} (h : .sideboard c ∈ f.places) : drainMarker d k (.sideboard c) =
    (if d.fenced c.val then d else d.drainDrawerPort c.val).ackMarker k f (.sideboard c) := by
  simp only [drainMarker, hf, List.contains_iff_mem.mpr h, Bool.not_true, Bool.false_eq_true, if_false]
  split <;> rfl

theorem drainMarker_stack {x : Stk} (h : .stack x ∈ f.places) (hopen : d.fenced (x.val / 2) = true ∨ (d.stk x.val).hold = false) :
    drainMarker d k (.stack x) =
      (if d.fenced (x.val / 2) then d else d.drainStk x.val (fun _ => true)).ackMarker k f (.stack x) := by
  simp only [drainMarker, hf, List.contains_iff_mem.mpr h, Bool.not_true, Bool.false_eq_true, if_false]
  split
  · rfl
  · next hfence =>
    have hhold : (d.stk x.val).hold = false := hopen.resolve_left hfence
    simp only [hhold, Bool.false_eq_true, if_false]; rfl

theorem drainMarker_held {x : Stk} (h : .stack x ∈ f.places) (hfence : d.fenced (x.val / 2) = false) (hhold : (d.stk x.val).hold = true) :
    (drainMarker d k (.stack x)).bench k = { (d.drainStk x.val (fun h => !(d.stk x.val).keyHeld h.key)).bench k with
      fence := some { f with held := if f.held.contains x then f.held else f.held ++ [x] } } := by
  simp only [drainMarker, hf, List.contains_iff_mem.mpr h, hfence, hhold, Bool.not_true, Bool.false_eq_true, if_false, if_true,
    Dev.bench_modBench_self]

/-! ## The suite marker (R332, R336) -/

theorem fenceSuiteMarker_back (hsuite : f.suite = true) : fenceSuiteMarker d k =
    d.modBench k (fun b => { b with fence := some { f with suite := false, places := d.places } }) := by
  simp only [fenceSuiteMarker, hf, hsuite, if_true]

/-- The marker has not come back in time (R332). -/
theorem fenceSuiteTimeout_ends (hscope : f.scope = .suite) (hsuite : f.suite = true) {w : Wait} (hw : (d.bench k).wait = some w) :
    ((fenceSuiteTimeout d k).bench k).fence = none ∧ ((fenceSuiteTimeout d k).bench k).wait = none ∧
      ((fenceSuiteTimeout d k).bench k).awaitDiscard = true ∧ ((fenceSuiteTimeout d k).bench k).faultCode = fltFenceSuite ∧
      (fenceSuiteTimeout d k).discards = d.discards ++ [⟨fltFenceSuite, d.step.setWidth 16⟩] := by
  obtain ⟨m, t, hwait⟩ := bench_waitEnds_self w.bundle (d.bench k).repIdx hw
  have hrun : (f.scope == .suite && f.suite) = true := by simp [hscope, hsuite]
  simp only [fenceSuiteTimeout, hf, hw, hrun, if_true, benchFault_awaits _ _ _ (.inr rfl : fltFenceSuite = _ ∨ _)]
  generalize hiss : Issue.mk _ _ _ _ _ = iss
  obtain ⟨m', t', hrec⟩ := bench_benchRecord_self ((d.waitEnds k w.bundle (d.bench k).repIdx).modBench k
    (fun b => { b with fence := none, lateMarkers := b.lateMarkers + 1 })) k fltFenceSuite iss (BitVec.ofNat 16 d.step.toNat) 0
  simp only [Dev.modBench_step, waitEnds_step, Dev.bench_discard, Dev.bench_modBench_self, hrec, hwait]
  refine ⟨trivial, trivial, trivial, trivial, ?_⟩
  simp [Dev.discard]
end

/-- The device `d` at which a suite marker comes back: the suite head without crossing a link, another device over one (R332). -/
def MarkerAt (s : Dev) (via : Option Via) (d : Dev) : Prop :=
  match via with
  | none => s.suite.head = true ∧ d = s
  | some v => s.suite.head = false ∧ s.classH v 1 false true = .ok d

theorem MarkerAt.ports {s d : Dev} {via : Option Via} (h : MarkerAt s via d) : ∃ ps, d = { s with ports := ps } := by
  cases via with
  | none =>
    obtain ⟨_, rfl⟩ := h
    exact ⟨d.ports, rfl⟩
  | some v =>
    obtain ⟨x, rfl⟩ := classH_ports h.2
    exact ⟨_, rfl⟩

/-- The marker takes its place behind the host accesses that came before it. -/
theorem MarkerAt.arrives {s d : Dev} {via : Option Via} (h : MarkerAt s via d) (b : BenchId) :
    suiteMarker s (.back b via) = d.hostArrives (.fence (benchKey b)) := by
  cases via with
  | none =>
    obtain ⟨hhead, rfl⟩ := h
    simp [suiteMarker, hhead]
  | some v =>
    obtain ⟨hhead, hok⟩ := h
    obtain ⟨x, rfl⟩ := classH_ports hok
    have hflits : hostFlits 0 = 1 := rfl
    simp [suiteMarker, Dev.viaLink, hflits, hok, hhead]

/-- An access that waits holds back those behind it (R337). -/
theorem hostArrives_behind {d : Dev} {h a : HostAcc} {r : List HostAcc} (hp : d.bridge.parked = h :: r)
    (hb : (({ d with bridge := { d.bridge with parked := [] } } : Dev).hostPrep h).hostBlocked h = true) :
    ∃ h', (d.hostArrives a).bridge.parked = h' :: (r ++ [a]) := by
  simp only [Dev.hostArrives, hp, List.isEmpty_cons, Bool.false_eq_true, if_false, List.cons_append, Dev.serve, hb, if_true]
  exact ⟨_, rfl⟩

/-! ## The statement -/

/-- Settles O23: an acknowledged marker is filtered out of the places, a marker on hold stays, and the suite marker takes its turn. -/
theorem fenceMarkers : Obligations.FenceMarkers := by
  unfold Obligations.FenceMarkers
  intro b s f k hf
  refine ⟨fun c hc => ?_, fun x hx hopen => ?_, fun x hx hfence hhold => ?_, fun hsuite via d hat => ?_, fun hscope hsuite hwait => ?_⟩
  · refine ⟨_, congrArg (done s) (drainMarker_sideboard hf hc), ?_, fun hfence => ?_⟩
    · simp [Dev.ackMarker]
    · simpa [Dev.ackMarker, hfence] using drainDrawerPort_dq hfence
  · refine ⟨_, congrArg (done s) (drainMarker_stack hf hx hopen), ?_, fun hfence => ?_⟩
    · simp [Dev.ackMarker]
    · simpa [Dev.ackMarker, hfence] using drainStk_held s.toDev x.val
  · refine ⟨_, _, rfl, congrArg Bench.fence (drainMarker_held hf hx hfence hhold), rfl, ?_⟩
    show x ∈ if f.held.contains x then f.held else f.held ++ [x]
    split
    · next hin => exact List.contains_iff_mem.mp hin
    · simp
  · have hmark : MarkerAt s.toDev via d := by cases via <;> exact hat
    have harr := congrArg (done s) (hmark.arrives b)
    obtain ⟨ps, rfl⟩ := hmark.ports
    refine ⟨fun hp => ?_, fun h r hp hblocked => ?_⟩
    · have hnow : ({ s.toDev with ports := ps } : Dev).hostArrives (.fence k) = fenceSuiteMarker { s.toDev with ports := ps } k :=
        Dev.hostArrives_now hp rfl
      refine ⟨_, harr.trans (congrArg (done s) (hnow.trans (fenceSuiteMarker_back hf hsuite))), ⟨rfl, fun j hj => ?_⟩, ?_⟩
      · exact Dev.bench_modBench_ne _ _ hj
      · exact Dev.bench_modBench_self _ _ _
    · obtain ⟨h', hparked⟩ := hostArrives_behind (d := { s.toDev with ports := ps }) (a := .fence k) hp hblocked
      exact ⟨_, h', harr, hparked⟩
  · obtain ⟨w, hw⟩ := Option.isSome_iff_exists.mp hwait
    exact ⟨_, rfl, fenceSuiteTimeout_ends hf hscope hsuite hw⟩

end Sys2Proof.Machine
end

section
/-! Messages at an inbox (R47, R48, R50–R52) and those that a fenced destination returns (R20, R43, R104). -/

namespace Sys2Proof.Machine

/-! ## Nothing waits for a decision to be carried out (R237, R264, R335) -/

theorem settle_quiet {d : Dev} (h : QuietSequencer d) : d.settle = d := by
  obtain ⟨hrecords, hclosing, hleader, hplan⟩ := h
  have hheed : d.heedLeader = d := by simp [Dev.heedLeader, hleader]
  rw [Dev.settle, Dev.flush_idle hrecords hclosing, hheed, Dev.endUnload_idle hplan]

/-! ## The inbox's decision (R47, R48, R50, R52) -/

section
variable {b : Bench} {m : Msg}

theorem judge_oversize (h : (b.queue m.queue.val).cap = 0 ∨ 1024 * (b.queue m.queue.val).cap.toNat < m.payload.length) :
    b.judge m = .oversize := by
  refine if_pos ?_
  rcases h with h | h
  · simp [h]
  · simp [h]

variable (hcap : 0 < (b.queue m.queue.val).cap.toNat) (hlen : m.payload.length ≤ 1024 * (b.queue m.queue.val).cap.toNat)
include hcap hlen

/-- A message that its queue can hold is judged by its step, its epoch and the room left. -/
theorem judge_fits : b.judge m =
    if b.dropStep == some m.step then .stale
    else if (b.queue m.queue.val).chk && m.epoch != (b.queue m.queue.val).epoch then .stale
    else if decide (1024 * (b.queue m.queue.val).cap.toNat < b.queueUsed m.queue + m.room) then .waits
    else .store := by
  refine if_neg ?_
  simp [Nat.pos_iff_ne_zero.mp hcap, Nat.not_lt.mpr hlen]

theorem judge_stale (hchk : (b.queue m.queue.val).chk = true) (hepoch : m.epoch ≠ (b.queue m.queue.val).epoch) : b.judge m = .stale := by
  rw [judge_fits hcap hlen]
  split
  · rfl
  · simp [hchk, hepoch]

theorem judge_current (hepoch : (b.queue m.queue.val).chk = true → m.epoch = (b.queue m.queue.val).epoch)
    (hstep : b.dropStep ≠ some m.step) : b.judge m =
      if decide (1024 * (b.queue m.queue.val).cap.toNat < b.queueUsed m.queue + m.room) then .waits else .store := by
  have hfresh : ((b.queue m.queue.val).chk && m.epoch != (b.queue m.queue.val).epoch) = false := by
    cases hchk : (b.queue m.queue.val).chk
    · rfl
    · simp [hepoch hchk]
  rw [judge_fits hcap hlen, hfresh]
  simp [hstep]

end

/-! ## MESSAGE_ARRIVAL -/

@[simp] theorem arrive_benches (d : Dev) (id : Nat) (block : BitVec 16) : (d.arrive id block).benches = d.benches := by
  obtain ⟨p, hp⟩ := arrive_pwr d id block
  rw [hp]

@[simp] theorem arrive_net (d : Dev) (id : Nat) (block : BitVec 16) : (d.arrive id block).net = d.net := by
  obtain ⟨p, hp⟩ := arrive_pwr d id block
  rw [hp]

@[simp] theorem bench_arrive (d : Dev) (id : Nat) (block : BitVec 16) (j : Nat) : (d.arrive id block).bench j = d.bench j := by
  simp [Dev.bench]

@[simp] theorem benchDom_arrive (d : Dev) (id : Nat) (block : BitVec 16) (k : Nat) : (d.arrive id block).benchDom k = d.benchDom k := by
  obtain ⟨p, hp⟩ := arrive_pwr d id block
  rw [hp]; rfl

/-- The device at which messages have arrived at bench k, of which those of `w` wait. -/
def Dev.heard (d : Dev) (src : BitVec 18) (k : Nat) (w : List Msg) : Dev :=
  (d.arrive (d.benchDom k) (d.senderBlock src)).modBench k (fun b => { b with arrived := w })

@[simp] theorem heard_bench (d : Dev) (src : BitVec 18) (k : Nat) (w : List Msg) :
    (d.heard src k w).bench k = { d.bench k with arrived := w } := by simp [Dev.heard]
@[simp] theorem heard_net (d : Dev) (src : BitVec 18) (k : Nat) (w : List Msg) : (d.heard src k w).net = d.net := by simp [Dev.heard]
@[simp] theorem heard_flog (d : Dev) (src : BitVec 18) (k : Nat) (w : List Msg) : (d.heard src k w).flog = d.flog := by simp [Dev.heard]

/-- What becomes of bench k there. -/
theorem heard_modBench (d : Dev) (src : BitVec 18) (k : Nat) (w net : List Msg) (f : Bench → Bench) :
    (({ d.heard src k w with net := net } : Dev).modBench k f).bench k = f { d.bench k with arrived := w } :=
  (Dev.bench_modBench_self ..).trans (congrArg f (heard_bench ..))

section
variable {d : Dev} {src : BitVec 18} {k : Nat} {bc : Bool} {w : List Msg} {r : Option Msg}
  (hfirst : firstAdmitted (d.bench k) src (d.benchEp k) bc d.net (d.waitingAt k) = (w, r)) (hfence : d.fenced (k / 96) = false)
  (hon : d.domOn (d.benchDom k) = true)
  (hany : d.net.any (fun m => m.src == src && m.target == d.benchEp k && m.bcast == bc) = true)
include hfirst hfence hon hany

/-- Messages reach a bench that is ON, in a cabinet not fenced: the first one that its queues admit is judged. -/
theorem messageArrival_heard : messageArrival d src k bc =
    match r with
    | none => d.heard src k w
    | some m =>
      let e : Dev := { d.heard src k w with net := d.net.erase m }
      match (d.bench k).judge m with
      | .store => e.modBench k (fun b => { b with inbox := b.inbox ++ [m] })
      | .stale => e.modBench k (fun b => { b with stale := satInc16 b.stale })
      | .oversize => (e.modBench k (fun b => { b with oversize := satInc16 b.oversize })).unitRecord 12 (k / 96) (k % 96) fltMsgOversize
          { endpoint := m.src.toNat, detail := m.seq.toNat }
      | .waits => e := by
  obtain ⟨m, hm⟩ : ∃ m, d.net.find? (fun m => m.src == src && m.target == d.benchEp k && m.bcast == bc) = some m := by
    rw [← Option.isSome_iff_exists, List.find?_isSome]
    simpa using hany
  simp only [messageArrival, hm, hfirst, hfence, benchDom_arrive, domOn_arrive _ hon, Bool.not_true, Bool.false_eq_true, if_false]
  cases r with
  | none => rfl
  | some m' =>
    have hb : ((d.arrive (d.benchDom k) (d.senderBlock src)).modBench k (fun b => { b with arrived := w })).bench k =
      { d.bench k with arrived := w } := heard_bench d src k w
    have hjudge : ({ d.bench k with arrived := w } : Bench).judge m' = (d.bench k).judge m' := rfl
    simp only [hb, hjudge, Dev.modBench_net, arrive_net]
    rfl

end

/-! ## DEST_FENCED_RETURN -/

theorem epDev_benchEp (d : Dev) (b : BenchId) : epDev (d.benchEp (benchKey b)) = d.number.toNat := by
  have hn := d.number.isLt
  have hc := b.cab.isLt
  have hb := b.bench.isLt
  simp only [epDev, Dev.benchEp, benchKey, bits, BitVec.toNat_ofNat]
  omega

theorem benchOfEp_benchEp (d : Dev) (b : BenchId) : d.benchOfEp (d.benchEp (benchKey b)) = some (benchKey b) := by
  have hn := d.number.isLt
  have hc := b.cab.isLt
  have hb := b.bench.isLt
  have hval : epVal (d.benchEp (benchKey b)) = b.bench.val := by
    simp only [epVal, Dev.benchEp, benchKey, bits, BitVec.toNat_ofNat]; omega
  have hcab : epCab (d.benchEp (benchKey b)) = b.cab.val := by
    simp only [epCab, Dev.benchEp, benchKey, bits, BitVec.toNat_ofNat]; omega
  simp only [Dev.benchOfEp, epDev_benchEp, hval, hcab, hb, hc, beq_self_eq_true, decide_true, Bool.and_self, if_true]
  rfl

/-- A message of a bench of this device returns: the bench records it (R104). -/
theorem returned_bench {d : Dev} {b : BenchId} {m : Msg} {iss : Issue} (hsrc : m.src = d.benchEp (benchKey b)) (hiss : m.issue = some iss) :
    d.returned m = d.benchRecord (benchKey b) fltDestFenced iss m.step m.seq.toNat := by
  simp [Dev.returned, hsrc, epDev_benchEp, benchOfEp_benchEp, hiss]

theorem quiet_benchRecord {d : Dev} (k : Nat) (code : BitVec 16) (iss : Issue) (step : BitVec 16) (detail : Nat) (h : QuietSequencer d) :
    QuietSequencer (d.benchRecord k code iss step detail) := h

section
variable {d : Dev} {b : BenchId} {dst : BitVec 18} {seq : BitVec 48} {m : Msg} {iss : Issue} (hq : QuietSequencer d)
  (hiss : m.issue = some iss)
include hq hiss

/-- To a closed endpoint of this device. -/
theorem destFencedReturn_own (hown : epDev dst = d.number.toNat)
    (hshut : if epVal dst = 0xFF then d.fenced (epCab dst) = true else d.epOpen dst = false)
    (hm : d.net.find? (fun x => x.src == d.benchEp (benchKey b) && x.dest == dst && x.seq == seq) = some m) :
    (destFencedReturn d (d.benchEp (benchKey b)) dst seq).settle =
      ({ d with net := d.net.filter (fun n => !(n.src == m.src && n.dest == m.dest && n.seq == m.seq)) } : Dev).benchRecord (benchKey b)
        fltDestFenced iss m.step m.seq.toNat := by
  have hsrc : m.src = d.benchEp (benchKey b) := by
    have := List.find?_some hm
    simp only [Bool.and_eq_true, beq_iff_eq] at this
    exact this.1.1
  have hclosed : (if epVal dst == 0xFF then d.fenced (epCab dst) else !d.epOpen dst) = true := by
    split at hshut
    · next hv => simpa [hv] using hshut
    · next hv => simpa [hv] using hshut
  simp only [destFencedReturn, hown, beq_self_eq_true, if_true, hclosed, Bool.true_and, hm]
  rw [returned_bench (by exact hsrc) hiss]
  exact settle_quiet (quiet_benchRecord _ _ _ _ _ hq)

/-- To another device. -/
theorem destFencedReturn_away (haway : epDev dst ≠ d.number.toNat)
    (hm : d.away.find? (fun x => x.src == d.benchEp (benchKey b) && x.dest == dst && x.seq == seq) = some m) :
    (destFencedReturn d (d.benchEp (benchKey b)) dst seq).settle =
      ({ d with away := d.away.erase m } : Dev).benchRecord (benchKey b) fltDestFenced iss m.step m.seq.toNat := by
  have hsrc : m.src = d.benchEp (benchKey b) := by
    have := List.find?_some hm
    simp only [Bool.and_eq_true, beq_iff_eq] at this
    exact this.1.1
  have hother : (epDev dst == d.number.toNat) = false := by simpa using haway
  simp only [destFencedReturn, hother, Bool.false_eq_true, if_false, hm]
  rw [returned_bench (by exact hsrc) hiss]
  exact settle_quiet (quiet_benchRecord _ _ _ _ _ hq)

end

/-- What a returned message leaves of the bench that sent it: its state and registers stay. -/
theorem benchRecord_reports (d : Dev) (k : Nat) (code : BitVec 16) (iss : Issue) (step : BitVec 16) (detail : Nat) :
    let b := (d.benchRecord k code iss step detail).bench k
    b.faultCode = code ∧ b.faultPending = true ∧ b.faultTag = iss.tag ∧ b.st = (d.bench k).st ∧ b.arch = (d.bench k).arch := by
  obtain ⟨m, t, h⟩ := bench_benchRecord_self d k code iss step detail
  rw [h]
  exact ⟨rfl, rfl, rfl, rfl, rfl⟩

/-! ## The statement -/

/-- Settles O38: arrivals by the inbox's decision, returns by the bench record they leave, and the decision by its four tests in order. -/
theorem messageArrival_obligation : Obligations.MessageArrival := by
  unfold Obligations.MessageArrival
  refine ⟨?arrival, ?returned, fun b m => ⟨fun hcap => judge_oversize (.inl hcap), fun hlen => judge_oversize (.inr hlen), judge_stale, ?current⟩⟩
  case arrival =>
    intro src b bc s w r k x hfirst hfence hon hany
    have harrival := messageArrival_heard hfirst hfence hon hany
    cases r with
    | none => exact ⟨_, congrArg (done s) harrival, heard_net .., heard_bench ..⟩
    | some m =>
      refine ⟨fun hj => ?_, fun hj => ?_, fun hj => ?_⟩
      all_goals
        have hj : (s.bench k).judge m = _ := hj
        simp only [hj] at harrival
        refine ⟨_, congrArg (done s) harrival, rfl, ?_⟩
      · exact heard_modBench ..
      · exact heard_modBench ..
      · refine ⟨(Dev.bench_unitRecord ..).trans (heard_modBench s.toDev src k w _ _), ?_⟩
        exact (unitRecord_offered_length ..).trans (congrArg (fun f : FaultLog => f.offered.length + 1) (heard_flog s.toDev src k w))
  case returned =>
    intro b dst seq s m iss k own hq hshut hm hiss
    by_cases hown : epDev dst = s.number.toNat
    · have htrue : own = true := by simpa [own] using hown
      simp only [htrue, if_true, forall_const] at hshut hm ⊢
      obtain ⟨hcode, hpending, htag, hst, harch⟩ := benchRecord_reports
        { s.toDev with net := s.net.filter (fun n => !(n.src == m.src && n.dest == m.dest && n.seq == m.seq)) } k fltDestFenced iss m.step m.seq.toNat
      exact ⟨_, congrArg (done s) (destFencedReturn_own hq hiss hown hshut hm), hcode, hpending, htag, hst, harch, rfl, by simp, rfl⟩
    · have hfalse : own = false := by simpa [own] using hown
      simp only [hfalse, Bool.false_eq_true, if_false] at hm ⊢
      obtain ⟨hcode, hpending, htag, hst, harch⟩ := benchRecord_reports
        { s.toDev with away := s.away.erase m } k fltDestFenced iss m.step m.seq.toNat
      exact ⟨_, congrArg (done s) (destFencedReturn_away hq hiss hown hm), hcode, hpending, htag, hst, harch, rfl, rfl, rfl⟩
  case current =>
    intro hcap hlen hepoch hstep
    rw [judge_current hcap hlen hepoch hstep]
    refine ⟨fun hfull => ?_, fun hroom => ?_⟩
    · simp [hfull]
    · simp [Nat.not_lt.mpr hroom]

end Sys2Proof.Machine
end

section
/-! The close of a step at a drawer controller (R191, R197, R233), lost drawers (R209, R352) and the ceiling (R201). -/

namespace Sys2Proof.Machine

/-- A relation that holds along each step of a fold holds along the whole of it. -/
theorem foldl_rel {α β : Type} {R : α → α → Prop} (refl : ∀ a, R a a) (trans : ∀ {a b c}, R a b → R b c → R a c) {f : α → β → α}
    (h : ∀ a b, R a (f a b)) (l : List β) (a : α) : R a (l.foldl f a) := by
  induction l generalizing a with
  | nil => exact refl a
  | cons b l ih => exact trans (h a b) (ih _)

/-! ## Writes of a sideboard (R168, R196, R326) -/

/-- Nothing but the sideboard of cabinet c, the fault log and the reported discards differs. -/
def SideboardOnly (c : Nat) (d e : Dev) : Prop :=
  ∃ sbs flog discards, e = { d with sbs := sbs, flog := flog, discards := discards } ∧ ∀ j, j ≠ c → e.sb j = d.sb j

theorem SideboardOnly.refl (c : Nat) (d : Dev) : SideboardOnly c d d := ⟨d.sbs, d.flog, d.discards, rfl, fun _ _ => rfl⟩

theorem SideboardOnly.trans {c : Nat} {d e f : Dev} (h : SideboardOnly c d e) (g : SideboardOnly c e f) : SideboardOnly c d f := by
  obtain ⟨_, _, _, rfl, hsb⟩ := h
  obtain ⟨sbs, flog, discards, rfl, hsb'⟩ := g
  exact ⟨sbs, flog, discards, rfl, fun j hj => (hsb' j hj).trans (hsb j hj)⟩

theorem sideboardOnly_setSb (c : Nat) (d : Dev) (x : Sideboard) : SideboardOnly c d (d.setSb c x) :=
  ⟨_, d.flog, d.discards, rfl, fun _ hj => Dev.sb_setSb_ne d x hj⟩

theorem sideboardOnly_performDrawerWrite (d : Dev) (c : Nat) (w : PortWrite) : SideboardOnly c d (d.performDrawerWrite c w) := by
  simp only [Dev.performDrawerWrite]
  split
  · exact ⟨_, _, _, rfl, fun j hj => Dev.sb_setSb_ne d _ hj⟩
  · exact sideboardOnly_setSb c d _

theorem sideboardOnly_drainDrawerPort (d : Dev) (c : Nat) : SideboardOnly c d (d.drainDrawerPort c) := by
  simp only [Dev.drainDrawerPort]
  split
  · exact .refl c d
  · exact (sideboardOnly_setSb c d _).trans
      (foldl_rel (SideboardOnly.refl c) SideboardOnly.trans (fun d w => sideboardOnly_performDrawerWrite d c w) _ _)

theorem sideboardOnly_putEntry (d : Dev) (c off fill staged step : Nat) : SideboardOnly c d (d.putEntry c off fill staged step) :=
  (sideboardOnly_drainDrawerPort d c).trans (sideboardOnly_setSb c _ _)

theorem sideboardOnly_closeEntry (d : Dev) (c : Nat) (commit : Bool) (off : Nat) : SideboardOnly c d (d.closeEntry c commit off) :=
  (sideboardOnly_drainDrawerPort d c).trans (sideboardOnly_putEntry ..)

theorem drainDrawerPort_empty {d : Dev} {c : Nat} (h : (d.sb c).dq = []) : (d.drainDrawerPort c).sb c = d.sb c := by
  have hkeep : { d.sb c with dq := [] } = d.sb c := by rw [← h]
  simp only [Dev.drainDrawerPort]
  split
  · rfl
  · simp [h, hkeep]

/-! ## Page entries (Table 8-2, R197) -/

/-- The first word of a page entry with these FILL and STAGED. -/
def pageWord (w fill staged : Nat) : Nat :=
  w - bits 62 56 w * 2 ^ 56 - bits 54 48 w * 2 ^ 48 + staged % 128 * 2 ^ 56 + fill % 128 * 2 ^ 48

theorem pageWord_spec (w fill : Nat) :
    pageWord w fill 0 + bits 62 56 w * 2 ^ 56 + bits 54 48 w * 2 ^ 48 = w + fill % 128 * 2 ^ 48 := by
  simp only [pageWord, bits]
  omega

theorem pageWord_lt {w : Nat} (fill : Nat) (h : w < 256 ^ 8) : pageWord w fill 0 < 256 ^ 8 := by
  simp only [pageWord, bits] at *
  omega

theorem leNat_lt (bs : List Byte) : leNat bs < 256 ^ bs.length := by
  induction bs with
  | nil => simp [leNat]
  | cons b t ih =>
    have hb := b.isLt
    simp only [leNat, List.length_cons, Nat.pow_succ]
    omega

theorem readNat_lt (m : Mem) (a n : Nat) : m.readNat a n < 256 ^ n := by
  simpa [Mem.readNat, Mem.read] using leNat_lt (m.read a n)

/-- A number read where its bytes have just been stored, with others behind them. -/
theorem readNat_store {m : Mem} (a n v : Nat) (vs : List Byte) (f : Nat → Bool) (h : m.wf = true) :
    (m.store a (leBytes n v ++ vs) f).readNat a n = v % 256 ^ n := by
  have hread : (m.store a (leBytes n v ++ vs) f).read a n = leBytes n v := by
    apply List.ext_getElem
    · simp [Mem.read]
    · intro i hi hi'
      simp only [length_leBytes] at hi'
      simp only [Mem.read, List.getElem_map, List.getElem_range, Mem.byte_store _ _ _ _ h]
      rw [if_pos (by simp; omega)]
      simp [List.getElem?_append_left, hi']
  rw [Mem.readNat, hread, leNat_leBytes]

/-- One entry, of a sideboard whose queue is empty: FILL takes what is staged at COMMIT, STAGED is cleared, the rest stays. -/
theorem closeEntry_mem {d : Dev} {c : Nat} (commit : Bool) (off : Nat) (hq : (d.sb c).dq = []) (hwf : (d.sb c).mem.wf = true) :
    let w0 := (d.sb c).mem.readNat off 8
    let m := ((d.closeEntry c commit off).sb c).mem
    m.readNat off 8 + bits 62 56 w0 * 2 ^ 56 + bits 54 48 w0 * 2 ^ 48 =
        w0 + (bits 54 48 w0 + (if commit then bits 62 56 w0 else 0)) % 128 * 2 ^ 48 ∧
      ∀ a, (a < off ∨ off + 16 ≤ a) → m.byte a = (d.sb c).mem.byte a := by
  have hdrain : ((d.drainDrawerPort c).drainDrawerPort c).sb c = d.sb c := by
    rw [drainDrawerPort_empty (by rw [drainDrawerPort_empty hq, hq]), drainDrawerPort_empty hq]
  simp only [Dev.closeEntry, Dev.putEntry, hdrain, drainDrawerPort_empty hq, Dev.sb_setSb_self]
  refine ⟨?_, fun a ha => ?_⟩
  · rw [readNat_store _ _ _ _ _ hwf, ← pageWord, Nat.mod_eq_of_lt (pageWord_lt _ (readNat_lt ..))]
    exact pageWord_spec _ _
  · rw [Mem.byte_store _ _ _ _ hwf, if_neg (by simp; omega)]

/-! ## Work passed on (R210) -/

/-- What passing work on to a fallback bench leaves: the sideboards, the cabinets, the reported discards, and of the controller everything
but where its requests' banks stand and the number of its next message. -/
structure Forwarded (c : Nat) (d e : Dev) : Prop where
  sbs : e.sbs = d.sbs
  cabs : e.cabs = d.cabs
  boot : e.boot = d.boot
  discards : e.discards = d.discards
  quiet : QuietSequencer d → QuietSequencer e
  drw : ∃ reqs seq, e.drw c = { d.drw c with reqs := reqs, seq := seq } ∧
    ∀ r ∈ reqs, ∃ q ∈ (d.drw c).reqs, r.msg = q.msg ∧ r.banks = q.banks

theorem Forwarded.refl (c : Nat) (d : Dev) : Forwarded c d d :=
  ⟨rfl, rfl, rfl, rfl, id, (d.drw c).reqs, (d.drw c).seq, rfl, fun r hr => ⟨r, hr, rfl, rfl⟩⟩

theorem Forwarded.trans {c : Nat} {d e f : Dev} (h : Forwarded c d e) (g : Forwarded c e f) : Forwarded c d f := by
  obtain ⟨reqs, seq, he, hreqs⟩ := h.drw
  obtain ⟨reqs', seq', hf, hreqs'⟩ := g.drw
  refine ⟨g.sbs.trans h.sbs, g.cabs.trans h.cabs, g.boot.trans h.boot, g.discards.trans h.discards, g.quiet ∘ h.quiet, reqs', seq', ?_, ?_⟩
  · rw [hf, he]
  · intro r hr
    obtain ⟨q, hq, hmsg, hbanks⟩ := hreqs' r hr
    rw [he] at hq
    obtain ⟨p, hp, hmsg', hbanks'⟩ := hreqs q hq
    exact ⟨p, hp, hmsg.trans hmsg', hbanks.trans hbanks'⟩

theorem unitSend_eq (d : Dev) (kind c i : Nat) (m : Msg) :
    ∃ net away ports flog, d.unitSend kind c i m = { d with net := net, away := away, ports := ports, flog := flog } := by
  obtain ⟨net, away, ports, flog, hemit, _⟩ := emit_eq d c m
  simp only [Dev.unitSend]
  split_ifs
  · exact ⟨d.net, d.away, d.ports, _, rfl⟩
  · exact ⟨net, away, ports, flog, hemit⟩
  · exact ⟨d.net, d.away, d.ports, _, rfl⟩
  · exact ⟨net, away, ports, flog, hemit⟩
  · exact ⟨d.net, d.away, d.ports, _, rfl⟩

theorem forwarded_drwSend (d : Dev) (c : Nat) (m : Msg) : Forwarded c d (d.drwSend c m) := by
  obtain ⟨net, away, ports, flog, hsend⟩ := unitSend_eq d 3 c 0 m
  simp only [Dev.drwSend, hsend]
  exact ⟨rfl, rfl, rfl, rfl, id, (d.drw c).reqs, _, Dev.drw_setDrw_self .., fun r hr => ⟨r, hr, rfl, rfl⟩⟩

theorem forwarded_setReq {d : Dev} {c i : Nat} {r q : DrwReq} (hq : (d.drw c).reqs[i]? = some q) (hmsg : r.msg = q.msg)
    (hbanks : r.banks = q.banks) : Forwarded c d (d.setReq c i r) := by
  refine ⟨rfl, rfl, rfl, rfl, id, _, (d.drw c).seq, Dev.drw_setDrw_self .., fun x hx => ?_⟩
  rcases List.mem_or_eq_of_mem_set hx with h | rfl
  · exact ⟨x, h, rfl, rfl⟩
  · exact ⟨q, List.mem_of_getElem? hq, hmsg, hbanks⟩

theorem voidFloor_eq (d : Dev) (b : BitVec 8) :
    ∃ run suite, d.voidFloor b = { d with seq := { d.seq with run := run }, suite := suite } := by
  unfold Dev.voidFloor
  split
  · next hrun =>
    split
    · exact ⟨d.seq.run, d.suite, rfl⟩
    · dsimp only
      split
      · exact ⟨_, d.suite, rfl⟩
      · exact ⟨_, _, rfl⟩
  · exact ⟨d.seq.run, d.suite, rfl⟩

theorem forwarded_voidFloor (d : Dev) (c : Nat) (b : BitVec 8) : Forwarded c d (d.voidFloor b) := by
  obtain ⟨run, suite, h⟩ := voidFloor_eq d b
  rw [h]
  exact ⟨rfl, rfl, rfl, rfl, id, (d.drw c).reqs, (d.drw c).seq, rfl, fun r hr => ⟨r, hr, rfl, rfl⟩⟩

theorem forwarded_forwardBank (d : Dev) (c i n : Nat) : Forwarded c d (d.forwardBank c i n) := by
  simp only [Dev.forwardBank]
  split
  · exact .refl c d
  · next q hq =>
    refine Forwarded.trans ?_ (forwarded_voidFloor ..)
    refine Forwarded.trans ?_ (forwarded_drwSend ..)
    exact forwarded_setReq hq rfl rfl

theorem forwarded_forwardAll (d : Dev) (c : Nat) : Forwarded c d (d.forwardAll c) := by
  refine foldl_rel (Forwarded.refl c) Forwarded.trans (fun d i => ?_) _ _
  split
  · exact .refl c d
  · split
    · exact .refl c d
    · refine foldl_rel (Forwarded.refl c) Forwarded.trans (fun d n => ?_) _ _
      split
      · exact .refl c d
      · exact forwarded_forwardBank ..

/-! ## The close of a step (R191, R197) -/

/-- What keeps the controller's step, action, log and last closed step, all sideboards, and adds no request. -/
structure StepKept (c : Nat) (d e : Dev) : Prop where
  sbs : e.sbs = d.sbs
  quiet : QuietSequencer d → QuietSequencer e
  step : (e.drw c).step = (d.drw c).step
  action : (e.drw c).action = (d.drw c).action
  log : (e.drw c).log = (d.drw c).log
  closed : (e.drw c).closed = (d.drw c).closed
  reqs : ∀ r ∈ (e.drw c).reqs, ∃ q ∈ (d.drw c).reqs, r.msg = q.msg

theorem StepKept.refl (c : Nat) (d : Dev) : StepKept c d d := ⟨rfl, id, rfl, rfl, rfl, rfl, fun r hr => ⟨r, hr, rfl⟩⟩

theorem StepKept.trans {c : Nat} {d e f : Dev} (h : StepKept c d e) (g : StepKept c e f) : StepKept c d f := by
  refine ⟨g.sbs.trans h.sbs, g.quiet ∘ h.quiet, g.step.trans h.step, g.action.trans h.action, g.log.trans h.log, g.closed.trans h.closed, ?_⟩
  intro r hr
  obtain ⟨q, hq, hmsg⟩ := g.reqs r hr
  obtain ⟨p, hp, hmsg'⟩ := h.reqs q hq
  exact ⟨p, hp, hmsg.trans hmsg'⟩

theorem Forwarded.stepKept {c : Nat} {d e : Dev} (h : Forwarded c d e) : StepKept c d e := by
  obtain ⟨reqs, seq, he, hreqs⟩ := h.drw
  refine ⟨h.sbs, h.quiet, by rw [he], by rw [he], by rw [he], by rw [he], ?_⟩
  rw [he]
  intro r hr
  obtain ⟨q, hq, hmsg, _⟩ := hreqs r hr
  exact ⟨q, hq, hmsg⟩

theorem stepKept_drwOpen (d : Dev) (c i : Nat) : StepKept c d (d.drwOpen c i) := by
  simp only [Dev.drwOpen]
  split
  · exact .refl c d
  · next q hq =>
    split
    · exact .refl c d
    · split
      · refine ⟨rfl, id, ?_, ?_, ?_, ?_, ?_⟩
        all_goals simp only [Dev.drwFault, Dev.drwNote, Dev.drw_unitDiscard, Dev.drw_setDrw_self]
        exact fun r hr => ⟨r, List.mem_of_mem_eraseIdx hr, rfl⟩
      · refine ⟨rfl, id, ?_, ?_, ?_, ?_, ?_⟩
        all_goals simp only [Dev.setReq, Dev.drw_setDrw_self]
        intro r hr
        rcases List.mem_or_eq_of_mem_set hr with h | rfl
        · exact ⟨r, h, rfl⟩
        · exact ⟨q, List.mem_of_getElem? hq, rfl⟩

/-- No log holds an entry that cabinet c has mirrored. -/
def NothingMirrored (c : Nat) (d : Dev) : Prop := ∀ j, ∀ e ∈ (d.drw j).log, e.primary ≠ some c

/-- Every controller's state is as it was, and the rest of the device with it. -/
def SameDrawers (d e : Dev) : Prop := (∃ ds, e = { d with drawers := ds }) ∧ ∀ j, e.drw j = d.drw j

theorem SameDrawers.refl (d : Dev) : SameDrawers d d := ⟨⟨d.drawers, rfl⟩, fun _ => rfl⟩

theorem SameDrawers.trans {d e f : Dev} (h : SameDrawers d e) (g : SameDrawers e f) : SameDrawers d f := by
  obtain ⟨⟨_, rfl⟩, hdrw⟩ := h
  obtain ⟨⟨ds, rfl⟩, hdrw'⟩ := g
  exact ⟨⟨ds, rfl⟩, fun j => (hdrw' j).trans (hdrw j)⟩

theorem SameDrawers.nothingMirrored {c : Nat} {d e : Dev} (h : SameDrawers d e) (hd : NothingMirrored c d) : NothingMirrored c e :=
  fun j => (h.2 j).symm ▸ hd j

theorem sameDrawers_setDrw {d : Dev} {j : Nat} {x : Drawer} (h : x = d.drw j) : SameDrawers d (d.setDrw j x) := by
  refine ⟨⟨_, rfl⟩, fun k => ?_⟩
  by_cases hk : k = j
  · rw [hk, Dev.drw_setDrw_self, h]
  · exact Dev.drw_setDrw_ne d x hk

/-- The action of cabinet c for step n on what cabinet j has mirrored of it. -/
def Dev.closeMirror (c : Nat) (commit : Bool) (n : BitVec 16) (d : Dev) (j : Nat) : Dev :=
  if d.fenced j then d else
  let mine (e : StageEntry) : Bool := e.primary == some c && e.step == n
  let d := ((((d.drw j).log.filter mine).map (fun e => e.off)).dedup).foldl (fun d o => d.closeEntry j commit o) d
  d.setDrw j { d.drw j with log := (d.drw j).log.filter (fun e => !mine e) }

theorem closeMirrors_eq (d : Dev) (c : Nat) (commit : Bool) (n : BitVec 16) : d.closeMirrors c commit n =
    (fun e : Dev => e.setDrw c { e.drw c with closed := some (commit, n) }) ((List.range 12).foldl (Dev.closeMirror c commit n) d) := by
  unfold Dev.closeMirrors Dev.closeMirror
  rfl

theorem closeMirror_none {d : Dev} {c : Nat} (commit : Bool) (n : BitVec 16) (j : Nat) (h : NothingMirrored c d) :
    SameDrawers d (d.closeMirror c commit n j) := by
  have hnone : (d.drw j).log.filter (fun e => e.primary == some c && e.step == n) = [] := by
    rw [List.filter_eq_nil_iff]
    exact fun e he => by simp [h j e he]
  have hall : (d.drw j).log.filter (fun e => !(e.primary == some c && e.step == n)) = (d.drw j).log := by
    rw [List.filter_eq_self]
    exact fun e he => by simp [h j e he]
  simp only [Dev.closeMirror]
  split
  · exact .refl d
  · simp only [hnone, hall, List.map_nil, List.dedup_nil, List.foldl_nil]
    exact sameDrawers_setDrw rfl

/-- Where nothing is mirrored only the decision is noted (R233). -/
theorem closeMirrors_none {d : Dev} {c : Nat} (commit : Bool) (n : BitVec 16) (h : NothingMirrored c d) :
    ∃ ds, d.closeMirrors c commit n = { d with drawers := ds } ∧
      (d.closeMirrors c commit n).drw c = { d.drw c with closed := some (commit, n) } := by
  obtain ⟨⟨ds, hds⟩, hdrw⟩ := foldl_rel (R := fun d e => NothingMirrored c d → SameDrawers d e) (fun d _ => .refl d)
    (fun h g hd => (h hd).trans (g ((h hd).nothingMirrored hd))) (fun _ j hd => closeMirror_none commit n j hd) (List.range 12) d h
  rw [closeMirrors_eq]
  generalize (List.range 12).foldl (Dev.closeMirror c commit n) d = e at hds hdrw
  refine ⟨(e.drawers.set c { e.drw c with closed := some (commit, n) }), ?_, ?_⟩
  · rw [hds]; rfl
  · rw [Dev.drw_setDrw_self, hdrw]

/-- The device once the controller has closed its own entries. -/
def Dev.closedEntries (d : Dev) (c : Nat) (commit : Bool) : Dev := ((d.drw c).logged none).foldl (fun d o => d.closeEntry c commit o) d

theorem sideboardOnly_closedEntries (d : Dev) (c : Nat) (commit : Bool) : SideboardOnly c d (d.closedEntries c commit) :=
  foldl_rel (SideboardOnly.refl c) SideboardOnly.trans (fun d o => sideboardOnly_closeEntry d c commit o) _ _

theorem SideboardOnly.quiet {c : Nat} {d e : Dev} (h : SideboardOnly c d e) (hd : QuietSequencer d) : QuietSequencer e := by
  obtain ⟨_, _, _, rfl, _⟩ := h
  exact hd

theorem SideboardOnly.drw {c : Nat} {d e : Dev} (h : SideboardOnly c d e) (j : Nat) : e.drw j = d.drw j := by
  obtain ⟨_, _, _, rfl, _⟩ := h
  rfl

theorem SideboardOnly.sb {c : Nat} {d e : Dev} (h : SideboardOnly c d e) {j : Nat} (hj : j ≠ c) : e.sb j = d.sb j := by
  obtain ⟨_, _, _, _, hsb⟩ := h
  exact hsb j hj

/-- The controller as the closed step leaves it. -/
def Drawer.nextStep (w : Drawer) (commit : Bool) : Drawer :=
  { w with
    log := w.log.filter (fun e => e.primary.isSome), reqs := w.reqs.filter (fun r => r.msg.step != w.step), step := w.step + 1
    action := none, handover := [], closed := some (commit, w.step) }

/-- What a closed step leaves (R191, R197). -/
theorem closeStep_closes {d : Dev} {c : Nat} (commit : Bool) (h : NothingMirrored c d) :
    ∃ e, StepKept c e (d.closeStep c commit) ∧ e.drw c = (d.drw c).nextStep commit ∧ e.sbs = (d.closedEntries c commit).sbs ∧
      (QuietSequencer d → QuietSequencer e) := by
  have hown := sideboardOnly_closedEntries d c commit
  have hdrw := hown.drw
  obtain ⟨ds, hds, hclosed⟩ := closeMirrors_none (d := d.closedEntries c commit) commit (d.drw c).step
    (fun j => (hdrw j).symm ▸ h j)
  refine ⟨((d.closedEntries c commit).closeMirrors c commit (d.drw c).step).setDrw c ((d.drw c).nextStep commit), ?_, Dev.drw_setDrw_self .., ?_, ?_⟩
  · have hnext : d.closeStep c commit = ((fun e : Dev => (List.range (e.drw c).reqs.length).foldl
        (fun d i => d.drwOpen c ((d.drw c).reqs.length - 1 - i)) e)
        (((d.closedEntries c commit).closeMirrors c commit (d.drw c).step).setDrw c ((d.drw c).nextStep commit))).forwardAll c := by
      simp only [Dev.closeStep]
      rw [← Dev.closedEntries, hdrw c, hclosed, hdrw c]
      rfl
    rw [hnext]
    exact (foldl_rel (StepKept.refl c) StepKept.trans (fun d _ => stepKept_drwOpen d c _) _ _).trans (forwarded_forwardAll ..).stepKept
  · rw [hds]; rfl
  · intro hq
    rw [hds]
    exact hown.quiet hq

/-- COMMIT and ABANDON of a cabinet not fenced. -/
theorem drwCommit_closes {d : Dev} {c : Nat} {commit : Bool} {n : BitVec 16} (hact : (d.drw c).action = some (commit, n))
    (hq : QuietSequencer d) (hnone : NothingMirrored c d) (hfence : d.fenced c = false) :
    ∃ e, StepKept c e (drwCommit d c commit) ∧ e.drw c = (d.drw c).nextStep commit ∧ e.sbs = (d.closedEntries c commit).sbs := by
  obtain ⟨e, hkept, hdrw, hsbs, hquiet⟩ := closeStep_closes commit hnone
  have haction : d.drwAction c commit = d.closeStep c commit := by
    simp only [Dev.drwAction, hact, bne_self_eq_false, hfence, Bool.false_eq_true, if_false]
  rw [drwCommit, haction, settle_quiet (hkept.quiet (hquiet hq))]
  exact ⟨e, hkept, hdrw, hsbs⟩

/-- And of a cabinet fenced since (R20). -/
theorem drwCommit_fenced {d : Dev} {c : Nat} {commit : Bool} {n : BitVec 16} (hact : (d.drw c).action = some (commit, n))
    (hq : QuietSequencer d) (hnone : NothingMirrored c d) (hfence : d.fenced c = true) :
    ∃ ds, drwCommit d c commit = { d with drawers := ds } ∧
      (drwCommit d c commit).drw c = { d.drw c with closed := some (commit, n), action := none } := by
  obtain ⟨ds, hds, hclosed⟩ := closeMirrors_none commit n hnone
  have haction : d.drwAction c commit = (d.closeMirrors c commit n).setDrw c { d.drw c with closed := some (commit, n), action := none } := by
    simp only [Dev.drwAction, hact, bne_self_eq_false, hfence, Bool.false_eq_true, if_false, if_true, hclosed]
  have hquiet : QuietSequencer (d.drwAction c commit) := by rw [haction, hds]; exact hq
  rw [drwCommit, settle_quiet hquiet, haction, hds]
  exact ⟨_, rfl, Dev.drw_setDrw_self ..⟩

/-! ## A cabinet is lost (R20, R371) -/

theorem loseCabinet_loses {d : Dev} {c : Nat} (cause : BitVec 16) (chest plain : Bool) (h : d.fenced c = false) :
    let e := d.loseCabinet c cause chest plain
    e.fenced c = true ∧ (e.cab c).cause = cause ∧ e.boot = d.boot ∧ e.drawers = d.drawers ∧ d.discards ⊆ e.discards := by
  have hst (x : BitVec 2) : (d.setCabSt c x).boot = d.boot ∧ (d.setCabSt c x).drawers = d.drawers ∧
      (d.setCabSt c x).discards = d.discards := by
    simp only [Dev.setCabSt]; split <;> exact ⟨rfl, rfl, rfl⟩
  obtain ⟨hboot, hdrawers, hdiscards⟩ := hst 2
  simp only [Dev.loseCabinet, h, Bool.false_eq_true, if_false]
  refine ⟨?_, ?_, hboot, hdrawers, ?_⟩
  · simp [Dev.fenced, Dev.movePlanRoutes, Dev.cab, Dev.mapBenches, Dev.setCab]
  · simp [Dev.movePlanRoutes, Dev.cab, Dev.mapBenches, Dev.setCab]
  · rw [← hdiscards]
    exact List.subset_append_left _ _

/-! ## Lost drawers (R209, R352) -/

theorem mem_nsInsert {k j : Nat} {l : List Nat} : j ∈ nsInsert k l ↔ j = k ∨ j ∈ l := by
  induction l with
  | nil => simp [nsInsert]
  | cons a t ih =>
    by_cases ha : a = k
    · simp [nsInsert, ha]
    · by_cases hlt : k < a
      · simp [nsInsert, ha, hlt]
      · simp only [nsInsert, beq_iff_eq, ha, hlt, if_false, List.mem_cons, ih]
        tauto

/-- A request withdrawn from a lost bank does not owe it any more, unless it is an APPEND. -/
theorem withdraw_reqs {w : Drawer} {n : Nat} {r : DrwReq} (hr : r ∈ (w.withdraw n).reqs)
    (hop : (w.template (drwHdr r.msg.payload).template).op ≠ 2) : n ∉ r.banks := by
  obtain ⟨q, hq, rfl⟩ := List.mem_map.mp hr
  by_cases hkeep : ((w.template (drwHdr q.msg.payload).template).op == 2 || !q.banks.contains n) = true
  · simp only [hkeep, if_true] at hop ⊢
    simpa [hop] using hkeep
  · simp only [hkeep, Bool.false_eq_true, if_false]
    simp

/-- The device as the loss of the drawer of bank n has been recorded. -/
def Dev.lossNoted (d : Dev) (c n : Nat) : Dev :=
  (d.drwNote c fltDrwLost (some n)).unitDiscard 3 c 0 fltDrwLost { detail := n, lasting := true, retried := true }

@[simp] theorem lossNoted_discards (d : Dev) (c n : Nat) :
    (d.lossNoted c n).discards = d.discards ++ [⟨fltDrwLost, d.step.setWidth 16⟩] := by
  simp [Dev.lossNoted, Dev.unitDiscard, Dev.discard, Dev.drwNote]

section
variable {d : Dev} {c n : Nat} (hlost : (d.drw c).isLost n = false) (hfence : d.fenced c = false) (hon : d.domOn (drwDom c) = true)
include hlost hfence hon

/-- With a fallback bench and fewer than eight lost, the bank's work goes there. -/
theorem loseDrawer_falls (hfb : (d.drw c).fallback.msb = true) (hfew : (d.drw c).lost.length < 8) :
    let t := d.loseDrawer c n
    (∀ k, (t.drw c).isLost k = (decide (k = n) || (d.drw c).isLost k)) ∧ (t.drw c).faultCode = fltDrwLost ∧ t.fenced c = false ∧ t.boot = d.boot ∧
      (∀ r ∈ (t.drw c).reqs, ((d.drw c).template (drwHdr r.msg.payload).template).op ≠ 2 → n ∉ r.banks) ∧
      t.discards = d.discards ++ [⟨fltDrwLost, d.step.setWidth 16⟩] := by
  have hgo : ((d.drw c).isLost n || d.fenced c || !d.domOn (drwDom c)) = false := by simp [hlost, hfence, hon]
  have hkeep : (!bit 31 (d.drw c).fallback.toNat || decide (8 ≤ (d.drw c).lostCount)) = false := by
    have h31 : (d.drw c).fallback.getLsbD 31 = true := by simpa [BitVec.msb_eq_getLsbD_last] using hfb
    simp only [bit_toNat, h31, Drawer.lostCount, Nat.not_le.mpr hfew, decide_false, Bool.not_true, Bool.or_self]
  simp only [Dev.loseDrawer, hgo, hkeep, Bool.false_eq_true, if_false]
  rw [← Dev.lossNoted]
  generalize he : Dev.setDrw _ _ _ = e
  have hfwd := forwarded_forwardAll e c
  obtain ⟨reqs, seq, hdrw, hreqs⟩ := hfwd.drw
  have hedrw : e.drw c = ({ (d.lossNoted c n).drw c with lost := nsInsert n (d.drw c).lost } : Drawer).withdraw n := by
    rw [← he, Dev.drw_setDrw_self]; rfl
  rw [hdrw, hfwd.boot, hfwd.discards, Dev.fenced, Dev.cab, hfwd.cabs, hedrw]
  refine ⟨fun k => ?_, ?_, ?_, ?_, fun r hr hop => ?_, ?_⟩
  · simp [Drawer.isLost, Drawer.withdraw, mem_nsInsert]
  · simp [Drawer.withdraw, Dev.lossNoted, Dev.drwNote]
  · rw [← he]; exact hfence
  · rw [← he]; rfl
  · obtain ⟨q, hq, hmsg, hbanks⟩ := hreqs r hr
    rw [hedrw] at hq
    rw [hbanks]
    refine withdraw_reqs hq ?_
    rw [← hmsg]
    simpa [Drawer.template, Dev.lossNoted, Dev.drwNote] using hop
  · rw [← he]; exact lossNoted_discards d c n

/-- Otherwise the cabinet is lost. -/
theorem loseDrawer_fences (hno : (d.drw c).fallback.msb = false ∨ 8 ≤ (d.drw c).lost.length) :
    d.loseDrawer c n = (d.lossNoted c n).loseCabinet c fltDrwLost true true := by
  have hgo : ((d.drw c).isLost n || d.fenced c || !d.domOn (drwDom c)) = false := by simp [hlost, hfence, hon]
  have hlose : (!bit 31 (d.drw c).fallback.toNat || decide (8 ≤ (d.drw c).lostCount)) = true := by
    rcases hno with h | h
    · have h31 : (d.drw c).fallback.getLsbD 31 = false := by simpa [BitVec.msb_eq_getLsbD_last] using h
      simp only [bit_toNat, h31, Bool.not_false, Bool.true_or]
    · simp [Drawer.lostCount, h]
  simp only [Dev.loseDrawer, hgo, hlose, Bool.false_eq_true, if_false, if_true]
  rfl

end

/-- Where the fallback path takes over, its checkers are tested (R352, R387). -/
theorem drawerLost_tests {d : Dev} {c n : Nat} (fails : List TestUnit) (hlost : (d.drw c).isLost n = false)
    (hnow : ((d.loseDrawer c n).drw c).isLost n = true) : drawerLost d c n fails =
      (fails.filter (fun u => unitInCab u c)).foldl (fun d u => d.failLive u)
        { d.loseDrawer c n with boot := { (d.loseDrawer c n).boot with selftest := selftestOf (fails.filter (fun u => unitInCab u c)) } } := by
  simp only [drawerLost, hlost, hnow, Bool.not_true, Bool.or_self, Bool.false_eq_true, if_false]

theorem fenced_congr {d e : Dev} (h : e.cabs = d.cabs) (c : Nat) : e.fenced c = d.fenced c := by
  simp only [Dev.fenced, Dev.cab, h]

/-- A sideboard whose checker fails while a plan may run costs its cabinet (R352). -/
theorem failLive_sideboard {d : Dev} {c : Cab} (h : d.fenced c.val = false) :
    (d.failLive (.sideboard c)).fenced c.val = true ∧ ((d.failLive (.sideboard c)).cab c.val).cause = fltSbLost ∧
      (d.failLive (.sideboard c)).boot = d.boot := by
  simp only [Dev.failLive, Dev.failUnit]
  generalize he : Dev.unitDiscard _ _ _ _ _ _ = e
  have hfence : e.fenced c.val = false := by
    rw [← he, ← h]
    simp only [Dev.fenced, Dev.cab_unitDiscard, Dev.cab_unitRecord]
  have hboot : e.boot = d.boot := by
    rw [← he]
    simp only [Dev.unitDiscard_boot, Dev.unitRecord_boot]
  obtain ⟨hlose, hcause, hkeep, _⟩ := loseCabinet_loses fltSbLost true true hfence
  exact ⟨hlose, hcause, hkeep.trans hboot⟩

/-- The fallback path and its checkers pass: the drawer alone is marked. -/
theorem drawerLost_falls {d : Dev} {c n : Nat} (hlost : (d.drw c).isLost n = false) (hfence : d.fenced c = false)
    (hon : d.domOn (drwDom c) = true) (hfb : (d.drw c).fallback.msb = true) (hfew : (d.drw c).lost.length < 8) :
    drawerLost d c n [] = { d.loseDrawer c n with boot := { (d.loseDrawer c n).boot with selftest := selftestOf [] } } := by
  obtain ⟨hisLost, _⟩ := loseDrawer_falls hlost hfence hon hfb hfew
  rw [drawerLost_tests [] hlost (by simp only [hisLost, decide_true, Bool.true_or]), List.filter_nil, List.foldl_nil]

/-- The sideboard of the fallback path fails its test: its cabinet is lost. -/
theorem drawerLost_sideboard {d : Dev} {c : Cab} {n : Nat} (hlost : (d.drw c.val).isLost n = false) (hfence : d.fenced c.val = false)
    (hon : d.domOn (drwDom c.val) = true) (hfb : (d.drw c.val).fallback.msb = true) (hfew : (d.drw c.val).lost.length < 8) :
    (drawerLost d c.val n [.sideboard c]).fenced c.val = true ∧ ((drawerLost d c.val n [.sideboard c]).cab c.val).cause = fltSbLost ∧
      (drawerLost d c.val n [.sideboard c]).boot.selftest = selftestOf [.sideboard c] := by
  obtain ⟨hisLost, _, hfenced, _⟩ := loseDrawer_falls hlost hfence hon hfb hfew
  have hone : ([.sideboard c] : List TestUnit).filter (fun u => unitInCab u c.val) = [.sideboard c] := by simp [unitInCab]
  rw [drawerLost_tests [.sideboard c] hlost (by simp only [hisLost, decide_true, Bool.true_or]), hone, List.foldl_cons, List.foldl_nil]
  generalize he : Dev.mk .. = e
  have hcabs : e.cabs = (d.loseDrawer c.val n).cabs := he ▸ rfl
  have htest : e.boot.selftest = selftestOf [.sideboard c] := he ▸ rfl
  obtain ⟨hlose, hcause, hboot⟩ := failLive_sideboard ((fenced_congr hcabs c.val).trans hfenced)
  exact ⟨hlose, hcause, (congrArg Boot.selftest hboot).trans htest⟩

/-- Where it does not, the cabinet is lost with the drawer. -/
theorem drawerLost_fences {d : Dev} {c n : Nat} (fails : List TestUnit) (hlost : (d.drw c).isLost n = false) (hfence : d.fenced c = false)
    (hon : d.domOn (drwDom c) = true) (hno : (d.drw c).fallback.msb = false ∨ 8 ≤ (d.drw c).lost.length) :
    let e := drawerLost d c n fails
    e.fenced c = true ∧ (e.cab c).cause = fltDrwLost ∧ ⟨fltDrwLost, d.step.setWidth 16⟩ ∈ e.discards := by
  obtain ⟨hlose, hcause, _, hdrawers, hdiscards⟩ := loseCabinet_loses (d := d.lossNoted c n) (c := c) fltDrwLost true true hfence
  have hfences := loseDrawer_fences hlost hfence hon hno
  have hstill : ((d.loseDrawer c n).drw c).isLost n = false := by
    rw [hfences, Dev.drw, hdrawers, ← Dev.drw]
    simpa [Dev.lossNoted, Dev.drwNote, Drawer.isLost] using hlost
  have hsame : drawerLost d c n fails = d.loseDrawer c n := by
    simp only [drawerLost, hstill, Bool.not_false, Bool.or_true, if_true]
  rw [hsame, hfences]
  exact ⟨hlose, hcause, hdiscards (by simp)⟩

/-! ## The ceiling (R201) -/

theorem adjustCeiling_adjusts {d : Dev} {c : Nat} (step mw : Nat) (hon : d.domOn (drwDom c) = true) :
    ∃ ds, adjustCeiling d c step mw = { d with drawers := ds } ∧ ((adjustCeiling d c step mw).drw c).ceiling =
      if chestLimit step < mw then max 32 ((d.drw c).ceiling - 32)
      else if mw + 1750 < chestLimit step then min 1024 ((d.drw c).ceiling + 32) else (d.drw c).ceiling := by
  simp only [adjustCeiling, hon, Bool.not_true, Bool.false_eq_true, if_false]
  split_ifs
  · exact ⟨_, rfl, congrArg Drawer.ceiling (Dev.drw_setDrw_self ..)⟩
  · exact ⟨_, rfl, congrArg Drawer.ceiling (Dev.drw_setDrw_self ..)⟩
  · exact ⟨d.drawers, rfl, rfl⟩

/-! ## The statement -/

/-- Settles O48: a closed step by what it leaves of controller and page entry, a lost drawer by where its work goes, and the ceiling. -/
theorem drawerStep : Obligations.DrawerStep := by
  unfold Obligations.DrawerStep
  intro c s w
  refine ⟨fun commit n hact hq hnone => ⟨fun hfence => ?fenced, fun hfence => ?closes⟩,
    fun hfence hon n hlost => ⟨fun hfb hfew => ?falls, fun hfb hfew => ?sideboard, fun hno fails => ?fences⟩, fun hon mw => ?ceiling⟩
  case fenced =>
    obtain ⟨ds, hds, hdrw⟩ := drwCommit_fenced hact hq hnone hfence
    refine ⟨{ s with toDev := drwCommit s.toDev c.val commit }, by cases commit <;> rfl, ?_, ?_, fun j => ?_⟩
    · rw [hdrw]
    · rw [hdrw]
    · rw [hds]; rfl
  case closes =>
    obtain ⟨e, hkept, hdrw, hsbs⟩ := drwCommit_closes hact hq hnone hfence
    have hsb (j : Nat) : (drwCommit s.toDev c.val commit).sb j = (s.closedEntries c.val commit).sb j := sb_congr (hkept.sbs.trans hsbs) j
    refine ⟨{ s with toDev := drwCommit s.toDev c.val commit }, by cases commit <;> rfl, ?_, ?_, fun r hr => ?_, ?_, ?_, fun j hj => ?_,
      fun off hlog hdq hwf hoff => ?_⟩
    · rw [hkept.step, hdrw]; rfl
    · rw [hkept.action, hdrw]; rfl
    · obtain ⟨q, hqr, hmsg⟩ := hkept.reqs r hr
      rw [hdrw] at hqr
      have := (List.mem_filter.mp hqr).2
      rw [hmsg]
      simpa using this
    · rw [hkept.log, hdrw]; rfl
    · rw [hkept.closed, hdrw]; rfl
    · exact (hsb j).trans ((sideboardOnly_closedEntries s.toDev c.val commit).sb hj)
    · have hone : (s.closedEntries c.val commit) = s.closeEntry c.val commit off := by
        have hlog : (s.drw c.val).logged none = [off] := hlog
        rw [Dev.closedEntries, hlog]; rfl
      have hmem : ((drwCommit s.toDev c.val commit).sb c.val).mem = ((s.closeEntry c.val commit off).sb c.val).mem := by rw [hsb, hone]
      have hpage := closeEntry_mem commit off hdq hwf
      simp only [← hmem] at hpage
      exact hpage
  case falls =>
    obtain ⟨hisLost, hcode, hfenced, _, hreqs, hdiscards⟩ := loseDrawer_falls hlost hfence hon hfb hfew
    have hnext := congrArg (done s) (drawerLost_falls hlost hfence hon hfb hfew)
    refine ⟨_, hnext, ?_, rfl, fun k hk => ?_, hcode, hfenced, hreqs, hdiscards⟩
    · exact (hisLost n.val).trans (by simp only [decide_true, Bool.true_or])
    · exact (hisLost k).trans (by simp only [hk, decide_false, Bool.false_or, w])
  case sideboard =>
    exact ⟨_, rfl, drawerLost_sideboard hlost hfence hon hfb hfew⟩
  case fences =>
    obtain ⟨hlose, hcause, hdiscards⟩ := drawerLost_fences fails hlost hfence hon hno
    exact ⟨_, rfl, hlose, hcause, hdiscards⟩
  case ceiling =>
    obtain ⟨ds, hds, hceiling⟩ := adjustCeiling_adjusts (d := s.toDev) (s.effStep (drwDom c.val)) mw hon
    exact ⟨_, rfl, by rw [hds], hceiling⟩

end Sys2Proof.Machine
end

section
/-! Power domains, regulators, sensors and the loops (R430–R454): what a register write is where its path reaches it, what the shared
operations keep of the power state, and O56 from both. -/

namespace Sys2Proof.Machine

/-! ## What the shared operations keep of the power state -/

/-- The power state is the same, and a device without a plan stays one. -/
structure PowerKept (d e : Dev) : Prop where
  pwr : e.pwr = d.pwr
  idle : d.planIdle = true → e.planIdle = true

theorem PowerKept.refl (d : Dev) : PowerKept d d := ⟨rfl, id⟩

theorem PowerKept.trans {d e f : Dev} (h : PowerKept d e) (k : PowerKept e f) : PowerKept d f := ⟨k.pwr.trans h.pwr, k.idle ∘ h.idle⟩

theorem PowerKept.after {d e f : Dev} (k : PowerKept e f) (h : PowerKept d e) : PowerKept d f := h.trans k

theorem PowerKept.of_eq {d e : Dev} (hpwr : e.pwr = d.pwr) (hplan : e.plan = d.plan) : PowerKept d e :=
  ⟨hpwr, fun h => by rw [Dev.planIdle, hplan]; exact h⟩

theorem PowerKept.foldl {α : Type} {f : Dev → α → Dev} (h : ∀ d a, PowerKept d (f d a)) (l : List α) (d : Dev) : PowerKept d (l.foldl f d) :=
  foldl_rel PowerKept.refl PowerKept.trans h l d

theorem PowerKept.dom {d e : Dev} (h : PowerKept d e) (id : Nat) : e.dom id = d.dom id := by rw [Dev.dom, h.pwr, Dev.dom]

theorem powerKept_setCab (d : Dev) (c : Nat) (x : Cabinet) : PowerKept d (d.setCab c x) := .of_eq rfl rfl

theorem powerKept_setCabSt (d : Dev) (c : Nat) (st : BitVec 2) : PowerKept d (d.setCabSt c st) := by
  simp only [Dev.setCabSt]
  split
  · exact .refl d
  · exact .of_eq rfl rfl

theorem powerKept_loseCabinet (d : Dev) (c : Nat) (cause : BitVec 16) (chest plain : Bool) : PowerKept d (d.loseCabinet c cause chest plain) := by
  simp only [Dev.loseCabinet]
  split
  · exact .refl d
  · exact (powerKept_setCabSt d c 2).trans (.of_eq rfl rfl)

theorem powerKept_loseStack (d : Dev) (s ch : Nat) : PowerKept d (d.loseStack s ch) :=
  (powerKept_loseCabinet ..).after (.of_eq rfl rfl)

theorem powerKept_trainStack (d : Dev) (s : Nat) : PowerKept d (d.trainStack s) := by
  refine (PowerKept.foldl (fun d ch => ?_) _ _).after (.of_eq rfl rfl)
  dsimp only
  split_ifs
  · exact (powerKept_loseStack ..).after (.of_eq rfl rfl)
  · exact .of_eq rfl rfl
  · exact .refl d
  · exact (powerKept_loseStack ..).after (.of_eq rfl rfl)
  · exact .of_eq rfl rfl

theorem powerKept_gained (d : Dev) (id : Nat) (bad : List Nat) : PowerKept d (d.gained id bad) := by
  simp only [Dev.gained]
  split_ifs
  · cases d.physUse id <;> exact .of_eq rfl rfl
  · exact .of_eq rfl rfl
  · exact (powerKept_trainStack ..).after (.of_eq rfl rfl)
  · exact .refl d

theorem powerKept_fillEnd (d : Dev) : PowerKept d d.fillEnd := by
  simp only [Dev.fillEnd]
  split <;> exact .of_eq rfl rfl

theorem powerKept_unfill (d : Dev) (u : FillUnit) : PowerKept d (d.unfill u) := by
  simp only [Dev.unfill]
  split
  · exact .refl d
  · cases u <;> exact (powerKept_fillEnd _).after (.of_eq rfl rfl)

theorem powerKept_turnOffPorts (d : Dev) (e : Nat) : PowerKept d (d.turnOffPorts e) :=
  PowerKept.foldl (f := fun d p => d.modPort p Port.turnOff) (fun _ _ => .of_eq rfl rfl) _ d

theorem powerKept_logSettle (d : Dev) : PowerKept d d.logSettle := by
  refine (PowerKept.foldl (fun d r => ?_) _ _).after (.of_eq rfl rfl)
  simp only [Dev.logTake]
  split_ifs
  · exact .of_eq rfl rfl
  · exact .refl d

theorem powerKept_turnOffEd0 (d : Dev) : PowerKept d d.turnOffEd0 := ⟨(powerKept_logSettle d).pwr, fun _ => rfl⟩

theorem powerKept_lost (d : Dev) (id : Nat) : PowerKept d (d.lost id) := by
  simp only [Dev.lost]
  split_ifs
  · cases d.physUse id <;> exact .of_eq rfl rfl
  · exact (powerKept_setCab ..).after ((powerKept_unfill ..).after (.of_eq rfl rfl))
  · exact .of_eq rfl rfl
  · exact (powerKept_unfill ..).after (.of_eq rfl rfl)
  · exact (powerKept_turnOffEd0 d).trans (powerKept_turnOffPorts ..)
  · exact powerKept_turnOffPorts ..
  · exact .refl d

theorem powerKept_followCab (d : Dev) (c : Nat) : PowerKept d (d.followCab c) := by
  simp only [Dev.followCab]
  split_ifs
  · exact .refl d
  all_goals exact powerKept_setCabSt ..

theorem powerKept_failPort (d : Dev) (p : Nat) (st : BitVec 4) : PowerKept d (d.failPort p st) := by
  simp only [Dev.failPort]
  exact .of_eq (Dev.unitDiscard_pwr ..) (Dev.unitDiscard_plan ..)

theorem powerKept_failEdgePorts (d : Dev) (e : Nat) : PowerKept d (d.failEdgePorts e) := by
  simp only [Dev.failEdgePorts]
  refine (PowerKept.foldl (fun d p => ?_) _ _).after ?_
  · split
    · exact .refl d
    · exact powerKept_failPort ..
  · split <;> exact .of_eq rfl rfl

/-- A domain that takes a state has it, and enters none. -/
theorem place_dom (d : Dev) (id : Nat) (st : BitVec 2) (bad : List Nat) : ((d.place id st bad).dom id).st = st ∧
    ((d.place id st bad).dom id).entering = none ∧ (d.planIdle = true → (d.place id st bad).planIdle = true) := by
  have hkept : PowerKept (d.setDom id { d.dom id with st := st, entering := none }) (d.place id st bad) := by
    simp only [Dev.place]
    split_ifs
    · exact powerKept_lost ..
    · exact powerKept_gained ..
    · exact .refl _
  rw [hkept.dom, Dev.dom_setDom_self]
  exact ⟨rfl, rfl, hkept.idle⟩

/-- So has it where its cabinet follows, while no plan is loaded. -/
theorem enter_dom {d : Dev} (id : Nat) (st : BitVec 2) (bad : List Nat) (h : d.planIdle = true) :
    ((d.enter id st bad).dom id).st = st ∧ ((d.enter id st bad).dom id).entering = none := by
  obtain ⟨hst, hent, hidle⟩ := place_dom d id st bad
  simp only [Dev.enter]
  split
  · have hfollow := powerKept_followCab (d.place id st bad) (id / 256)
    have hdark : ((d.place id st bad).followCab (id / 256)).darken (id / 256) = (d.place id st bad).followCab (id / 256) := by
      have : ((d.place id st bad).followCab (id / 256)).planIdle = true := hfollow.idle (hidle h)
      rw [Dev.planIdle] at this
      simp only [Dev.darken, this, Bool.true_or, if_true]
    rw [hdark, hfollow.dom]
    exact ⟨hst, hent⟩
  · exact ⟨hst, hent⟩

/-! ## The floor check (R446) -/

/-- A map that keeps the keys relates each entry to its image. -/
theorem Tab.get_map_rel {α : Type} {R : α → α → Prop} {f : Nat × α → Nat × α} (hkey : ∀ p, (f p).1 = p.1) (hval : ∀ p, R p.2 (f p).2) {z : α}
    (hz : R z z) (t : Tab α) (k : Nat) : R (Tab.get t z k) (Tab.get (t.map f) z k) := by
  induction t with
  | nil => exact hz
  | cons p t ih =>
    obtain ⟨j, v⟩ := p
    have hj : (f (j, v)).1 = j := hkey (j, v)
    by_cases h : j = k
    · subst h
      simpa [Tab.get, hj] using hval (j, v)
    · simpa [Tab.get, hj, h] using ih

/-- Nothing but BELOW_FLOOR of the domains and what the step sequencer shows of the step's floor differs. -/
structure FloorMarked (d e : Dev) : Prop where
  dev : ∃ doms seq suite, e = { d with pwr := { d.pwr with doms := doms }, seq := seq, suite := suite }
  dom : ∀ id, ∃ b, e.dom id = { d.dom id with belowFloor := b }

theorem FloorMarked.refl (d : Dev) : FloorMarked d d := ⟨⟨d.pwr.doms, d.seq, d.suite, rfl⟩, fun _ => ⟨_, rfl⟩⟩

theorem FloorMarked.trans {d e f : Dev} (h : FloorMarked d e) (k : FloorMarked e f) : FloorMarked d f := by
  obtain ⟨doms, seq, suite, rfl⟩ := h.dev
  obtain ⟨doms', seq', suite', hf⟩ := k.dev
  refine ⟨⟨doms', seq', suite', hf⟩, fun id => ?_⟩
  obtain ⟨b, hb⟩ := h.dom id
  obtain ⟨b', hb'⟩ := k.dom id
  exact ⟨b', by rw [hb', hb]⟩

theorem FloorMarked.after {d e f : Dev} (k : FloorMarked e f) (h : FloorMarked d e) : FloorMarked d f := h.trans k

theorem floorMarked_setDom (d : Dev) (id : Nat) (b : Bool) : FloorMarked d (d.setDom id { d.dom id with belowFloor := b }) := by
  refine ⟨⟨_, d.seq, d.suite, rfl⟩, fun j => ?_⟩
  by_cases h : j = id
  · subst h
    exact ⟨b, Dev.dom_setDom_self ..⟩
  · exact ⟨_, Dev.dom_setDom_ne d _ h⟩

theorem voidFloor_keeps (d : Dev) (b : BitVec 8) : ∃ seq suite, d.voidFloor b = { d with seq := seq, suite := suite } := by
  simp only [Dev.voidFloor]
  cases d.seq.run with
  | none => exact ⟨d.seq, d.suite, rfl⟩
  | some r =>
    dsimp only
    split_ifs <;> exact ⟨_, _, rfl⟩

theorem floorMarked_voidFloor (d : Dev) (b : BitVec 8) : FloorMarked d (d.voidFloor b) := by
  obtain ⟨seq, suite, h⟩ := voidFloor_keeps d b
  rw [h]
  exact ⟨⟨d.pwr.doms, seq, suite, rfl⟩, fun _ => ⟨_, rfl⟩⟩

theorem floorMarked_map (d : Dev) (f : Nat × Dom → Nat × Dom) (hkey : ∀ p, (f p).1 = p.1)
    (hval : ∀ p, ∃ b, (f p).2 = { p.2 with belowFloor := b }) :
    FloorMarked d { d with pwr := { d.pwr with doms := d.pwr.doms.map f } } :=
  ⟨⟨_, d.seq, d.suite, rfl⟩, fun id => Tab.get_map_rel (R := fun x y => ∃ b, y = { x with belowFloor := b }) hkey hval ⟨_, rfl⟩ d.pwr.doms id⟩

theorem floorMarked_slow (d : Dev) : FloorMarked d (if d.slow then d.voidFloor 1 else d) := by
  split
  · exact floorMarked_voidFloor ..
  · exact .refl _

theorem floorMarked_weak (l : List Nat) (d : Dev) : FloorMarked d (l.foldl (fun d id => d.setDom id { d.dom id with belowFloor := true }) d) :=
  foldl_rel FloorMarked.refl FloorMarked.trans (fun d id => floorMarked_setDom d id true) l d

/-- The check does nothing else. -/
theorem floorMarked_floorCheck (d : Dev) : FloorMarked d d.floorCheck := by
  refine (floorMarked_slow _).after ((floorMarked_weak d.weakDoms _).after (floorMarked_map d _ (fun p => ?_) fun p => ?_))
  · dsimp only; split <;> rfl
  · dsimp only; split <;> exact ⟨_, rfl⟩

end Sys2Proof.Machine
end

section
/-! A register write where its path reaches the register (R337, R472, R508–R510): the effect of the register's definition, and one entry in the
change journal. -/

namespace Sys2Proof.Machine

/-- Nothing differs but the change journal, which holds one entry more. -/
def OneEntry (d e : Dev) : Prop := ∃ j : Journal, e = { d with journal := j } ∧ j.total = d.journal.total + 1

theorem oneEntry_journalWrite (d : Dev) (path : Path) (applied wide : Bool) (off old new : Nat) :
    OneEntry d (d.journalWrite path applied wide off old new) := by
  refine ⟨(d.journalWrite path applied wide off old new).journal, rfl, ?_⟩
  cases path <;> rfl

theorem OneEntry.wrote {s : State} {d e : Dev} (h : OneEntry d e) (hj : d.journal = s.journal) : Wrote s { s with toDev := e } d := by
  obtain ⟨j, rfl, htotal⟩ := h
  exact ⟨rfl, by rw [← hj]; exact htotal⟩

/-- An aligned write of a register that the path reaches is the write of one piece. -/
theorem writeRegUp_narrow {d : Dev} {path : Path} {r : Reg} {off : Nat} (h : Reaches d path r) (hoff : off < 2 ^ 26) (hreg : regAt off = some r)
    (v : Nat) (up : StartUp) : writeRegUp d path off false v up = d.regPiece path r off 0 32 v up := by
  obtain ⟨hreach, _, _, hparked⟩ := h
  have hnow : (path == .host && !d.bridge.parked.isEmpty) = false := by
    by_cases hp : path = .host
    · simp [hparked hp]
    · simp [hp]
  have hword : regWord off = some (r, 0) := by simp only [regWord, hreg]
  simp only [writeRegUp, hnow, Bool.false_eq_true, if_false, Dev.regWriteUp, hreach, Bool.not_true, Nat.div_eq_of_lt hoff, bne_self_eq_false,
    Bool.not_false, if_true, hword]

theorem writeRegUp_wide {d : Dev} {path : Path} {r : Reg} {off : Nat} (h : Reaches d path r) (hoff : off < 2 ^ 26) (hreg : regAt off = some r)
    (hwide : r.wide = true) (v : Nat) (up : StartUp) : writeRegUp d path off true v up = d.regPiece path r off 0 64 v up := by
  obtain ⟨hreach, _, _, hparked⟩ := h
  have hnow : (path == .host && !d.bridge.parked.isEmpty) = false := by
    by_cases hp : path = .host
    · simp [hparked hp]
    · simp [hp]
  simp only [writeRegUp, hnow, Bool.false_eq_true, if_false, Dev.regWriteUp, hreach, Bool.not_true, Nat.div_eq_of_lt hoff, bne_self_eq_false,
    hreg, hwide, if_true]

/-- What such a write presents to the register: the bits written, and of the bits not written those that can be read and written. -/
def presented (d : Dev) (r : Reg) (n x : Nat) : Nat :=
  (d.regValue r &&& r.mask.rw &&& ((2 ^ n - 1) <<< 0 ^^^ (2 ^ 64 - 1))) ||| ((x % 2 ^ n) <<< 0 &&& (r.mask.rw ||| r.mask.w1c ||| r.mask.wo))

/-- A piece that meets a writable bit of a journalled register other than RESET_CTL has the register's effect, and its entry. -/
theorem regPiece_effect {d : Dev} {path : Path} {r : Reg} (h : Reaches d path r) (off : Nat) {n : Nat} (x : Nat) (up : StartUp)
    (hbits : ((2 ^ n - 1) <<< 0 &&& (r.mask.rw ||| r.mask.w1c ||| r.mask.wo)) ≠ 0) (hquiet : r.quiet = false) (hreset : r ≠ .resetCtl) :
    OneEntry (d.regEffect path r (presented d r n x) up).1 (d.regPiece path r off 0 n x up) := by
  obtain ⟨_, hserved, harrive, _⟩ := h
  have hlive : ((d.regServed r || d.imageData path r) && ((2 ^ n - 1) <<< 0 &&& (r.mask.rw ||| r.mask.w1c ||| r.mask.wo)) != 0) = true := by
    rw [hserved, Bool.true_or, Bool.true_and, bne_iff_ne]; exact hbits
  simp only [Dev.regPiece, harrive, hlive, hquiet, Bool.not_true, Bool.false_eq_true, if_false, beq_iff_eq, hreset]
  exact oneEntry_journalWrite ..

end Sys2Proof.Machine
end

section
/-! The registers of the power block (Table 18-3) and requests for a state of a domain (R431, R433, R447). -/

namespace Sys2Proof.Machine

/-! ## Where the registers of the power block lie (Table 18-3) -/

theorem isDomain_iff {id : Nat} : isDomain id = true ↔ id / 256 < 12 ∧ id % 256 < 108 ∨ 128 ≤ id ∧ id < 168 := by
  simp [isDomain]

theorem isTempSensor_iff {id : Nat} : isTempSensor id = true ↔
    id / 256 < 12 ∧ id % 256 < 112 ∨ id / 256 = 0 ∧ 128 ≤ id % 256 ∧ id % 256 < 176 := by
  simp [isTempSensor, and_assoc]

/-- The cabinet field and the index of an id. -/
theorem id_parts {c i : Nat} (h : i < 256) : (256 * c + i) / 256 = c ∧ (256 * c + i) % 256 = i := by omega

theorem isDomain_domId (x : DomainId) : isDomain (domId x) = true ∧ domId x < 4096 := by
  rw [isDomain_iff]
  cases x with simp only [domId, sbDom, drwDom]
  | bench c r k =>
    obtain ⟨hcab, hidx⟩ := id_parts (c := c.val) (i := 13 * r.val + k.val) (by omega)
    rw [← Nat.add_assoc] at hcab hidx
    omega
  | sideboard c | drawer c | chest c | plain c | port p | edge e => omega

theorem isTempSensor_sensorId (x : SensorId) : isTempSensor (sensorId x) = true ∧ sensorId x < 4096 := by
  rw [isTempSensor_iff]
  cases x with simp only [sensorId]
  | bench c r k =>
    obtain ⟨hcab, hidx⟩ := id_parts (c := c.val) (i := 13 * r.val + k.val) (by omega)
    rw [← Nat.add_assoc] at hcab hidx
    omega
  | sideboard c k | chest c k | plain c k | edge e k | substrate k => omega

theorem regAt_power {o : Nat} (h : o < 0x40000) : regAt (0x300000 + o) = powerReg o := by
  have h1 : ¬ 0x300000 + o < 0x200000 := by omega
  have h2 : ¬ 0x300000 + o < 0x224000 := by omega
  have h3 : 0x300000 ≤ 0x300000 + o ∧ 0x300000 + o < 0x340000 := by omega
  simp only [regAt, h1, h2, h3, if_false, if_true, and_self, Nat.add_sub_cancel_left]

theorem regAt_domCtl {id : Nat} (h : isDomain id = true) (hlt : id < 4096) : regAt (0x310000 + 16 * id) = some (.domCtl id) := by
  have hne : id ≠ 168 := by
    rintro rfl
    exact absurd h (by decide)
  have hreg := regAt_power (o := 0x10000 + 16 * id) (by omega)
  rw [show 0x300000 + (0x10000 + 16 * id) = 0x310000 + 16 * id by omega] at hreg
  have hf : (0x10000 + 16 * id) % 16 = 0 := by omega
  have hin : 0x10000 ≤ 0x10000 + 16 * id ∧ 0x10000 + 16 * id < 0x20000 := by omega
  rw [hreg, powerReg, if_neg (by simp), if_neg (by simp; omega), if_neg (by simp; omega), if_pos hin]
  simp [hf, hne, h]

theorem regAt_snsStatus {id : Nat} (h : isTempSensor id = true) (hlt : id < 4096) : regAt (0x320000 + 8 * id) = some (.snsStatus id) := by
  have hreg := regAt_power (o := 0x20000 + 8 * id) (by omega)
  rw [show 0x300000 + (0x20000 + 8 * id) = 0x320000 + 8 * id by omega] at hreg
  have hf : (0x20000 + 8 * id) % 8 = 0 := by omega
  have hin : 0x20000 ≤ 0x20000 + 8 * id ∧ 0x20000 + 8 * id < 0x28000 := by omega
  rw [hreg, powerReg, if_neg (by simp), if_neg (by simp; omega), if_neg (by simp; omega), if_neg (by omega), if_pos hin]
  simp [hf, h]

/-! ## Requests (R431, R433, R447) -/

theorem presented_domCtl (d : Dev) (id x : Nat) : presented d (.domCtl id) 32 x = x % 256 := by
  have hkept : (0xF4 &&& (2 ^ 32 - 1 ^^^ 2 ^ 64 - 1) : Nat) = 0 := by decide
  have hbits : (0xF4 ||| 0 ||| 0xB : Nat) = 2 ^ 8 - 1 := by decide
  simp only [presented, Reg.mask, Nat.land_assoc, hkept, Nat.and_zero, Nat.zero_or, hbits, Nat.and_two_pow_sub_one_eq_mod, Nat.shiftLeft_zero]
  omega

/-- A write of PWR_DOM_CTL, with the eight bits that it holds. -/
theorem writeReg_domCtl {d : Dev} {path : Path} (x : DomainId) (h : Reaches d path (.domCtl (domId x))) (v : Nat) :
    OneEntry (writeDomCtl (domId x) (v % 256) d).1 (writeReg d path (0x310000 + 16 * domId x) false v) := by
  obtain ⟨hdom, hlt⟩ := isDomain_domId x
  rw [writeReg, writeRegUp_narrow h (by omega) (regAt_domCtl hdom hlt)]
  have hbits : ((2 ^ 32 - 1) <<< 0 &&& (0xF4 ||| 0 ||| 0xB) : Nat) ≠ 0 := by decide
  have heffect := regPiece_effect h (0x310000 + 16 * domId x) (n := 32) v (Config.startUp d.free) hbits rfl (by simp)
  rw [presented_domCtl] at heffect
  exact heffect

/-- The domain with the fields that a write of its control register leaves. -/
def Dom.controlled (m : Dom) (id v : Nat) : Dom :=
  { m with capStep := if bits 7 4 v ≤ maxStep id then BitVec.ofNat 4 (bits 7 4 v) else m.capStep, discard := bit 2 v }

theorem writeDomCtl_request {d : Dev} {id v : Nat} (hclr : bit 3 v = false) (hreq : bits 1 0 v ≠ 0) : (writeDomCtl id v d).1 =
    ((d.setDom id ((d.dom id).controlled id v)).request id (if bits 1 0 v = 3 then 0 else BitVec.ofNat 2 (bits 1 0 v))).floorCheck := by
  simp [writeDomCtl, hclr, hreq, Dom.controlled]

theorem writeDomCtl_clear {d : Dev} {id v : Nat} (hclr : bit 3 v = true) (hreq : bits 1 0 v = 0) : (writeDomCtl id v d).1 =
    ((d.setDom id ((d.dom id).controlled id v)).setDom id { (d.dom id).controlled id v with aborted := 0, refused := 0 }).floorCheck := by
  simp [writeDomCtl, hclr, hreq, Dom.controlled]

theorem arrive_idle {d : Dev} {n : Nat} (block : BitVec 16) (h : (d.dom n).entering = none) : d.arrive n block = d := by
  simp [Dev.arrive, h]

section

variable {d : Dev} {id : Nat} {st : BitVec 2} (hport : isPortDom id = false) (hneeds : ∀ n, domNeeds id = some n → (d.dom n).entering = none)
include hneeds

/-- A request that is refused is counted, while the domain on which it depends makes no entry. -/
theorem request_refused {b : BitVec 16} (h : d.refuser id st = some b) :
    d.request id st = d.setDom id { d.dom id with refused := satInc16 (d.dom id).refused, lastRefuser := b } := by
  cases hn : (if st == 1 && (d.plan.st == .none || d.plan.st == .failed) then domNeeds id else none) with
  | none => simp only [Dev.request, hn, h]
  | some n =>
    have hid : domNeeds id = some n := by
      split at hn
      · exact hn
      · cases hn
    simp only [Dev.request, hn, arrive_idle _ (hneeds n hid), h]

include hport

/-- One that is not begins the entry. -/
theorem request_taken (h : d.refuser id st = none) :
    d.request id st = d.setDom id { d.dom id with entering := if (d.dom id).st = st then none else some st } := by
  cases hn : (if st == 1 && (d.plan.st == .none || d.plan.st == .failed) then domNeeds id else none) with
  | none => simp only [Dev.request, hn, h, hport, Bool.false_eq_true, if_false, beq_iff_eq]
  | some n =>
    have hid : domNeeds id = some n := by
      split at hn
      · exact hn
      · cases hn
    simp only [Dev.request, hn, arrive_idle _ (hneeds n hid), h, hport, Bool.false_eq_true, if_false, beq_iff_eq]

end

end Sys2Proof.Machine
end

section
/-! O56: what the register writes, entries, loops and samples of the power block do. -/

namespace Sys2Proof.Machine

/-- A write that ends in the floor check leaves the domains as they were before that check, but for BELOW_FLOOR. -/
theorem written_dom {d e : Dev} (h : OneEntry d.floorCheck e) (id : Nat) :
    (∃ b, e.dom id = { d.dom id with belowFloor := b }) ∧ e.journal.total = d.journal.total + 1 := by
  obtain ⟨j, rfl, htotal⟩ := h
  obtain ⟨⟨doms, seq, suite, hdev⟩, hdom⟩ := floorMarked_floorCheck d
  obtain ⟨b, hb⟩ := hdom id
  exact ⟨⟨b, hb⟩, by rw [htotal, hdev]⟩

theorem bit_eq_decide (i n : Nat) : bit i n = decide (n / 2 ^ i % 2 = 1) := Nat.testBit_eq_decide_div_mod_eq

/-- What a request writes into the fields of PWR_DOM_CTL. -/
theorem request_fields (v : BitVec 32) {k : Nat} (hk : k < 4) :
    bits 7 4 ((v.toNat / 4 * 4 + k) % 256) = bits 7 4 v.toNat ∧ bit 2 ((v.toNat / 4 * 4 + k) % 256) = v.getLsbD 2 ∧
      bit 3 ((v.toNat / 4 * 4 + k) % 256) = v.getLsbD 3 ∧ bits 1 0 ((v.toNat / 4 * 4 + k) % 256) = k := by
  simp only [← bit_toNat, bit_eq_decide, bits, decide_eq_decide]
  omega

/-- A write of REQ (R431): the request, and one entry in the change journal. -/
theorem writeReg_request {d : Dev} {path : Path} {x : DomainId} {v : BitVec 32} (h : Reaches d path (.domCtl (domId x)))
    (hclr : v.getLsbD 3 = false) {k : Nat} (hk : 0 < k ∧ k < 4) :
    ∃ e, OneEntry e.floorCheck (writeReg d path (0x310000 + 16 * domId x) false (v.toNat / 4 * 4 + k)) ∧
      e = (d.setDom (domId x) { d.dom (domId x) with
        capStep := if bits 7 4 v.toNat ≤ maxStep (domId x) then BitVec.ofNat 4 (bits 7 4 v.toNat) else (d.dom (domId x)).capStep
        discard := v.getLsbD 2 }).request (domId x) (if k = 3 then 0 else BitVec.ofNat 2 k) := by
  have hwrite := writeReg_domCtl x h (v.toNat / 4 * 4 + k)
  obtain ⟨hcap, hdisc, hbit, hreq⟩ := request_fields v hk.2
  rw [writeDomCtl_request (hbit.trans hclr) (by omega), hreq, Dom.controlled, hcap, hdisc] at hwrite
  exact ⟨_, hwrite, rfl⟩

/-- A request that nothing refuses, or that something does (Table 15-5). -/
theorem writeReg_request_dom {d : Dev} {path : Path} {x : DomainId} {v : BitVec 32} (h : Reaches d path (.domCtl (domId x)))
    (hclr : v.getLsbD 3 = false) (hport : isPortDom (domId x) = false)
    (hneeds : ∀ n, domNeeds (domId x) = some n → (d.dom n).entering = none) {k : Nat} (hk : 0 < k ∧ k < 4) {st : BitVec 2}
    (hst : st = if k = 3 then 0 else BitVec.ofNat 2 k) {f : Dev} (hf : f = d.setDom (domId x) { d.dom (domId x) with
      capStep := if bits 7 4 v.toNat ≤ maxStep (domId x) then BitVec.ofNat 4 (bits 7 4 v.toNat) else (d.dom (domId x)).capStep
      discard := v.getLsbD 2 }) {e : Dev} (he : e = writeReg d path (0x310000 + 16 * domId x) false (v.toNat / 4 * 4 + k)) :
    (f.refuser (domId x) st = none → (e.dom (domId x)).entering = (if (d.dom (domId x)).st = st then none else some st) ∧
      (e.dom (domId x)).st = (d.dom (domId x)).st ∧ (e.dom (domId x)).refused = (d.dom (domId x)).refused ∧
      e.journal.total = d.journal.total + 1) ∧
    ∀ r, f.refuser (domId x) st = some r → (e.dom (domId x)).entering = (d.dom (domId x)).entering ∧
      (e.dom (domId x)).st = (d.dom (domId x)).st ∧ (e.dom (domId x)).refused = satInc16 (d.dom (domId x)).refused ∧
      (e.dom (domId x)).lastRefuser = r := by
  obtain ⟨g, hwrite, hg⟩ := writeReg_request h hclr hk
  rw [← he] at hwrite
  rw [← hf, ← hst] at hg
  obtain ⟨⟨b, hb⟩, htotal⟩ := written_dom hwrite (domId x)
  have hent (n : Nat) : (f.dom n).entering = (d.dom n).entering := by
    by_cases hn : n = domId x
    · rw [hf, hn, Dev.dom_setDom_self]
    · rw [hf, Dev.dom_setDom_ne _ _ hn]
  have hneeds' : ∀ n, domNeeds (domId x) = some n → (f.dom n).entering = none := fun n hn => (hent n).trans (hneeds n hn)
  refine ⟨fun hnone => ?taken, fun r hr => ?refused⟩
  case taken =>
    rw [request_taken hport hneeds' hnone, hf, Dev.dom_setDom_self] at hg
    rw [hg, Dev.dom_setDom_self] at hb
    rw [hb]
    exact ⟨rfl, rfl, rfl, by rw [htotal, hg]; rfl⟩
  case refused =>
    rw [request_refused hneeds' hr, hf, Dev.dom_setDom_self] at hg
    rw [hg, Dev.dom_setDom_self] at hb
    rw [hb]
    exact ⟨rfl, rfl, rfl, rfl⟩

/-- CLR_COUNTS without a request (R447): the counters, and CAP_STEP and DISCARD as written. -/
theorem writeReg_clear_dom {d : Dev} {path : Path} {x : DomainId} {v : BitVec 32} (h : Reaches d path (.domCtl (domId x)))
    (hreq : v.toNat % 4 = 0) {e : Dev} (he : e = writeReg d path (0x310000 + 16 * domId x) false (v.toNat ||| 8)) :
    (e.dom (domId x)).refused = 0 ∧ (e.dom (domId x)).aborted = 0 ∧ (e.dom (domId x)).st = (d.dom (domId x)).st ∧
      (e.dom (domId x)).entering = (d.dom (domId x)).entering := by
  have hwrite := writeReg_domCtl x h (v.toNat ||| 8)
  have hbit : bit 3 ((v.toNat ||| 8) % 256) = true := by
    rw [bit, show (256 : Nat) = 2 ^ 8 from rfl, Nat.testBit_mod_two_pow, Nat.testBit_or, show Nat.testBit 8 3 = true by decide, Bool.or_true]
    rfl
  have hnone : bits 1 0 ((v.toNat ||| 8) % 256) = 0 := by
    have hor : (v.toNat ||| 8) % 2 ^ 2 = 0 := by rw [Nat.or_mod_two_pow, show (2 : Nat) ^ 2 = 4 from rfl, hreq]; rfl
    simp only [bits]
    omega
  rw [writeDomCtl_clear hbit hnone, ← he] at hwrite
  obtain ⟨⟨b, hb⟩, _⟩ := written_dom hwrite (domId x)
  rw [Dev.dom_setDom_self] at hb
  rw [hb]
  exact ⟨rfl, rfl, rfl, rfl⟩

/-! ## Entries that end (R433, R434) -/

theorem domainEntryComplete_dom {d : Dev} {id : Nat} {st : BitVec 2} (bad : List Nat) (h : (d.dom id).entering = some st) (hst : st ≠ 1)
    (hidle : d.planIdle = true) :
    ((domainEntryComplete d id bad).dom id).st = st ∧ ((domainEntryComplete d id bad).dom id).entering = none := by
  have heq : domainEntryComplete d id bad = d.enter id st bad := by
    simp only [domainEntryComplete, h, beq_iff_eq, hst, if_false]
  rw [heq]
  exact enter_dom id st bad hidle

theorem domainOnComplete_dom {d : Dev} {id : Nat} (bad : List Nat) (h : (d.dom id).entering = some 1) (hidle : d.planIdle = true) :
    ((domainOnComplete d id bad).dom id).st = 1 ∧ ((domainOnComplete d id bad).dom id).entering = none := by
  have heq : domainOnComplete d id bad = d.enter id 1 bad := by simp [domainOnComplete, h]
  rw [heq]
  exact enter_dom id 1 bad hidle

/-- A register access that an entering domain serves ends the entry (R433). -/
theorem regArrive_aborts {d : Dev} {r : Reg} {id : Nat} {st : BitVec 2}
    (hserver : d.serverOf r = .domain id ∨ ∃ c, d.serverOf r = .cabinet c id ∧ d.fenced c = false)
    (hon : (d.dom id).st = 1) (hent : (d.dom id).entering = some st) : d.regArrive .sideband r =
      d.setDom id { d.dom id with entering := none, aborted := satInc16 (d.dom id).aborted, lastRefuser := alwaysOnBlock } := by
  have harrive : d.arrive id alwaysOnBlock =
      d.setDom id { d.dom id with entering := none, aborted := satInc16 (d.dom id).aborted, lastRefuser := alwaysOnBlock } := by
    simp [Dev.arrive, hon, hent]
  rcases hserver with h | ⟨c, h, hfence⟩
  · simp [Dev.regArrive, h, harrive]
  · simp [Dev.regArrive, h, hfence, harrive]

theorem regTouch_dom (d : Dev) (r : Reg) (id : Nat) : (d.regTouch r).dom id = d.dom id := by
  simp only [Dev.regTouch]
  split
  · split <;> rfl
  · split <;> rfl
  · rfl

/-- REG_READ of a word that a register starts (R469): what it reads. -/
theorem regReadCommand_word {d : Dev} {off : Nat} {r : Reg} (haux : d.boot.vaux33 = true) (hfuse : d.boot.stage ≠ 10) (hreach : d.reached .sideband = true)
    (halign : off % 4 = 0) (hoff : off < 2 ^ 26) (hreg : regAt off = some r) : regReadCommand d off false =
      ((d.regArrive .sideband r).regTouch r).sideAnswer (.data (leBytes 4 (d.regValue r % 2 ^ 32))) := by
  have hword : regWord off = some (r, 0) := by simp only [regWord, hreg]
  have hgo : (!d.boot.vaux33 || d.boot.stage == 10) = false := by rw [haux, beq_false_of_ne hfuse]; rfl
  simp only [regReadCommand, hgo, hreach, halign, Dev.regRead, Nat.div_eq_of_lt hoff, Dev.regRead32, hword, Bool.false_eq_true, if_false,
    Bool.not_true, Bool.or_self, bne_self_eq_false, Bool.not_false, if_true, Nat.shiftRight_zero]

/-! ## The loops (R442, R445) -/

theorem maxStep_le (id : Nat) : maxStep id ≤ 10 := by
  simp only [maxStep]
  split_ifs <;> omega

theorem throttleLoop_step {d : Dev} {id : Nat} (underVolt : Bool) (hport : isPortDom id = false) (hdrw : id % 256 ≠ 105) :
    ((throttleLoop d id underVolt).dom id).loopStep.toNat =
      if threshold (isStkDom id) 2 ≤ d.governing id then min (maxStep id) ((d.dom id).loopStep.toNat + 1)
      else if d.governing id < threshold (isStkDom id) 2 - 20 then (d.dom id).loopStep.toNat - 1 else (d.dom id).loopStep.toNat := by
  have hgo : (isPortDom id || id % 256 == 105) = false := by simp [hport, hdrw]
  simp only [throttleLoop, hgo, Bool.false_eq_true, if_false]
  obtain ⟨b, hb⟩ := (floorMarked_floorCheck _).dom id
  rw [hb, Dev.dom_setDom_self]
  have hmax := maxStep_le id
  have hstep := (d.dom id).loopStep.isLt
  rw [BitVec.toNat_ofNat, Nat.mod_eq_of_lt]
  · rfl
  · split_ifs <;> omega

theorem powerCapLoop_pwr (d : Dev) (a : Nat) : (powerCapLoop d a).pwr.current = BitVec.ofNat 16 (min 0xFFFF a) ∧
    (powerCapLoop d a).pwr.pcapStep.toNat = if 10 * d.pwr.limit.toNat < a then min 10 (d.pwr.pcapStep.toNat + 1)
      else if a + 100 < 10 * d.pwr.limit.toNat then d.pwr.pcapStep.toNat - 1 else d.pwr.pcapStep.toNat := by
  simp only [powerCapLoop]
  obtain ⟨doms, seq, suite, hdev⟩ := (floorMarked_floorCheck _).dev
  rw [hdev]
  have hstep := d.pwr.pcapStep.isLt
  refine ⟨rfl, ?_⟩
  simp only [Dev.fresh_pwr]
  rw [BitVec.toNat_ofNat, Nat.mod_eq_of_lt]
  split_ifs <;> omega

/-! ## Shutdown (Sequence 15-2) -/

theorem setStage_keeps (d : Dev) (st : BitVec 4) : ∃ mgmt, d.setStage st = { d with boot := { d.boot with stage := st }, mgmt := mgmt } := by
  simp only [Dev.setStage]
  split
  · next h => exact ⟨d.mgmt, by rw [← beq_iff_eq.mp h]⟩
  · exact ⟨_, rfl⟩

theorem setStage_stage (d : Dev) (st : BitVec 4) : (d.setStage st).boot.stage = st := by
  obtain ⟨mgmt, h⟩ := setStage_keeps d st
  rw [h]

theorem allOff_pwr (d : Dev) : ∃ doms, d.allOff.pwr = { d.pwr with doms := doms } := by
  have hkept : PowerKept d ((List.range 12).foldl (fun d c => if d.fenced c then d else d.setCabSt c 0) d.logSettle) := by
    refine (PowerKept.foldl (fun d c => ?_) _ _).after (powerKept_logSettle d)
    split
    · exact .refl d
    · exact powerKept_setCabSt ..
  simp only [Dev.allOff]
  generalize (List.range 12).foldl _ _ = e at hkept ⊢
  rw [hkept.pwr]
  exact ⟨_, rfl⟩

/-- A device that shuts down is held, with its benches gone. -/
theorem shutdown_holds {d : Dev} (kind id : Nat) (cause : BitVec 16) (h : d.pwr.hold = false) :
    (∃ doms, (d.shutdown kind id cause).pwr = { d.pwr with doms := doms, cause := cause, hold := true }) ∧
      (d.shutdown kind id cause).boot.stage = 11 ∧ (d.shutdown kind id cause).benches = [] := by
  simp only [Dev.shutdown, h, Bool.false_eq_true, if_false]
  generalize he : Dev.mk .. = e
  obtain ⟨doms, hpwr⟩ := allOff_pwr e
  obtain ⟨mgmt, hstage⟩ := setStage_keeps e.allOff 11
  refine ⟨⟨doms, ?_⟩, setStage_stage .., ?_⟩
  · rw [hstage]
    exact hpwr.trans (by rw [← he]; rfl)
  · rw [hstage]; rfl

/-! ## Regulators (R435, R436) -/

/-- The readings of a phase beyond 20 %, this one counted. -/
def Regul.streak (r : Regul) (amps live : List Nat) (i : Nat) : Nat := if phaseOff amps live i then r.streaks.get 0 i + 1 else 0

/-- The phases that a sample finds lost. -/
def Regul.gone (r : Regul) (runs : Bool) (amps live : List Nat) : List Nat :=
  live.filter (fun i => (runs && amps.getD i 0 == 0) || decide (16 ≤ r.streak amps live i))

/-- The phases not lost before. -/
def Dev.livePhases (d : Dev) (id : Nat) : List Nat := (List.range (regFitted id)).filter (fun i => !(d.regul id).lost.contains i)

/-- What a regulator shows after a sample. -/
def Dev.sampled (d : Dev) (id : Nat) (amps : List Nat) : Regul :=
  let r := d.regul id
  let live := d.livePhases id
  let total := (live.map (fun i => amps.getD i 0)).sum
  let gone := r.gone (d.regRuns id) amps live
  { current := BitVec.ofNat 12 (min 4095 ((r.prev.getD total + total) / 2)), prev := some total, lost := r.lost ++ gone
    streaks := (live.filter (fun i => r.streak amps live i != 0 && !gone.contains i)).map (fun i => (i, r.streak amps live i)) }

/-- The records of lost phases. -/
def Dev.phasesLost (d : Dev) (id : Nat) (gone : List Nat) : Dev :=
  gone.foldl (fun d i => (d.unitRecord 8 (id / 256) (id % 256) fltRegPhase { lasting := true }).telemetry 4 (0x2000 + id) i []) d

theorem regulatorSample_eq (d : Dev) (id : Nat) (amps : List Nat) : regulatorSample d id amps =
    let e := (d.setRegul id (d.sampled id amps)).phasesLost id ((d.regul id).gone (d.regRuns id) amps (d.livePhases id))
    if regFitted id - ((d.regul id).lost ++ (d.regul id).gone (d.regRuns id) amps (d.livePhases id)).length < regNeeded id &&
      regNeeded id ≤ regFitted id - (d.regul id).lost.length then e.regLimit id else e := rfl

theorem powerKept_phasesLost (d : Dev) (id : Nat) (gone : List Nat) : PowerKept d (d.phasesLost id gone) :=
  PowerKept.foldl (f := fun d i => (d.unitRecord 8 (id / 256) (id % 256) fltRegPhase { lasting := true }).telemetry 4 (0x2000 + id) i [])
    (fun _ _ => .of_eq rfl rfl) gone d

theorem regLimit_regs (d : Dev) (id : Nat) : (d.regLimit id).pwr.regs = d.pwr.regs := by
  have hcab (n : UnitNote) (c i : Nat) (chest plain : Bool) :
      ((d.unitRecord 8 c i fltRegLimit n).loseCabinet c fltRegLimit chest plain).pwr.regs = d.pwr.regs := by
    rw [(powerKept_loseCabinet ..).pwr, Dev.unitRecord_pwr]
  have hport (n : UnitNote) (c i e : Nat) : ((d.unitRecord 8 c i fltRegLimit n).failEdgePorts e).pwr.regs = d.pwr.regs := by
    rw [(powerKept_failEdgePorts ..).pwr, Dev.unitRecord_pwr]
  simp only [Dev.regLimit]
  split_ifs with _ hhold
  · exact congrArg Power.regs (Dev.unitRecord_pwr ..)
  · obtain ⟨⟨doms, hpwr⟩, _⟩ := shutdown_holds 8 id fltRegLimit (eq_false_of_ne_true hhold)
    rw [hpwr]
  · exact hcab ..
  · exact hcab ..
  · exact hcab ..
  · exact hport ..
  · exact hport ..

theorem regulatorSample_regul (d : Dev) (id : Nat) (amps : List Nat) : (regulatorSample d id amps).regul id = d.sampled id amps := by
  have hregs : (regulatorSample d id amps).pwr.regs = (d.setRegul id (d.sampled id amps)).pwr.regs := by
    rw [regulatorSample_eq]
    dsimp only
    split
    · rw [regLimit_regs, (powerKept_phasesLost ..).pwr]
    · rw [(powerKept_phasesLost ..).pwr]
  rw [Dev.regul, hregs]
  exact Tab.get_set_self ..

theorem sum_getD_const {amps l : List Nat} {a : Nat} (h : ∀ i ∈ l, amps.getD i 0 = a) : (l.map (fun i => amps.getD i 0)).sum = l.length * a := by
  rw [List.map_congr_left h, List.map_const', List.sum_replicate, smul_eq_mul]

/-- Where all phases agree, none is beyond 20 % of the mean of the others. -/
theorem phaseOff_agree {amps live : List Nat} {a i : Nat} (h : ∀ j ∈ live, amps.getD j 0 = a) (hi : i ∈ live) : phaseOff amps live i = false := by
  have hsum := sum_getD_const (l := live.filter (· != i)) fun j hj => h j (List.mem_of_mem_filter hj)
  simp only [phaseOff, hsum, h i hi, Bool.and_eq_false_iff, Bool.or_eq_false_iff, decide_eq_false_iff_not, Nat.not_lt]
  right
  generalize (live.filter (· != i)).length = n
  constructor <;> nlinarith [Nat.zero_le (n * a)]

/-- So none is lost, and the average of two readings is shown (log 32). -/
theorem sampled_agree {d : Dev} {id : Nat} {amps : List Nat} {a : Nat} (hcur : 0 < a ∨ d.regRuns id = false)
    (h : ∀ i ∈ d.livePhases id, amps.getD i 0 = a) : d.sampled id amps =
      { current := BitVec.ofNat 12 (min 4095 (((d.regul id).prev.getD ((d.livePhases id).length * a) + (d.livePhases id).length * a) / 2))
        prev := some ((d.livePhases id).length * a), lost := (d.regul id).lost, streaks := [] } := by
  have hstreak : ∀ i ∈ d.livePhases id, (d.regul id).streak amps (d.livePhases id) i = 0 := fun i hi => by
    rw [Regul.streak, phaseOff_agree h hi]; rfl
  have hgone : (d.regul id).gone (d.regRuns id) amps (d.livePhases id) = [] := by
    refine List.filter_eq_nil_iff.mpr fun i hi => ?_
    rw [hstreak i hi, h i hi]
    rcases hcur with ha | hruns
    · simp; omega
    · simp [hruns]
  have hnone : (d.livePhases id).filter (fun i => (d.regul id).streak amps (d.livePhases id) i != 0 && !([] : List Nat).contains i) = [] :=
    List.filter_eq_nil_iff.mpr fun i hi => by simp [hstreak i hi]
  simp only [Dev.sampled, hgone, hnone, sum_getD_const h, List.append_nil, List.map_nil]

/-- A live phase of a regulator with a load is lost where it carries no current. -/
theorem sampled_dead {d : Dev} {id : Nat} {amps : List Nat} (hruns : d.regRuns id = true) {i : Nat} (hi : i ∈ d.livePhases id)
    (h : amps.getD i 0 = 0) : i ∈ (d.sampled id amps).lost := by
  refine List.mem_append_right _ (List.mem_filter.mpr ⟨hi, ?_⟩)
  simp only [hruns, h, beq_self_eq_true, Bool.and_self, Bool.true_or]

end Sys2Proof.Machine
end

section
/-! O56: sensors, and the statement. -/

namespace Sys2Proof.Machine

/-! ## Sensors (R437–R441) -/

/-- The neighbours of a sensor that are not suspect. -/
def Dev.goodNeighbours (d : Dev) (id : Nat) : List Nat := (neighbours id).filter (fun j => !(d.sensor j).suspect)

/-- Twice the median of their readings. -/
def Dev.goodMedian (d : Dev) (id : Nat) : Int := median2 ((d.goodNeighbours id).map (fun j => (d.sensor j).raw.toInt))

/-- What a sensor shows after a reading near its neighbours. -/
def Dev.nearReading (d : Dev) (id : Nat) (raw : BitVec 16) : Sensor :=
  ⟨raw, BitVec.ofInt 16 (d.goodMedian id / 2), false, false, BitVec.ofNat 2 (levelOf id (d.sensor id).level.toNat raw.toInt), 0, raw,
    decide (threshold (stackSensor id) 3 ≤ raw.toInt) && decide (id % 256 < 160)⟩

/-- The telemetry of a sensor's level, and of the device's (R471). -/
def Dev.tellLevels (d : Dev) (id old new before : Nat) : Dev :=
  let d := if new != old then d.telemetry 1 id new [] else d
  if d.thermalLevel != before then d.telemetry 2 0x3011 d.thermalLevel [] else d

theorem tellLevels_pwr (d : Dev) (id old new before : Nat) : (d.tellLevels id old new before).pwr = d.pwr := by
  simp only [Dev.tellLevels]
  split_ifs <;> simp only [Dev.telemetry_pwr]

/-- The device after a reading near its neighbours, before a shutdown that the reading brings. -/
def Dev.nearRead (d : Dev) (id : Nat) (raw : BitVec 16) : Dev :=
  (((d.setSensor id (d.nearReading id raw)).tellLevels id (d.sensor id).level.toNat (levelOf id (d.sensor id).level.toNat raw.toInt)
    d.thermalLevel).follow id).floorCheck

/-- A reading near its neighbours: its value is used, and a second confirmed one shuts the device down (R438, R441). -/
theorem readSensor_near {d : Dev} {id : Nat} {raw : BitVec 16} (hsus : (d.sensor id).suspect = false) (hgood : 2 ≤ (d.goodNeighbours id).length)
    (hnear : (2 * raw.toInt - d.goodMedian id).natAbs ≤ 64) : readSensor d id raw =
      if (d.nearReading id raw).hot && (d.sensor id).hot then (d.nearRead id raw).shutdown 9 id fltThermalShutdown else d.nearRead id raw := by
  have hchecked : decide ((d.goodNeighbours id).length < 2) = false := decide_eq_false (by omega)
  have hfar : decide (64 < (2 * raw.toInt - d.goodMedian id).natAbs) = false := decide_eq_false (by omega)
  have hnew : decide (16 ≤ 0) = false := rfl
  rw [Dev.goodMedian] at hfar
  rw [Dev.goodNeighbours] at hchecked hfar
  simp only [readSensor, hsus, hchecked, hfar, hnew, Bool.not_false, Bool.and_false, Bool.true_and, Bool.or_self, Bool.false_eq_true, if_false,
    Nat.min_zero, BitVec.ofInt_toInt]
  rfl

/-- What it leaves of the power state. -/
theorem nearRead_pwr (d : Dev) (id : Nat) (raw : BitVec 16) : ∃ doms, (d.nearRead id raw).pwr =
    { d.pwr with sensors := d.pwr.sensors.set id (d.nearReading id raw), doms := doms } := by
  obtain ⟨doms, seq, suite, hdev⟩ := (floorMarked_floorCheck (Dev.follow _ id)).dev
  rw [Dev.nearRead, hdev]
  simp only [Dev.follow]
  cases levelDom id with
  | none => exact ⟨doms, by simp only [tellLevels_pwr, Dev.setSensor]⟩
  | some g => exact ⟨doms, by simp only [tellLevels_pwr, Dev.setSensor, Dev.setDom]⟩

theorem nearRead_sensor (d : Dev) (id : Nat) (raw : BitVec 16) :
    (d.nearRead id raw).pwr.resetPending = d.pwr.resetPending ∧ (d.nearRead id raw).sensor id = d.nearReading id raw := by
  obtain ⟨doms, hpwr⟩ := nearRead_pwr d id raw
  rw [Dev.sensor, hpwr]
  exact ⟨rfl, Tab.get_set_self ..⟩

theorem governing_congr {d e : Dev} (h : e.pwr.sensors = d.pwr.sensors) (id : Nat) : e.governing id = d.governing id := by
  simp only [Dev.governing, Dev.sensor, h]

/-- The level of the governing value follows (R440). -/
theorem nearRead_level {d : Dev} {id g : Nat} (raw : BitVec 16) (h : levelDom id = some g) :
    ((d.nearRead id raw).dom g).level = BitVec.ofNat 2 (levelOf id (d.dom g).level.toNat ((d.nearRead id raw).governing g)) := by
  obtain ⟨doms, hpwr⟩ := nearRead_pwr d id raw
  obtain ⟨b, hb⟩ := (floorMarked_floorCheck (Dev.follow _ id)).dom g
  rw [Dev.nearRead] at hpwr ⊢
  rw [hb]
  generalize he : Dev.tellLevels _ _ _ _ _ = e at hpwr ⊢
  have hepwr : e.pwr = (d.setSensor id (d.nearReading id raw)).pwr := by rw [← he, tellLevels_pwr]
  have hgov : ((e.follow id).floorCheck).governing g = e.governing g := governing_congr (by rw [hpwr, hepwr]; rfl) g
  have hdom : e.dom g = d.dom g := by rw [Dev.dom, hepwr]; rfl
  rw [hgov, ← hdom]
  simp only [Dev.follow, h, Dev.dom_setDom_self]

theorem sensorReading_settled {d : Dev} {id : Nat} {raw : BitVec 16} (up : StartUp) (h : (readSensor d id raw).pwr.resetPending = none) :
    sensorReading d id raw up = readSensor d id raw := by
  simp only [sensorReading, h]

/-- SUSPECT is cleared by writing 1 (R438). -/
theorem sensorSuspectClear_effect {d : Dev} {path : Path} {n : SensorId} (h : Reaches d path (.snsStatus (sensorId n)))
    (hsus : (d.sensor (sensorId n)).suspect = true) :
    OneEntry (d.setSensor (sensorId n) { d.sensor (sensorId n) with suspect := false, streak := 0 })
      (writeReg d path (0x320000 + 8 * sensorId n) true 0x80000000) := by
  obtain ⟨hsensor, hlt⟩ := isTempSensor_sensorId n
  have hbits : ((2 ^ 64 - 1) <<< 0 &&& (0 ||| 0x80000000 ||| 0) : Nat) ≠ 0 := by decide
  have heffect := regPiece_effect h (0x320000 + 8 * sensorId n) (n := 64) 0x80000000 (Config.startUp d.free) hbits rfl (by simp)
  have hpresented : presented d (.snsStatus (sensorId n)) 64 0x80000000 = 0x80000000 := by
    simp only [presented, Reg.mask, Nat.and_zero, Nat.zero_and, Nat.zero_or]
    decide
  have hbit : bit 31 0x80000000 = true := by decide
  rw [hpresented] at heffect
  simp only [Dev.regEffect, hbit, if_true, suspectClear, hsus] at heffect
  rw [writeReg, writeRegUp_wide h (by omega) (regAt_snsStatus hsensor hlt) rfl]
  exact heffect

/-! ## The statement -/

/-- Settles O56: the requests by their one write, the entries by what a domain that takes a state keeps, samples and readings by what they
show, and the loops by their step. -/
theorem powerDomains : Obligations.PowerDomains := by
  unfold Obligations.PowerDomains
  refine ⟨fun x s => ?domain, fun off r id st s haux hfuse hreach halign hreg hserver hon hent => ?access, fun r amps s => ?regulator,
    fun n s => ?sensor, fun a s => ?cap⟩
  case domain =>
    intro id m
    refine ⟨fun path v hreach hclr hport hneeds => ?request, fun path v hreach hreq => ?clear, fun st bad hent hst hidle => ?entry,
      fun bad hent hidle => ?on, fun underVolt hport hdrw => ?throttle⟩
    case request =>
      intro cap m' p hp
      simp only [List.mem_cons, List.not_mem_nil, or_false] at hp
      rcases hp with rfl | rfl | rfl
      · obtain ⟨htaken, hrefused⟩ := writeReg_request_dom hreach hclr hport hneeds (k := 1) (by omega) (st := 1) rfl rfl rfl
        exact ⟨fun h => ⟨_, rfl, htaken h⟩, fun r h => ⟨_, rfl, hrefused r h⟩⟩
      · obtain ⟨htaken, hrefused⟩ := writeReg_request_dom hreach hclr hport hneeds (k := 2) (by omega) (st := 2) rfl rfl rfl
        exact ⟨fun h => ⟨_, rfl, htaken h⟩, fun r h => ⟨_, rfl, hrefused r h⟩⟩
      · obtain ⟨htaken, hrefused⟩ := writeReg_request_dom hreach hclr hport hneeds (k := 3) (by omega) (st := 0) rfl rfl rfl
        exact ⟨fun h => ⟨_, rfl, htaken h⟩, fun r h => ⟨_, rfl, hrefused r h⟩⟩
    case clear => exact ⟨_, rfl, writeReg_clear_dom hreach hreq rfl⟩
    case entry => exact ⟨_, rfl, domainEntryComplete_dom _ hent hst hidle⟩
    case on => exact ⟨_, rfl, domainOnComplete_dom _ hent hidle⟩
    case throttle => exact ⟨_, rfl, throttleLoop_step underVolt hport hdrw⟩
  case access =>
    have hread := regReadCommand_word haux hfuse hreach halign off.isLt hreg
    refine ⟨_, congrArg (done s) hread, ?_, rfl⟩
    exact (regTouch_dom _ r id).trans (by rw [regArrive_aborts hserver hon hent, Dev.dom_setDom_self])
  case regulator =>
    refine ⟨fun a hcur h => ⟨_, rfl, ?agree⟩, fun hruns i hi h => ⟨_, rfl, ?dead⟩⟩
    case agree => exact (regulatorSample_regul s.toDev (regulId r) amps).trans (sampled_agree hcur h)
    case dead =>
      have hregul := regulatorSample_regul s.toDev (regulId r) amps
      exact (congrArg Regul.lost hregul) ▸ sampled_dead hruns hi h
  case sensor =>
    intro id x good med2
    refine ⟨fun raw up hsus hgood hnear hpend hhold hcold => ?near, fun raw up hsus hgood hnear hpend hhold hhot htop hkind => ?hot,
      fun path hreach hsus => ?suspect⟩
    case near =>
      obtain ⟨hpending, hsensor⟩ := nearRead_sensor s.toDev id raw
      have hcalm : ((s.nearReading id raw).hot && x.hot) = false := by
        rcases hcold with h | h
        · rw [h, Bool.and_false]
        · rw [Dev.nearReading, decide_eq_false (by omega), Bool.false_and, Bool.false_and]
      have hread : readSensor s.toDev id raw = s.nearRead id raw := by
        rw [readSensor_near hsus hgood hnear, hcalm]; rfl
      have hnext := sensorReading_settled (d := s.toDev) (id := id) (raw := raw) up (by rw [hread, hpending, hpend])
      exact ⟨_, congrArg (done s) (hnext.trans hread), hsensor, fun g hg => nearRead_level raw hg⟩
    case hot =>
      obtain ⟨doms, hpwr⟩ := nearRead_pwr s.toDev id raw
      have hconfirmed : ((s.nearReading id raw).hot && x.hot) = true := by
        rw [hhot, Dev.nearReading, decide_eq_true htop, decide_eq_true hkind]; rfl
      have hread : readSensor s.toDev id raw = (s.nearRead id raw).shutdown 9 id fltThermalShutdown := by
        rw [readSensor_near hsus hgood hnear, hconfirmed]; rfl
      obtain ⟨⟨off, hdown⟩, hstage, hbenches⟩ := shutdown_holds (d := s.nearRead id raw) 9 id fltThermalShutdown (by rw [hpwr]; exact hhold)
      have hnext := sensorReading_settled (d := s.toDev) (id := id) (raw := raw) up (by rw [hread, hdown, hpwr]; exact hpend)
      exact ⟨_, congrArg (done s) (hnext.trans hread), by rw [hdown], by rw [hdown], hstage, hbenches⟩
    case suspect => exact ⟨_, rfl, (sensorSuspectClear_effect hreach hsus).wrote rfl⟩
  case cap => exact ⟨_, rfl, powerCapLoop_pwr s.toDev a⟩

end Sys2Proof.Machine
end

section
/-! Resets and bring-up (R455–R457, R491, R493): what the steps of bring-up keep. -/

namespace Sys2Proof.Machine

/-! ## What the steps of bring-up keep -/

/-- Firmware, the boot state but for stage and self-test status, the suite's head and discovery and the bridge are the same; no message appears where there
was none. -/
structure StartKept (d e : Dev) : Prop where
  boot : ∃ stage selftest, e.boot = { d.boot with stage := stage, selftest := selftest }
  fw : e.fw = d.fw
  suite : e.suite.head = d.suite.head ∧ e.suite.discovery = d.suite.discovery
  bridge : e.bridge = d.bridge
  net : d.net = [] → e.net = []

theorem StartKept.refl (d : Dev) : StartKept d d := ⟨⟨d.boot.stage, d.boot.selftest, rfl⟩, rfl, ⟨rfl, rfl⟩, rfl, id⟩

theorem StartKept.trans {d e f : Dev} (h : StartKept d e) (k : StartKept e f) : StartKept d f := by
  obtain ⟨⟨stage, selftest, hboot⟩, hfw, ⟨hhead, hdisc⟩, hbridge, hnet⟩ := h
  obtain ⟨⟨stage', selftest', kboot⟩, kfw, ⟨khead, kdisc⟩, kbridge, knet⟩ := k
  exact ⟨⟨stage', selftest', by rw [kboot, hboot]⟩, kfw.trans hfw, ⟨khead.trans hhead, kdisc.trans hdisc⟩, kbridge.trans hbridge, knet ∘ hnet⟩

theorem StartKept.after {d e f : Dev} (k : StartKept e f) (h : StartKept d e) : StartKept d f := h.trans k

theorem StartKept.of_eq {d e : Dev} (hboot : e.boot = d.boot) (hfw : e.fw = d.fw) (hsuite : e.suite = d.suite) (hbridge : e.bridge = d.bridge)
    (hnet : e.net = d.net) : StartKept d e :=
  ⟨⟨d.boot.stage, d.boot.selftest, hboot⟩, hfw, by rw [hsuite]; exact ⟨rfl, rfl⟩, hbridge, fun h => hnet.trans h⟩

theorem StartKept.foldl {α : Type} {f : Dev → α → Dev} (h : ∀ d a, StartKept d (f d a)) (l : List α) (d : Dev) : StartKept d (l.foldl f d) :=
  foldl_rel StartKept.refl StartKept.trans h l d

theorem startKept_setStage (d : Dev) (st : BitVec 4) : StartKept d (d.setStage st) := by
  obtain ⟨mgmt, h⟩ := setStage_keeps d st
  rw [h]
  exact ⟨⟨st, d.boot.selftest, rfl⟩, rfl, ⟨rfl, rfl⟩, rfl, id⟩

theorem startKept_setCab (d : Dev) (c : Nat) (x : Cabinet) : StartKept d (d.setCab c x) := .of_eq rfl rfl rfl rfl rfl

theorem startKept_setStk (d : Dev) (s : Nat) (x : Stack) : StartKept d (d.setStk s x) := .of_eq rfl rfl rfl rfl rfl

theorem startKept_setCabSt (d : Dev) (c : Nat) (st : BitVec 2) : StartKept d (d.setCabSt c st) := by
  simp only [Dev.setCabSt]
  split
  · exact .refl d
  · exact .of_eq rfl rfl rfl rfl rfl

theorem startKept_unitRecord (d : Dev) (kind c i : Nat) (code : BitVec 16) (n : UnitNote) : StartKept d (d.unitRecord kind c i code n) :=
  .of_eq rfl rfl rfl rfl rfl

theorem startKept_unitDiscard (d : Dev) (kind c i : Nat) (code : BitVec 16) (n : UnitNote) : StartKept d (d.unitDiscard kind c i code n) :=
  .of_eq rfl rfl rfl rfl rfl

/-- What of a lost cabinet comes after its state: its benches and messages, and the routes through its router. -/
theorem startKept_cabinetGone {d e : Dev} (hboot : e.boot = d.boot) (hfw : e.fw = d.fw)
    (hsuite : e.suite.head = d.suite.head ∧ e.suite.discovery = d.suite.discovery) (hbridge : e.bridge = d.bridge) {p : Msg → Bool}
    (hnet : e.net = d.net.filter p) : StartKept d e :=
  ⟨⟨d.boot.stage, d.boot.selftest, hboot⟩, hfw, hsuite, hbridge, fun h => by rw [hnet, h]; rfl⟩

theorem startKept_loseCabinet (d : Dev) (c : Nat) (cause : BitVec 16) (chest plain : Bool) : StartKept d (d.loseCabinet c cause chest plain) := by
  simp only [Dev.loseCabinet]
  split
  · exact .refl d
  · exact (startKept_setCabSt d c 2).trans (startKept_cabinetGone rfl rfl ⟨rfl, rfl⟩ rfl rfl)

theorem startKept_loseStack (d : Dev) (s ch : Nat) : StartKept d (d.loseStack s ch) :=
  (startKept_loseCabinet ..).after (startKept_unitDiscard ..)

theorem startKept_trainStack (d : Dev) (s : Nat) : StartKept d (d.trainStack s) := by
  refine (StartKept.foldl (fun d ch => ?_) _ _).after (.of_eq rfl rfl rfl rfl rfl)
  dsimp only
  split_ifs
  · exact (startKept_loseStack ..).after (startKept_setStk ..)
  · exact startKept_setStk ..
  · exact .refl d
  · exact (startKept_loseStack ..).after (startKept_setStk ..)
  · exact (startKept_unitRecord ..).after (startKept_setStk ..)

theorem startKept_followCab (d : Dev) (c : Nat) : StartKept d (d.followCab c) := by
  simp only [Dev.followCab]
  split_ifs
  · exact .refl d
  all_goals exact startKept_setCabSt ..

theorem startKept_trainCab (d : Dev) (c : Nat) : StartKept d (d.trainCab c) := by
  simp only [Dev.trainCab]
  split
  · exact .refl d
  · exact (startKept_followCab ..).after ((startKept_setCab ..).after ((startKept_trainStack ..).after (startKept_trainStack ..)))

theorem startKept_syncRow (d : Dev) (c r : Nat) : StartKept d (d.syncRow c r) :=
  StartKept.foldl (f := fun d col => d.setDom (256 * c + 13 * r + col)
    { d.dom (256 * c + 13 * r + col) with st := d.physSt (256 * c + 13 * r + col), entering := none }) (fun _ _ => .of_eq rfl rfl rfl rfl rfl) _ d

theorem startKept_failUnit (d : Dev) (u : TestUnit) : StartKept d (d.failUnit u) := by
  cases u with
  | bench c r col =>
    have htest : StartKept d (d.benchTest c.val r.val col.val) := startKept_unitRecord ..
    simp only [Dev.failUnit]
    split_ifs
    · exact (startKept_syncRow ..).after ((startKept_setCab ..).after htest)
    · exact (startKept_syncRow ..).after ((startKept_setCab ..).after htest)
    · exact htest
    · exact (startKept_loseCabinet ..).after ((startKept_unitRecord ..).after htest)
  | drawer c n =>
    simp only [Dev.failUnit]
    split_ifs
    · exact startKept_unitRecord ..
    · exact (startKept_loseCabinet ..).after (startKept_unitRecord ..)
    · exact .of_eq rfl rfl rfl rfl rfl
  | channel s ch => exact .of_eq rfl rfl rfl rfl rfl
  | sideboard c => exact (startKept_loseCabinet ..).after ((startKept_unitDiscard ..).after (startKept_unitRecord ..))
  | router c => exact (startKept_loseCabinet ..).after ((startKept_unitDiscard ..).after (startKept_unitRecord ..))
  | port p => exact .of_eq rfl rfl rfl rfl rfl

theorem startKept_selftest (d : Dev) (fs : List TestUnit) : StartKept d (d.selftest fs) :=
  (StartKept.foldl startKept_failUnit fs _).after ⟨⟨d.boot.stage, selftestOf fs, rfl⟩, rfl, ⟨rfl, rfl⟩, rfl, id⟩

theorem startKept_setPwr (d : Dev) (p : Power) : StartKept d { d with pwr := p } := .of_eq rfl rfl rfl rfl rfl

theorem startKept_startDomains (d : Dev) : StartKept d d.startDomains := by
  simp only [Dev.startDomains]
  refine (StartKept.foldl (fun d c => ?board) _ _).after ((startKept_setPwr _ _).after ((StartKept.foldl (fun d c => ?cab) _ _).after ?benches))
  case board =>
    split
    · exact .refl d
    · exact .of_eq rfl rfl rfl rfl rfl
  case cab =>
    split
    · exact .refl d
    · exact startKept_setCabSt ..
  case benches => exact .of_eq rfl rfl rfl rfl rfl

/-! ## Bring-up (Sequence 16-1) -/

/-- Nothing holds the device in reset, and both supplies are valid. -/
structure MayStart (d : Dev) : Prop where
  vin12 : d.boot.vin12 = true
  vaux33 : d.boot.vaux33 = true
  resetLow : d.boot.resetLow = false
  scanHold : d.boot.scanHold = false
  hold : d.pwr.hold = false
  stage : d.boot.stage = 0

/-- The steps before firmware is chosen. -/
def Dev.fusesRead (d : Dev) (up : StartUp) : Dev :=
  let d := (d.setDom 164 { d.dom 164 with st := 1, entering := none }).setStage 1
  d.setFw { d.fw with fuseBad := up.fuseFault }

/-- No copy passes its checks: RECOVERY. -/
def Dev.recovers (d : Dev) : Dev :=
  ({ d.fresh.fresh with
    suite := { d.suite with head := d.bridge.headSel || bit 0 d.bridge.ctl.toNat }, boot := { d.boot with fallback := true } } : Dev).setStage 9

/-- A copy is chosen. -/
def Dev.chosen (d : Dev) (b fallback : Bool) (svn : BitVec 8) (slot : BitVec 2) : Dev :=
  let d := d.fresh.fresh
  { d with boot := { d.boot with copy := b, fallback := fallback, svn := svn, keySlot := slot } }

/-- It runs. -/
def Dev.firmwareRuns (d : Dev) (b fallback : Bool) (svn : BitVec 8) (slot : BitVec 2) : Dev :=
  let d := (((d.chosen b fallback svn slot).setStage 2).setStage 3).loadCopies
  { d with suite := { d.suite with
    head := d.bridge.headSel || bit 0 d.bridge.ctl.toNat, credState := if d.suite.cred.isSome then 1 else 0 } }

/-- The channels that fail training are noted. -/
def Dev.noteBad (d : Dev) (e : Stk × Fin 33) : Dev :=
  d.setStk e.1.val { d.stk e.1.val with badChannels := (d.stk e.1.val).badChannels ++ [e.2.val] }

/-- Steps 5 to 7. -/
def Dev.unitsStart (d : Dev) (up : StartUp) : Dev :=
  let d := ((d.setStage 4).startDomains.setStage 5).selftest up.failures
  let d := (up.badChannels.foldl Dev.noteBad d).setStage 6
  (List.range 12).foldl Dev.trainCab d

theorem bringUp_held {d : Dev} {up : StartUp} (h : ¬ MayStart d) : d.bringUp up = d := by
  have hstay : (!d.boot.vin12 || !d.boot.vaux33 || d.boot.resetLow || d.boot.scanHold || d.pwr.hold || d.boot.stage != 0) = true := by
    by_contra hno
    simp only [Bool.or_eq_true, Bool.not_eq_true', bne_iff_ne, not_or, Bool.not_eq_false, Bool.not_eq_true, ne_eq, not_not] at hno
    obtain ⟨⟨⟨⟨⟨hvin, hvaux⟩, hlow⟩, hscan⟩, hhold⟩, hstage⟩ := hno
    exact h ⟨hvin, hvaux, hlow, hscan, hhold, hstage⟩
  simp only [Dev.bringUp, hstay, if_true]

theorem bringUp_stays {d : Dev} (up : StartUp) (h : d.boot.vin12 = false ∨ d.boot.resetLow = true) : d.bringUp up = d := by
  refine bringUp_held fun hmay => ?_
  rcases h with h | h
  · rw [hmay.vin12] at h; cases h
  · rw [hmay.resetLow] at h; cases h

section

variable {d : Dev} (h : MayStart d) (up : StartUp)
include h

theorem mayStart_go : (!d.boot.vin12 || !d.boot.vaux33 || d.boot.resetLow || d.boot.scanHold || d.pwr.hold || d.boot.stage != 0) = false := by
  obtain ⟨hvin, hvaux, hlow, hscan, hhold, hstage⟩ := h
  simp [hvin, hvaux, hlow, hscan, hhold, hstage]

theorem bringUp_fuseFault (hfuse : up.fuseFault = true) : d.bringUp up = (d.fusesRead up).setStage 10 := by
  simp only [Dev.bringUp, mayStart_go h, Bool.false_eq_true, if_false, hfuse, if_true, Dev.fusesRead]

theorem bringUp_recovery (hfuse : up.fuseFault = false) (hchoice : (d.fusesRead up).bootChoice = none) :
    d.bringUp up = (d.fusesRead up).recovers := by
  rw [Dev.fusesRead] at hchoice
  simp only [Dev.bringUp, mayStart_go h, Bool.false_eq_true, if_false, hfuse] at hchoice ⊢
  simp only [hchoice]
  simp only [Dev.fusesRead, hfuse]
  rfl

theorem bringUp_runs {b f : Bool} {svn : BitVec 8} {slot : BitVec 2} (hfuse : up.fuseFault = false)
    (hchoice : (d.fusesRead up).bootChoice = some (b, f, svn, slot)) :
    d.bringUp up = ((((d.fusesRead up).firmwareRuns b f svn slot).unitsStart up).setStage 7).bootAdvance := by
  rw [Dev.fusesRead] at hchoice
  simp only [Dev.bringUp, mayStart_go h, Bool.false_eq_true, if_false, hfuse] at hchoice ⊢
  simp only [hchoice]
  simp only [Dev.fusesRead, hfuse]
  rfl

end

theorem check_fuseBad (im : FwImage) (f : Fw) (bad luck : Bool) : im.check { f with fuseBad := bad } luck = im.check f luck := by
  cases im <;> rfl

/-- The fuses that are read bring ED0 up, and show whether they are good. -/
theorem fusesRead_keeps (d : Dev) (up : StartUp) : ∃ pwr mgmt, d.fusesRead up =
    { d with pwr := pwr, mgmt := mgmt, boot := { d.boot with stage := 1 }, fw := { d.fw with fuseBad := up.fuseFault } } := by
  obtain ⟨mgmt, h⟩ := setStage_keeps (d.setDom 164 { d.dom 164 with st := 1, entering := none }) 1
  rw [Dev.fusesRead, h]
  exact ⟨_, mgmt, rfl⟩

theorem fusesRead_bootChoice (d : Dev) (up : StartUp) : (d.fusesRead up).bootChoice = d.bootChoice := by
  obtain ⟨pwr, mgmt, h⟩ := fusesRead_keeps d up
  rw [h]
  simp only [Dev.bootChoice, check_fuseBad]
  rfl

theorem startKept_setMap (d : Dev) (m : RepairMap) : StartKept d (d.setMap m) := by
  refine (StartKept.foldl (fun d p => startKept_setStk ..) _ _).after (StartKept.foldl (fun d p => ?_) _ _)
  dsimp only
  split
  · exact (startKept_setCab ..).after ((startKept_setCabSt ..).after (.of_eq rfl rfl rfl rfl rfl))
  · exact .of_eq rfl rfl rfl rfl rfl

/-- The bureau's copies are valid from then on. -/
theorem loadCopies_keeps (d : Dev) : (∃ stage selftest, d.loadCopies.boot = { d.boot with stage := stage, selftest := selftest, copies := true }) ∧
    d.loadCopies.fw = d.fw ∧ d.loadCopies.suite.discovery = d.suite.discovery ∧ d.loadCopies.bridge = d.bridge ∧
    (d.net = [] → d.loadCopies.net = []) := by
  simp only [Dev.loadCopies]
  split
  · next h => exact ⟨⟨d.boot.stage, d.boot.selftest, by rw [← h]⟩, rfl, rfl, rfl, id⟩
  · have hkept : StartKept d (d.fw.map.newest.elim d (fun g => d.setMap g.content)) := by
      cases d.fw.map.newest with
      | none => exact .refl d
      | some g => exact startKept_setMap d g.content
    generalize Option.elim _ _ _ = e at hkept ⊢
    obtain ⟨⟨stage, selftest, hboot⟩, hfw, ⟨_, hdisc⟩, hbridge, hnet⟩ := hkept
    exact ⟨⟨stage, selftest, by rw [hboot]⟩, hfw, hdisc, hbridge, hnet⟩

/-- What a running copy leaves of firmware, boot state and suite. -/
theorem firmwareRuns_keeps (d : Dev) (b f : Bool) (svn : BitVec 8) (slot : BitVec 2) :
    (∃ stage selftest, (d.firmwareRuns b f svn slot).boot =
      { d.boot with copy := b, fallback := f, svn := svn, keySlot := slot, copies := true, stage := stage, selftest := selftest }) ∧
    (d.firmwareRuns b f svn slot).fw = d.fw ∧ (d.firmwareRuns b f svn slot).suite.head = (d.bridge.headSel || bit 0 d.bridge.ctl.toNat) ∧
    (d.firmwareRuns b f svn slot).suite.discovery = d.suite.discovery ∧ (d.net = [] → (d.firmwareRuns b f svn slot).net = []) := by
  simp only [Dev.firmwareRuns]
  generalize he : d.chosen b f svn slot = e
  have hstage : StartKept e ((e.setStage 2).setStage 3) := (startKept_setStage ..).after (startKept_setStage ..)
  generalize (e.setStage 2).setStage 3 = g at hstage ⊢
  obtain ⟨⟨_, _, hboot⟩, hfw, ⟨_, hdisc⟩, hbridge, hnet⟩ := hstage
  obtain ⟨⟨stage, selftest, kboot⟩, kfw, kdisc, kbridge, knet⟩ := loadCopies_keeps g
  have heb : e.bridge = d.bridge := by rw [← he]; rfl
  have hen : e.net = d.net := by rw [← he]; rfl
  refine ⟨⟨stage, selftest, ?_⟩, ?_, ?_, ?_, fun h => knet (hnet (hen.trans h))⟩
  · rw [kboot, hboot, ← he]; rfl
  · rw [kfw, hfw, ← he]; rfl
  · rw [kbridge, hbridge, heb]
  · rw [kdisc, hdisc, ← he]; rfl

theorem startKept_unitsStart (d : Dev) (up : StartUp) : StartKept d (d.unitsStart up) :=
  (StartKept.foldl startKept_trainCab _ _).after ((startKept_setStage ..).after ((StartKept.foldl (fun _ _ => startKept_setStk ..) _ _).after
    ((startKept_selftest ..).after ((startKept_setStage ..).after ((startKept_startDomains _).after (startKept_setStage ..))))))

theorem startKept_bootAdvance (d : Dev) : StartKept d d.bootAdvance := by
  simp only [Dev.bootAdvance]
  split
  · exact startKept_setStage ..
  · exact .refl d

theorem bootAdvance_stage {d : Dev} (h : d.boot.stage = 7) : d.bootAdvance.boot.stage =
    if d.suite.head = true ∧ d.suite.discovery ≠ 2 ∧ d.suite.discovery ≠ 3 then 7 else 8 := by
  have hgo : (d.boot.stage == 7 && (!d.suite.head || d.suite.discovery == 2 || d.suite.discovery == 3)) = true ↔
      ¬ (d.suite.head = true ∧ d.suite.discovery ≠ 2 ∧ d.suite.discovery ≠ 3) := by
    simp only [h, beq_self_eq_true, Bool.true_and, Bool.or_eq_true, Bool.not_eq_true', ← Bool.not_eq_true, beq_iff_eq]
    tauto
  by_cases hwait : d.suite.head = true ∧ d.suite.discovery ≠ 2 ∧ d.suite.discovery ≠ 3
  · rw [if_pos hwait, Dev.bootAdvance, if_neg fun k => hgo.mp k hwait, h]
  · rw [if_neg hwait, Dev.bootAdvance, if_pos (hgo.mpr hwait), setStage_stage]

theorem recovers_keeps (d : Dev) : d.recovers.boot = { d.boot with fallback := true, stage := 9 } ∧ d.recovers.fw = d.fw ∧
    d.recovers.net = d.net ∧ d.recovers.discards = d.discards := by
  simp only [Dev.recovers]
  generalize he : Dev.mk .. = e
  obtain ⟨mgmt, hstage⟩ := setStage_keeps e 9
  rw [hstage, ← he]
  exact ⟨rfl, rfl, rfl, rfl⟩

/-- READY, or on a head the wait for discovery, with the copy that runs (R457). -/
theorem runs_keeps (d : Dev) (up : StartUp) (b f : Bool) (svn : BitVec 8) (slot : BitVec 2) {e : Dev}
    (he : e = (((d.firmwareRuns b f svn slot).unitsStart up).setStage 7).bootAdvance) : (∃ stage selftest, e.boot =
      { d.boot with copy := b, fallback := f, svn := svn, keySlot := slot, copies := true, stage := stage, selftest := selftest }) ∧
    e.fw = d.fw ∧ (d.net = [] → e.net = []) ∧
    e.boot.stage = if (d.bridge.headSel || bit 0 d.bridge.ctl.toNat) = true ∧ d.suite.discovery ≠ 2 ∧ d.suite.discovery ≠ 3 then 7 else 8 := by
  obtain ⟨⟨_, _, hboot⟩, hfw, hhead, hdisc, hnet⟩ := firmwareRuns_keeps d b f svn slot
  have hkept : StartKept (d.firmwareRuns b f svn slot) (((d.firmwareRuns b f svn slot).unitsStart up).setStage 7) :=
    (startKept_setStage ..).after (startKept_unitsStart ..)
  have hstage := bootAdvance_stage (setStage_stage ((d.firmwareRuns b f svn slot).unitsStart up) 7)
  rw [hkept.suite.1, hkept.suite.2, hhead, hdisc, ← he] at hstage
  have hall := (startKept_bootAdvance _).after hkept
  rw [← he] at hall
  obtain ⟨⟨stage, selftest, kboot⟩, kfw, _, _, knet⟩ := hall
  exact ⟨⟨stage, selftest, by rw [kboot, hboot]⟩, kfw.trans hfw, fun h => knet (hnet h), hstage⟩

/-- A device that may start comes up (R457, R460). -/
theorem bringUp_comesUp {d : Dev} (h : MayStart d) (up : StartUp) : (d.bringUp up).fw.fuseBad = up.fuseFault ∧
    (up.fuseFault = true → (d.bringUp up).boot.stage = 10) ∧
    (up.fuseFault = false → d.bootChoice = none → (d.bringUp up).boot.stage = 9 ∧ (d.bringUp up).boot.fallback = true) ∧
    (∀ b f svn slot, up.fuseFault = false → d.bootChoice = some (b, f, svn, slot) → (d.bringUp up).boot.copies = true ∧
      (d.bringUp up).boot.fallback = f ∧ (d.bringUp up).boot.copy = b ∧ (d.bringUp up).boot.svn = svn ∧
      (d.bringUp up).boot.stage = if (d.bridge.headSel = true ∨ d.bridge.ctl.getLsbD 0 = true) ∧ d.suite.discovery ≠ 2 ∧ d.suite.discovery ≠ 3
        then 7 else 8) := by
  obtain ⟨pwr, mgmt, hread⟩ := fusesRead_keeps d up
  have hchoice := fusesRead_bootChoice d up
  cases hfuse : up.fuseFault with
  | true =>
    have hstart := bringUp_fuseFault h up hfuse
    obtain ⟨mgmt', hstage⟩ := setStage_keeps (d.fusesRead up) 10
    refine ⟨?_, fun _ => ?_, fun hno => absurd hno (by decide), fun _ _ _ _ hno => absurd hno (by decide)⟩
    · rw [hstart, hstage, hread]
      exact hfuse
    · rw [hstart, setStage_stage]
  | false =>
    refine ⟨?_, fun hno => absurd hno (by decide), fun _ hnone => ?_, fun b f svn slot _ hsome => ?_⟩
    · cases hb : d.bootChoice with
      | none =>
        rw [bringUp_recovery h up hfuse (hchoice.trans hb), (recovers_keeps _).2.1, hread]
        exact hfuse
      | some r =>
        obtain ⟨b, f, svn, slot⟩ := r
        obtain ⟨_, hfw, _⟩ := runs_keeps (d.fusesRead up) up b f svn slot rfl
        rw [bringUp_runs h up hfuse (hchoice.trans hb), hfw, hread]
        exact hfuse
    · rw [bringUp_recovery h up hfuse (hchoice.trans hnone), (recovers_keeps _).1]
      exact ⟨rfl, rfl⟩
    · obtain ⟨⟨stage, selftest, hboot⟩, _, _, hstage⟩ := runs_keeps (d.fusesRead up) up b f svn slot rfl
      rw [bringUp_runs h up hfuse (hchoice.trans hsome)]
      refine ⟨by rw [hboot], by rw [hboot], by rw [hboot], by rw [hboot], ?_⟩
      rw [hstage, hread]
      simp only [Bool.or_eq_true, bit_toNat]

end Sys2Proof.Machine
end

section
/-! O57: what a reset leaves (R455, R491), a start-up that meets no failure, the losses of clocks (R499), and the statement. -/

namespace Sys2Proof.Machine

theorem foldl_inv {α β : Type} {P : α → Prop} {f : α → β → α} (h : ∀ a b, P a → P (f a b)) (l : List β) {a : α} (ha : P a) : P (l.foldl f a) := by
  induction l generalizing a with
  | nil => exact ha
  | cons b l ih => exact ih (h a b ha)

/-! ## A start-up that meets no failure -/

/-- No discard is reported, and no channel has failed training. -/
structure Quiet (d : Dev) : Prop where
  discards : d.discards = []
  stks : ∀ s, (d.stk s).badChannels = []

theorem Quiet.of_eq {d e : Dev} (h : Quiet d) (hdiscards : e.discards = d.discards) (hstks : e.stks = d.stks) : Quiet e :=
  ⟨hdiscards.trans h.discards, fun s => by rw [Dev.stk, hstks]; exact h.stks s⟩

theorem quiet_setPwr {d : Dev} (h : Quiet d) (p : Power) : Quiet { d with pwr := p } := h.of_eq rfl rfl

theorem quiet_setSuite {d : Dev} (h : Quiet d) (x : Suite) : Quiet { d with suite := x } := h.of_eq rfl rfl

theorem quiet_setBoot {d : Dev} (h : Quiet d) (x : Boot) : Quiet { d with boot := x } := h.of_eq rfl rfl

theorem quiet_setCab {d : Dev} (h : Quiet d) (c : Nat) (x : Cabinet) : Quiet (d.setCab c x) := h.of_eq rfl rfl

theorem quiet_setStage {d : Dev} (h : Quiet d) (st : BitVec 4) : Quiet (d.setStage st) := by
  obtain ⟨mgmt, hstage⟩ := setStage_keeps d st
  rw [hstage]
  exact h.of_eq rfl rfl

theorem quiet_setCabSt {d : Dev} (h : Quiet d) (c : Nat) (st : BitVec 2) : Quiet (d.setCabSt c st) := by
  simp only [Dev.setCabSt]
  split
  · exact h
  · exact h.of_eq rfl rfl

theorem quiet_setStk {d : Dev} (h : Quiet d) (s : Nat) {x : Stack} (hx : x.badChannels = []) : Quiet (d.setStk s x) := by
  refine ⟨h.discards, fun j => ?_⟩
  by_cases hj : j = s
  · rw [hj, Dev.stk_setStk_self]
    exact hx
  · rw [Dev.stk_setStk_ne _ _ hj]
    exact h.stks j

theorem quiet_setMap {d : Dev} (h : Quiet d) (m : RepairMap) : Quiet (d.setMap m) := by
  refine foldl_inv (P := Quiet) (fun d p hd => quiet_setStk hd _ (hd.stks p.1)) _ (foldl_inv (P := Quiet) (fun d p hd => ?_) _ h)
  dsimp only
  split
  · refine quiet_setCab (quiet_setCabSt ?_ p.1 2) ..
    exact hd.of_eq rfl rfl
  · exact hd.of_eq rfl rfl

theorem quiet_loadCopies {d : Dev} (h : Quiet d) : Quiet d.loadCopies := by
  simp only [Dev.loadCopies]
  split
  · exact h
  · cases d.fw.map.newest with
    | none => exact h.of_eq rfl rfl
    | some g => exact (quiet_setMap h g.content).of_eq rfl rfl

theorem quiet_firmwareRuns {d : Dev} (h : Quiet d) (b f : Bool) (svn : BitVec 8) (slot : BitVec 2) : Quiet (d.firmwareRuns b f svn slot) :=
  have hchosen : Quiet (d.chosen b f svn slot) := h.of_eq rfl rfl
  quiet_setSuite (quiet_loadCopies (quiet_setStage (quiet_setStage hchosen 2) 3)) _

theorem quiet_startDomains {d : Dev} (h : Quiet d) : Quiet d.startDomains := by
  simp only [Dev.startDomains]
  refine foldl_inv (P := Quiet) (fun d c hd => ?board) _ (quiet_setPwr (foldl_inv (P := Quiet) (fun d c hd => ?cab) _ ?benches) _)
  case board =>
    split
    · exact hd
    · exact hd.of_eq rfl rfl
  case cab =>
    split
    · exact hd
    · exact quiet_setCabSt hd ..
  case benches => exact h.of_eq rfl rfl

theorem quiet_trainStack {d : Dev} (h : Quiet d) (s : Nat) : Quiet (d.trainStack s) := by
  have hnone : (d.stk s).badChannels = [] := h.stks s
  simp only [Dev.trainStack, hnone, List.foldl_nil]
  exact (quiet_setStk h s rfl).of_eq rfl rfl

theorem quiet_followCab {d : Dev} (h : Quiet d) (c : Nat) : Quiet (d.followCab c) := by
  simp only [Dev.followCab]
  split_ifs
  · exact h
  all_goals exact quiet_setCabSt h ..

theorem quiet_trainCab {d : Dev} (h : Quiet d) (c : Nat) : Quiet (d.trainCab c) := by
  simp only [Dev.trainCab]
  split
  · exact h
  · exact quiet_followCab (quiet_setCab (quiet_trainStack (quiet_trainStack h _) _) ..) c

theorem quiet_unitsStart {d : Dev} (h : Quiet d) : Quiet (d.unitsStart .clean) := by
  have htest : Quiet (((d.setStage 4).startDomains.setStage 5).selftest []) := by
    simp only [Dev.selftest, List.foldl_nil]
    exact quiet_setBoot (quiet_setStage (quiet_startDomains (quiet_setStage h 4)) 5) _
  exact foldl_inv (P := Quiet) (fun d c hd => quiet_trainCab hd c) _ (quiet_setStage htest 6)

theorem quiet_bootAdvance {d : Dev} (h : Quiet d) : Quiet d.bootAdvance := by
  simp only [Dev.bootAdvance]
  split
  · exact quiet_setStage h 8
  · exact h

theorem quiet_fusesRead {d : Dev} (h : Quiet d) (up : StartUp) : Quiet (d.fusesRead up) := by
  obtain ⟨pwr, mgmt, hread⟩ := fusesRead_keeps d up
  rw [hread]
  exact h.of_eq rfl rfl

theorem quiet_recovers {d : Dev} (h : Quiet d) : Quiet d.recovers := by
  simp only [Dev.recovers]
  refine quiet_setStage ?_ 9
  exact h.of_eq rfl rfl

/-- A clean start-up reports no discard. -/
theorem quiet_bringUp {d : Dev} (h : Quiet d) : Quiet (d.bringUp .clean) := by
  by_cases hmay : MayStart d
  · have hread := quiet_fusesRead h .clean
    cases hchoice : (d.fusesRead .clean).bootChoice with
    | none =>
      rw [bringUp_recovery hmay .clean rfl hchoice]
      exact quiet_recovers hread
    | some r =>
      obtain ⟨b, f, svn, slot⟩ := r
      rw [bringUp_runs hmay .clean rfl hchoice]
      exact quiet_bootAdvance (quiet_setStage (quiet_unitsStart (quiet_firmwareRuns hread b f svn slot)) 7)
  · rw [bringUp_held hmay]
    exact h

/-- Whatever a start-up meets, the reset stays the last one, RESET_N is as it was, and no message appears. -/
theorem bringUp_keeps (d : Dev) (up : StartUp) : (d.bringUp up).boot.lastReset = d.boot.lastReset ∧
    (d.bringUp up).boot.resetLow = d.boot.resetLow ∧ (d.net = [] → (d.bringUp up).net = []) := by
  by_cases hmay : MayStart d
  · obtain ⟨pwr, mgmt, hread⟩ := fusesRead_keeps d up
    cases hfuse : up.fuseFault with
    | true =>
      obtain ⟨mgmt', hstage⟩ := setStage_keeps (d.fusesRead up) 10
      rw [bringUp_fuseFault hmay up hfuse, hstage, hread]
      exact ⟨rfl, rfl, id⟩
    | false =>
      cases hchoice : (d.fusesRead up).bootChoice with
      | none =>
        obtain ⟨hboot, _, hnet, _⟩ := recovers_keeps (d.fusesRead up)
        rw [bringUp_recovery hmay up hfuse hchoice, hboot, hnet, hread]
        exact ⟨rfl, rfl, id⟩
      | some r =>
        obtain ⟨b, f, svn, slot⟩ := r
        obtain ⟨⟨_, _, hboot⟩, _, hnet, _⟩ := runs_keeps (d.fusesRead up) up b f svn slot rfl
        rw [bringUp_runs hmay up hfuse hchoice, hboot]
        rw [hread] at hnet ⊢
        exact ⟨rfl, rfl, hnet⟩
  · rw [bringUp_held hmay]
    exact ⟨rfl, rfl, id⟩

/-! ## What a reset leaves (R455, R456, R472) -/

/-- What is left of d by a reset of the given kind, before a start-up. -/
structure ResetLeaves (d : Dev) (kind : BitVec 2) (t : Dev) : Prop where
  stage : t.boot.stage = 0
  lastReset : t.boot.lastReset = kind
  supplies : t.boot.vin12 = d.boot.vin12 ∧ t.boot.vaux33 = d.boot.vaux33
  held : t.boot.resetLow = d.boot.resetLow ∧ t.boot.scanHold = d.boot.scanHold
  perstLow : t.boot.perstLow = d.boot.perstLow
  copies : kind = 0 → t.boot.copies = false
  benches : t.benches = []
  net : t.net = []
  tap : t.tap = d.tap
  journal : t.journal.total = if kind = 0 then 1 else d.journal.total + 1
  quiet : Quiet t

/-- Boot state, test access port and journal are the same. -/
structure BoardKept (d e : Dev) : Prop where
  boot : e.boot = d.boot
  tap : e.tap = d.tap
  journal : e.journal = d.journal

theorem BoardKept.refl (d : Dev) : BoardKept d d := ⟨rfl, rfl, rfl⟩

theorem BoardKept.trans {d e f : Dev} (h : BoardKept d e) (k : BoardKept e f) : BoardKept d f :=
  ⟨k.boot.trans h.boot, k.tap.trans h.tap, k.journal.trans h.journal⟩

theorem BoardKept.after {d e f : Dev} (k : BoardKept e f) (h : BoardKept d e) : BoardKept d f := h.trans k

theorem boardKept_setCabSt (d : Dev) (c : Nat) (st : BitVec 2) : BoardKept d (d.setCabSt c st) := by
  simp only [Dev.setCabSt]
  split <;> exact ⟨rfl, rfl, rfl⟩

theorem boardKept_logSettle (d : Dev) : BoardKept d d.logSettle := by
  refine (foldl_rel BoardKept.refl BoardKept.trans (fun d r => ?_) _ _).after ⟨rfl, rfl, rfl⟩
  simp only [Dev.logTake]
  split_ifs <;> exact ⟨rfl, rfl, rfl⟩

/-- Every domain off: what is left of boot state, benches, messages and stacks. -/
theorem allOff_leaves (d : Dev) : BoardKept d d.allOff ∧ d.allOff.benches = [] ∧ d.allOff.net = [] ∧ Quiet d.allOff := by
  have hcabs : BoardKept d.logSettle ((List.range 12).foldl (fun d c => if d.fenced c then d else d.setCabSt c 0) d.logSettle) :=
    foldl_rel (R := BoardKept) BoardKept.refl BoardKept.trans (fun d c => by
      split
      · exact .refl d
      · exact boardKept_setCabSt ..) _ _
  obtain ⟨hboot, htap, hjournal⟩ := (boardKept_logSettle d).trans hcabs
  simp only [Dev.allOff]
  generalize (List.range 12).foldl _ _ = e at hboot htap hjournal ⊢
  refine ⟨⟨hboot, htap, hjournal⟩, trivial, trivial, rfl, fun s => ?_⟩
  refine Tab.get_all (P := fun x : Stack => x.badChannels = []) rfl (fun p hp => ?_) s
  obtain ⟨q, _, rfl⟩ := List.mem_map.mp hp
  rfl

/-- The copies of the repair map and of the credential blob at a reset. -/
theorem resetCopies_leaves {d : Dev} (kind : BitVec 2) (hbenches : d.benches = []) (hnet : d.net = []) (hquiet : Quiet d) :
    (∃ copies, (d.resetCopies kind).boot = { d.boot with copies := copies } ∧ (kind = 0 → copies = false)) ∧
    (d.resetCopies kind).tap = d.tap ∧ (d.resetCopies kind).journal = d.journal ∧ (d.resetCopies kind).benches = [] ∧
    (d.resetCopies kind).net = [] ∧ Quiet (d.resetCopies kind) := by
  have hempty : Quiet d.emptyMap := by
    refine ⟨hquiet.discards, fun s => ?_⟩
    have hkept := Tab.get_map_rel (R := fun x y : Stack => x.badChannels = [] → y.badChannels = [])
      (f := fun (p : Nat × Stack) => (p.1, { p.2 with spareLost := false, spareActive := false, logical := 0, banks := [] }))
      (fun _ => rfl) (fun _ => id) (z := Stack.reset) id d.stks s
    exact hkept (hquiet.stks s)
  simp only [Dev.resetCopies]
  split_ifs with h0 h1
  · exact ⟨⟨false, rfl, fun _ => rfl⟩, rfl, rfl, hbenches, hnet, hempty.of_eq rfl rfl⟩
  · exact ⟨⟨d.boot.copies, rfl, fun h => absurd (beq_iff_eq.mpr h) h0⟩, rfl, rfl, hbenches, hnet, hempty.of_eq rfl rfl⟩
  · exact ⟨⟨d.boot.copies, rfl, fun h => absurd (beq_iff_eq.mpr h) h0⟩, rfl, rfl, hbenches, hnet, hquiet⟩

theorem journalMark_entry (d : Dev) (mark : BitVec 4) : OneEntry d (d.journalMark mark) := ⟨(d.journalMark mark).journal, rfl, rfl⟩

/-- A reset leaves this. -/
theorem resetTo_leaves (d : Dev) (kind : BitVec 2) : ResetLeaves d kind (d.resetTo kind) := by
  obtain ⟨⟨hboot, htap, hjournal⟩, hbenches, hnet, hquiet⟩ := allOff_leaves d
  obtain ⟨mgmt, hstage⟩ := setStage_keeps d.allOff 0
  have hquiet' : Quiet (d.allOff.setStage 0) := quiet_setStage hquiet 0
  obtain ⟨⟨copies, kboot, kcopies⟩, ktap, kjournal, kbenches, knet, kquiet⟩ :=
    resetCopies_leaves (d := d.allOff.setStage 0) kind (by rw [hstage]; exact hbenches) (by rw [hstage]; exact hnet) hquiet'
  have sboot : (d.allOff.setStage 0).boot = { d.boot with stage := 0 } := by rw [hstage, ← hboot]
  have stap : (d.allOff.setStage 0).tap = d.tap := by rw [hstage, ← htap]
  have sjournal : (d.allOff.setStage 0).journal = d.journal := by rw [hstage, ← hjournal]
  simp only [Dev.resetTo]
  generalize (d.allOff.setStage 0).resetCopies kind = e at kboot ktap kjournal kbenches knet kquiet ⊢
  generalize hpre : Dev.fresh _ = g
  have gboot : g.boot = { Boot.reset with
      lastReset := kind, vin12 := e.boot.vin12, vaux33 := e.boot.vaux33, resetLow := e.boot.resetLow, scanHold := e.boot.scanHold
      headSelN := e.boot.headSelN, perstLow := e.boot.perstLow, resetMap := e.boot.resetMap && kind == 2, copies := e.boot.copies } := by
    rw [← hpre]; rfl
  have gkept : g.tap = e.tap ∧ g.benches = e.benches ∧ g.net = e.net ∧ g.discards = e.discards ∧ g.stks = e.stks := by
    rw [← hpre]; exact ⟨rfl, rfl, rfl, rfl, rfl⟩
  have gtotal : g.journal.total = if kind = 0 then 0 else e.journal.total := by
    rw [← hpre]
    by_cases h0 : kind = 0
    · subst h0; rfl
    · simp only [Dev.fresh_journal, beq_iff_eq, h0, if_false]
      split <;> rfl
  obtain ⟨gtap, gbenches, gnet, gdiscards, gstks⟩ := gkept
  obtain ⟨j, hmark, hone⟩ := journalMark_entry g (if kind == 0 then 3 else if kind == 1 then 1 else 2)
  rw [hmark]
  have heboot : e.boot = { d.boot with stage := 0, copies := copies } := by rw [kboot, sboot]
  rw [heboot] at gboot
  have gfields : g.boot.stage = 0 ∧ g.boot.lastReset = kind ∧ (g.boot.vin12 = d.boot.vin12 ∧ g.boot.vaux33 = d.boot.vaux33) ∧
      (g.boot.resetLow = d.boot.resetLow ∧ g.boot.scanHold = d.boot.scanHold) ∧ g.boot.perstLow = d.boot.perstLow ∧ g.boot.copies = copies := by
    rw [gboot]
    exact ⟨rfl, rfl, ⟨rfl, rfl⟩, ⟨rfl, rfl⟩, rfl, rfl⟩
  obtain ⟨gstage, glast, gsupplies, gheld, gperst, gcopies⟩ := gfields
  refine ⟨gstage, glast, gsupplies, gheld, gperst, fun h0 => gcopies.trans (kcopies h0), gbenches.trans kbenches, gnet.trans knet,
    gtap.trans (ktap.trans stap), ?_, kquiet.of_eq gdiscards gstks⟩
  rw [hone, gtotal, kjournal, sjournal]
  split <;> rfl

end Sys2Proof.Machine
end

section
/-! O57: the commands that reset the device or take a clock from it, and the statement. -/

namespace Sys2Proof.Machine

/-! ## Resets (R441, R491, R493) -/

section

variable {d : Dev} {kind : BitVec 2} (up : StartUp) (hfree : d.pwr.hold = false ∨ d.cool = true)
include hfree

theorem reset_free : (d.pwr.hold && !d.cool) = false := by
  rcases hfree with h | h
  · rw [h, Bool.false_and]
  · rw [h, Bool.not_true, Bool.and_false]

/-- A reset that meets one in force which is as strong is part of it. -/
theorem reset_part (hstage : d.boot.stage = 0) (h : d.boot.lastReset.toNat ≤ kind.toNat) : d.reset_ kind up = d.bringUp up := by
  simp only [Dev.reset_, reset_free hfree, Bool.false_eq_true, if_false, hstage, beq_self_eq_true, decide_eq_true h, Bool.and_self, if_true]

/-- Any other is carried out. -/
theorem reset_carriedOut (hbelow : d.boot.stage = 0 → kind.toNat < d.boot.lastReset.toNat) : d.reset_ kind up = (d.resetTo kind).bringUp up := by
  have hnew : (d.boot.stage == 0 && decide (d.boot.lastReset.toNat ≤ kind.toNat)) = false := by
    rw [Bool.and_eq_false_iff, beq_eq_false_iff_ne, decide_eq_false_iff_not]
    by_cases h : d.boot.stage = 0
    · exact .inr (Nat.not_le.mpr (hbelow h))
    · exact .inl h
  simp only [Dev.reset_, reset_free hfree, hnew, Bool.false_eq_true, if_false]

end

/-- A reset that leaves a supply gone, or RESET_N low, holds the device. -/
theorem reset_holds {d : Dev} {kind : BitVec 2} (hfree : d.pwr.hold = false ∨ d.cool = true)
    (hbelow : d.boot.stage = 0 → kind.toNat < d.boot.lastReset.toNat) (hheld : d.boot.vin12 = false ∨ d.boot.resetLow = true) :
    ResetLeaves d kind (d.reset_ kind .clean) := by
  have hleaves := resetTo_leaves d kind
  have hstays : (d.resetTo kind).boot.vin12 = false ∨ (d.resetTo kind).boot.resetLow = true := by
    rw [hleaves.supplies.1, hleaves.held.1]
    exact hheld
  rw [reset_carriedOut .clean hfree hbelow, bringUp_stays .clean hstays]
  exact hleaves

/-- So does the reset in force. -/
theorem reset_stays {d : Dev} {kind : BitVec 2} (hfree : d.pwr.hold = false ∨ d.cool = true) (hstage : d.boot.stage = 0)
    (h : d.boot.lastReset.toNat ≤ kind.toNat) (hheld : d.boot.vin12 = false ∨ d.boot.resetLow = true) : d.reset_ kind .clean = d := by
  rw [reset_part .clean hfree hstage h, bringUp_stays .clean hheld]

/-- VAUX33 rising: a power-on reset, which ends a hold by the test access port (R503). -/
theorem vaux33Rise_leaves (d : Dev) :
    ResetLeaves { d with boot := { d.boot with vaux33 := true, scanHold := false }, tap := Tap.reset } 0 (vaux33Rise d) := resetTo_leaves _ 0

theorem vaux33Loss_leaves (d : Dev) : ResetLeaves { d.cutCopies with boot := { d.cutCopies.boot with vaux33 := false } } 0 (vaux33Loss d) :=
  resetTo_leaves _ 0

theorem vin12Loss_eq {d : Dev} (haux : d.boot.vaux33 = true) :
    vin12Loss d = ({ d with boot := { d.boot with vin12 := false } } : Dev).reset_ 1 .clean := if_pos haux

theorem resetNAssert_long (d : Dev) : resetNAssert d .long = ({ d.fresh with boot := { d.boot with resetLow := true } } : Dev).reset_ 1 .clean := by
  simp only [resetNAssert, if_true]
  rfl

theorem resetNAssert_short (d : Dev) : resetNAssert d .short = d.fresh := by
  simp only [resetNAssert, Bool.false_eq_true, if_false]

/-- A write of RESET_CTL.WARM: its entry in the change journal, and the warm reset after it (R472, R491). -/
theorem warm_write {d : Dev} {path : Path} (h : Reaches d path .resetCtl) (up : StartUp) :
    ∃ e, OneEntry d e ∧ writeRegUp d path 0x24 false 1 up = warmReset e up := by
  have hreg : regAt 0x24 = some .resetCtl := by decide
  have hsel : ((2 ^ 32 - 1) <<< 0 &&& (0 ||| 0 ||| 1) != 0) = true := by decide
  have hmask : ∀ n : Nat, (n &&& 0 &&& ((2 ^ 32 - 1) <<< 0 ^^^ (2 ^ 64 - 1))) ||| ((1 % 2 ^ 32) <<< 0 &&& (0 ||| 0 ||| 1)) = 1 := fun n => by
    rw [Nat.and_zero, Nat.zero_and, Nat.zero_or]
    decide
  have hwarm : bit 0 1 = true := by decide
  rw [writeRegUp_narrow h (by decide) hreg]
  obtain ⟨_, hserved, harrive, _⟩ := h
  simp only [Dev.regPiece, harrive, Reg.mask, hserved, hsel, hmask, Bool.true_or, Bool.true_and, Bool.not_true, Bool.false_eq_true, if_false,
    beq_self_eq_true, if_true, Dev.regEffect, hwarm, Reg.quiet]
  exact ⟨_, oneEntry_journalWrite .., rfl⟩

/-- A warm reset of a running device is the last reset; messages are gone, and no discard is reported where the start-up meets nothing. -/
theorem warmReset_leaves {d : Dev} (up : StartUp) (hfree : d.pwr.hold = false ∨ d.cool = true) (hstage : d.boot.stage ≠ 0) :
    (warmReset d up).boot.lastReset = 2 ∧ (warmReset d up).net = [] ∧ (up = .clean → (warmReset d up).discards = []) := by
  have hleaves := resetTo_leaves d 2
  obtain ⟨hlast, _, hnet⟩ := bringUp_keeps (d.resetTo 2) up
  rw [warmReset, reset_carriedOut up hfree fun h => absurd h hstage]
  refine ⟨hlast.trans hleaves.lastReset, hnet hleaves.net, fun hclean => ?_⟩
  subst hclean
  exact (quiet_bringUp hleaves.quiet).discards

/-! ## Clocks (R499) -/

theorem foldl_port_other {f : Dev → Nat → Dev} (hne : ∀ d p j, j ≠ p → (f d p).port j = d.port j) {l : List Nat} {p : Nat} (hp : p ∉ l) (d : Dev) :
    (l.foldl f d).port p = d.port p := by
  induction l generalizing d with
  | nil => rfl
  | cons q l ih =>
    obtain ⟨hq, hl⟩ := not_or.mp (mt List.mem_cons.mpr hp)
    rw [List.foldl_cons, ih hl, hne d q p hq]

/-- A fold over different ports does to each what its step does to that port. -/
theorem foldl_port {f : Dev → Nat → Dev} {g : Port → Port} (hself : ∀ d p, (f d p).port p = g (d.port p))
    (hne : ∀ d p j, j ≠ p → (f d p).port j = d.port j) {l : List Nat} (hl : l.Nodup) {p : Nat} (hp : p ∈ l) (d : Dev) :
    (l.foldl f d).port p = g (d.port p) := by
  induction l generalizing d with
  | nil => cases hp
  | cons q l ih =>
    obtain ⟨hq, hl⟩ := List.nodup_cons.mp hl
    rw [List.foldl_cons]
    rcases List.mem_cons.mp hp with rfl | hp
    · rw [foldl_port_other hne hq, hself]
    · rw [ih hl hp, hne d q p fun h => hq (h ▸ hp)]

/-- The nine ports of edge die e. -/
theorem edgePorts_nodup (e : Nat) : ((List.range 9).map (fun i => 9 * e + i)).Nodup :=
  List.Nodup.map (fun _ _ h => Nat.add_left_cancel h) List.nodup_range

theorem mem_edgePorts {e i : Nat} (h : i < 9) : 9 * e + i ∈ (List.range 9).map (fun i => 9 * e + i) :=
  List.mem_map.mpr ⟨i, List.mem_range.mpr h, rfl⟩

theorem failPort_ports (d : Dev) (p : Nat) (st : BitVec 4) :
    (d.failPort p st).ports = (d.setPort p { (d.port p).drop with st := st, needRetrain := (d.port p).needRetrain || st == 7 }).ports := by
  simp only [Dev.failPort, Dev.unitDiscard_ports]
  rfl

/-- A port of a die that fails, or that has failed or is disabled already. -/
def Port.gone (x : Port) : Port :=
  if x.st == 6 || x.st == 10 then x else { x.drop with st := 6, needRetrain := x.needRetrain || (6 : BitVec 4) == 7 }

theorem Port.gone_st (x : Port) : x.gone.st = if x.st = 10 then 10 else 6 := by
  simp only [Port.gone]
  split_ifs with h h10 h10
  · exact h10
  · rw [Bool.or_eq_true, beq_iff_eq, beq_iff_eq] at h
    exact h.resolve_right h10
  · exact absurd (by rw [h10]; rfl) h
  · rfl

theorem failEdgePorts_port (d : Dev) {e i : Nat} (h : i < 9) : (d.failEdgePorts e).port (9 * e + i) = (d.port (9 * e + i)).gone := by
  simp only [Dev.failEdgePorts]
  have hports : (if e == 0 && (d.port 0).st == 9 then { d with bridge := d.bridge.linkDown } else d).port (9 * e + i) = d.port (9 * e + i) := by
    split <;> rfl
  rw [foldl_port (g := Port.gone) (fun d p => ?self) (fun d p j hj => ?other) (edgePorts_nodup e) (mem_edgePorts h), hports]
  case self =>
    by_cases hgone : d.portGone p = true
    · rw [if_pos hgone]
      exact (if_pos hgone).symm
    · rw [if_neg hgone, Dev.port, failPort_ports]
      exact (Dev.port_setPort_self ..).trans (if_neg hgone).symm
  case other =>
    by_cases hgone : d.portGone p = true
    · rw [if_pos hgone]
    · rw [if_neg hgone, Dev.port, failPort_ports]
      exact Dev.port_setPort_ne _ _ hj

/-- A lost reference clock fails the ports of its edge die until RETRAIN. -/
theorem lrefclkLoss_port (d : Dev) {e i : Nat} (h : i < 9) :
    (lrefclkLoss d e).port (9 * e + i) = { (d.port (9 * e + i)).gone with needRetrain := true } := by
  simp only [lrefclkLoss]
  rw [foldl_port (f := fun d p => d.modPort p (fun x => { x with needRetrain := true })) (g := fun x => { x with needRetrain := true })
    (fun d p => Dev.port_setPort_self ..) (fun d p j hj => Dev.port_setPort_ne _ _ hj) (edgePorts_nodup e) (mem_edgePorts h), failEdgePorts_port d h]

/-- The endpoint of a head goes down with its link (R495). -/
theorem prefclkLoss_bridge {d : Dev} (h : d.suite.head = true) : (prefclkLoss d).bridge = d.bridge.linkDown := by
  have hkept (l : List Nat) : (l.foldl (fun d p => if (d.port p).st == 9 then d.modPort p (fun x => { x.drop with st := 1 }) else d) d).bridge = d.bridge :=
    foldl_keep (p := Dev.bridge) l d fun d p => by split <;> rfl
  simp only [prefclkLoss, Dev.endpointDown, h, Bool.not_true, Bool.false_eq_true, if_false, hkept]

/-! ## The self-test of a cabinet that restarts (R23, R352) -/

/-- The state of a cabinet, with what stands beside it. -/
theorem setCabSt_cab (d : Dev) (c : Nat) (st : BitVec 2) : (d.setCabSt c st).cab c = { d.cab c with st := st } := by
  simp only [Dev.setCabSt]
  split
  · next h => rw [← beq_iff_eq.mp h]
  · exact Dev.cab_setCab_self ..

theorem setCabSt_boot (d : Dev) (c : Nat) (st : BitVec 2) : (d.setCabSt c st).boot = d.boot := by
  obtain ⟨hboot, _, _⟩ := boardKept_setCabSt d c st
  exact hboot

/-- A cabinet whose sideboard and stacks are ON and trained, and whose self-test has passed, is active (R23). -/
theorem followCab_active {d : Dev} {c : Nat} (hfence : d.fenced c = false) (hsb : (d.dom (sbDom c)).st = 1)
    (hchest : (d.dom (256 * c + 106)).st = 1) (hplain : (d.dom (256 * c + 107)).st = 1) (htested : (d.cab c).tested = true)
    (htrained : (d.stk (2 * c)).trained = true) (htrained' : (d.stk (2 * c + 1)).trained = true) : d.followCab c = d.setCabSt c 1 := by
  have hdark : ((d.dom (sbDom c)).st == 0) = false := by rw [hsb]; rfl
  simp only [Dev.followCab, hfence, hdark, Bool.false_eq_true, if_false]
  rw [if_pos (by rw [hsb, hchest, hplain, htested, htrained, htrained']; rfl)]

theorem checkerSelftest_passes {d : Dev} {c : Nat} (hst : (d.cab c).st = 3) (htested : (d.cab c).tested = false) (hsb : d.domOn (sbDom c) = true)
    (hchest : d.domOn (stkDom (2 * c)) = true) (hplain : d.domOn (stkDom (2 * c + 1)) = true) (htrained : (d.stk (2 * c)).trained = true)
    (htrained' : (d.stk (2 * c + 1)).trained = true) (hbad : (d.stk (2 * c)).badChannels = []) (hbad' : (d.stk (2 * c + 1)).badChannels = []) :
    ((checkerSelftestComplete d c []).cab c).st = 1 ∧ ((checkerSelftestComplete d c []).cab c).tested = true ∧
      (checkerSelftestComplete d c []).boot.selftest = 1 := by
  have hgo : ((d.cab c).st != 3 || (d.cab c).tested || !d.domOn (sbDom c)) = false := by rw [hst, htested, hsb]; rfl
  have hpass : checkerSelftestComplete d c [] =
      (({ d with boot := { d.boot with selftest := selftestOf [] } } : Dev).setCab c { d.cab c with tested := true }).followCab c := by
    simp only [checkerSelftestComplete, hgo, Bool.false_eq_true, if_false, List.filter_nil, Dev.selftest, List.foldl_nil, List.foldl_cons]
    generalize he : Dev.mk .. = e
    have hstk (s : Nat) : e.stk s = d.stk s := he ▸ rfl
    have hcab : e.cab c = d.cab c := he ▸ rfl
    simp only [hstk, hbad, hbad', List.isEmpty_nil, Bool.true_or, if_true, hcab]
  have hdoms : stkDom (2 * c) = 256 * c + 106 ∧ stkDom (2 * c + 1) = 256 * c + 107 := by
    simp only [stkDom]
    omega
  rw [hdoms.1] at hchest
  rw [hdoms.2] at hplain
  rw [hpass]
  generalize he : Dev.setCab _ _ _ = e
  have hcab : e.cab c = { d.cab c with tested := true } := by rw [← he]; exact Dev.cab_setCab_self ..
  have hdom (id : Nat) : e.dom id = d.dom id := he ▸ rfl
  have hstk (s : Nat) : e.stk s = d.stk s := he ▸ rfl
  have hboot : e.boot.selftest = selftestOf [] := he ▸ rfl
  have hfence : e.fenced c = false := by rw [Dev.fenced, hcab, hst]; rfl
  rw [followCab_active hfence ((congrArg Dom.st (hdom _)).trans (beq_iff_eq.mp hsb)) ((congrArg Dom.st (hdom _)).trans (beq_iff_eq.mp hchest))
    ((congrArg Dom.st (hdom _)).trans (beq_iff_eq.mp hplain)) (by rw [hcab]) (by rw [hstk]; exact htrained) (by rw [hstk]; exact htrained'),
    setCabSt_cab, setCabSt_boot, hcab, hboot]
  exact ⟨rfl, rfl, by decide⟩

/-! ## The statement -/

/-- Settles O57: each reset by what it leaves before a start-up that something still holds, bring-up by its three outcomes, and the rest by
their own steps. -/
theorem bringup : Obligations.Bringup := by
  unfold Obligations.Bringup
  intro s ready comesUp free below
  refine ⟨?rise, ?loss, fun haux hfree hbelow => ?vin12, fun hfree hbelow => ?low, fun hfree hstage hweak => ?part, ?short,
    fun path up hreach hfree hstage => ?warm, fun up hready hlow => ?supply, fun up hready => ?release, fun e => ?clock, fun hhead => ?pcie,
    fun c hst htested hsb hchest hplain htrained htrained' hbad hbad' => ?selftest⟩
  case rise =>
    have hleaves := vaux33Rise_leaves s.toDev
    exact ⟨_, rfl, hleaves.supplies.2, hleaves.stage, hleaves.lastReset, hleaves.tap, hleaves.held.2, hleaves.copies rfl, hleaves.perstLow,
      hleaves.journal.trans (if_pos rfl), hleaves.benches, hleaves.net⟩
  case loss =>
    have hleaves := vaux33Loss_leaves s.toDev
    exact ⟨_, rfl, hleaves.supplies.2, hleaves.stage, hleaves.lastReset, hleaves.journal.trans (if_pos rfl), hleaves.benches⟩
  case vin12 =>
    have hleaves := reset_holds (d := { s.toDev with boot := { s.boot with vin12 := false } }) (kind := 1) hfree hbelow (.inl rfl)
    exact ⟨_, congrArg (done s) (vin12Loss_eq haux), hleaves.supplies.1, hleaves.stage, hleaves.lastReset, hleaves.journal.trans (if_neg (by decide)),
      hleaves.benches, hleaves.net⟩
  case low =>
    have hleaves := reset_holds (d := { s.fresh with boot := { s.boot with resetLow := true } }) (kind := 1) hfree hbelow (.inr rfl)
    exact ⟨_, congrArg (done s) (resetNAssert_long s.toDev), hleaves.held.1, hleaves.stage, hleaves.lastReset, hleaves.benches⟩
  case part =>
    refine ⟨congrArg (done s) ((resetNAssert_long s.toDev).trans ?_), fun haux => congrArg (done s) ((vin12Loss_eq haux).trans ?_)⟩
    · exact reset_stays (d := { s.fresh with boot := { s.boot with resetLow := true } }) hfree hstage hweak (.inr rfl)
    · exact reset_stays (d := { s.toDev with boot := { s.boot with vin12 := false } }) hfree hstage hweak (.inl rfl)
  case short => exact congrArg (done s) (resetNAssert_short s.toDev)
  case warm =>
    obtain ⟨e, ⟨j, hentry, _⟩, hwarm⟩ := warm_write hreach up
    refine ⟨_, congrArg (done s) hwarm, warmReset_leaves up ?_ ?_⟩
    · rw [hentry]; exact hfree
    · rw [hentry]; exact hstage
  case supply =>
    obtain ⟨hvin, hvaux, hscan, hhold, hstage⟩ := hready
    exact ⟨_, rfl, bringUp_comesUp (d := { s.toDev with boot := { s.boot with vin12 := true, vaux33 := true } })
      ⟨rfl, rfl, hlow, hscan, hhold, hstage⟩ up⟩
  case release =>
    obtain ⟨hvin, hvaux, hscan, hhold, hstage⟩ := hready
    have hmay : MayStart { s.toDev with boot := { s.boot with resetLow := false } } := ⟨hvin, hvaux, rfl, hscan, hhold, hstage⟩
    exact ⟨_, rfl, (bringUp_keeps _ up).2.1, bringUp_comesUp hmay up⟩
  case clock =>
    refine ⟨_, rfl, fun i hi => ?_⟩
    have hport := lrefclkLoss_port s.toDev (e := e.val) hi
    exact ⟨congrArg Port.needRetrain hport, (congrArg Port.st hport).trans (Port.gone_st _)⟩
  case pcie => exact ⟨_, rfl, prefclkLoss_bridge hhead⟩
  case selftest => exact ⟨_, rfl, checkerSelftest_passes hst htested hsb hchest hplain htrained htrained' hbad hbad'⟩

end Sys2Proof.Machine
end

section
/-! A register write that its path brings to the register (R337, R472, R508–R510): the register's effect on the bits written, and the entry
that the change journal takes. -/

namespace Sys2Proof.Machine

/-- The bits that one access writes. -/
@[simp] def accessBits (wide : Bool) : Nat := if wide then 64 else 32

/-- What a write of x presents to a register that it covers. -/
@[simp] def Reg.taken (r : Reg) (wide : Bool) (x : Nat) : Nat := x % 2 ^ accessBits wide &&& (r.mask.rw ||| r.mask.w1c ||| r.mask.wo)

/-- A write of this width covers every bit of the register that can be read and written, and meets a writable one; the write is journalled
and begins no reset. -/
@[simp] def Reg.covered (r : Reg) (wide : Bool) : Bool :=
  (r.mask.rw &&& ((2 ^ accessBits wide - 1) <<< 0 ^^^ (2 ^ 64 - 1)) == 0) &&
    ((2 ^ accessBits wide - 1) <<< 0 &&& (r.mask.rw ||| r.mask.w1c ||| r.mask.wo) != 0) && r != .resetCtl && (!wide || r.wide)

theorem presented_covered {d : Dev} {r : Reg} {wide : Bool} (h : r.covered wide = true) (x : Nat) :
    presented d r (accessBits wide) x = r.taken wide x := by
  simp only [Reg.covered, Bool.and_eq_true, beq_iff_eq] at h
  obtain ⟨⟨⟨hrw, -⟩, -⟩, -⟩ := h
  rw [presented, Nat.land_assoc, hrw, Nat.and_zero, Nat.zero_or, Nat.shiftLeft_zero, Reg.taken]

/-- The device after a write of r with effect e: the entry of the change journal, where r's writes are journalled. -/
def Dev.entered (d : Dev) (path : Path) (r : Reg) (off x : Nat) (wide : Bool) (e : Dev × Bool) : Dev :=
  if r.quiet then e.1
  else e.1.journalWrite path e.2 wide off (d.regValue r % 2 ^ accessBits wide)
    ((e.1.regValue r ||| (x % 2 ^ accessBits wide &&& r.mask.wo)) % 2 ^ accessBits wide)

theorem writeReg_entered {d : Dev} {path : Path} {r : Reg} {off : Nat} {wide : Bool} (h : Reaches d path r) (hoff : off < 2 ^ 26)
    (hreg : regAt off = some r) (hc : r.covered wide = true) (x : Nat) :
    writeReg d path off wide x = d.entered path r off x wide (d.regEffect path r (r.taken wide x) (Config.startUp d.free)) := by
  have hpiece : writeReg d path off wide x = d.regPiece path r off 0 (accessBits wide) x (Config.startUp d.free) := by
    cases wide with
    | false => exact writeRegUp_narrow h hoff hreg x _
    | true =>
      have hwide : r.wide = true := by simp only [Reg.covered, Bool.and_eq_true] at hc; simpa using hc.2
      exact writeRegUp_wide h hoff hreg hwide x _
  have hbits : (accessBits wide == 64) = wide := by cases wide <;> rfl
  have hpres := presented_covered (d := d) hc x
  simp only [Reg.covered, Bool.and_eq_true, bne_iff_ne, ne_eq] at hc
  obtain ⟨⟨⟨-, hmeets⟩, hreset⟩, -⟩ := hc
  obtain ⟨-, hserved, harrive, -⟩ := h
  have hlive : ((d.regServed r || d.imageData path r) &&
      (2 ^ accessBits wide - 1) <<< 0 &&& (r.mask.rw ||| r.mask.w1c ||| r.mask.wo) != 0) = true := by
    rw [hserved, Bool.true_or, Bool.true_and, bne_iff_ne]; exact hmeets
  have hpres : (d.regValue r &&& r.mask.rw &&& ((2 ^ accessBits wide - 1) <<< 0 ^^^ (2 ^ 64 - 1))) |||
      ((x % 2 ^ accessBits wide) <<< 0 &&& (r.mask.rw ||| r.mask.w1c ||| r.mask.wo)) = r.taken wide x := hpres
  rw [hpiece]
  simp only [Dev.regPiece, harrive, hlive, Bool.not_true, Bool.false_eq_true, if_false, beq_iff_eq, hreset, hbits, hpres]
  simp only [Nat.shiftRight_zero, Nat.shiftLeft_zero, Dev.entered]

/-- The write of a journalled register: its effect, and the entry of Table 16-11. -/
theorem writeReg_journalled {s : State} {path : Path} {r : Reg} {off : Nat} {wide : Bool} {x : Nat} {d : Dev} {applied : Bool}
    (h : Reaches s.toDev path r) (hoff : off < 2 ^ 26) (hreg : regAt off = some r) (hc : r.covered wide = true) (hquiet : r.quiet = false)
    (heffect : s.regEffect path r (r.taken wide x) (Config.startUp s.free) = (d, applied)) (hj : d.journal = s.journal) :
    ∃ t, done s (writeReg s.toDev path off wide x) = .next t ∧ Wrote s t d ∧
      Journalled s t path applied wide off (s.regValue r % 2 ^ accessBits wide)
        ((d.regValue r ||| (x % 2 ^ accessBits wide &&& r.mask.wo)) % 2 ^ accessBits wide) := by
  rw [writeReg_entered h hoff hreg hc, heffect, Dev.entered, hquiet]
  refine ⟨_, rfl, OneEntry.wrote (oneEntry_journalWrite ..) hj, ?_⟩
  have hmod : off % 2 ^ 26 = off := Nat.mod_eq_of_lt hoff
  have happlied : b2n applied * 2 ^ 13 = if applied then 2 ^ 13 else 0 := by cases applied <;> rfl
  have hwide : b2n wide * 2 ^ 12 = if wide then 2 ^ 12 else 0 := by cases wide <;> rfl
  simp only [Journalled, Dev.journalWrite, Dev.journalPut, journalEntry, hj, hmod, happlied, hwide]
  cases path <;> exact ⟨rfl, rfl, rfl⟩

/-- The write of a journalled register, by its effect alone. -/
theorem writeReg_wrote {s : State} {path : Path} {r : Reg} {off : Nat} {wide : Bool} {x : Nat} {d : Dev} {applied : Bool}
    (h : Reaches s.toDev path r) (hoff : off < 2 ^ 26) (hreg : regAt off = some r) (hc : r.covered wide = true) (hquiet : r.quiet = false)
    (heffect : s.regEffect path r (r.taken wide x) (Config.startUp s.free) = (d, applied)) (hj : d.journal = s.journal) :
    ∃ t, done s (writeReg s.toDev path off wide x) = .next t ∧ Wrote s t d := by
  obtain ⟨t, ht, hwrote, -⟩ := writeReg_journalled h hoff hreg hc hquiet heffect hj
  exact ⟨t, ht, hwrote⟩

/-- What such a write leaves of the plan and of the benches. -/
theorem Wrote.plan {s t : State} {d : Dev} (h : Wrote s t d) : t.plan = d.plan := congrArg (fun u : State => u.plan) h.1

theorem Wrote.bench {s t : State} {d : Dev} (h : Wrote s t d) (j : Nat) : t.bench j = d.bench j := congrArg (fun u : State => u.bench j) h.1

/-- A write that changes bench k alone. -/
theorem Wrote.setBench {s t : State} {k : Nat} {x : Bench} (h : Wrote s t (s.setBench k x)) :
    { t with benches := [], journal := s.journal } = { s with benches := [] } ∧ (∀ j, j ≠ k → t.bench j = s.bench j) ∧ t.bench k = x := by
  refine ⟨congrArg (fun u : State => ({ u with benches := [] } : State)) h.1, fun j hj => ?_, ?_⟩
  · rw [h.bench]; exact Tab.get_set_ne _ _ _ hj
  · rw [h.bench]; exact Tab.get_set_self ..

end Sys2Proof.Machine
end

section
/-! Where the registers of benches, of cabinets and of the device lie (Tables 18-2, 18-6 and 18-7), and the bits that a write of them leaves. -/

namespace Sys2Proof.Machine

/-! ## Offsets -/

theorem regAt_cabinet {c o : Nat} (hc : c < 12) (ho : o < 0x100000) : regAt (0x1000000 + 0x100000 * c + o) = cabinetReg c o := by
  have hblock : 0x1000000 ≤ 0x1000000 + 0x100000 * c + o ∧ 0x1000000 + 0x100000 * c + o < 0x1C00000 := by omega
  have hcab : (0x1000000 + 0x100000 * c + o - 0x1000000) / 0x100000 = c := by omega
  have hoff : (0x1000000 + 0x100000 * c + o) % 0x100000 = o := by omega
  rw [regAt, if_neg (by omega), if_neg (by omega), if_neg (by omega), if_neg (by omega), if_pos hblock, hcab, hoff]

theorem benchKey_lt (b : BenchId) : benchKey b < 1152 := by
  have := b.cab.isLt
  have := b.bench.isLt
  simp only [benchKey]
  omega

theorem benchReg_lt (b : BenchId) {o : Nat} (ho : o < 0x100) : benchReg (benchKey b) o < 2 ^ 26 := by
  have := benchKey_lt b
  simp only [benchReg]
  omega

/-- The registers of a bench block (Table 18-7). -/
theorem regAt_bench (b : BenchId) {o : Nat} (ho : o < 0x100) : regAt (benchReg (benchKey b) o) = benchRegAt (benchKey b) o := by
  have hk := benchKey_lt b
  generalize benchKey b = k at hk
  have hblock : 0x10000 ≤ 0x10000 + 0x100 * (k % 96) + o ∧ 0x10000 + 0x100 * (k % 96) + o < 0x10000 + 0x100 * 96 := by omega
  have hkey : 96 * (k / 96) + (0x10000 + 0x100 * (k % 96) + o - 0x10000) / 0x100 = k := by omega
  have hoff : (0x10000 + 0x100 * (k % 96) + o) % 0x100 = o := by omega
  rw [benchReg, Nat.add_assoc, Nat.add_assoc, ← Nat.add_assoc 0x10000, regAt_cabinet (by omega) (by omega), cabinetReg, if_pos hblock, hkey, hoff]

theorem benchRegAt_inboxQ (k : Nat) (q : Fin 8) : benchRegAt k (0x20 + 4 * q.val) = some (.inboxQ k q.val) := by
  have hindex : indexIn (0x20 + 4 * q.val) 0x20 4 8 = some q.val := by
    have := q.isLt
    rw [indexIn, if_pos (by omega)]
    congr 1
    omega
  simp only [benchRegAt, hindex]

/-! ## Bits written -/

/-- The bits of a word that a mask leaves, as a bit vector (R520). -/
theorem ofNat_masked {n : Nat} (v : BitVec n) (m : Nat) : BitVec.ofNat n (v.toNat % 2 ^ n &&& m) = v &&& BitVec.ofNat n m := by
  apply BitVec.eq_of_toNat_eq
  simp only [BitVec.toNat_ofNat, BitVec.toNat_and, Nat.and_mod_two_pow, Nat.mod_mod]
  rw [Nat.mod_eq_of_lt v.isLt]

/-- What a register stores of a write with an action bit a set that it does not store. -/
theorem stored_or {n a m : Nat} {k : BitVec n} (v : BitVec n) (hm : BitVec.ofNat n m &&& k = k) (ha : BitVec.ofNat n a &&& k = 0#n) :
    BitVec.ofNat n ((v.toNat ||| a) % 2 ^ n &&& m) &&& k = v &&& k := by
  have hor : (v.toNat ||| a) % 2 ^ n = (v ||| BitVec.ofNat n a).toNat % 2 ^ n := by
    simp only [BitVec.toNat_or, BitVec.toNat_ofNat, Nat.or_mod_two_pow, Nat.mod_mod]
  have hdistrib : (v ||| BitVec.ofNat n a) &&& k = v &&& k ||| BitVec.ofNat n a &&& k :=
    BitVec.eq_of_toNat_eq (by simp only [BitVec.toNat_and, BitVec.toNat_or, Nat.and_or_distrib_right])
  rw [hor, ofNat_masked, BitVec.and_assoc, hm, hdistrib, ha, BitVec.or_zero]

/-- A field that the mask holds whole reads as before. -/
theorem bits_land {hi lo m : Nat} (h : bits hi lo m = 2 ^ (hi + 1 - lo) - 1) (x : Nat) : bits hi lo (x &&& m) = bits hi lo x := by
  simp only [bits, ← Nat.shiftRight_eq_div_pow] at h ⊢
  rw [Nat.shiftRight_and_distrib, Nat.and_mod_two_pow, h, Nat.and_two_pow_sub_one_eq_mod, Nat.mod_mod]

theorem bit_land (i x m : Nat) : bit i (x &&& m) = (bit i x && bit i m) := Nat.testBit_and ..

/-- The action bits of such a write. -/
theorem bit_or_masked {n : Nat} (i a m : Nat) (v : BitVec n) :
    bit i ((v.toNat ||| a) % 2 ^ n &&& m) = (decide (i < n) && (v.getLsbD i || bit i a) && bit i m) := by
  rw [bit_land, bit, Nat.testBit_mod_two_pow, Nat.testBit_or, BitVec.testBit_toNat, bit, bit]

theorem bits_low (n x : Nat) : bits n 0 x = x % 2 ^ (n + 1) := by simp [bits]

theorem ofNat_bits {n : Nat} (w lo : Nat) (v : BitVec n) (hw : 0 < w) : BitVec.ofNat w (bits (lo + w - 1) lo v.toNat) = v.extractLsb' lo w := by
  have hwidth : lo + w - 1 + 1 - lo = w := by omega
  apply BitVec.eq_of_toNat_eq
  simp [bits, hwidth, Nat.shiftRight_eq_div_pow]

end Sys2Proof.Machine
end

section
/-! DEV_PLAN_BASE (R71), and O37. -/

namespace Sys2Proof.Machine

/-- The offset of DEV_PLAN_BASE (Table 18-2). -/
theorem regAt_planBase : regAt 0x100 = some .planBase := by decide +kernel

theorem regValue_served {d : Dev} {r : Reg} (h : d.regServed r = true) : d.regValue r = d.regRaw r := if_pos h

/-- The device with ADDR of v as the base of the plan image. -/
def Dev.planAt (d : Dev) (v : BitVec 64) : Dev := { d with plan := { d.plan with base := v &&& 0x0000FFFFFFFFF000#64 } }

/-- A write while no plan is loaded is applied. -/
theorem regEffect_planBase_idle {d : Dev} (path : Path) (v : BitVec 64) (up : StartUp) (hidle : d.planIdle = true) :
    d.regEffect path .planBase (Reg.planBase.taken true v.toNat) up = (d.planAt v, true) := by
  have htaken : BitVec.ofNat 64 (Reg.planBase.taken true v.toNat) = v &&& 0x0000FFFFFFFFF000#64 := ofNat_masked v 0xFFFFFFFFF000
  have haddr : BitVec.ofNat 64 (Reg.planBase.taken true v.toNat) &&& 0x0000FFFFFFFFF000#64 = v &&& 0x0000FFFFFFFFF000#64 := by
    rw [htaken, BitVec.and_assoc, BitVec.and_self]
  exact (if_pos hidle).trans (by rw [haddr]; rfl)

/-- At any other time it is ignored. -/
theorem regEffect_planBase_busy {d : Dev} (path : Path) (x : Nat) (up : StartUp) (hidle : d.planIdle = false) :
    d.regEffect path .planBase x up = (d, false) :=
  if_neg fun h => Bool.false_ne_true (hidle.symm.trans h)

section

variable {path : Path} {s : State} (h : Reaches s.toDev path .planBase) (v : BitVec 64)
include h

theorem devPlanBaseWrite_idle (hidle : s.planIdle = true) : ∃ t, exec (.devPlanBaseWrite path v) s = .next t ∧ Wrote s t (s.planAt v) ∧
    Journalled s t path true true 0x100 s.plan.base.toNat (v &&& 0x0000FFFFFFFFF000#64).toNat := by
  obtain ⟨t, ht, hwrote, hj⟩ := writeReg_journalled (wide := true) h (by decide) regAt_planBase rfl rfl (regEffect_planBase_idle path v _ hidle) rfl
  obtain ⟨-, hserved, -, -⟩ := h
  rw [regValue_served hserved, regValue_served (d := s.planAt v) hserved] at hj
  refine ⟨t, ht, hwrote, ?_⟩
  simpa only [Dev.regRaw, Dev.planAt, Reg.mask, accessBits, if_true, Nat.and_zero, Nat.or_zero, Nat.mod_eq_of_lt (BitVec.isLt _)] using hj

theorem devPlanBaseWrite_busy (hidle : s.planIdle = false) : ∃ t, exec (.devPlanBaseWrite path v) s = .next t ∧ Wrote s t s.toDev ∧
    Journalled s t path false true 0x100 s.plan.base.toNat s.plan.base.toNat := by
  obtain ⟨t, ht, hwrote, hj⟩ := writeReg_journalled (wide := true) h (by decide) regAt_planBase rfl rfl (regEffect_planBase_busy path (Reg.planBase.taken true v.toNat) _ hidle) rfl
  obtain ⟨-, hserved, -, -⟩ := h
  rw [regValue_served hserved] at hj
  refine ⟨t, ht, hwrote, ?_⟩
  simpa only [Dev.regRaw, Dev.planAt, Reg.mask, accessBits, if_true, Nat.and_zero, Nat.or_zero, Nat.mod_eq_of_lt (BitVec.isLt _)] using hj

end

/-- Settles O37: the two outcomes of a write by the plan's state, and what the register reads. -/
theorem planBaseWrites : Obligations.PlanBaseWrites := by
  refine ⟨rfl, fun path v s h => ⟨regValue_served h.2.1, fun hst => ?_, fun ⟨hnone, hfailed⟩ => ?_⟩⟩
  · have hidle : s.planIdle = true := by simpa [Dev.planIdle] using hst
    obtain ⟨t, ht, hwrote, -⟩ := devPlanBaseWrite_idle h v hidle
    exact ⟨t, ht, hwrote.plan⟩
  · have hidle : s.planIdle = false := by simp [Dev.planIdle, hnone, hfailed]
    obtain ⟨t, ht, hwrote, -⟩ := devPlanBaseWrite_busy h v hidle
    exact ⟨t, ht, hwrote.plan⟩

end Sys2Proof.Machine
end

section
/-! Registers of a bench that are written from outside (R51, R68, R127, R140, R143, R148, R295, R474, R475), and O31. -/

namespace Sys2Proof.Machine

/-- A write of a journalled register of a bench block, by its effect. -/
theorem writeBenchReg {s : State} {path : Path} {b : BenchId} {r : Reg} {o x : Nat} {wide : Bool} {d : Dev} (h : Reaches s.toDev path r)
    (ho : o < 0x100) (hreg : benchRegAt (benchKey b) o = some r) (hc : r.covered wide = true) (hquiet : r.quiet = false)
    (heffect : (s.regEffect path r (r.taken wide x) (Config.startUp s.free)).1 = d) (hj : d.journal = s.journal) :
    ∃ t, done s (writeReg s.toDev path (benchReg (benchKey b) o) wide x) = .next t ∧ Wrote s t d :=
  writeReg_wrote h (benchReg_lt b ho) ((regAt_bench b ho).trans hreg) hc hquiet (Prod.ext heffect rfl) hj

/-! ## SHELF_CTL (R140, R143, R148) -/

theorem regEffect_shelfCtl {d : Dev} (path : Path) (k : Nat) {v : Nat} (up : StartUp) (hv : v < 8) :
    d.regEffect path (.shelfCtl k) (Reg.taken (.shelfCtl k) false v) up = writeShelfCtl k v d := by
  have htaken : Reg.taken (.shelfCtl k) false v = v := by
    have hlow : v % 2 ^ 32 &&& 7 = v := by rw [Nat.and_two_pow_sub_one_eq_mod _ 3]; omega
    simpa [Reg.mask] using hlow
  rw [htaken]; rfl

/-- A write with the MODE that the shelf has clears and flushes as its other bits say, in any state of the bench (log 110). -/
theorem writeShelfCtl_same {k v : Nat} {d : Dev} (hm : bit 1 v = (d.bench k).shelf.mode) : (writeShelfCtl k v d).1 =
    if bit 0 v then shelfFlush k (if bit 2 v then shelfClrCounts k d else d) else if bit 2 v then shelfClrCounts k d else d := by
  simp only [writeShelfCtl, hm, beq_self_eq_true, if_true]

/-- CLR_COUNTS. -/
theorem writeShelfCtl_clear (k : Nat) (d : Dev) : (writeShelfCtl k (4 + 2 * b2n (d.bench k).shelf.mode) d).1 = shelfClrCounts k d := by
  generalize hmode : (d.bench k).shelf.mode = m
  have hbits : bit 0 (4 + 2 * b2n m) = false ∧ bit 1 (4 + 2 * b2n m) = m ∧ bit 2 (4 + 2 * b2n m) = true := by cases m <;> decide
  obtain ⟨hflush, hm, hclr⟩ := hbits
  rw [writeShelfCtl_same (hm.trans hmode.symm), hflush, hclr]; rfl

/-- A new MODE, where the bench's state lets it change. -/
theorem writeShelfCtl_mode {k : Nat} {m : Bool} {d : Dev} (hm : m ≠ (d.bench k).shelf.mode)
    (hst : (d.bench k).st = .loading ∨ (d.bench k).st = .halted ∨ (d.bench k).st = .faulted) :
    (writeShelfCtl k (2 * b2n m) d).1 = d.modBench k (fun b => { b with shelf := { b.shelf with mode := m } }) := by
  have hbits : bit 0 (2 * b2n m) = false ∧ bit 1 (2 * b2n m) = m ∧ bit 2 (2 * b2n m) = false := by cases m <;> decide
  obtain ⟨hflush, hmode, hclr⟩ := hbits
  have hfree : ((d.bench k).st == .loading || (d.bench k).st == .halted || (d.bench k).st == .faulted) = true := by
    rcases hst with h | h | h <;> rw [h] <;> rfl
  simp [writeShelfCtl, hflush, hmode, hclr, hm, hfree]

/-- The shelf emptied from outside, its items counted as dropped (R143). -/
def Shelf.emptied (sh : Shelf) : Shelf := { sh with items := [], headPair := 0, dropped := satAdd16 sh.dropped sh.items.length, own := 0 }

/-- FLUSH with the MODE that the shelf has, where neither a step nor an MPUSH takes part. -/
theorem writeShelfCtl_flush {k : Nat} {d : Dev} (hstep : d.inStep = false) (hwait : (d.bench k).shelf.bpWait = false) :
    (writeShelfCtl k (1 + 2 * b2n (d.bench k).shelf.mode) d).1 = d.setBench k { d.bench k with shelf := (d.bench k).shelf.emptied } := by
  have hadmit : admitMpush k (d.setBench k { d.bench k with shelf := (d.bench k).shelf.emptied }) =
      d.setBench k { d.bench k with shelf := (d.bench k).shelf.emptied } := by
    rw [admitMpush, if_neg]
    simp [Shelf.emptied, hwait]
  have hflush : shelfFlush k d = d.setBench k { d.bench k with shelf := (d.bench k).shelf.emptied } := by
    simp only [shelfFlush, hstep, Bool.and_false, Bool.false_eq_true, if_false]
    exact hadmit
  generalize hmode : (d.bench k).shelf.mode = m
  have hbits : bit 0 (1 + 2 * b2n m) = true ∧ bit 1 (1 + 2 * b2n m) = m ∧ bit 2 (1 + 2 * b2n m) = false := by cases m <;> decide
  obtain ⟨hflushes, hm, hclr⟩ := hbits
  rw [writeShelfCtl_same (hm.trans hmode.symm), hflushes, hclr]
  exact hflush

/-! ## INBOX_Q (R51, R68) -/

/-- The bench with queue q set anew: its epoch and check, which discard what is held of another epoch, and its capacity. -/
def Bench.setQueue (b : Bench) (q : Nat) (c : QCfg) : Bench :=
  let w := b.writeEpoch q c.epoch c.chk
  { w with queues := w.queues.set q { w.queue q with cap := c.cap } }

theorem setQueue_queue (b : Bench) (q : Nat) (c : QCfg) (i : Nat) : (b.setQueue q c).queue i = if i = q then c else b.queue i := by
  rw [Bench.setQueue, writeEpoch_queue, Bench.queue, Tab.get_set]
  split
  · rfl
  · next hne =>
    simp only [Bench.writeEpoch]
    split <;> exact Tab.get_set_ne _ _ _ hne

theorem setQueue_inbox (b : Bench) (q : Fin 8) (c : QCfg) :
    (b.setQueue q.val c).inbox = b.inbox.filter (fun m => !(c.chk && m.queue == q && m.epoch != c.epoch)) := by
  have hqueue : ∀ m : Msg, (m.queue.val == q.val) = (m.queue == q) := fun m => by rw [Bool.eq_iff_iff]; simp [Fin.ext_iff]
  cases h : c.chk <;> simp [Bench.setQueue, Bench.writeEpoch, h, hqueue]

/-- Nothing but the queues, the inbox and the count of stale messages differs. -/
theorem setQueue_rest (b : Bench) (q : Nat) (c : QCfg) : { b.setQueue q c with queues := b.queues, inbox := b.inbox, stale := b.stale } = b := by
  cases h : c.chk <;> simp [Bench.setQueue, Bench.writeEpoch, h]

/-- A write whose capacities keep to R68. -/
theorem writeInboxQ_within {k q v : Nat} {d : Dev}
    (hsum : (((List.range 8).filter (· != q)).map (fun i => ((d.bench k).queue i).cap.toNat)).sum + bits 7 0 v ≤ 128)
    (hst : (d.bench k).st = .loading ∨ (d.bench k).st = .halted ∨ (d.bench k).st = .faulted ∨ bits 7 0 v = ((d.bench k).queue q).cap.toNat) :
    writeInboxQ k q v d = (d.setBench k ((d.bench k).setQueue q ⟨BitVec.ofNat 16 (bits 31 16 v), bit 15 v, BitVec.ofNat 8 (bits 7 0 v)⟩), true) := by
  have hfits : decide (128 < (((List.range 8).filter (· != q)).map (fun i => ((d.bench k).queue i).cap.toNat)).sum + bits 7 0 v) = false := by
    rw [decide_eq_false_iff_not]; omega
  have hquiet : (bits 7 0 v != ((d.bench k).queue q).cap.toNat && !((d.bench k).st == .loading || (d.bench k).st == .halted ||
      (d.bench k).st == .faulted)) = false := by
    rcases hst with h | h | h | h <;> simp [h]
  simp only [writeInboxQ, hfits, hquiet, Bool.not_false, Bool.true_and, Bool.or_self, Bool.false_eq_true, if_false, Bench.setQueue]

theorem regEffect_inboxQ (d : Dev) (path : Path) (k q : Nat) (v : BitVec 32) (up : StartUp) :
    d.regEffect path (.inboxQ k q) (Reg.taken (.inboxQ k q) false v.toNat) up = writeInboxQ k q (v.toNat &&& 0xFFFF80FF) d := by
  have htaken : Reg.taken (.inboxQ k q) false v.toNat = v.toNat &&& 0xFFFF80FF := by simp [Reg.mask, Nat.mod_eq_of_lt v.isLt]
  rw [htaken]; rfl

/-! ## TRACE_CTL (R474, R475) -/

/-- The trace of a bench after a write of TRACE_CTL with TRIG_ARM. -/
def Trace.arm (t : Trace) (v : BitVec 64) : Trace := { t.enable (v &&& traceRw) with armed := true }

theorem regEffect_trigArm (d : Dev) (path : Path) (k : Nat) (v : BitVec 64) (up : StartUp) :
    (d.regEffect path (.traceCtl k) (Reg.taken (.traceCtl k) true (v.toNat ||| 0x2000)) up).1 =
      d.setBench k { d.bench k with trace := (d.bench k).trace.arm v } := by
  have htaken : Reg.taken (.traceCtl k) true (v.toNat ||| 0x2000) = (v.toNat ||| 0x2000) % 2 ^ 64 &&& 0xFFFFFFFFFFFFE37F := by simp [Reg.mask]
  have hstored : BitVec.ofNat 64 ((v.toNat ||| 0x2000) % 2 ^ 64 &&& 0xFFFFFFFFFFFFE37F) &&& traceRw = v &&& traceRw :=
    stored_or v (by decide) (by decide)
  have harm : bit 13 (BitVec.ofNat 64 ((v.toNat ||| 0x2000) % 2 ^ 64 &&& 0xFFFFFFFFFFFFE37F)).toNat = true := by
    have hset : bit 13 0x2000 = true ∧ bit 13 0xFFFFFFFFFFFFE37F = true := by decide
    rw [bit_toNat, BitVec.getLsbD_ofNat]
    change (_ && bit 13 _) = true
    rw [bit_or_masked, hset.1, hset.2]
    simp
  rw [htaken]
  simp only [Dev.regEffect, writeTraceCtl, hstored, harm, Bool.and_true, Bool.or_true, Trace.arm, Dev.modBench]

theorem arm_ctl (t : Trace) (v : BitVec 64) : (t.arm v).ctl = v &&& traceRw := by
  simp only [Trace.arm, Trace.enable]
  split <;> rfl

/-! ## The settlement -/

section

variable {path : Path} {b : BenchId} {s : State}

theorem matClrCounts_wrote (h : Reaches s.toDev path (.matCtl (benchKey b))) : ∃ t, exec (.matClrCounts path b) s = .next t ∧
    Wrote s t (s.setBench (benchKey b) { s.bench (benchKey b) with sat := 0, nan := 0 }) :=
  writeBenchReg (o := 0x1C) (x := 1) h (by decide) rfl (by simp [Reg.mask]) rfl (by simp [Dev.regEffect, Reg.mask, bit, matClrCounts, Dev.modBench]) rfl

theorem copyClrCounts_wrote (h : Reaches s.toDev path (.copyCtl (benchKey b))) : ∃ t, exec (.copyClrCounts path b) s = .next t ∧
    Wrote s t (s.setBench (benchKey b) { s.bench (benchKey b) with skipped := 0, poisonSectors := 0 }) :=
  writeBenchReg (o := 0x50) (x := 1) h (by decide) rfl (by simp [Reg.mask]) rfl (by simp [Dev.regEffect, Reg.mask, bit, copyClrCounts, Dev.modBench]) rfl

/-- A write of SHELF_CTL, by its effect. -/
theorem shelfCtl_wrote {v : Nat} {d : Dev} (h : Reaches s.toDev path (.shelfCtl (benchKey b))) (hv : v < 8)
    (heffect : (writeShelfCtl (benchKey b) v s.toDev).1 = d) (hj : d.journal = s.journal) :
    ∃ t, done s (writeReg s.toDev path (benchReg (benchKey b) 0x44) false v) = .next t ∧ Wrote s t d :=
  writeBenchReg h (by decide) rfl (by simp [Reg.mask]) rfl ((congrArg Prod.fst (regEffect_shelfCtl path _ _ hv)).trans heffect) hj

theorem inboxQWrite_sets {q : Fin 8} {v : BitVec 32} (h : Reaches s.toDev path (.inboxQ (benchKey b) q.val))
    (hsum : (((List.range 8).filter (· != q.val)).map (fun i => ((s.bench (benchKey b)).queue i).cap.toNat)).sum + v.toNat % 256 ≤ 128)
    (hst : (s.bench (benchKey b)).st = .loading ∨ (s.bench (benchKey b)).st = .halted ∨ (s.bench (benchKey b)).st = .faulted ∨
      v.toNat % 256 = ((s.bench (benchKey b)).queue q.val).cap.toNat) :
    ∃ t, exec (.inboxQWrite path b q v) s = .next t ∧ Wrote s t (s.setBench (benchKey b)
      ((s.bench (benchKey b)).setQueue q.val ⟨v.extractLsb' 16 16, v.getLsbD 15, v.setWidth 8⟩)) := by
  have hepoch : BitVec.ofNat 16 (bits 31 16 (v.toNat &&& 0xFFFF80FF)) = v.extractLsb' 16 16 := by
    rw [bits_land (by decide)]; exact ofNat_bits 16 16 v (by decide)
  have hchk : bit 15 (v.toNat &&& 0xFFFF80FF) = v.getLsbD 15 := by rw [bit_land, bit_toNat]; simp [bit, Nat.testBit]
  have hcap : bits 7 0 (v.toNat &&& 0xFFFF80FF) = v.toNat % 256 := by rw [bits_land (by decide), bits_low]; rfl
  have hcap' : BitVec.ofNat 8 (v.toNat % 256) = v.setWidth 8 := by apply BitVec.eq_of_toNat_eq; simp
  rw [← hcap] at hsum hst
  refine writeBenchReg h (by omega) (benchRegAt_inboxQ _ q) (by simp [Reg.mask]) rfl ?_ rfl
  rw [regEffect_inboxQ, writeInboxQ_within hsum hst, hepoch, hchk, hcap, hcap']

theorem trigArm_arms (v : BitVec 64) (h : Reaches s.toDev path (.traceCtl (benchKey b))) : ∃ t, exec (.trigArm path b v) s = .next t ∧
    Wrote s t (s.setBench (benchKey b) { s.bench (benchKey b) with trace := (s.bench (benchKey b)).trace.arm v }) :=
  writeBenchReg h (by decide) rfl (by simp [Reg.mask, Reg.wide]) rfl (regEffect_trigArm ..) rfl

end

/-- Settles O31, register by register. -/
theorem benchRegisterWrites : Obligations.BenchRegisterWrites := by
  refine fun path b s => ⟨matClrCounts_wrote, copyClrCounts_wrote, fun h => ⟨?clear, fun m hm hst => ?mode, fun hstep hwait => ?flush⟩,
    fun q v h hsum hst => ?inbox, fun v h => ?trace⟩
  case clear => exact shelfCtl_wrote h (by cases (s.bench _).shelf.mode <;> decide) (writeShelfCtl_clear _ _) rfl
  case mode => exact shelfCtl_wrote h (by cases m <;> decide) (writeShelfCtl_mode hm hst) rfl
  case flush => exact shelfCtl_wrote h (by cases (s.bench _).shelf.mode <;> decide) (writeShelfCtl_flush hstep hwait) rfl
  case inbox =>
    obtain ⟨t, ht, hwrote⟩ := inboxQWrite_sets h hsum hst
    obtain ⟨hrest, hothers, hbench⟩ := hwrote.setBench
    refine ⟨t, ht, hrest, hothers, hwrote.2, ?_, fun i hi => ?_, ?_, ?_⟩
    · rw [hbench, setQueue_queue, if_pos rfl]
    · rw [hbench, setQueue_queue, if_neg hi]
    · rw [hbench, setQueue_inbox]
    · rw [hbench, setQueue_rest]
  case trace =>
    obtain ⟨t, ht, hwrote⟩ := trigArm_arms v h
    obtain ⟨hrest, hothers, hbench⟩ := hwrote.setBench
    exact ⟨t, ht, by rw [hbench]; rfl, by rw [hbench]; exact arm_ctl _ v, hwrote.2, by rw [hbench], hrest, hothers⟩

end Sys2Proof.Machine
end

section
/-! The rings' base and control registers and read counters, CMP_CTL (R55, R56, R265, R266, R270, R301, R312, R314, R322, R378, R379), and
O35. -/

namespace Sys2Proof.Machine

/-! ## The fields of a ring's base -/

/-- The mask of a ring's base: ADDR in bits 47 to 12, and the size in bits 4 to 0. -/
theorem land_ringMask (x : Nat) : x &&& 0xFFFFFFFFF01F = bits 47 12 x * 2 ^ 12 + bits 4 0 x := by
  have hmask : 0xFFFFFFFFF01F = (2 ^ 36 - 1) <<< 12 ||| (2 ^ 5 - 1) := by decide
  have hsize : bits 4 0 x < 2 ^ 12 := Nat.lt_of_lt_of_le (Nat.mod_lt _ (by decide)) (by decide)
  rw [← Nat.shiftLeft_eq, Nat.shiftLeft_add_eq_or_of_lt hsize, hmask, Nat.and_or_distrib_left, Nat.and_two_pow_sub_one_eq_mod, bits_low]
  congr 1
  rw [bits, ← Nat.shiftRight_eq_div_pow, ← Nat.and_two_pow_sub_one_eq_mod, Nat.shiftLeft_and_distrib]
  refine Nat.eq_of_testBit_eq fun i => ?_
  simp only [Nat.testBit_and, Nat.testBit_shiftLeft, Nat.testBit_shiftRight]
  by_cases hi : 12 ≤ i
  · simp [hi]
  · simp [hi]

/-- A base whose size keeps to its range is stored as written. -/
theorem ringBase_within (old v : BitVec 64) {lo hi : Nat} (hlo : lo ≤ v.toNat % 32) (hhi : v.toNat % 32 ≤ hi) :
    ringBase old (v &&& 0x0000FFFFFFFFF01F#64) lo hi = v &&& 0x0000FFFFFFFFF01F#64 := by
  have hand : (v &&& 0x0000FFFFFFFFF01F#64).toNat = v.toNat &&& 0xFFFFFFFFF01F := BitVec.toNat_and ..
  have haddr : bits 47 12 (v &&& 0x0000FFFFFFFFF01F#64).toNat = bits 47 12 v.toNat := by rw [hand, bits_land (by decide)]
  have hsize : ringLog2 (v &&& 0x0000FFFFFFFFF01F#64) = bits 4 0 v.toNat := by rw [ringLog2, hand, bits_land (by decide)]
  have hrange : lo ≤ bits 4 0 v.toNat ∧ bits 4 0 v.toNat ≤ hi := by rw [bits_low]; exact ⟨hlo, hhi⟩
  simp only [ringBase, haddr, hsize, if_pos hrange]
  rw [← land_ringMask, ← hand, BitVec.ofNat_toNat, BitVec.setWidth_eq]

theorem taken_ringBase {r : Reg} (hmask : r.mask = ⟨0xFFFFFFFFF01F, 0, 0⟩) (v : BitVec 64) :
    BitVec.ofNat 64 (r.taken true v.toNat) = v &&& 0x0000FFFFFFFFF01F#64 := by
  rw [Reg.taken, hmask]; exact ofNat_masked v 0xFFFFFFFFF01F

theorem taken_ringCtl {r : Reg} (hmask : r.mask = ⟨0x7FF0005, 0, 2⟩) (v : BitVec 32) :
    BitVec.ofNat 32 (r.taken false (v.toNat ||| 2)) &&& 0x07FF0005#32 = v &&& 0x07FF0005#32 ∧ bit 1 (r.taken false (v.toNat ||| 2)) = true := by
  have hset : bit 1 2 = true ∧ bit 1 0x7FF0007 = true := by decide
  rw [Reg.taken, hmask]
  refine ⟨stored_or v (by decide) (by decide), (bit_or_masked 1 2 _ v).trans ?_⟩
  simp [hset]

theorem bit_ofNat {n i : Nat} (hi : i < n) (x : Nat) : bit i (BitVec.ofNat n x).toNat = bit i x := by
  rw [bit_toNat, BitVec.getLsbD_ofNat, decide_eq_true hi, Bool.true_and, bit]

/-! ## CMP_CTL (R312, R314, R322) -/

/-- ADDR and the action bits that a write of CMP_CTL presents. -/
theorem taken_cmpCtl (v : BitVec 64) {a : Nat} (ha : BitVec.ofNat 64 a &&& 0x0000FFFFFFFFFFE0#64 = 0#64) :
    BitVec.ofNat 64 (Reg.cmpCtl.taken true (v.toNat ||| a)) &&& 0x0000FFFFFFFFFFE0#64 = v &&& 0x0000FFFFFFFFFFE0#64 ∧
      ∀ i, i < 2 → bit i (BitVec.ofNat 64 (Reg.cmpCtl.taken true (v.toNat ||| a))).toNat = (v.getLsbD i || bit i a) := by
  refine ⟨stored_or v (by decide) ha, fun i hi => ?_⟩
  have hset : bit i 0xFFFFFFFFFFE3 = true := by revert hi; revert i; decide
  have hi : i < 64 := by omega
  rw [bit_ofNat hi]
  refine (bit_or_masked i a _ v).trans ?_
  simp [Reg.mask, hset, hi]

/-- A load while a plan is loading or unloading. -/
theorem cmpLoadNow_busy {d : Dev} (hst : d.plan.st = .loading ∨ d.plan.st = .unloading) : cmpLoadNow d = (d.cmpRefused fltPlanBusy, false) := by
  rcases hst with h | h <;> simp [cmpLoadNow, Dev.planIdle, h]

/-- A load of a record that holds a table, its slot not busy and its generation the next. -/
theorem cmpLoadNow_loads {d : Dev} {rec : List Byte} {slot : Nat} {tab : CodeTable} {cmp : Cmp}
    (hst : d.plan.st = .none ∨ d.plan.st = .loaded ∨ d.plan.st = .running ∨ d.plan.st = .failed)
    (hread : d.edRead d.cmp.addr.toNat 32 = (d, .ok (rec, false))) (hwaits : d.readWaits d.cmp.addr.toNat 32 = false)
    (htab : tableOf rec = some (slot, tab)) (hslot : d.slotBusy slot = false) (hload : d.cmp.load slot tab = some cmp) :
    cmpLoadNow d = ({ d with cmp := { cmp with code := 0, loadState := 2 } }, true) := by
  have hopen : (!(d.planIdle || d.plan.st == .loaded || d.plan.st == .running)) = false := by
    rcases hst with h | h | h | h <;> simp [Dev.planIdle, h]
  simp only [cmpLoadNow, hopen, hread, hwaits, htab, hslot, hload, Bool.false_eq_true, if_false]

/-! ## The writes -/

section

variable {path : Path} {s : State}

/-- A write of a journalled register of the device, by its effect. -/
theorem writeDevReg {r : Reg} {off x : Nat} {wide : Bool} {d : Dev} (h : Reaches s.toDev path r) (hreg : regAt off = some r) (hoff : off < 2 ^ 26)
    (hc : r.covered wide = true) (hquiet : r.quiet = false) (hj : d.journal = s.journal)
    (heffect : (s.regEffect path r (r.taken wide x) (Config.startUp s.free)).1 = d) :
    ∃ t, done s (writeReg s.toDev path off wide x) = .next t ∧ Wrote s t d :=
  writeReg_wrote h hoff hreg hc hquiet (Prod.ext heffect rfl) hj

theorem hmbBaseWrite_stores {v : BitVec 64} (h : Reaches s.toDev path .hmbBase) (hoff : s.hmb.ctl.getLsbD 0 = false)
    (hlo : 10 ≤ v.toNat % 32) (hhi : v.toNat % 32 ≤ 20) : ∃ t, exec (.hmbBaseWrite path v) s = .next t ∧
      Wrote s t { s.toDev with hmb := { s.hmb with base := v &&& 0x0000FFFFFFFFF01F#64, head := 0, tail := 0 } } := by
  have htaken := taken_ringBase (r := .hmbBase) rfl v
  refine writeDevReg h (by decide +kernel) (by decide) rfl rfl rfl ?_
  simp only [Dev.regEffect, writeHmbBase, htaken, bit_toNat, hoff, ringBase_within _ v hlo hhi, Bool.false_eq_true, if_false]

theorem flogBaseWrite_stores {v : BitVec 64} (h : Reaches s.toDev path .flogBase) (hoff : s.flog.ctl.getLsbD 0 = false)
    (hlo : 10 ≤ v.toNat % 32) (hhi : v.toNat % 32 ≤ 20) : ∃ t, exec (.flogBaseWrite path v) s = .next t ∧
      Wrote s t { s.toDev with flog := { s.flog with base := v &&& 0x0000FFFFFFFFF01F#64, head := 0, tail := 0 } } := by
  have htaken := taken_ringBase (r := .flogBase) rfl v
  refine writeDevReg h (by decide +kernel) (by decide) rfl rfl rfl ?_
  simp only [Dev.regEffect, writeFlogBase, htaken, bit_toNat, hoff, ringBase_within _ v hlo hhi, Bool.false_eq_true, if_false]

/-- A sequencer base with a size that its register takes. -/
theorem writeSeqBase_fits {result : Bool} {v : BitVec 64} {d : Dev} (hst : d.planIdle = true ∨ d.plan.st = .loaded)
    (hlo : (if result then 13 else 6) ≤ v.toNat % 32) (hhi : v.toNat % 32 ≤ (if result then 20 else 16)) :
    (writeSeqBase result (v &&& 0x0000FFFFFFFFF01F#64) d).1 =
      if result then { d with seq := { d.seq with resultBase := v &&& 0x0000FFFFFFFFF01F#64 } }
      else { d with seq := { d.seq with cmdBase := v &&& 0x0000FFFFFFFFF01F#64 } } := by
  have hlog : ringLog2 (v &&& 0x0000FFFFFFFFF01F#64) = v.toNat % 32 := by
    have hand : (v &&& 0x0000FFFFFFFFF01F#64).toNat = v.toNat &&& 0xFFFFFFFFF01F := BitVec.toNat_and ..
    rw [ringLog2, hand, bits_land (by decide), bits_low]; rfl
  have hopen : (d.planIdle || d.plan.st == .loaded) = true := by rcases hst with h | h <;> simp [h]
  have hsize : seqSizeOk result (v &&& 0x0000FFFFFFFFF01F#64) = true := by
    cases result <;> simpa [seqSizeOk, hlog] using And.intro hlo hhi
  cases result <;> simp [writeSeqBase, hopen, hsize, BitVec.and_assoc]

theorem seqBaseWrite_command {v : BitVec 64} (h : Reaches s.toDev path .cmdBase) (hst : s.planIdle = true ∨ s.plan.st = .loaded)
    (hlo : 6 ≤ v.toNat % 32) (hhi : v.toNat % 32 ≤ 16) : ∃ t, exec (.seqBaseWrite path false v) s = .next t ∧
      Wrote s t { s.toDev with seq := { s.seq with cmdBase := v &&& 0x0000FFFFFFFFF01F#64 } } := by
  have htaken := taken_ringBase (r := .cmdBase) rfl v
  refine writeDevReg h (by decide +kernel) (by decide) rfl rfl rfl ?_
  rw [Dev.regEffect, htaken, writeSeqBase_fits (result := false) hst hlo hhi]; rfl

theorem seqBaseWrite_result {v : BitVec 64} (h : Reaches s.toDev path .resultBase) (hst : s.planIdle = true ∨ s.plan.st = .loaded)
    (hlo : 13 ≤ v.toNat % 32) (hhi : v.toNat % 32 ≤ 20) : ∃ t, exec (.seqBaseWrite path true v) s = .next t ∧
      Wrote s t { s.toDev with seq := { s.seq with resultBase := v &&& 0x0000FFFFFFFFF01F#64 } } := by
  have htaken := taken_ringBase (r := .resultBase) rfl v
  refine writeDevReg h (by decide +kernel) (by decide) rfl rfl rfl ?_
  rw [Dev.regEffect, htaken, writeSeqBase_fits (result := true) hst hlo hhi]; rfl

/-- The read counters are not journalled. -/
theorem hmbHeadWrite_moves {v : BitVec 32} (h : Reaches s.toDev path .hmbHead) (hv : (v - s.hmb.head).toNat ≤ (s.hmb.tail - s.hmb.head).toNat) :
    exec (.hmbHeadWrite path v) s = .next { s with hmb := { s.hmb with head := v } } := by
  have htaken : BitVec.ofNat 32 (Reg.hmbHead.taken false v.toNat) = v := (ofNat_masked v 0xFFFFFFFF).trans BitVec.and_allOnes
  have hwrite : writeReg s.toDev path 0x34C false v.toNat = { s.toDev with hmb := { s.hmb with head := v } } := by
    rw [writeReg_entered h (by decide) (by decide +kernel) rfl]
    simp only [Dev.entered, Reg.quiet, if_true, Dev.regEffect, htaken, writeHmbHead, headOk, decide_eq_true hv]
  exact congrArg (done s) hwrite

theorem flogHeadWrite_moves {v : BitVec 32} (h : Reaches s.toDev path .flogHead)
    (hv : (v - s.flog.head).toNat ≤ (s.flog.tail - s.flog.head).toNat) :
    exec (.flogHeadWrite path v) s = .next { s with flog := { s.flog with head := v } } := by
  have htaken : BitVec.ofNat 32 (Reg.flogHead.taken false v.toNat) = v := (ofNat_masked v 0xFFFFFFFF).trans BitVec.and_allOnes
  have hwrite : writeReg s.toDev path 0x30C false v.toNat = { s.toDev with flog := { s.flog with head := v } } := by
    rw [writeReg_entered h (by decide) (by decide +kernel) rfl]
    simp only [Dev.entered, Reg.quiet, if_true, Dev.regEffect, htaken, writeFlogHead, headOk, decide_eq_true hv]
  exact congrArg (done s) hwrite

theorem hmbClrCounts_wrote {v : BitVec 32} (h : Reaches s.toDev path .hmbCtl) : ∃ t, exec (.hmbClrCounts path v) s = .next t ∧
    Wrote s t { s.toDev with hmb := { s.hmb with ctl := v &&& 0x07FF0005#32, dropped := 0 } } := by
  obtain ⟨hctl, hclr⟩ := taken_ringCtl (r := .hmbCtl) rfl v
  refine writeDevReg h (by decide +kernel) (by decide) rfl rfl rfl ?_
  simp only [Dev.regEffect, writeHmbCtl, ringCtl, hctl, bit_ofNat (n := 32) (i := 1) (by decide), hclr, if_true]

theorem flogClrCounts_wrote {v : BitVec 32} (h : Reaches s.toDev path .flogCtl) : ∃ t, exec (.flogClrCounts path v) s = .next t ∧
    Wrote s t { s.toDev with flog := { s.flog with ctl := v &&& 0x07FF0005#32, lost := 0 } } := by
  obtain ⟨hctl, hclr⟩ := taken_ringCtl (r := .flogCtl) rfl v
  refine writeDevReg h (by decide +kernel) (by decide) rfl rfl rfl ?_
  simp only [Dev.regEffect, writeFlogCtl, ringCtl, hctl, bit_ofNat (n := 32) (i := 1) (by decide), hclr, if_true]

theorem seqClrCounts_wrote {v : BitVec 32} (h : Reaches s.toDev path .seqCtl) : ∃ t, exec (.seqClrCounts path v) s = .next t ∧
    Wrote s t { s.toDev with seq := { s.seq with ctl := v &&& 0x07FF0005#32, stale := 0, refused := 0 } } := by
  obtain ⟨hctl, hclr⟩ := taken_ringCtl (r := .seqCtl) rfl v
  refine writeDevReg h (by decide +kernel) (by decide) rfl rfl rfl ?_
  simp only [Dev.regEffect, writeSeqCtl, hctl, hclr, if_true]

theorem cmpClrCounts_wrote {v : BitVec 64} (h : Reaches s.toDev path .cmpCtl) (hload : v.getLsbD 0 = false) :
    ∃ t, exec (.cmpClrCounts path v) s = .next t ∧
      Wrote s t { s.toDev with cmp := { s.cmp with addr := v &&& 0x0000FFFFFFFFFFE0#64, decodePoisoned := 0, rawFallback := 0 } } := by
  obtain ⟨haddr, hbits⟩ := taken_cmpCtl v (a := 2) (by decide)
  have hclr : bit 1 2 = true ∧ bit 0 2 = false := by decide
  refine writeDevReg h (by decide +kernel) (by decide) rfl rfl rfl ?_
  simp only [Dev.regEffect, writeCmpCtl, haddr, hbits 0 (by decide), hbits 1 (by decide), hload, hclr, Bool.or_true, Bool.or_false,
    Bool.false_eq_true, if_true, if_false]

/-- A write with LOAD alone loads at once from its ADDR. -/
theorem cmpLoad_wrote {v : BitVec 64} {d : Dev} (h : Reaches s.toDev path .cmpCtl) (hclr : v.getLsbD 1 = false) (hj : d.journal = s.journal)
    (hload : (cmpLoadNow { s.toDev with cmp := { s.cmp with addr := v &&& 0x0000FFFFFFFFFFE0#64 } }).1 = d) :
    ∃ t, exec (.cmpLoad path v) s = .next t ∧ Wrote s t d := by
  obtain ⟨haddr, hbits⟩ := taken_cmpCtl v (a := 1) (by decide)
  have hset : bit 1 1 = false ∧ bit 0 1 = true := by decide
  refine writeDevReg h (by decide +kernel) (by decide) rfl rfl hj ?_
  rw [← hload]
  simp only [Dev.regEffect, writeCmpCtl, haddr, hbits 0 (by decide), hbits 1 (by decide), hclr, hset, Bool.or_true, Bool.or_false,
    Bool.false_eq_true, if_true, if_false]

end

/-- The device with ADDR of a coding table's record. -/
def Dev.tableAt (d : Dev) (v : BitVec 64) : Dev := { d with cmp := { d.cmp with addr := v &&& 0x0000FFFFFFFFFFE0#64 } }

/-- Settles O35, register by register. -/
theorem ringRegisters : Obligations.RingRegisters := by
  refine fun path s => ⟨fun v h hoff hlo hhi => hmbBaseWrite_stores h hoff hlo hhi, fun v h hoff hlo hhi => flogBaseWrite_stores h hoff hlo hhi,
    fun v h hst hlo hhi => seqBaseWrite_command h hst hlo hhi, fun v h hst hlo hhi => seqBaseWrite_result h hst hlo hhi,
    fun v h hv => hmbHeadWrite_moves h hv, fun v h hv => flogHeadWrite_moves h hv, fun v h => hmbClrCounts_wrote h,
    fun v h => flogClrCounts_wrote h, fun v h => seqClrCounts_wrote h, fun v h => ⟨fun hload => cmpClrCounts_wrote h hload,
    fun hclr hst => ?refused, fun hclr hst rec slot tab cmp hread hwaits htab hslot hload => ?loads⟩⟩
  case refused => exact cmpLoad_wrote h hclr rfl (congrArg Prod.fst (cmpLoadNow_busy (d := s.tableAt v) hst))
  case loads => exact cmpLoad_wrote h hclr rfl (congrArg Prod.fst (cmpLoadNow_loads (d := s.tableAt v) hst hread hwaits htab hslot hload))

end Sys2Proof.Machine
end

section
/-! The writable registers of a cabinet and its drawers (R70, R202, R212, R216, R234), and O34. -/

namespace Sys2Proof.Machine

/-- A write of a journalled 32-bit register of a cabinet block, by its effect. -/
theorem writeCabReg {s : State} {path : Path} {c : Cab} {r : Reg} {o off x : Nat} {d : Dev} (h : Reaches s.toDev path r)
    (hoff : off = 0x1000000 + 0x100000 * c.val + o) (ho : o < 0x100000) (hreg : cabinetReg c.val o = some r) (hc : r.covered false = true)
    (hquiet : r.quiet = false) (hj : d.journal = s.journal)
    (heffect : (s.regEffect path r (r.taken false x) (Config.startUp s.free)).1 = d) :
    ∃ t, done s (writeReg s.toDev path off false x) = .next t ∧ Wrote s t d := by
  subst hoff
  have hcab := c.isLt
  exact writeReg_wrote h (by omega) ((regAt_cabinet hcab ho).trans hreg) hc hquiet (Prod.ext heffect rfl) hj

/-! ## DRW_MODE, DRW_FALLBACK, DRW_MIRROR, DRW_CTL (R202, R212, R216, R234) -/

theorem ofNat_land {n : Nat} (v : BitVec n) (m : Nat) : BitVec.ofNat n (v.toNat &&& m) = v &&& BitVec.ofNat n m := by
  rw [← ofNat_masked, Nat.mod_eq_of_lt v.isLt]

theorem writeDrwMode_takes {c : Nat} {v : BitVec 32} {d : Dev} (hidle : d.planIdle = true) (hv : v.toNat % 4 ≠ 3) :
    writeDrwMode c (v.toNat &&& 3) d = (d.setDrw c { d.drw c with mode := v &&& 3#32 }, true) := by
  have hlow : (v.toNat &&& 3) % 4 = v.toNat &&& 3 := by rw [Nat.and_two_pow_sub_one_eq_mod _ 2, Nat.mod_mod]
  have hrange : (v.toNat &&& 3 == 3) = false := by
    rw [Nat.and_two_pow_sub_one_eq_mod _ 2, beq_eq_false_iff_ne]; exact hv
  simp only [writeDrwMode, hidle, hlow, hrange, ofNat_land, Bool.not_true, Bool.or_self, Bool.false_eq_true, if_false]

theorem writeFallback_takes {c : Nat} {v : BitVec 32} {d : Dev} (hidle : d.planIdle = true)
    (hv : v.getLsbD 31 = true → bits 23 16 v.toNat ≤ 95) :
    writeFallback c (v.toNat &&& 0x87FF0000) d = (d.setDrw c { d.drw c with fallback := v &&& 0x87FF0000#32 }, true) := by
  have hvalid : bit 31 (v.toNat &&& 0x87FF0000) = v.getLsbD 31 := by
    rw [bit_land, bit_toNat, show bit 31 0x87FF0000 = true by decide, Bool.and_true]
  have hbench : bits 23 16 (v.toNat &&& 0x87FF0000) = bits 23 16 v.toNat := bits_land (by decide) _
  have hrange : (v.getLsbD 31 && decide (95 < bits 23 16 v.toNat)) = false := by
    rw [Bool.and_eq_false_imp, decide_eq_false_iff_not]
    intro h
    exact Nat.not_lt.2 (hv h)
  simp only [writeFallback, hidle, hvalid, hbench, hrange, ofNat_land, Bool.not_true, Bool.or_self, Bool.false_eq_true, if_false]

theorem writeMirror_takes {c : Nat} {v : BitVec 32} {d : Dev} (hst : d.planIdle = true ∨ d.plan.st = .loaded)
    (hv : v.getLsbD 31 = true → v.toNat % 16 < 12 ∧ v.toNat % 16 ≠ c) :
    writeMirror c (v.toNat &&& 0x8000000F) d = (d.setDrw c { d.drw c with mirror := v &&& 0x8000000F#32 }, true) := by
  have hopen : (!(d.planIdle || d.plan.st == .loaded)) = false := by rcases hst with h | h <;> simp [h]
  have hvalid : bit 31 (v.toNat &&& 0x8000000F) = v.getLsbD 31 := by
    rw [bit_land, bit_toNat, show bit 31 0x8000000F = true by decide, Bool.and_true]
  have hcab : (v.toNat &&& 0x8000000F) % 16 = v.toNat % 16 := by
    have h := bits_land (hi := 3) (lo := 0) (m := 0x8000000F) (by decide) v.toNat
    rwa [bits_low, bits_low] at h
  have hrange : (v.getLsbD 31 && (v.toNat % 16 == c || decide (12 ≤ v.toNat % 16))) = false := by
    rw [Bool.and_eq_false_imp]
    intro h
    obtain ⟨hlt, hne⟩ := hv h
    simp only [Bool.or_eq_false_iff, beq_eq_false_iff_ne, decide_eq_false_iff_not]
    exact ⟨hne, Nat.not_le.2 hlt⟩
  simp only [writeMirror, hopen, hvalid, hcab, hrange, ofNat_land, Bool.or_self, Bool.false_eq_true, if_false]

/-! ## CAB_ROW_STEER (R38, R70) -/

/-- The first n rows' fields, as digits of base 16. -/
def steerSum (f : Nat → Nat) (n : Nat) : Nat := ((List.range n).map (fun r => f r * 2 ^ (4 * r))).sum

theorem steerSum_succ (f : Nat → Nat) (n : Nat) : steerSum f (n + 1) = steerSum f n + f n * 16 ^ n := by
  simp [steerSum, List.range_succ, pow_mul]

theorem steerSum_lt {f : Nat → Nat} (hf : ∀ r, f r < 16) (n : Nat) : steerSum f n < 16 ^ n := by
  induction n with
  | zero => exact Nat.one_pos
  | succ n ih =>
    have hdigit : f n * 16 ^ n ≤ 15 * 16 ^ n := Nat.mul_le_mul_right _ (Nat.le_of_lt_succ (hf n))
    rw [steerSum_succ, pow_succ]
    omega

theorem steerSum_digit {f : Nat → Nat} (hf : ∀ r, f r < 16) {n r : Nat} (hr : r < n) : steerSum f n / 16 ^ r % 16 = f r := by
  induction n with
  | zero => exact absurd hr (Nat.not_lt_zero r)
  | succ n ih =>
    rw [steerSum_succ]
    rcases Nat.lt_succ_iff_lt_or_eq.1 hr with hlt | rfl
    · have hpow : f n * 16 ^ n = 16 ^ r * (16 * (f n * 16 ^ (n - r - 1))) := by
        have hsplit : 16 ^ n = 16 ^ r * (16 * 16 ^ (n - r - 1)) := by rw [← pow_succ', ← pow_add]; congr 1; omega
        rw [hsplit]; ring
      rw [hpow, Nat.add_mul_div_left _ _ (by positivity), Nat.add_mul_mod_self_left, ih hlt]
    · rw [Nat.add_mul_div_right _ _ (by positivity), Nat.div_eq_of_lt (steerSum_lt hf r), Nat.zero_add, Nat.mod_eq_of_lt (hf r)]

/-- The row's field as a write of v leaves it: 0xD and 0xE leave it as it was. -/
def steerField (old v r : Nat) : Nat :=
  if bits (4 * r + 3) (4 * r) v = 0xD ∨ bits (4 * r + 3) (4 * r) v = 0xE then bits (4 * r + 3) (4 * r) old else bits (4 * r + 3) (4 * r) v

theorem steer_merged (old v : Nat) {r : Nat} (hr : r < 8) :
    bits (4 * r + 3) (4 * r) (BitVec.ofNat 32 (steerMerge old v)).toNat = steerField old v r := by
  have hdigit : ∀ x r : Nat, bits (4 * r + 3) (4 * r) x = x / 16 ^ r % 16 := fun x r => by
    rw [bits, pow_mul, show 4 * r + 3 + 1 - 4 * r = 4 by omega]; rfl
  have hfield : ∀ r, steerField old v r < 16 := fun r => by
    rw [steerField, hdigit, hdigit]; split <;> exact Nat.mod_lt _ (by decide)
  have hmerge : steerMerge old v = steerSum (steerField old v) 8 := by
    simp only [steerMerge, steerField, steerSum, Bool.or_eq_true, beq_iff_eq]
  have hword : steerSum (steerField old v) 8 < 2 ^ 32 := steerSum_lt hfield 8
  rw [hmerge, BitVec.toNat_ofNat, Nat.mod_eq_of_lt hword, hdigit, steerSum_digit hfield hr]

/-- The use of a physical bench of row r of cabinet c is a logical bench of the same cabinet. -/
theorem physUse_logical {d : Dev} {c r col k : Nat} (hr : r < 8) (hcol : col < 13) (h : d.physUse (256 * c + 13 * r + col) = .logical k) :
    k / 96 = c := by
  have hcab : (256 * c + 13 * r + col) / 256 = c := by omega
  have hrow : (256 * c + 13 * r + col) % 256 / 13 = r := by omega
  have hcol' : (256 * c + 13 * r + col) % 256 % 13 = col := by omega
  simp only [Dev.physUse, hcab, hrow, hcol', beq_iff_eq] at h
  split_ifs at h <;> simp only [PhysUse.logical.injEq] at h <;> omega

/-- Nothing but the benches of cabinet c and the domains of its physical benches differs. -/
structure RowsOnly (c : Nat) (d e : Dev) : Prop where
  rest : { e with benches := d.benches, pwr := d.pwr, free := d.free } = d
  pwr : { e.pwr with doms := d.pwr.doms } = d.pwr
  bench : ∀ j, j / 96 ≠ c → e.bench j = d.bench j
  dom : ∀ id, id / 256 ≠ c ∨ 104 ≤ id % 256 → e.dom id = d.dom id

namespace RowsOnly

variable {c : Nat} {d e : Dev}

theorem refl (c : Nat) (d : Dev) : RowsOnly c d d := ⟨rfl, rfl, fun _ _ => rfl, fun _ _ => rfl⟩

theorem setBench (h : RowsOnly c d e) {k : Nat} (hk : k / 96 = c) (x : Bench) : RowsOnly c d (e.setBench k x) :=
  ⟨h.rest, h.pwr, fun j hj => (Tab.get_set_ne _ _ _ (by rintro rfl; exact hj hk)).trans (h.bench j hj), h.dom⟩

theorem setDom (h : RowsOnly c d e) {id : Nat} (hid : id / 256 = c ∧ id % 256 < 104) (x : Dom) : RowsOnly c d (e.setDom id x) := by
  refine ⟨h.rest, h.pwr, h.bench, fun j hj => (Dev.dom_setDom_ne _ _ fun hjid => ?_).trans (h.dom j hj)⟩
  subst hjid
  omega

/-- What it leaves of the device's other parts. -/
theorem map (h : RowsOnly c d e) {α : Type} (f : Dev → α) (hf : ∀ u v : Dev, f { u with benches := v.benches, pwr := v.pwr, free := v.free } = f u) :
    f e = f d := by
  have hrest := congrArg f h.rest
  rwa [hf] at hrest

theorem fresh (h : RowsOnly c d e) : RowsOnly c d e.fresh := ⟨h.rest, h.pwr, h.bench, h.dom⟩

end RowsOnly

theorem rowsOnly_resteerRow {c r : Nat} (hr : r < 8) {d e : Dev} (old : Nat) (h : RowsOnly c d e) : RowsOnly c d (e.resteerRow c r old) := by
  unfold Dev.resteerRow
  split
  · exact h
  refine List.foldlRecOn _ _ h fun a ha col hcol => ?_
  have hcol : col < 13 := List.mem_range.1 hcol
  have hrow : 13 * r + col < 104 := by omega
  have hid : (256 * c + 13 * r + col) / 256 = c ∧ (256 * c + 13 * r + col) % 256 < 104 := by omega
  dsimp only
  cases huse : a.physUse (256 * c + 13 * r + col) with
  | steeredOut => exact ha.setDom hid _
  | spare => exact ha
  | logical k =>
    have hk := physUse_logical hr hcol huse
    dsimp only
    split_ifs
    · exact ha
    · exact ha.setBench hk _
    · simp only [Dev.gained, hid.2, if_true, huse]
      exact (ha.setBench hk _).fresh.fresh.fresh

/-- A write of CAB_ROW_STEER in a fenced or starting cabinet. -/
theorem writeSteer_effect {c v : Nat} {d : Dev} (hst : (d.cab c).st = 2 ∨ (d.cab c).st = 3) :
    RowsOnly c (d.setCab c { d.cab c with rowSteer := BitVec.ofNat 32 (steerMerge (d.cab c).rowSteer.toNat v) }) (writeSteer c v d).1 := by
  have hopen : ((d.cab c).st == 2 || (d.cab c).st == 3) = true := by rcases hst with h | h <;> rw [h] <;> rfl
  simp only [writeSteer, hopen, if_true]
  exact List.foldlRecOn _ _ (RowsOnly.refl ..) fun a ha r hr => rowsOnly_resteerRow (List.mem_range.1 hr) _ ha

section

variable {path : Path} {c : Cab} {s : State} {v : BitVec 32}

theorem drwModeWrite_stores (h : Reaches s.toDev path (.drwMode c.val)) (hidle : s.planIdle = true) (hv : v.toNat % 4 ≠ 3) :
    ∃ t, exec (.drwModeWrite path c v) s = .next t ∧ Wrote s t (s.setDrw c.val { s.drw c.val with mode := v &&& 3#32 }) := by
  have htaken : Reg.taken (.drwMode c.val) false v.toNat = v.toNat &&& 3 := by simp [Reg.mask, Nat.mod_eq_of_lt v.isLt]
  refine writeCabReg (o := 0x200) h (by omega) (by decide) rfl (by simp [Reg.mask]) rfl rfl ?_
  rw [htaken]
  exact congrArg Prod.fst (writeDrwMode_takes hidle hv)

theorem drwFallbackWrite_stores (h : Reaches s.toDev path (.drwFallback c.val)) (hidle : s.planIdle = true)
    (hv : v.getLsbD 31 = true → bits 23 16 v.toNat ≤ 95) :
    ∃ t, exec (.drwFallbackWrite path c v) s = .next t ∧ Wrote s t (s.setDrw c.val { s.drw c.val with fallback := v &&& 0x87FF0000#32 }) := by
  have htaken : Reg.taken (.drwFallback c.val) false v.toNat = v.toNat &&& 0x87FF0000 := by simp [Reg.mask, Nat.mod_eq_of_lt v.isLt]
  refine writeCabReg (o := 0x20C) h (by omega) (by decide) rfl (by simp [Reg.mask]) rfl rfl ?_
  rw [htaken]
  exact congrArg Prod.fst (writeFallback_takes hidle hv)

theorem drwMirrorWrite_stores (h : Reaches s.toDev path (.drwMirror c.val)) (hst : s.planIdle = true ∨ s.plan.st = .loaded)
    (hv : v.getLsbD 31 = true → v.toNat % 16 < 12 ∧ v.toNat % 16 ≠ c.val) :
    ∃ t, exec (.drwMirrorWrite path c v) s = .next t ∧ Wrote s t (s.setDrw c.val { s.drw c.val with mirror := v &&& 0x8000000F#32 }) := by
  have htaken : Reg.taken (.drwMirror c.val) false v.toNat = v.toNat &&& 0x8000000F := by simp [Reg.mask, Nat.mod_eq_of_lt v.isLt]
  refine writeCabReg (o := 0x214) h (by omega) (by decide) rfl (by simp [Reg.mask]) rfl rfl ?_
  rw [htaken]
  exact congrArg Prod.fst (writeMirror_takes hst hv)

theorem drwClrCounts_wrote (h : Reaches s.toDev path (.drwCtl c.val)) : ∃ t, exec (.drwClrCounts path c) s = .next t ∧
    Wrote s t (s.setDrw c.val { s.drw c.val with poisonWb := 0, checkRmw := 0, yields := 0, staleStage := 0 }) :=
  writeCabReg (o := 0x204) (x := 1) h (by omega) (by decide) rfl (by simp [Reg.mask]) rfl rfl (by simp [Dev.regEffect, Reg.mask, bit, drwClr])

theorem rowSteerWrite_wrote (h : Reaches s.toDev path (.rowSteer c.val)) (hst : (s.cab c.val).st = 2 ∨ (s.cab c.val).st = 3) :
    ∃ t, exec (.rowSteerWrite path c v) s = .next t ∧ Wrote s t (writeSteer c.val v.toNat s.toDev).1 := by
  have htaken : Reg.taken (.rowSteer c.val) false v.toNat = v.toNat := by
    simpa [Reg.mask, Nat.mod_eq_of_lt v.isLt] using Nat.and_two_pow_sub_one_of_lt_two_pow v.isLt
  refine writeCabReg (o := 0) h (by omega) (by decide) rfl (by simp [Reg.mask]) rfl ?_ ?_
  · exact (writeSteer_effect hst).map Dev.journal fun _ _ => rfl
  · rw [htaken]; rfl

end

/-- Settles O34, register by register. -/
theorem drawerRegisters : Obligations.DrawerRegisters := by
  refine fun path c s => ⟨fun hidle v h hv => drwModeWrite_stores h hidle hv, fun hidle v h hv => drwFallbackWrite_stores h hidle hv,
    fun hst v h hv => drwMirrorWrite_stores h hst hv, drwClrCounts_wrote, fun v h hst => ?steer⟩
  obtain ⟨t, ht, hwrote⟩ := rowSteerWrite_wrote (v := v) h hst
  have hrows := writeSteer_effect (v := v.toNat) hst
  have hcab : ∀ j, t.cab j = (s.setCab c.val _).cab j := fun j =>
    (congrArg (fun u : State => u.cab j) hwrote.1).trans (hrows.map (fun u => u.cab j) fun _ _ => rfl)
  have hkept : ({ t with cabs := s.cabs, benches := s.benches, pwr := s.pwr, free := s.free, journal := s.journal } : State) = s :=
    (congrArg (fun u : State => ({ u with cabs := s.cabs, benches := s.benches, pwr := s.pwr, free := s.free } : State)) hwrote.1).trans
      (congrArg (fun u : Dev => ({ s with toDev := u } : State)) (hrows.map (fun u =>
        ({ u with cabs := s.cabs, benches := s.benches, pwr := s.pwr, free := s.free, journal := s.journal } : Dev)) fun _ _ => rfl))
  have htpwr : t.pwr = (writeSteer c.val v.toNat s.toDev).1.pwr := congrArg (fun u : State => u.pwr) hwrote.1
  refine ⟨t, ht, hkept, hwrote.2, fun j hj => ?_, fun j hj => (hwrote.bench j).trans (hrows.bench j hj), ?_, fun id hid => ?_, fun r hr => ?_⟩
  · rw [hcab]; exact Tab.get_set_ne _ _ _ hj
  · rw [htpwr]; exact hrows.pwr
  · rw [Dev.dom, htpwr]; exact hrows.dom id hid
  · rw [hcab, Dev.cab_setCab_self]; exact steer_merged _ _ hr

end Sys2Proof.Machine
end

section
/-! The discard of a step at a bench (R52, R145, R293, R333, R364, R365), and O44. -/

namespace Sys2Proof.Machine

/-- The discard looks at neither the wait nor the trace. -/
theorem discardStep_traced (b : Bench) (step : BitVec 16) (m : Mem) (t : Trace) :
    ({ b with traceMem := m, trace := t, wait := none } : Bench).discardStep step = { b.discardStep step with traceMem := m, trace := t } := by
  cases h : b.st == .running || b.st == .halted <;>
    simp only [Bench.discardStep, Bench.dropMsgs, Bench.restore, h, Bool.false_eq_true, if_true, if_false]

/-- A bench as the discard leaves it. -/
theorem discardStep_fields (b : Bench) (step : BitVec 16) :
    (b.discardStep step).inbox = b.inbox.filter (fun m => !(m.step == step)) ∧ (b.discardStep step).transfers = [] ∧
      (b.discardStep step).fence = none ∧ (b.discardStep step).wait = none ∧ (b.discardStep step).shelf.items = [] ∧
      (b.discardStep step).awaitDiscard = false ∧ (b.discardStep step).mustDiscard = false ∧ (b.discardStep step).st = b.st ∧
      (b.discardStep step).store = b.store := by
  cases h : b.st == .running || b.st == .halted <;>
    simp only [Bench.discardStep, Bench.dropMsgs, Bench.restore, Shelf.flush, h, Bool.false_eq_true, if_true, if_false, and_self]

/-- A bench that is in the step is restored to its checkpoint and waits as if at STEPEND. -/
theorem discardStep_restored {b : Bench} (h : b.st = .running ∨ b.st = .halted) (step : BitVec 16) :
    (b.discardStep step).atStepEnd = true ∧ (b.discardStep step).arch = b.restore.arch := by
  have hin : ((b.dropMsgs (fun m => m.step == step)).st == .running || (b.dropMsgs (fun m => m.step == step)).st == .halted) = true := by
    rcases h with h | h <;> simp [Bench.dropMsgs, h]
  simp only [Bench.dropMsgs] at hin
  simp only [Bench.discardStep, Bench.dropMsgs, hin, if_true, Bench.restore, and_self]

/-- Nothing but benches differs. -/
def BenchesOnly (d e : Dev) : Prop := { e with benches := d.benches } = d

theorem BenchesOnly.map {d e : Dev} (h : BenchesOnly d e) {α : Type} (f : Dev → α) (hf : ∀ u v : Dev, f { u with benches := v.benches } = f u) :
    f e = f d := by
  have hrest := congrArg f h
  rwa [hf] at hrest

theorem BenchesOnly.trans {d e u : Dev} (h : BenchesOnly d e) (h' : BenchesOnly e u) : BenchesOnly d u :=
  (h'.map (fun v => ({ v with benches := d.benches } : Dev)) fun _ _ => rfl).trans h

theorem modBench_rest (d : Dev) (k : Nat) (f : Bench → Bench) : BenchesOnly d (d.modBench k f) := rfl

/-- The wait of a bench ends, where it waits. -/
def Dev.waitCleared (d : Dev) (k : Nat) : Dev :=
  match (d.bench k).wait with
  | some w => d.waitEnds k w.bundle (d.bench k).repIdx
  | none => d

theorem waitCleared_bench (d : Dev) (k : Nat) :
    ∃ m t, (d.waitCleared k).bench k = { d.bench k with traceMem := m, trace := t, wait := none } := by
  cases h : (d.bench k).wait with
  | none => exact ⟨(d.bench k).traceMem, (d.bench k).trace, by simp only [Dev.waitCleared, h]; rw [← h]⟩
  | some w =>
    simp only [Dev.waitCleared, h]
    exact bench_waitEnds_self _ _ h

theorem waitCleared_rest (d : Dev) (k : Nat) : BenchesOnly d (d.waitCleared k) := by
  unfold BenchesOnly
  cases h : (d.bench k).wait with
  | none => simp only [Dev.waitCleared, h]
  | some w => simp only [Dev.waitCleared, Dev.waitEnds, h]; rfl

/-- Where the wait as if at STEPEND is a new one, the trace takes its beginning; `b` is the bench before the discard. -/
def Dev.restartTraced (d : Dev) (k : Nat) (b : Bench) : Dev :=
  if (d.bench k).atStepEnd && !(b.atStepEnd && b.wait.isNone) then d.trace k 6 (d.bench k).oldestIssue 0 11 else d

theorem restartTraced_bench (d : Dev) (k : Nat) (b : Bench) :
    ∃ m t, (d.restartTraced k b).bench k = { d.bench k with traceMem := m, trace := t } := by
  unfold Dev.restartTraced
  split
  · exact bench_trace_self ..
  · exact ⟨_, _, rfl⟩

theorem restartTraced_rest (d : Dev) (k : Nat) (b : Bench) : BenchesOnly d (d.restartTraced k b) := by
  unfold BenchesOnly Dev.restartTraced
  split <;> rfl

/-- BENCH_STEP_DISCARD changes the bench alone: it drops the step, with an entry in the trace. -/
theorem benchStepDiscard_drops {d : Dev} {k : Nat} (h : (d.bench k).mustDiscard = true) :
    BenchesOnly d (benchStepDiscard k d) ∧
      ∃ m t, (benchStepDiscard k d).bench k = { (d.bench k).discardStep (d.step.setWidth 16) with traceMem := m, trace := t } := by
  obtain ⟨m, t, hwait⟩ := waitCleared_bench d k
  have hrest := waitCleared_rest d k
  have hstep : BitVec.ofNat 16 (d.waitCleared k).step.toNat = d.step.setWidth 16 := by
    rw [show (d.waitCleared k).step = d.step from hrest.map _ fun _ _ => rfl, BitVec.ofNat_toNat]
  have hcall : benchStepDiscard k d = ((d.waitCleared k).modBench k (fun b => b.discardStep (d.step.setWidth 16))).restartTraced k (d.bench k) := by
    rw [← hstep]
    simp only [benchStepDiscard, h, if_true]
    rfl
  have hbench : ((d.waitCleared k).modBench k (fun b => b.discardStep (d.step.setWidth 16))).bench k =
      { (d.bench k).discardStep (d.step.setWidth 16) with traceMem := m, trace := t } := by
    rw [Dev.bench_modBench_self, hwait, discardStep_traced]
  obtain ⟨m', t', htraced⟩ := restartTraced_bench ((d.waitCleared k).modBench k (fun b => b.discardStep (d.step.setWidth 16))) k (d.bench k)
  rw [hcall]
  exact ⟨hrest.trans (modBench_rest ..|>.trans (restartTraced_rest ..)), m', t', by rw [htraced, hbench]⟩

/-- Settles O44. -/
theorem benchDiscard_obligation : Obligations.BenchDiscard := by
  intro b s k x hmust hquiet
  obtain ⟨hrest, m, t, hbench⟩ := benchStepDiscard_drops (d := s.toDev) hmust
  have hseq : (benchStepDiscard (benchKey b) s.toDev).seq = s.seq := hrest.map _ fun _ _ => rfl
  have hplan : (benchStepDiscard (benchKey b) s.toDev).plan = s.plan := hrest.map _ fun _ _ => rfl
  have hsettle : benchDiscard (benchKey b) s.toDev = benchStepDiscard (benchKey b) s.toDev :=
    settle_quiet (by rw [QuietSequencer, hseq, hplan]; exact hquiet)
  refine ⟨_, congrArg (done s) hsettle, ?_⟩
  dsimp only
  rw [hbench]
  obtain ⟨hinbox, htransfers, hfence, hwait, hshelf, hawait, hmust', hst, hstore⟩ := discardStep_fields (s.bench (benchKey b)) (s.step.setWidth 16)
  exact ⟨hinbox, htransfers, hfence, hwait, hshelf, hawait, hmust', hst, hstore, fun hin => discardStep_restored hin _⟩

end Sys2Proof.Machine
end

section
/-! What the units do beside the change journal, the plan and the steering of the rows: reads of stacks and sideboards that meet errors
(R348–R355, R362), domains that change their state (R431), and the loss of a cabinet (R371). -/

namespace Sys2Proof.Machine

/-- The change journal, the plan and the steering stay, and no report of a discard is lost. -/
structure Apart (d e : Dev) : Prop where
  journal : e.journal = d.journal
  plan : e.plan = d.plan
  steer : ∀ c, (e.cab c).rowSteer = (d.cab c).rowSteer
  discards : d.discards ⊆ e.discards

namespace Apart

theorem refl (d : Dev) : Apart d d := ⟨rfl, rfl, fun _ => rfl, List.Subset.refl _⟩

variable {d e : Dev}

theorem trans {f : Dev} (h : Apart d e) (k : Apart e f) : Apart d f :=
  ⟨k.journal.trans h.journal, k.plan.trans h.plan, fun c => (k.steer c).trans (h.steer c), fun _ hx => k.discards (h.discards hx)⟩

theorem after {f : Dev} (k : Apart e f) (h : Apart d e) : Apart d f := h.trans k

/-- A change of other parts of the device. -/
theorem same (hj : e.journal = d.journal) (hp : e.plan = d.plan) (hc : e.cabs = d.cabs) (hd : e.discards = d.discards) : Apart d e :=
  ⟨hj, hp, fun c => by rw [Dev.cab, Dev.cab, hc], by rw [hd]; exact List.Subset.refl _⟩

theorem foldl {α : Type} {f : Dev → α → Dev} (hf : ∀ a b, Apart a (f a b)) (l : List α) (a : Dev) : Apart a (l.foldl f a) :=
  foldl_rel refl trans hf l a

/-! ## Records and cabinets -/

theorem unitRecord (d : Dev) (kind c i : Nat) (code : BitVec 16) (n : UnitNote) : Apart d (d.unitRecord kind c i code n) := .same rfl rfl rfl rfl

theorem unitDiscard (d : Dev) (kind c i : Nat) (code : BitVec 16) (n : UnitNote) : Apart d (d.unitDiscard kind c i code n) :=
  ⟨rfl, rfl, fun _ => rfl, List.subset_append_left _ _⟩

theorem telemetry (d : Dev) (kind sensor value : Nat) (record : List Byte) : Apart d (d.telemetry kind sensor value record) := .same rfl rfl rfl rfl

theorem movePlanRoutes (d : Dev) (off : Nat → BitVec 16 → Bool) : Apart d (d.movePlanRoutes off) := .same rfl rfl rfl rfl

theorem mapBenches (d : Dev) (f : Nat → Bench → Bench) : Apart d (d.mapBenches f) := .same rfl rfl rfl rfl

theorem setNet (d : Dev) (net : List Msg) : Apart d { d with net := net } := .same rfl rfl rfl rfl

theorem setCab (d : Dev) {c : Nat} {x : Cabinet} (h : x.rowSteer = (d.cab c).rowSteer) : Apart d (d.setCab c x) := by
  refine ⟨rfl, rfl, fun j => ?_, List.Subset.refl _⟩
  rcases eq_or_ne j c with rfl | hj
  · rw [Dev.cab_setCab_self, h]
  · rw [Dev.cab_setCab_ne _ _ hj]

theorem setCabSt (d : Dev) (c : Nat) (st : BitVec 2) : Apart d (d.setCabSt c st) := by
  simp only [Dev.setCabSt]
  split
  · exact refl d
  · exact (telemetry ..).after (setCab d rfl)

theorem loseCabinet (d : Dev) (c : Nat) (cause : BitVec 16) (chest plain : Bool) : Apart d (d.loseCabinet c cause chest plain) := by
  simp only [Dev.loseCabinet]
  split
  · exact refl d
  · refine (unitDiscard ..).after ((movePlanRoutes ..).after ((setNet ..).after ((mapBenches ..).after ((setCabSt d c 2).trans (setCab _ ?_)))))
    exact ((setCabSt d c 2).steer c).symm

theorem voidFloor (d : Dev) (b : BitVec 8) : Apart d (d.voidFloor b) := by
  obtain ⟨seq, suite, h⟩ := voidFloor_keeps d b
  rw [h]
  exact .same rfl rfl rfl rfl

theorem interrupts (d : Dev) (c : Nat) : Apart d (d.interrupts c) := by
  unfold Dev.interrupts
  split
  · exact voidFloor d 2
  · exact refl d

theorem arrive (d : Dev) (id : Nat) (block : BitVec 16) : Apart d (d.arrive id block) := by
  obtain ⟨p, h⟩ := arrive_pwr d id block
  rw [h]
  exact .same rfl rfl rfl rfl

/-! ## Words that show errors -/

theorem copyWords (d : Dev) (s : Nat) (p : Nat → Bool) : Apart d (d.copyWords s p) := by
  simp only [Dev.copyWords]
  split
  · exact refl d
  · refine (foldl (fun a u => ?_) _ _).after (.same rfl rfl rfl rfl : Apart d (d.setStk s _))
    simp only [Dev.copyWord, Dev.stkLostWord]
    split <;> exact .same rfl rfl rfl rfl

theorem stkError (d : Dev) (s : Nat) (u : Upset) : Apart d (d.stkError s u) := by
  simp only [Dev.stkError, Dev.stkLostWord]
  split
  · exact refl d
  split
  · exact .same rfl rfl rfl rfl
  refine (foldl (fun a c => unitRecord ..) _ _).after ?_
  split
  · refine (interrupts _ _).after ((copyWords _ s _).after ?_)
    split <;> exact .same rfl rfl rfl rfl
  · split <;> exact .same rfl rfl rfl rfl

theorem touchStk (d : Dev) (s x n : Nat) : Apart d (d.touchStk s x n) := by
  simp only [Dev.touchStk, Dev.touchWords]
  split
  · exact refl d
  split
  · exact refl d
  refine foldl (fun a u => ?_) _ _
  split
  · exact (stkError _ s u).after (.same rfl rfl rfl rfl)
  · exact refl a

theorem sbWord (d : Dev) (c : Nat) (u : Upset) : Apart d (d.sbWord c u).1 := by
  simp only [Dev.sbWord]
  split <;> exact .same rfl rfl rfl rfl

theorem sbError (d : Dev) (c : Nat) (u : Upset) : Apart d (d.sbError c u) := by
  simp only [Dev.sbError]
  split
  · exact refl d
  split
  · exact sbWord d c u
  split
  · exact (loseCabinet ..).after ((unitDiscard ..).after (sbWord d c u))
  · exact (interrupts ..).after ((foldl (fun a v => sbWord a c v) _ _).after ((sbWord d c u).trans (.same rfl rfl rfl rfl)))

theorem touchSb (d : Dev) (c x n : Nat) : Apart d (d.touchSb c x n) := by
  simp only [Dev.touchSb, Dev.touchSbWords]
  split
  · exact refl d
  split
  · exact refl d
  refine foldl (fun a u => ?_) _ _
  split
  · exact (sbError _ c u).after (.same rfl rfl rfl rfl)
  · exact refl a

theorem readUnit (d : Dev) (block : BitVec 16) (a n : Nat) : Apart d (d.readUnit block a n).1 := (touchStk ..).after (arrive ..)

/-! ## Domains (R431, Tables 15-4 and 15-7) -/

theorem setSb (d : Dev) (c : Nat) (x : Sideboard) : Apart d (d.setSb c x) := .same rfl rfl rfl rfl

theorem setDom (d : Dev) (id : Nat) (x : Dom) : Apart d (d.setDom id x) := .same rfl rfl rfl rfl

theorem unfill (d : Dev) (u : FillUnit) : Apart d (d.unfill u) := by
  simp only [Dev.unfill, Dev.fillEnd]
  split
  · exact refl d
  cases u <;> dsimp only <;> split <;> exact .same rfl rfl rfl rfl

theorem loseStack (d : Dev) (s ch : Nat) : Apart d (d.loseStack s ch) := (loseCabinet ..).after (unitDiscard ..)

theorem trainStack (d : Dev) (s : Nat) : Apart d (d.trainStack s) := by
  simp only [Dev.trainStack]
  refine (foldl (fun a ch => ?_) _ _).after (.same rfl rfl rfl rfl)
  split_ifs
  · exact (loseStack ..).after (.same rfl rfl rfl rfl)
  · exact .same rfl rfl rfl rfl
  · exact refl a
  · exact (loseStack ..).after (.same rfl rfl rfl rfl)
  · exact .same rfl rfl rfl rfl

/-- A domain of a cabinet goes OFF. -/
theorem lost (d : Dev) {id : Nat} (h : id % 256 < 108) : Apart d (d.lost id) := by
  simp only [Dev.lost, h, if_true]
  split_ifs
  · cases d.physUse id <;> exact .same rfl rfl rfl rfl
  · refine Apart.trans ?_ (setCab _ ?_)
    · exact (unfill ..).after (.same rfl rfl rfl rfl)
    · rfl
  · exact .same rfl rfl rfl rfl
  · exact (unfill ..).after (.same rfl rfl rfl rfl)

theorem gained (d : Dev) (id : Nat) (bad : List Nat) : Apart d (d.gained id bad) := by
  simp only [Dev.gained]
  split_ifs
  · cases d.physUse id <;> exact .same rfl rfl rfl rfl
  · exact .same rfl rfl rfl rfl
  · exact (trainStack ..).after (.same rfl rfl rfl rfl)
  · exact refl d

theorem place (d : Dev) {id : Nat} (h : id % 256 < 108) (st : BitVec 2) (bad : List Nat) : Apart d (d.place id st bad) := by
  simp only [Dev.place]
  split_ifs
  · exact (lost _ h).after (setDom ..)
  · exact (gained ..).after (setDom ..)
  · exact setDom ..

theorem darken (d : Dev) (c : Nat) : Apart d (d.darken c) := by
  simp only [Dev.darken]
  split
  · exact refl d
  refine List.foldlRecOn _ _ (refl d) fun a ha i hi => ha.trans ?_
  have hi : i < 108 := List.mem_range.1 hi
  split
  · exact refl a
  · exact place a (by omega) 0 []

theorem syncDomains (d : Dev) : Apart d d.syncDomains := by
  simp only [Dev.syncDomains]
  refine (foldl (fun a c => darken a c) _ _).after (foldl (fun a c => ?_) _ _)
  refine List.foldlRecOn _ _ (refl a) fun b hb i hi => hb.trans ?_
  have hi : i < 104 := List.mem_range.1 hi
  have hid : (256 * c + i) % 256 < 108 := by omega
  cases (b.dom (256 * c + i)).entering with
  | none =>
    dsimp only
    split
    · exact refl b
    · exact place b hid _ []
  | some e =>
    dsimp only
    split
    · exact place b hid _ []
    · exact refl b

/-! ## The placement of an image (Sequence 2-2) -/

theorem readPlan {d e : Dev} {a n : Nat} {bs : List Byte} (h : d.readPlan a n = some (e, bs)) : Apart d e := by
  simp only [Dev.readPlan] at h
  split at h
  · exact absurd h nofun
  · obtain ⟨rfl, -⟩ := Prod.ext_iff.1 (Option.some.inj h)
    exact readUnit ..

theorem benchOn (d : Dev) (k : Nat) : Apart d (d.benchOn k) := by
  simp only [Dev.benchOn]
  refine Apart.trans ?_ (setDom ..)
  split
  · exact (arrive d _ _).trans (.same rfl rfl rfl rfl)
  · exact arrive d _ _

theorem readReserve (d : Dev) (m : Image) (c prog : Nat) : Apart d (d.readReserve m c prog).1 := (touchSb ..).after (arrive ..)

theorem modBench (d : Dev) (k : Nat) (f : Bench → Bench) : Apart d (d.modBench k f) := .same rfl rfl rfl rfl

theorem placeBench (d : Dev) (m : Image) (e : MapEntry) : Apart d (d.placeBench m e) := by
  have hread := readReserve (d.benchOn e.bench) m (e.bench / 96) e.prog
  simp only [Dev.placeBench]
  generalize (d.benchOn e.bench).readReserve m (e.bench / 96) e.prog = r at hread
  exact (modBench ..).after (hread.after (benchOn ..))

theorem placeInit (d : Dev) (m : Image) (s : Section) : Apart d (d.placeInit m s) := by
  simp only [Dev.placeInit]
  split
  · exact (setSb ..).after (arrive ..)
  · exact modBench ..

theorem placeReserve (d : Dev) (m : Image) (c : Nat) : Apart d (d.placeReserve m c) := by
  simp only [Dev.placeReserve]
  exact (setSb ..).after (arrive ..)

theorem placeRegions (d : Dev) (img : List Byte) (c : Nat) : Apart d (d.placeRegions img c) := by
  refine foldl (fun a n => ?_) _ _
  split
  · simp only [writeAow]
    split_ifs <;> exact .same rfl rfl rfl rfl
  · exact refl a

theorem idleOthers (d : Dev) (m : Image) : Apart d (d.idleOthers m) := by
  simp only [Dev.idleOthers]
  refine foldl (fun a c => ?_) _ _
  refine List.foldlRecOn _ _ (refl a) fun b hb i hi => hb.trans ?_
  have hi : i < 104 := List.mem_range.1 hi
  have hid : (256 * c + i) % 256 < 108 := by omega
  split
  · split
    · exact refl b
    · refine Apart.trans ?_ (place _ hid _ [])
      split
      · exact modBench ..
      · exact refl b
  · exact place b hid _ []

end Apart

end Sys2Proof.Machine
end

section
/-! The spare of a row takes over from a failed bench, or the cabinet is lost (R38, R39, R371), and O45. -/

namespace Sys2Proof.Machine

theorem Apart.syncRow (d : Dev) (c r : Nat) : Apart d (d.syncRow c r) := foldl (fun _ _ => setDom ..) _ _

theorem Apart.restartBench (d : Dev) (k : Nat) : Apart d (d.restartBench k) := by
  simp only [Dev.restartBench]
  split
  · exact .same rfl rfl rfl rfl
  split
  · exact .same rfl rfl rfl rfl
  · refine (modBench ..).after ((foldl (fun a x => ?_) _ _).after ((placeBench ..).after (.same rfl rfl rfl rfl)))
    split
    · exact refl a
    · exact placeInit ..

theorem Apart.floorCheck (d : Dev) : Apart d d.floorCheck := by
  obtain ⟨doms, seq, suite, h⟩ := (floorMarked_floorCheck d).dev
  rw [h]
  exact .same rfl rfl rfl rfl

/-- The field written is the one read back. -/
theorem steer_setSteer (d : Dev) (c : Nat) {r f : Nat} (hr : r < 8) (hf : f < 16) : ((d.setSteer c r f).cab c).steer r = f := by
  have hw := (d.cab c).rowSteer.isLt
  simp only [Dev.setSteer, Dev.cab_setCab_self, Cabinet.steer, BitVec.toNat_ofNat, bits]
  generalize (d.cab c).rowSteer.toNat = w at hw
  interval_cases r <;> simp <;> omega

/-- The physical column of a bench whose row has not used its spare. -/
theorem physColOf_unsteered {d : Dev} {k : Nat} (h : (d.cab (k / 96)).steer (k % 96 / 12) = 0xF) : d.physColOf k = k % 96 % 12 := by
  simp [Dev.physColOf, physCol, h]

/-- The record and the discard of a bench that failed lastingly. -/
theorem benchLost_cab (d : Dev) (k j : Nat) : (d.benchLost k).cab j = d.cab j := Dev.cab_unitDiscard ..

theorem benchLost_discards (d : Dev) (k : Nat) : (d.benchLost k).discards = d.discards ++ [⟨fltBenchLost, d.step.setWidth 16⟩] := by
  rw [← BitVec.ofNat_toNat]
  rfl

theorem takeSpare_used {d : Dev} {k : Nat} (hlive : d.fenced (k / 96) = false) (hused : (d.cab (k / 96)).steer (k % 96 / 12) ≠ 0xF) (ok : Bool) :
    ((d.takeSpare k ok).cab (k / 96)).st = 2 ∧ ((d.takeSpare k ok).cab (k / 96)).cause = fltBenchLost ∧ d.discards ⊆ (d.takeSpare k ok).discards := by
  have htake : d.takeSpare k ok = d.loseCabinet (k / 96) fltBenchLost true true := if_pos (bne_iff_ne.2 hused)
  obtain ⟨hfenced, hcause, -, -, hdiscards⟩ := loseCabinet_loses fltBenchLost true true hlive
  rw [htake]
  exact ⟨beq_iff_eq.1 hfenced, hcause, hdiscards⟩

theorem takeSpare_free {d : Dev} {k : Nat} (hspare : (d.cab (k / 96)).steer (k % 96 / 12) = 0xF) :
    ((d.takeSpare k true).cab (k / 96)).steer (k % 96 / 12) = d.physColOf k ∧ d.discards ⊆ (d.takeSpare k true).discards := by
  have hcol : d.physColOf k < 16 := by rw [physColOf_unsteered hspare]; omega
  have hrow : k % 96 / 12 < 8 := by omega
  let e : Dev := { d with boot := { d.boot with selftest := selftestOf [] } }
  have hkept : Apart (e.setSteer (k / 96) (k % 96 / 12) (d.physColOf k)) (d.takeSpare k true) := by
    have hfree : ((d.cab (k / 96)).steer (k % 96 / 12) != 0xF) = false := bne_eq_false_iff_eq.2 hspare
    simp only [Dev.takeSpare, hfree, Bool.not_true, Bool.false_eq_true, if_false]
    exact (Apart.floorCheck _).after ((Apart.setDom ..).after ((Apart.syncRow ..).after (Apart.restartBench ..)))
  refine ⟨?_, hkept.discards⟩
  rw [Cabinet.steer, hkept.steer]
  exact steer_setSteer e _ hrow hcol

/-- Settles O45, by whether the row has used its spare. -/
theorem spareSwap_obligation : Obligations.SpareSwap := by
  intro b s k c r hlive hon
  have hswap : ∀ ok, spareSwap s.toDev k ok = (s.benchLost k).takeSpare k ok := fun ok => by
    rw [spareSwap, hlive, beq_eq_false_iff_ne.2 hon]; rfl
  have hcab : ∀ j, (s.benchLost k).cab j = s.cab j := benchLost_cab s.toDev k
  have hlive' : (s.benchLost k).fenced c = false := hlive
  have hreported : (⟨fltBenchLost, s.step.setWidth 16⟩ : Discard) ∈ (s.benchLost k).discards := by
    rw [benchLost_discards]; exact List.mem_append_right _ (List.mem_singleton.2 rfl)
  refine ⟨fun hused ok => ⟨_, congrArg (done s) (hswap ok), ?_⟩, fun hspare => ⟨_, congrArg (done s) (hswap true), ?_⟩⟩
  · obtain ⟨hst, hcause, hdiscards⟩ := takeSpare_used hlive' (by rw [hcab]; exact hused) ok
    exact ⟨hst, hcause, hdiscards hreported⟩
  · obtain ⟨hsteer, hdiscards⟩ := takeSpare_free (d := s.benchLost k) (k := k) (by rw [hcab]; exact hspare)
    exact ⟨hsteer, hdiscards hreported⟩

end Sys2Proof.Machine
end

section
/-! A read of BENCH_FAULT (R66, R104, R337, R412), and O32. -/

namespace Sys2Proof.Machine

/-! ## Nothing of the host is on its way (R337) -/

theorem performHost_quiet {d : Dev} (h : HostQuiet d) : d.performHost = d := by
  have hheld : ∀ s, ∀ w ∈ (d.stk s).held, w.owner ≠ Who.host.owner := fun s =>
    Tab.get_all (P := fun x : Stack => ∀ w ∈ x.held, w.owner ≠ Who.host.owner) (fun _ hw => absurd hw List.not_mem_nil) h.2 s
  refine List.foldl_fixed' (fun s => if_neg ?_) _
  simp only [List.any_eq_true, Bool.and_eq_true, beq_iff_eq]
  rintro ⟨w, hw, howner, -⟩
  exact hheld s w hw howner

theorem hostHeld_quiet {d : Dev} (h : HostQuiet d) : d.hostHeld = false := by
  simp only [Dev.hostHeld, List.any_eq_false, Bool.and_eq_true, List.any_eq_true, beq_iff_eq]
  rintro p hp ⟨-, w, hw, howner, -⟩
  exact h.2 p hp w hw howner

/-! ## The read -/

/-- The device, its register read. -/
theorem regRead_benchFault {d : Dev} {path : Path} {b : BenchId} (h : Reaches d path (.benchFault (benchKey b))) :
    d.regRead path (benchReg (benchKey b) 8) false = (benchFaultRead (benchKey b) d,
      b2n (d.bench (benchKey b)).faultOverrun * 2 ^ 31 + (d.bench (benchKey b)).faultCode.toNat) := by
  obtain ⟨-, hserved, harrive, -⟩ := h
  have hoff : benchReg (benchKey b) 8 / 2 ^ 26 = 0 := Nat.div_eq_of_lt (benchReg_lt b (by decide))
  have hword : regWord (benchReg (benchKey b) 8) = some (.benchFault (benchKey b), 0) := by
    simp only [regWord, regAt_bench b (show 8 < 0x100 by decide)]; rfl
  have hcode := (d.bench (benchKey b)).faultCode.isLt
  have hover : b2n (d.bench (benchKey b)).faultOverrun < 2 := by cases (d.bench (benchKey b)).faultOverrun <;> decide
  have hvalue : d.regValue (.benchFault (benchKey b)) >>> 0 % 2 ^ 32 =
      b2n (d.bench (benchKey b)).faultOverrun * 2 ^ 31 + (d.bench (benchKey b)).faultCode.toNat := by
    rw [regValue_served hserved, Nat.shiftRight_zero]
    simp only [Dev.regRaw, readBenchFault]
    exact Nat.mod_eq_of_lt (by omega)
  simp only [Dev.regRead, hoff, bne_self_eq_false, Bool.false_eq_true, Bool.not_false, if_true, if_false, Dev.regRead32, hword, harrive, hvalue,
    Dev.regTouch, hserved]

/-- Settles O32, by the path. -/
theorem faultRegisterRead : Obligations.FaultRegisterRead := by
  refine fun b s => ⟨fun h hquiet => ?host, fun h => ?side⟩
  case host =>
    have hread := regRead_benchFault h
    have hprep : s.hostPrep (.regRead (benchReg (benchKey b) 8)) = s.toDev := performHost_quiet hquiet
    have hnow := Dev.hostArrives_now (a := .regRead (benchReg (benchKey b) 8)) hquiet.1 (by rw [hprep]; exact hostHeld_quiet hquiet)
    refine congrArg (done s) ?_
    simp only [readReg32, h.1, Bool.not_true, Bool.false_eq_true, if_false]
    rw [hnow, hprep]
    have hdone : ∀ bs, (HostCpl.data bs false == HostCpl.abort) = false := fun _ => rfl
    simp only [Dev.hostNow, hread, Dev.complete, hdone, Bool.or_false]
    rfl
  case side =>
    have hread := regRead_benchFault h
    refine congrArg (done s) ?_
    simp only [readReg32, h.1, Bool.not_true, Bool.false_eq_true, if_false, hread]
    rfl

end Sys2Proof.Machine
end

section
/-! A message for the host mailbox (R54–R56, R433), and O39. -/

namespace Sys2Proof.Machine

/-! ## What an arrival at ED0's core leaves -/

/-- An arrival ends an entry; it turns no domain on or off. -/
theorem domOn_arrive_any (d : Dev) (id : Nat) (block : BitVec 16) (j : Nat) : (d.arrive id block).domOn j = d.domOn j := by
  unfold Dev.arrive
  dsimp only
  split
  · next h =>
    simp only [Bool.and_eq_true] at h
    rcases eq_or_ne j id with rfl | hj
    · simp only [Dev.domOn, Dev.dom_setDom_self]; exact h.1.symm
    · simp only [Dev.domOn, Dev.dom_setDom_ne _ _ hj]
  · rfl

theorem ringOk_arrive (d : Dev) (id : Nat) (block : BitVec 16) (a n : Nat) : (d.arrive id block).ringOk a n = d.ringOk a n := by
  have hon := domOn_arrive_any d id block
  obtain ⟨p, hp⟩ := arrive_pwr d id block
  rw [hp] at hon ⊢
  simp only [Dev.ringOk, Dev.stkRefusal, hon]
  rfl

theorem dom_arrive_aborts {d : Dev} {id : Nat} (block : BitVec 16) (hon : d.domOn id = true) (hentering : (d.dom id).entering.isSome = true) :
    (d.arrive id block).dom id = { d.dom id with entering := none, aborted := satInc16 (d.dom id).aborted, lastRefuser := block } := by
  have hst : (d.dom id).st = 1 := beq_iff_eq.1 hon
  simp only [Dev.arrive, hst, hentering, beq_self_eq_true, Bool.and_self, if_true, Dev.dom_setDom_self]

theorem dom_arrive_ne {d : Dev} {id j : Nat} (block : BitVec 16) (h : j ≠ id) : (d.arrive id block).dom j = d.dom j := by
  unfold Dev.arrive
  dsimp only
  split
  · exact Dev.dom_setDom_ne _ _ h
  · rfl

/-! ## The record in the ring (R54, R55) -/

/-- The mailbox with its record of m in place: the units of the record in the ring, and the tail moved on. -/
def Dev.mailed (d : Dev) (m : Msg) : Dev :=
  let h := d.hmb
  let us := mailRecord m
  let d := (List.range us.length).foldl (fun d i =>
    let u := us.getD i ([], false, false)
    d.putUnit (ringAddr h.base + 64 * ((h.tail.toNat + i) % 2 ^ ringLog2 h.base)) u.1 u.2.1 u.2.2) d
  let d := { d with hmb := { h with tail := h.tail + BitVec.ofNat 32 us.length } }
  if bit 2 h.ctl.toNat then d.interrupt (BitVec.ofNat 11 (bits 26 16 h.ctl.toNat)) else d

/-- Whether the mailbox takes a record of m. -/
def Dev.mailFits (d : Dev) (m : Msg) : Bool :=
  bit 0 d.hmb.ctl.toNat && decide ((d.hmb.tail - d.hmb.head).toNat + (mailRecord m).length ≤ 2 ^ ringLog2 d.hmb.base) &&
    d.ringOk (ringAddr d.hmb.base) (64 * 2 ^ ringLog2 d.hmb.base)

/-- The message that leaves the network at the mailbox. -/
def Dev.mail (d : Dev) (m : Msg) : Dev :=
  if d.mailFits m then d.mailed m else { d with hmb := { d.hmb with dropped := satInc16 d.hmb.dropped } }

theorem length_mailRecord (m : Msg) : (mailRecord m).length = (m.payload.length + 63) / 64 + 1 := by simp [mailRecord]

/-- ED0's core is no stack's domain: the writes of the ring leave it and the network. -/
theorem putUnit_beside (d : Dev) (a : Nat) (bytes : List Byte) (lo hi : Bool) :
    (d.putUnit a bytes lo hi).net = d.net ∧ (d.putUnit a bytes lo hi).dom ed0Dom = d.dom ed0Dom := by
  have hdom : ed0Dom ≠ stkDom (bits 43 39 a) := by simp only [ed0Dom, stkDom]; omega
  exact ⟨arrive_net .., dom_arrive_ne _ hdom⟩

theorem mailed_fields (d : Dev) (m : Msg) : (d.mailed m).net = d.net ∧ (d.mailed m).dom ed0Dom = d.dom ed0Dom ∧
    (d.mailed m).hmb = { d.hmb with tail := d.hmb.tail + BitVec.ofNat 32 ((m.payload.length + 63) / 64 + 1) } := by
  have hput (us : List (List Byte × Bool × Bool)) (at_ : Nat → Nat) (l : List Nat) :
      (l.foldl (fun d i => let u := us.getD i ([], false, false); d.putUnit (at_ i) u.1 u.2.1 u.2.2) d).net = d.net ∧
        (l.foldl (fun d i => let u := us.getD i ([], false, false); d.putUnit (at_ i) u.1 u.2.1 u.2.2) d).dom ed0Dom = d.dom ed0Dom :=
    foldl_rel (R := fun a b : Dev => b.net = a.net ∧ b.dom ed0Dom = a.dom ed0Dom) (fun _ => ⟨rfl, rfl⟩)
      (fun h k => ⟨k.1.trans h.1, k.2.trans h.2⟩) (fun a i => putUnit_beside a _ _ _ _) l d
  obtain ⟨hnet, hdom⟩ := hput (mailRecord m) (fun i => ringAddr d.hmb.base + 64 * ((d.hmb.tail.toNat + i) % 2 ^ ringLog2 d.hmb.base))
    (List.range (mailRecord m).length)
  simp only [Dev.mailed, Dev.interrupt, length_mailRecord]
  rw [length_mailRecord] at hnet hdom
  split_ifs <;> exact ⟨hnet, hdom, rfl⟩

theorem dom_mail (d : Dev) (m : Msg) : (d.mail m).dom ed0Dom = d.dom ed0Dom := by
  unfold Dev.mail
  split
  · exact (mailed_fields d m).2.1
  · rfl

/-! ## The arrival -/

/-- The first message from src that is bound for the mailbox. -/
def Dev.toMailbox (d : Dev) (src : BitVec 18) : Option Msg :=
  d.net.find? (fun m => m.src == src && epVal m.target == 0xFE && epDev m.target == d.number.toNat)

theorem hostMailboxRecord_off {d : Dev} {src : BitVec 18} {m : Msg} (hm : d.toMailbox src = some m) (hoff : d.domOn ed0Dom = false) :
    hostMailboxRecord d src = d := by
  have hidle : d.arrive ed0Dom (d.senderBlock src) = d := by
    have hst : ((d.dom ed0Dom).st == 1) = false := hoff
    simp only [Dev.arrive, hst, Bool.false_and, Bool.false_eq_true, if_false]
  rw [Dev.toMailbox] at hm
  simp only [hostMailboxRecord, hm, hidle, hoff, Bool.not_false, if_true]

/-- A message that does not fit, or meets no usable ring, is counted. -/
theorem mail_eq (d : Dev) (m : Msg) : d.mail m =
    if !bit 0 d.hmb.ctl.toNat || decide (2 ^ ringLog2 d.hmb.base < (d.hmb.tail - d.hmb.head).toNat + (mailRecord m).length) ||
      !d.ringOk (ringAddr d.hmb.base) (64 * 2 ^ ringLog2 d.hmb.base)
    then { d with hmb := { d.hmb with dropped := satInc16 d.hmb.dropped } } else d.mailed m := by
  have hfits : (!bit 0 d.hmb.ctl.toNat || decide (2 ^ ringLog2 d.hmb.base < (d.hmb.tail - d.hmb.head).toNat + (mailRecord m).length) ||
      !d.ringOk (ringAddr d.hmb.base) (64 * 2 ^ ringLog2 d.hmb.base)) = !d.mailFits m := by
    simp only [Dev.mailFits, Bool.not_and, ← decide_not, Nat.not_le]
  rw [hfits, Dev.mail]
  cases d.mailFits m <;> rfl

theorem hostMailboxRecord_on {d : Dev} {src : BitVec 18} {m : Msg} (hm : d.toMailbox src = some m) (hon : d.domOn ed0Dom = true) :
    hostMailboxRecord d src = ({ d.arrive ed0Dom (d.senderBlock src) with net := d.net.erase m } : Dev).mail m := by
  rw [Dev.toMailbox] at hm
  rw [← arrive_net d ed0Dom (d.senderBlock src), mail_eq]
  simp only [hostMailboxRecord, hm, domOn_arrive _ hon, Bool.not_true, Bool.false_eq_true, if_false]
  rfl

theorem hmb_arrive (d : Dev) (id : Nat) (block : BitVec 16) : (d.arrive id block).hmb = d.hmb := by
  obtain ⟨p, hp⟩ := arrive_pwr d id block
  rw [hp]

/-- Settles O39, by the state of ED0's core and of the mailbox. -/
theorem mailbox : Obligations.Mailbox := by
  intro src s m n used size hm
  have hm : s.toMailbox src = some m := hm
  refine ⟨fun hoff => congrArg (done s) (hostMailboxRecord_off hm hoff), fun hon hentering => ?aborts, fun hon hidle hfull => ?drops,
    fun hon henabled hroom hring => ?writes⟩
  all_goals refine ⟨_, congrArg (done s) (hostMailboxRecord_on hm hon), ?_⟩
  case aborts => exact (dom_mail _ m).trans (dom_arrive_aborts _ hon hentering)
  case drops =>
    have hfits : ({ s.toDev with net := s.net.erase m } : Dev).mailFits m = false := by
      simp only [Dev.mailFits, length_mailRecord, bit_toNat]
      rcases hfull with hdisabled | hover
      · simp only [hdisabled, Bool.false_and]
      · have hroom : ¬(s.hmb.tail - s.hmb.head).toNat + ((m.payload.length + 63) / 64 + 1) ≤ 2 ^ ringLog2 s.hmb.base := Nat.not_le.2 hover
        simp only [hroom, decide_false, Bool.and_false, Bool.false_and]
    rw [arrive_idle _ hidle, Dev.mail, hfits]
    exact ⟨rfl, rfl, rfl⟩
  case writes =>
    have hring' := (ringOk_arrive s.toDev ed0Dom (s.senderBlock src) (ringAddr s.hmb.base) (64 * size)).trans hring
    have hfits : ({ s.arrive ed0Dom (s.senderBlock src) with net := s.net.erase m } : Dev).mailFits m = true := by
      simp only [Dev.mailFits, length_mailRecord, bit_toNat, hmb_arrive]
      rw [henabled, decide_eq_true hroom]
      exact hring'
    rw [Dev.mail, hfits, if_pos rfl]
    obtain ⟨hnet, -, hhmb⟩ := mailed_fields ({ s.arrive ed0Dom (s.senderBlock src) with net := s.net.erase m } : Dev) m
    exact ⟨hnet, hhmb.trans (by simp only [hmb_arrive]; rfl)⟩

end Sys2Proof.Machine
end

section
/-! What the sequencer, its records and the words of the leader do beside the change journal, the plan and the steering (R237, R240, R335, R365). -/

namespace Sys2Proof.Machine
namespace Apart

variable {d e : Dev}

theorem tell (d : Dev) (n : BitVec 48) (t : FollowerTell) : Apart d (d.tell n t) := .same rfl rfl rfl rfl

theorem tellHeld (d : Dev) : Apart d d.tellHeld := by
  unfold Dev.tellHeld
  split <;> exact .same rfl rfl rfl rfl

theorem tellActed (d : Dev) : Apart d d.tellActed := by
  unfold Dev.tellActed
  split <;> exact .same rfl rfl rfl rfl

theorem abandonBare (d : Dev) : Apart d d.abandonBare := by
  unfold Dev.abandonBare
  split
  · split
    · exact refl d
    · dsimp only
      split <;> exact .same rfl rfl rfl rfl
  · exact refl d

theorem noteHalt (d : Dev) : Apart d d.noteHalt := by
  unfold Dev.noteHalt
  split
  · exact abandonBare d
  · exact refl d

/-! ## Records (R237, R239) -/

theorem setStk (d : Dev) (s : Nat) (x : Stack) : Apart d (d.setStk s x) := .same rfl rfl rfl rfl

theorem putUnit (d : Dev) (a : Nat) (bytes : List Byte) (lo hi : Bool) : Apart d (d.putUnit a bytes lo hi) := (setStk ..).after (arrive ..)

theorem setSeq (d : Dev) (seq : Seq) : Apart d { d with seq := seq } := .same rfl rfl rfl rfl

theorem setSuiteSeq (d : Dev) (suite : Suite) (seq : Seq) : Apart d { d with suite := suite, seq := seq } := .same rfl rfl rfl rfl

theorem interrupt (d : Dev) (vector : BitVec 11) : Apart d (d.interrupt vector) := by
  unfold Dev.interrupt
  split <;> exact .same rfl rfl rfl rfl

theorem writeRecord (d : Dev) (r : SeqRec) : Apart d (d.writeRecord r) := by
  simp only [Dev.writeRecord]
  split
  · exact (interrupt ..).after ((setSeq ..).after (foldl (fun _ _ => putUnit ..) _ _))
  · exact (setSeq ..).after (foldl (fun _ _ => putUnit ..) _ _)

theorem writeRecords (rs : List SeqRec) (d : Dev) : Apart d (d.writeRecords rs) := by
  induction rs generalizing d with
  | nil => exact setSeq ..
  | cons r rs ih =>
    simp only [Dev.writeRecords]
    split
    · exact (ih _).after (writeRecord d r)
    · exact setSeq ..

theorem flush (d : Dev) : Apart d d.flush := by
  unfold Dev.flush
  split
  · exact refl d
  · exact (tellActed _).after (writeRecords ..)

/-! ## The start of a step (R246, R327) -/

theorem applyRestore (d : Dev) : Apart d d.applyRestore := by
  simp only [Dev.applyRestore]
  split <;> exact .same rfl rfl rfl rfl

theorem writeSlots (d : Dev) (table : List Byte) : Apart d (d.writeSlots table) := by
  refine foldl (fun a c => ?_) _ _
  dsimp only
  split
  · exact (setSb ..).after (arrive ..)
  · exact arrive ..

theorem sendTables (d : Dev) (n template : Nat) (table : List Byte) : Apart d (d.sendTables n template table) := by
  simp only [Dev.sendTables]
  split <;> exact .same rfl rfl rfl rfl

theorem setBench (d : Dev) (k : Nat) (x : Bench) : Apart d (d.setBench k x) := .same rfl rfl rfl rfl

theorem trace (d : Dev) (k kind : Nat) (iss : Issue) (peer data : Nat) : Apart d (d.trace k kind iss peer data) := modBench ..

theorem waitEnds (d : Dev) (k : Nat) (bd : Bundle) (idx : Nat) : Apart d (d.waitEnds k bd idx) := by
  simp only [Dev.waitEnds]
  split
  · exact refl d
  · exact (modBench ..).after (trace ..)

theorem retire (d : Dev) (k : Nat) (bd : Bundle) (nextPc : Nat) : Apart d (d.retire k bd nextPc) := by
  have hbench : Apart d (d.retireBench k bd nextPc) := by
    simp only [Dev.retireBench]
    exact (modBench ..).after ((trace ..).after (modBench ..))
  simp only [Dev.retire]
  split
  · exact (noteHalt _).after hbench
  · exact hbench

theorem release (d : Dev) (k : Nat) : Apart d (d.release k) := by
  simp only [Dev.release]
  refine (modBench ..).after ?_
  split
  · exact setBench ..
  · exact (retire ..).after ((modBench ..).after (waitEnds ..))
  · exact (modBench ..).after (trace ..)
  · exact refl d

theorem begin_ (d : Dev) (n template : Nat) (table : List Byte) (run : StepRun) : Apart d (d.begin_ n template table run) := by
  simp only [Dev.begin_]
  refine (foldl (fun a k => release a k) _ _ : Apart _ (Dev.releaseAll _)).after ((sendTables ..).after ((writeSlots ..).after ?_))
  exact .same rfl rfl rfl rfl

/-! ## The decision on a step (R233, R251) -/

theorem drainDrawerPort (d : Dev) (c : Nat) : Apart d (d.drainDrawerPort c) := by
  simp only [Dev.drainDrawerPort]
  split
  · exact refl d
  · refine (foldl (fun a w => ?_) _ _).after (setSb ..)
    simp only [Dev.performDrawerWrite]
    split
    · exact (unitDiscard ..).after (setSb ..)
    · exact setSb ..

theorem closeEntry (d : Dev) (c : Nat) (commit : Bool) (off : Nat) : Apart d (d.closeEntry c commit off) :=
  (setSb ..).after ((drainDrawerPort ..).after (drainDrawerPort d c))

theorem setDrw (d : Dev) (c : Nat) (x : Drawer) : Apart d (d.setDrw c x) := .same rfl rfl rfl rfl

theorem closeMirrors (d : Dev) (c : Nat) (commit : Bool) (n : BitVec 16) : Apart d (d.closeMirrors c commit n) := by
  refine (setDrw ..).after (foldl (fun a j => ?_) _ _)
  dsimp only
  split
  · exact refl a
  · exact (setDrw ..).after (foldl (fun b o => closeEntry b j commit o) _ _)

theorem sendDecision (d : Dev) (commit : Bool) : Apart d (d.sendDecision commit) := by
  have hcab : ∀ n : BitVec 16, ∀ a c, Apart a (if a.fenced c || !a.domOn (sbDom c) then a.closeMirrors c commit n
      else a.setDrw c { a.drw c with action := some (commit, n) }) := fun n a c => by
    split
    · exact closeMirrors ..
    · exact setDrw ..
  simp only [Dev.sendDecision]
  split
  · split
    · exact (setSuiteSeq ..).after (foldl (hcab _) _ _)
    · exact (setSeq ..).after (foldl (hcab _) _ _)
  · refine (foldl (fun a k => modBench ..) _ _).after ?_
    split
    · exact (setSuiteSeq ..).after (foldl (hcab _) _ _)
    · exact (setSeq ..).after (foldl (hcab _) _ _)

/-! ## The leader's words at a follower (R237) -/

theorem heedWord (d : Dev) : Apart d d.heedWord := by
  simp only [Dev.heedWord]
  split
  · exact refl d
  split
  · split
    · exact refl d
    · exact (voidFloor ..).after ((begin_ ..).after ((applyRestore _).after (setSeq ..)))
  · split_ifs
    · exact (flush _).after (setSeq ..)
    · exact setSeq ..
    · exact setSeq ..
    · exact refl d
    · exact (flush _).after ((applyRestore _).after ((sendDecision ..).after (setSeq ..)))

theorem heedLeader (d : Dev) : Apart d d.heedLeader := foldl (fun a _ => heedWord a) _ _

end Apart
end Sys2Proof.Machine
end

section
/-! BENCH_CTL (R57, R58, R63, R64, R365, R473, R516), and O29. -/

namespace Sys2Proof.Machine

/-- A register of action bits alone reads 0. -/
theorem regValue_benchCtl (d : Dev) (k : Nat) : d.regValue (.benchCtl k) = 0 := by
  simp only [Dev.regValue, Dev.regRaw, ite_self]

/-! One action bit alone, and whether it is applied. -/

theorem writeBenchCtl_halt (k : Nat) (d : Dev) : writeBenchCtl k 1 d = (benchHaltReq k d, (d.bench k).st == .running) := rfl
theorem writeBenchCtl_resume (k : Nat) (d : Dev) : writeBenchCtl k 2 d = (benchResume k d, (d.bench k).st == .halted) := rfl
theorem writeBenchCtl_clearFault (k : Nat) (d : Dev) : writeBenchCtl k 4 d = (benchClearFault k d, (d.bench k).st == .faulted) := rfl
theorem writeBenchCtl_flush (k : Nat) (d : Dev) :
    writeBenchCtl k 8 d = (benchInboxFlush k d, (d.bench k).st == .halted || (d.bench k).st == .faulted) := rfl
theorem writeBenchCtl_clear (k : Nat) (d : Dev) : writeBenchCtl k 16 d = (benchClrCounts k d, true) := rfl

section

variable {path : Path} {b : BenchId} {s : State}

/-- A write of one action bit: its effect, the words of the leader that waited, and the entry of the change journal. -/
theorem benchCtl_wrote {v : Nat} {e : Dev} {applied : Bool} (h : Reaches s.toDev path (.benchCtl (benchKey b))) (hv : v < 32)
    (heffect : writeBenchCtl (benchKey b) v s.toDev = (e, applied)) (hapart : Apart s.toDev e) :
    ∃ t, done s (writeReg s.toDev path (benchReg (benchKey b) 0) false v) = .next t ∧ Wrote s t e.heedLeader ∧
      Journalled s t path applied false (benchReg (benchKey b) 0) 0 v := by
  have htaken : v % 2 ^ 32 &&& 0x1F = v := by rw [Nat.and_two_pow_sub_one_eq_mod _ 5]; omega
  have heff : s.regEffect path (.benchCtl (benchKey b)) (Reg.taken (.benchCtl (benchKey b)) false v) (Config.startUp s.free) =
      (e.heedLeader, applied) := by
    have htaken' : Reg.taken (.benchCtl (benchKey b)) false v = v := by simpa [Reg.mask] using htaken
    rw [htaken', Dev.regEffect, heffect]
  obtain ⟨t, ht, hwrote, hj⟩ := writeReg_journalled h (benchReg_lt b (o := 0) (by decide)) ((regAt_bench b (by decide)).trans rfl) (by simp [Reg.mask]) rfl
    heff (hapart.trans (Apart.heedLeader e)).journal
  refine ⟨t, ht, hwrote, ?_⟩
  simp only [regValue_benchCtl, Nat.zero_mod, Nat.zero_or, accessBits, Bool.false_eq_true, if_false, Reg.mask, htaken] at hj
  rwa [Nat.mod_eq_of_lt (by omega)] at hj

variable (h : Reaches s.toDev path (.benchCtl (benchKey b)))
include h

theorem haltReq_wrote {e : Dev} (hst : (s.bench (benchKey b)).st = .running) (heffect : benchHaltReq (benchKey b) s.toDev = e)
    (hapart : Apart s.toDev e) : ∃ t, exec (.haltReq path b) s = .next t ∧ Wrote s t e.heedLeader ∧
      Journalled s t path true false (benchReg (benchKey b) 0) 0 1 :=
  benchCtl_wrote h (by decide) (by rw [writeBenchCtl_halt, heffect, hst]; rfl) hapart

theorem resume_wrote : ∃ t, exec (.resume path b) s = .next t ∧ Wrote s t (benchResume (benchKey b) s.toDev).heedLeader ∧
    Journalled s t path ((s.bench (benchKey b)).st == .halted) false (benchReg (benchKey b) 0) 0 2 := by
  refine benchCtl_wrote h (by decide) (writeBenchCtl_resume ..) ?_
  simp only [benchResume]
  split <;> exact .same rfl rfl rfl rfl

theorem clearFault_wrote : ∃ t, exec (.clearFault path b) s = .next t ∧ Wrote s t (benchClearFault (benchKey b) s.toDev).heedLeader ∧
    Journalled s t path ((s.bench (benchKey b)).st == .faulted) false (benchReg (benchKey b) 0) 0 4 := by
  refine benchCtl_wrote h (by decide) (writeBenchCtl_clearFault ..) ?_
  simp only [benchClearFault]
  split
  · exact (Apart.tellHeld _).after (Apart.setBench ..)
  · exact .refl _

theorem inboxFlush_wrote : ∃ t, exec (.inboxFlush path b) s = .next t ∧ Wrote s t (benchInboxFlush (benchKey b) s.toDev).heedLeader ∧
    Journalled s t path ((s.bench (benchKey b)).st == .halted || (s.bench (benchKey b)).st == .faulted) false (benchReg (benchKey b) 0) 0 8 := by
  refine benchCtl_wrote h (by decide) (writeBenchCtl_flush ..) ?_
  simp only [benchInboxFlush]
  split <;> exact .same rfl rfl rfl rfl

theorem benchClrCounts_wrote : ∃ t, exec (.benchClrCounts path b) s = .next t ∧ Wrote s t (benchClrCounts (benchKey b) s.toDev).heedLeader ∧
    Journalled s t path true false (benchReg (benchKey b) 0) 0 16 :=
  benchCtl_wrote h (by decide) (writeBenchCtl_clear ..) (Apart.modBench ..)

end

/-! The effects by the state of the bench. -/

section

variable {k : Nat} {d : Dev}

theorem benchHaltReq_now (hst : (d.bench k).st = .running) (hwait : (d.bench k).wait = none) (hend : (d.bench k).atStepEnd = false)
    (hdiscard : (d.bench k).awaitDiscard = false) :
    benchHaltReq k d = (d.setBench k { d.bench k with st := .halted, haltReq := false }).noteHalt := by
  simp only [benchHaltReq, hst, hwait, hend, hdiscard, bne_self_eq_false, Option.isNone_none, Bool.not_false, Bool.and_self, Bool.false_eq_true,
    if_true, if_false]

theorem benchHaltReq_later (hst : (d.bench k).st = .running)
    (hlate : (d.bench k).wait.isSome = true ∨ (d.bench k).atStepEnd = true ∨ (d.bench k).awaitDiscard = true) :
    benchHaltReq k d = d.setBench k { d.bench k with haltReq := true } := by
  have hbusy : ((d.bench k).wait.isNone && !(d.bench k).atStepEnd && !(d.bench k).awaitDiscard) = false := by
    rcases hlate with h | h | h
    · simp only [Option.isNone_eq_false_iff.2 h, Bool.false_and]
    · simp only [h, Bool.not_true, Bool.and_false, Bool.false_and]
    · simp only [h, Bool.not_true, Bool.and_false]
  simp only [benchHaltReq, hst, hbusy, bne_self_eq_false, Bool.false_eq_true, if_false]

end

/-- Settles O29, bit by bit and by the state of the bench. -/
theorem benchControl : Obligations.BenchControl := by
  intro path b s k x h
  refine ⟨fun hst hwait hend hdiscard => ?halts, fun hst hlate => ?asks, fun hst => ?resumes, fun hst => ?stays, fun hst => ?clears,
    fun hst => ?keeps, fun hst => ?flushes, fun hhalted hfaulted => ?holds, benchClrCounts_wrote h⟩
  case halts => exact haltReq_wrote h hst (benchHaltReq_now hst hwait hend hdiscard) ((Apart.noteHalt _).after (Apart.setBench ..))
  case asks => exact haltReq_wrote h hst (benchHaltReq_later hst hlate) (Apart.setBench ..)
  case resumes =>
    have heffect : benchResume k s.toDev = s.setBench k { x with st := .running } := if_pos (beq_iff_eq.2 hst)
    have happlied : ((s.bench k).st == .halted) = true := beq_iff_eq.2 hst
    have hwrote := resume_wrote h
    rwa [heffect, happlied] at hwrote
  case stays =>
    have heffect : benchResume k s.toDev = s.toDev := if_neg (fun hh => hst (beq_iff_eq.1 hh))
    have happlied : ((s.bench k).st == .halted) = false := beq_eq_false_iff_ne.2 hst
    have hwrote := resume_wrote h
    rwa [heffect, happlied] at hwrote
  case clears =>
    have heffect : benchClearFault k s.toDev = (s.setBench k { x.restore with st := .ready }).tellHeld := if_pos (beq_iff_eq.2 hst)
    have happlied : ((s.bench k).st == .faulted) = true := beq_iff_eq.2 hst
    have hwrote := clearFault_wrote h
    rwa [heffect, happlied] at hwrote
  case keeps =>
    have heffect : benchClearFault k s.toDev = s.toDev := if_neg (fun hh => hst (beq_iff_eq.1 hh))
    have happlied : ((s.bench k).st == .faulted) = false := beq_eq_false_iff_ne.2 hst
    have hwrote := clearFault_wrote h
    rwa [heffect, happlied] at hwrote
  case flushes =>
    have hopen : ((s.bench k).st == .halted || (s.bench k).st == .faulted) = true := by
      rcases hst with hst | hst <;> rw [show (s.bench k).st = _ from hst] <;> rfl
    have heffect : benchInboxFlush k s.toDev = s.setBench k { x with inbox := [], stale := satAdd16 x.stale x.inbox.length } := by
      simp only [benchInboxFlush, hopen, if_true, Bench.dropMsgs, Bool.not_true, List.filter_false, List.filter_true]
      rfl
    have hwrote := inboxFlush_wrote h
    rwa [heffect, hopen] at hwrote
  case holds =>
    have hshut : ((s.bench k).st == .halted || (s.bench k).st == .faulted) = false := by
      rw [beq_eq_false_iff_ne.2 hhalted, beq_eq_false_iff_ne.2 hfaulted]; rfl
    have heffect : benchInboxFlush k s.toDev = s.toDev := if_neg (by rw [hshut]; exact Bool.false_ne_true)
    have hwrote := inboxFlush_wrote h
    rwa [heffect, hshut] at hwrote

end Sys2Proof.Machine
end

section
/-! The domains at a load (R431): every bench domain follows its bench, and the domains of a cabinet in 0b00 are OFF. -/

namespace Sys2Proof.Machine

/-- A fold at one of whose elements, met once, P turns into Q: the others keep either. -/
theorem foldl_hits {α β : Type} {P Q : α → Prop} {f : α → β → α} {x : β} {l : List β} (hnodup : l.Nodup) (hmem : x ∈ l)
    (hpre : ∀ a, ∀ b ∈ l, b ≠ x → P a → P (f a b)) (hhit : ∀ a, P a → Q (f a x)) (hpost : ∀ a, ∀ b ∈ l, b ≠ x → Q a → Q (f a b))
    {a : α} (ha : P a) : Q (l.foldl f a) := by
  induction l generalizing a with
  | nil => exact absurd hmem List.not_mem_nil
  | cons b l ih =>
    obtain ⟨hnot, hnodup⟩ := List.nodup_cons.1 hnodup
    have hrest : ∀ y ∈ l, y ∈ b :: l := fun y hy => List.mem_cons_of_mem b hy
    rcases eq_or_ne b x with rfl | hb
    · exact List.foldlRecOn l f (hhit a ha) fun a' ha' y hy => hpost a' y (hrest y hy) (fun h => hnot (h ▸ hy)) ha'
    · exact ih hnodup ((List.mem_cons.1 hmem).resolve_left (Ne.symm hb)) (fun a' y hy => hpre a' y (hrest y hy))
        (fun a' y hy => hpost a' y (hrest y hy)) (hpre a b List.mem_cons_self hb ha)

/-! ## The physical benches of a cabinet -/

/-- Two physical benches never serve the same logical one. -/
theorem physUse_inj {d : Dev} {id id' k : Nat} (hid : id % 256 < 104) (hid' : id' % 256 < 104) (h : d.physUse id = .logical k)
    (h' : d.physUse id' = .logical k) : id = id' := by
  simp only [Dev.physUse, beq_iff_eq] at h h'
  have hcab : id / 256 = id' / 256 := by
    split_ifs at h <;> split_ifs at h' <;> simp only [PhysUse.logical.injEq] at h h' <;> omega
  have hrow : id % 256 / 13 = id' % 256 / 13 := by
    split_ifs at h <;> split_ifs at h' <;> simp only [PhysUse.logical.injEq] at h h' <;> omega
  rw [← hcab, ← hrow] at h'
  split_ifs at h <;> split_ifs at h' <;> simp only [PhysUse.logical.injEq] at h h' <;> omega

theorem physUse_congr {d e : Dev} (h : e.cabs = d.cabs) (id : Nat) : e.physUse id = d.physUse id := by
  have hcab : ∀ c, e.cab c = d.cab c := fun c => by rw [Dev.cab, h]; rfl
  simp only [Dev.physUse, hcab]

/-- What a bench's domain that takes a state leaves of the cabinets and of the benches that it does not serve. -/
theorem place_bench (d : Dev) {id : Nat} (hid : id % 256 < 104) (st : BitVec 2) :
    (d.place id st []).cabs = d.cabs ∧ ∀ j, d.physUse id ≠ .logical j → (d.place id st []).bench j = d.bench j := by
  simp only [Dev.place, Dev.lost, Dev.gained, hid, if_true]
  cases huse : (d.setDom id { d.dom id with st := st, entering := none }).physUse id with
  | logical k =>
    have huse : d.physUse id = .logical k := huse
    dsimp only
    split_ifs
    · exact ⟨rfl, fun j hj => Tab.get_set_ne _ _ _ fun hjk => hj (hjk ▸ huse)⟩
    · exact ⟨rfl, fun j hj => Tab.get_set_ne _ _ _ fun hjk => hj (hjk ▸ huse)⟩
    · exact ⟨rfl, fun _ _ => rfl⟩
  | spare => dsimp only; split_ifs <;> exact ⟨rfl, fun _ _ => rfl⟩
  | steeredOut => dsimp only; split_ifs <;> exact ⟨rfl, fun _ _ => rfl⟩

theorem place_dom_ne (d : Dev) {id j : Nat} (hj : j ≠ id) (st : BitVec 2) (bad : List Nat) : (d.place id st bad).dom j = d.dom j := by
  have hkept : PowerKept (d.setDom id { d.dom id with st := st, entering := none }) (d.place id st bad) := by
    simp only [Dev.place]
    split_ifs
    · exact powerKept_lost ..
    · exact powerKept_gained ..
    · exact .refl _
  rw [hkept.dom, Dev.dom_setDom_ne _ _ hj]

/-- So stays the state of every other bench's domain under the steering. -/
theorem physSt_place {d : Dev} {id j : Nat} (hid : id % 256 < 104) (hj : j % 256 < 104) (hne : j ≠ id) (st : BitVec 2) :
    (d.place id st []).physSt j = d.physSt j := by
  obtain ⟨hcabs, hbench⟩ := place_bench d hid st
  simp only [Dev.physSt, physUse_congr hcabs]
  cases huse : d.physUse j with
  | logical k => simp only [hbench k fun h => hne (physUse_inj hj hid huse h)]
  | spare => rfl
  | steeredOut => rfl

/-! ## The domains follow -/

/-- A bench domain follows its bench at the beginning of a load. -/
def Dev.followDom (d : Dev) (id : Nat) : Dev :=
  match (d.dom id).entering with
  | none => if (d.dom id).st == d.physSt id then d else d.place id (d.physSt id) []
  | some e => if e == 1 then d.place id (d.physSt id) [] else d

/-- The bench domains of a cabinet. -/
def Dev.followBenches (d : Dev) (c : Nat) : Dev := (List.range 104).foldl (fun d i => d.followDom (256 * c + i)) d

theorem syncDomains_eq (d : Dev) : d.syncDomains = (List.range 12).foldl (fun d c => d.darken c)
    (((List.range 12).filter (fun c => (d.cab c).st != 0)).foldl (fun d c => d.followBenches c) d) := rfl

theorem followDom_cases (d : Dev) (id : Nat) : d.followDom id = d ∨ d.followDom id = d.place id (d.physSt id) [] := by
  unfold Dev.followDom
  cases (d.dom id).entering <;> dsimp only <;> split
  · exact .inl rfl
  · exact .inr rfl
  · exact .inr rfl
  · exact .inl rfl

/-- A domain that makes no entry has the state of its bench. -/
theorem followDom_self {d : Dev} {id : Nat} (h : (d.dom id).entering = none) : ((d.followDom id).dom id).st = d.physSt id := by
  simp only [Dev.followDom, h]
  split
  · next hst => exact beq_iff_eq.1 hst
  · exact (place_dom ..).1

theorem dom_followDom_ne (d : Dev) {id j : Nat} (hj : j ≠ id) : (d.followDom id).dom j = d.dom j := by
  rcases followDom_cases d id with h | h <;> rw [h]
  exact place_dom_ne d hj _ _

theorem physSt_followDom {d : Dev} {id j : Nat} (hid : id % 256 < 104) (hj : j % 256 < 104) (hne : j ≠ id) :
    (d.followDom id).physSt j = d.physSt j := by
  rcases followDom_cases d id with h | h <;> rw [h]
  exact physSt_place hid hj hne _

theorem cabs_followDom (d : Dev) {id : Nat} (hid : id % 256 < 104) : (d.followDom id).cabs = d.cabs := by
  rcases followDom_cases d id with h | h <;> rw [h]
  exact (place_bench d hid _).1

theorem cabs_followBenches (d : Dev) (c : Nat) : (d.followBenches c).cabs = d.cabs :=
  List.foldlRecOn (motive := fun a : Dev => a.cabs = d.cabs) _ _ rfl fun a ha i hi =>
    (cabs_followDom a (by have := List.mem_range.1 hi; omega)).trans ha

theorem Apart.followBenches (d : Dev) (c : Nat) : Apart d (d.followBenches c) := by
  refine List.foldlRecOn (motive := fun a : Dev => Apart d a) _ _ (.refl d) fun a ha i hi => ha.trans ?_
  have hi := List.mem_range.1 hi
  rcases followDom_cases a (256 * c + i) with h | h <;> rw [h]
  · exact .refl a
  · exact .place a (by omega) _ []

theorem cabs_followAll (d : Dev) (l : List Nat) : (l.foldl (fun d c => d.followBenches c) d).cabs = d.cabs :=
  foldl_rel (R := fun a b : Dev => b.cabs = a.cabs) (fun _ => rfl) (fun h k => k.trans h) cabs_followBenches l d

/-- The domain of a bench that is UNUSED or SPARE goes to RETENTION. -/
theorem followBenches_retains {d : Dev} {c i : Nat} (hi : i < 104) (hphys : d.physSt (256 * c + i) = 2)
    (hentering : (d.dom (256 * c + i)).entering = none) : ((d.followBenches c).dom (256 * c + i)).st = 2 := by
  have hid : ∀ b, b < 104 → (256 * c + b) % 256 < 104 := fun b hb => by omega
  have hne : ∀ {b}, b ≠ i → 256 * c + i ≠ 256 * c + b := by omega
  refine foldl_hits (P := fun a : Dev => a.physSt (256 * c + i) = 2 ∧ (a.dom (256 * c + i)).entering = none)
    (Q := fun a : Dev => (a.dom (256 * c + i)).st = 2) List.nodup_range (List.mem_range.2 hi) (fun a b hb hbi ha => ⟨?_, ?_⟩) (fun a ha => ?_)
    (fun a b hb hbi ha => ?_) ⟨hphys, hentering⟩
  · rw [physSt_followDom (hid b (List.mem_range.1 hb)) (hid i hi) (hne hbi)]; exact ha.1
  · rw [dom_followDom_ne a (hne hbi)]; exact ha.2
  · rw [followDom_self ha.2]; exact ha.1
  · rw [dom_followDom_ne a (hne hbi)]; exact ha

/-- The benches of another cabinet keep their domains and states. -/
theorem followBenches_ne (d : Dev) {c j : Nat} (hj : j / 256 ≠ c) (hbench : j % 256 < 104) :
    (d.followBenches c).dom j = d.dom j ∧ (d.followBenches c).physSt j = d.physSt j := by
  refine List.foldlRecOn (motive := fun a : Dev => a.dom j = d.dom j ∧ a.physSt j = d.physSt j) _ _ ⟨rfl, rfl⟩ fun a ha i hi => ?_
  have hi := List.mem_range.1 hi
  have hne : j ≠ 256 * c + i := by omega
  rw [dom_followDom_ne a hne, physSt_followDom (by omega) hbench hne]
  exact ha

/-! ## The domains of a cabinet in 0b00 -/

theorem cabSt_setTested (d : Dev) (c j : Nat) (b : Bool) : ((d.setCab c { d.cab c with tested := b }).cab j).st = (d.cab j).st := by
  rcases eq_or_ne j c with rfl | hj
  · rw [Dev.cab_setCab_self]
  · rw [Dev.cab_setCab_ne _ _ hj]

theorem cabs_unfill (d : Dev) (u : FillUnit) : (d.unfill u).cabs = d.cabs := by
  simp only [Dev.unfill, Dev.fillEnd]
  split
  · rfl
  · cases u <;> dsimp only <;> split <;> rfl

theorem cabSt_lost (d : Dev) {id : Nat} (hid : id % 256 < 108) (j : Nat) : ((d.lost id).cab j).st = (d.cab j).st := by
  have hunfill : ∀ (e : Dev) u, (e.unfill u).cab j = e.cab j := fun e u => by rw [Dev.cab, cabs_unfill, Dev.cab]
  simp only [Dev.lost, hid, if_true]
  split_ifs
  · cases d.physUse id <;> rfl
  · rw [cabSt_setTested, hunfill]; rfl
  · rfl
  · rw [hunfill]; rfl

theorem cabSt_placeOff (d : Dev) {id : Nat} (hid : id % 256 < 108) (j : Nat) : ((d.place id 0 []).cab j).st = (d.cab j).st := by
  simp only [Dev.place, bne_self_eq_false, Bool.and_false, Bool.false_eq_true, if_false]
  split
  · exact cabSt_lost _ hid j
  · rfl

/-- A domain is OFF and makes no entry, or goes OFF. -/
def Dev.darkenDom (d : Dev) (id : Nat) : Dev := if (d.dom id).st == 0 && (d.dom id).entering.isNone then d else d.place id 0 []

theorem darken_eq (d : Dev) (c : Nat) : d.darken c = if d.plan.st == .none || d.plan.st == .failed || (d.cab c).st != 0 then d
    else (List.range 108).foldl (fun d i => d.darkenDom (256 * c + i)) d := rfl

theorem darkenDom_off (d : Dev) (id : Nat) : ((d.darkenDom id).dom id).st = 0 := by
  unfold Dev.darkenDom
  split
  · next h => exact beq_iff_eq.1 (Bool.and_eq_true_iff.1 h).1
  · exact (place_dom ..).1

theorem dom_darkenDom_ne (d : Dev) {id j : Nat} (hj : j ≠ id) : (d.darkenDom id).dom j = d.dom j := by
  unfold Dev.darkenDom
  split
  · rfl
  · exact place_dom_ne d hj 0 []

theorem cabSt_darkenDom (d : Dev) {id : Nat} (hid : id % 256 < 108) (j : Nat) : ((d.darkenDom id).cab j).st = (d.cab j).st := by
  unfold Dev.darkenDom
  split
  · rfl
  · exact cabSt_placeOff d hid j

theorem darken_active {d : Dev} {c : Nat} (h : (d.cab c).st ≠ 0) : d.darken c = d := by
  rw [darken_eq, bne_iff_ne.2 h, Bool.or_true, if_pos rfl]

theorem cabSt_darken (d : Dev) (c j : Nat) : ((d.darken c).cab j).st = (d.cab j).st := by
  rw [darken_eq]
  split
  · rfl
  · refine List.foldlRecOn (motive := fun a : Dev => (a.cab j).st = (d.cab j).st) _ _ rfl fun a ha i hi => ?_
    have hi := List.mem_range.1 hi
    rw [cabSt_darkenDom a (by omega)]
    exact ha

theorem dom_darken_ne (d : Dev) {c j : Nat} (hj : j / 256 ≠ c) : (d.darken c).dom j = d.dom j := by
  rw [darken_eq]
  split
  · rfl
  · refine List.foldlRecOn (motive := fun a : Dev => a.dom j = d.dom j) _ _ rfl fun a ha i hi => ?_
    have hi := List.mem_range.1 hi
    rw [dom_darkenDom_ne a (by omega)]
    exact ha

theorem darken_off {d : Dev} {c i : Nat} (hplan : d.plan.st = .loading) (hcab : (d.cab c).st = 0) (hi : i < 108) :
    ((d.darken c).dom (256 * c + i)).st = 0 := by
  have hgo : (d.plan.st == .none || d.plan.st == .failed || (d.cab c).st != 0) = false := by rw [hplan, hcab]; rfl
  rw [darken_eq, hgo, if_neg Bool.false_ne_true]
  refine foldl_hits (P := fun _ : Dev => True) (Q := fun a : Dev => (a.dom (256 * c + i)).st = 0) List.nodup_range (List.mem_range.2 hi)
    (fun _ _ _ _ _ => trivial) (fun a _ => darkenDom_off a _) (fun a b hb hbi ha => ?_) trivial
  rw [dom_darkenDom_ne a (by omega)]
  exact ha

/-! ## Both at the beginning of a load -/

section

variable {d : Dev} {c i : Nat}

theorem syncDomains_retains (hc : c < 12) (hi : i < 104) (hcab : (d.cab c).st ≠ 0) (hphys : d.physSt (256 * c + i) = 2)
    (hentering : (d.dom (256 * c + i)).entering = none) : (d.syncDomains.dom (256 * c + i)).st = 2 := by
  have hid : (256 * c + i) % 256 < 104 := by omega
  have hof : (256 * c + i) / 256 = c := by omega
  have hfollowed : ((((List.range 12).filter (fun c => (d.cab c).st != 0)).foldl (fun d c => d.followBenches c) d).dom (256 * c + i)).st = 2 := by
    refine foldl_hits (P := fun a : Dev => a.physSt (256 * c + i) = 2 ∧ (a.dom (256 * c + i)).entering = none)
      (Q := fun a : Dev => (a.dom (256 * c + i)).st = 2) (List.nodup_range.filter _)
      (List.mem_filter.2 ⟨List.mem_range.2 hc, by simpa using hcab⟩) (fun a b _ hb ha => ?_) (fun a ha => followBenches_retains hi ha.1 ha.2)
      (fun a b _ hb ha => ?_) ⟨hphys, hentering⟩
    · obtain ⟨hdom, hst⟩ := followBenches_ne a (c := b) (hof.trans_ne (Ne.symm hb)) hid
      rw [hdom, hst]; exact ha
    · rw [(followBenches_ne a (c := b) (hof.trans_ne (Ne.symm hb)) hid).1]; exact ha
  rw [syncDomains_eq]
  refine (List.foldlRecOn (motive := fun a : Dev => (a.dom (256 * c + i)).st = 2 ∧ (a.cab c).st ≠ 0) _ _ ⟨hfollowed, ?_⟩ fun a ha b _ => ?_).1
  · rw [Dev.cab, cabs_followAll]; exact hcab
  · rw [cabSt_darken]
    refine ⟨?_, ha.2⟩
    rcases eq_or_ne b c with rfl | hb
    · rw [darken_active ha.2]; exact ha.1
    · rw [dom_darken_ne a (hof.trans_ne (Ne.symm hb))]; exact ha.1

theorem syncDomains_darkens (hc : c < 12) (hi : i < 108) (hplan : d.plan.st = .loading) (hcab : (d.cab c).st = 0) :
    (d.syncDomains.dom (256 * c + i)).st = 0 := by
  have hof : (256 * c + i) / 256 = c := by omega
  rw [syncDomains_eq]
  refine foldl_hits (P := fun a : Dev => a.plan.st = .loading ∧ (a.cab c).st = 0) (Q := fun a : Dev => (a.dom (256 * c + i)).st = 0)
    List.nodup_range (List.mem_range.2 hc) (fun a b _ hb ha => ?_) (fun a ha => darken_off ha.1 ha.2 hi) (fun a b _ hb ha => ?_) ⟨?_, ?_⟩
  · rw [(Apart.darken a b).plan, cabSt_darken]; exact ha
  · rw [dom_darken_ne a (hof.trans_ne (Ne.symm hb))]; exact ha
  · rw [(Apart.foldl Apart.followBenches _ _).plan]; exact hplan
  · rw [Dev.cab, cabs_followAll]; exact hcab

end

end Sys2Proof.Machine
end

section
/-! DEV_PLAN_CTL (R62, R63, R240, R312, R357, R431, R473), and O36. -/

namespace Sys2Proof.Machine

/-! ## The register -/

theorem regAt_planCtl : regAt 0x110 = some .planCtl := by decide +kernel

theorem regValue_planCtl (d : Dev) : d.regValue .planCtl = 0 := by simp only [Dev.regValue, Dev.regRaw, ite_self]

/-! One action bit alone, and whether it is applied. -/

theorem writePlanCtl_load (d : Dev) : writePlanCtl 1 d = (planLoad d, d.loadable) := rfl
theorem writePlanCtl_unload (d : Dev) : writePlanCtl 2 d = (planUnload d, d.plan.st != .none && d.plan.st != .unloading) := rfl
theorem writePlanCtl_start (d : Dev) : writePlanCtl 4 d = (planStart d, d.startable) := rfl

theorem planCtl_wrote {path : Path} {s : State} {v : Nat} {e : Dev} {applied : Bool} (h : Reaches s.toDev path .planCtl) (hv : v < 8)
    (heffect : writePlanCtl v s.toDev = (e, applied)) (hj : e.journal = s.journal) :
    ∃ t, done s (writeReg s.toDev path 0x110 false v) = .next t ∧ Wrote s t e ∧ Journalled s t path applied false 0x110 0 v := by
  have htaken : v % 2 ^ 32 &&& 7 = v := by rw [Nat.and_two_pow_sub_one_eq_mod _ 3]; omega
  have heff : s.regEffect path .planCtl (Reg.planCtl.taken false v) (Config.startUp s.free) = (e, applied) := by
    have htaken' : Reg.planCtl.taken false v = v := htaken
    rw [htaken', ← heffect]; rfl
  obtain ⟨t, ht, hwrote, hj⟩ := writeReg_journalled h (by decide) regAt_planCtl rfl rfl heff hj
  refine ⟨t, ht, hwrote, ?_⟩
  simp only [regValue_planCtl, Nat.zero_mod, Nat.zero_or, accessBits, Bool.false_eq_true, if_false, Reg.mask, htaken] at hj
  rwa [Nat.mod_eq_of_lt (by omega)] at hj

/-! ## UNLOAD and a load that fails (R62, R63) -/

theorem Apart.unuse (d : Dev) (k : Nat) : Apart d (d.unuse k) := .same rfl rfl rfl rfl

theorem dropPlan_journal (d : Dev) (st : PlanSt) (lose : Bool) : (d.dropPlan st lose).journal = d.journal := by
  simp only [Dev.dropPlan]
  refine (Apart.foldl (fun a c => ?_) _ _).journal.trans ?_
  · exact (Apart.setSb ..).after (Apart.setDrw ..)
  split
  · refine (Apart.foldl (fun a c => ?_) _ _).journal.trans (Apart.foldl Apart.unuse _ _).journal
    exact .same rfl rfl rfl rfl
  · exact (Apart.foldl Apart.unuse _ _).journal

theorem dropPlan_unloads (d : Dev) (st : PlanSt) : (d.dropPlan st true).plan.st = st ∧ (d.dropPlan st true).cmp.newest = [] ∧
    (d.dropPlan st true).cmp.prev = [] := ⟨rfl, rfl, rfl⟩

theorem failLoad_journal (d : Dev) (code : BitVec 16) : (d.failLoad code).journal = d.journal := dropPlan_journal d .failed false

theorem failLoad_st (d : Dev) (code : BitVec 16) : (d.failLoad code).plan.st = .failed := rfl

/-! ## LOAD (Sequence 2-2) -/

/-- The device at the beginning of a load. -/
def Dev.loadBegun (d : Dev) : Dev := ({ d with plan := { d.plan with st := .loading } } : Dev).syncDomains

/-- The address of the plan image. -/
def Dev.planAddr (d : Dev) : Nat := bits 47 12 d.plan.base.toNat * 4096

theorem loadBegun_journal (d : Dev) : d.loadBegun.journal = d.journal := (Apart.syncDomains _).journal

theorem planLoad_eq {d : Dev} (hidle : d.planIdle = true) (hready : d.boot.stage = 8) : planLoad d =
    if d.loadBegun.imageWaits d.planAddr then { d.loadBegun with plan := { d.loadBegun.plan with image := [], held := true } }
    else d.loadBegun.loadImage d.planAddr := by
  have hloadable : d.loadable = true := by
    rw [Dev.planIdle] at hidle
    rw [Dev.loadable, hidle, hready]; rfl
  unfold Dev.loadBegun Dev.planAddr
  simp only [planLoad, hloadable, Bool.not_true, Bool.false_eq_true, if_false]

/-- A load that cannot read the image's header. -/
theorem loadImage_unreadable {d : Dev} {base : Nat} (h : d.readPlan base 128 = none) : d.loadImage base = d.failLoad (unreadablePlan base) := by
  simp only [Dev.loadImage, h]

/-- The first bytes of a plan image. -/
def planMagic : List Byte := [0x47, 0x53, 0x50, 0x4C, 0x41, 0x4E, 0x41, 0x4B]

/-- OFFERED_VERSION of an image that starts with the signature. -/
def Dev.offeredBy (d : Dev) (h : List Byte) : Dev :=
  if h.take 8 == planMagic then { d with plan := { d.plan with offered := BitVec.ofNat 16 (atN h 8 2) } } else d

/-- The image as far as its header lets it be read. -/
def Dev.imageRead (d : Dev) (h : List Byte) (base : Nat) : Dev × List Byte :=
  if headerOk h then match d.readPlan base (atN h 16 8) with
    | some (d, bs) => (d, bs)
    | none => (d, [])
  else (d, [])

/-- Steps 4 and 5 of Sequence 2-2. -/
def Dev.placeImage (d : Dev) (img : List Byte) : Dev :=
  let m := imageOf img
  let d := ({ d with plan := { d.plan with st := .loading, image := img, cabSet := BitVec.ofNat 12 m.cabSet } } : Dev).idleOthers m
  let d := m.cabs.foldl (fun d c => (d.placeReserve m c).placeRegions img c) d
  let d := m.map.foldl (fun d e => d.placeBench m e) d
  (m.ofType 4).foldl (fun d s => d.placeInit m s) d

theorem loadImage_read {d e : Dev} {base : Nat} {h : List Byte} (hread : d.readPlan base 128 = some (e, h)) : d.loadImage base =
    match ((e.offeredBy h).imageRead h base).1.imageFault h ((e.offeredBy h).imageRead h base).2 with
    | some code => ((e.offeredBy h).imageRead h base).1.failLoad code
    | none => ((e.offeredBy h).imageRead h base).1.placeImage ((e.offeredBy h).imageRead h base).2 := by
  simp only [Dev.loadImage, hread]
  rfl

theorem offeredBy_journal (d : Dev) (h : List Byte) : (d.offeredBy h).journal = d.journal := by
  unfold Dev.offeredBy
  split <;> rfl

theorem imageRead_journal (d : Dev) (h : List Byte) (base : Nat) : (d.imageRead h base).1.journal = d.journal := by
  unfold Dev.imageRead
  split
  · split
    · next hread => exact (Apart.readPlan hread).journal
    · rfl
  · rfl

theorem placeImage_fields (d : Dev) (img : List Byte) :
    (d.placeImage img).journal = d.journal ∧ (d.placeImage img).plan.st = .loading ∧ (d.placeImage img).plan.image = img := by
  have hapart : Apart ({ d with plan := { d.plan with st := .loading, image := img, cabSet := BitVec.ofNat 12 (imageOf img).cabSet } } : Dev)
      (d.placeImage img) := by
    simp only [Dev.placeImage]
    exact (Apart.foldl (fun a x => Apart.placeInit ..) _ _).after ((Apart.foldl (fun a e => Apart.placeBench ..) _ _).after
      ((Apart.foldl (fun a c => (Apart.placeRegions ..).after (Apart.placeReserve ..)) _ _).after (Apart.idleOthers ..)))
  exact ⟨hapart.journal, by rw [hapart.plan], by rw [hapart.plan]⟩

/-- An image that does not start with the signature has a fault. -/
theorem imageFault_magic (d : Dev) {h : List Byte} (img : List Byte) (hmagic : h.take 8 ≠ planMagic) : d.imageFault h img = some fltPlanFormat :=
  if_pos (bne_iff_ne.2 hmagic)

theorem loadImage_journal (d : Dev) (base : Nat) : (d.loadImage base).journal = d.journal := by
  cases hread : d.readPlan base 128 with
  | none => rw [loadImage_unreadable hread, failLoad_journal]
  | some r =>
    obtain ⟨e, h⟩ := r
    have hkept : ((e.offeredBy h).imageRead h base).1.journal = d.journal :=
      ((imageRead_journal ..).trans (offeredBy_journal ..)).trans (Apart.readPlan hread).journal
    rw [loadImage_read hread]
    split
    · rw [failLoad_journal, hkept]
    · rw [(placeImage_fields ..).1, hkept]

theorem loadImage_badMagic {d e : Dev} {base : Nat} {h : List Byte} (hread : d.readPlan base 128 = some (e, h)) (hmagic : h.take 8 ≠ planMagic) :
    (d.loadImage base).plan.st = .failed := by
  rw [loadImage_read hread, imageFault_magic _ _ hmagic]
  rfl

/-- An image with the signature, whose header lets it be read whole. -/
theorem loadImage_whole {d e u : Dev} {base : Nat} {h img : List Byte} (hread : d.readPlan base 128 = some (e, h)) (hmagic : h.take 8 = planMagic)
    (hok : headerOk h = true)
    (himg : ({ e with plan := { e.plan with offered := BitVec.ofNat 16 (atN h 8 2) } } : Dev).readPlan base (atN h 16 8) = some (u, img)) :
    match u.imageFault h img with
    | none => (d.loadImage base).plan.st = .loading ∧ (d.loadImage base).plan.image = img
    | some _ => (d.loadImage base).plan.st = .failed := by
  have hoffered : e.offeredBy h = { e with plan := { e.plan with offered := BitVec.ofNat 16 (atN h 8 2) } } := if_pos (beq_iff_eq.2 hmagic)
  have hwhole : (e.offeredBy h).imageRead h base = (u, img) := by rw [hoffered, Dev.imageRead, hok, if_pos rfl, himg]
  rw [loadImage_read hread, hwhole]
  cases u.imageFault h img with
  | none => exact (placeImage_fields u img).2
  | some code => rfl

section

variable {path : Path} {s : State} (h : Reaches s.toDev path .planCtl)
include h

theorem load_wrote {e : Dev} (heffect : planLoad s.toDev = e) (hj : e.journal = s.journal) : ∃ t, exec (.load path) s = .next t ∧
    Wrote s t e ∧ Journalled s t path s.loadable false 0x110 0 1 :=
  planCtl_wrote h (by decide) (by rw [writePlanCtl_load, heffect]) hj

theorem unload_wrote {e : Dev} (heffect : planUnload s.toDev = e) (hj : e.journal = s.journal) :
    ∃ t, exec (.unload path) s = .next t ∧ Wrote s t e := by
  obtain ⟨t, ht, hwrote, -⟩ := planCtl_wrote (v := 2) h (by decide) (by rw [writePlanCtl_unload, heffect]) hj
  exact ⟨t, ht, hwrote⟩

theorem start_wrote {e : Dev} (heffect : planStart s.toDev = e) (hj : e.journal = s.journal) :
    ∃ t, exec (.start path) s = .next t ∧ Wrote s t e := by
  obtain ⟨t, ht, hwrote, -⟩ := planCtl_wrote (v := 4) h (by decide) (by rw [writePlanCtl_start, heffect]) hj
  exact ⟨t, ht, hwrote⟩

/-- A load whose image lies in a held channel. -/
theorem load_waits (hidle : s.planIdle = true) (hready : s.boot.stage = 8) (hwaits : s.loadBegun.imageWaits s.planAddr = true) :
    ∃ t, exec (.load path) s = .next t ∧ Wrote s t { s.loadBegun with plan := { s.loadBegun.plan with image := [], held := true } } := by
  have heffect : planLoad s.toDev = { s.loadBegun with plan := { s.loadBegun.plan with image := [], held := true } } := by
    rw [planLoad_eq hidle hready, hwaits, if_pos rfl]
  have hjournal : ∀ (e : Dev) (p : Plan), e.journal = s.journal → ({ e with plan := p } : Dev).journal = s.journal := fun _ _ h => h
  obtain ⟨t, ht, hwrote, -⟩ := load_wrote h heffect (hjournal _ _ (loadBegun_journal s.toDev))
  exact ⟨t, ht, hwrote⟩

/-- A load that does not wait. -/
theorem load_goes (hidle : s.planIdle = true) (hready : s.boot.stage = 8) (hwaits : s.loadBegun.imageWaits s.planAddr = false) :
    ∃ t, exec (.load path) s = .next t ∧ t.plan = (s.loadBegun.loadImage s.planAddr).plan ∧ t.journal.total = s.journal.total + 1 := by
  have heffect : planLoad s.toDev = s.loadBegun.loadImage s.planAddr := by
    rw [planLoad_eq hidle hready, hwaits, if_neg Bool.false_ne_true]
  obtain ⟨t, ht, hwrote, -⟩ := load_wrote h heffect ((loadImage_journal ..).trans (loadBegun_journal ..))
  exact ⟨t, ht, hwrote.plan, hwrote.2⟩

end

/-- Settles O36, by the bit written, the state of the plan and what the loader reads. -/
theorem planRegisters : Obligations.PlanRegisters := by
  refine fun path s => ⟨fun v h hidle => devPlanBaseWrite_idle h v hidle, fun v h hbusy => devPlanBaseWrite_busy h v hbusy, fun h => ?_⟩
  intro e base
  have hbegun : s.loadBegun = e := rfl
  have haddr : s.planAddr = base := rfl
  clear_value e base
  subst hbegun haddr
  refine ⟨fun hst => ?failed, fun hst => ?busy, fun hst => ?unloads, fun hst hrings => ?starts, fun c hc => ⟨fun i hi hcab hphys hentering => ?_,
    fun hcab i hi => ?_⟩, fun hidle hready hwaits => ?waits, fun hidle hready hread => ?unreadable, fun d hd hidle hready hread hwaits hmagic => ?magic,
    fun d u hd img hidle hready hread hwaits hmagic hok himg => ?whole⟩
  case failed => exact unload_wrote h (by simp only [planUnload, hst]) rfl
  case busy =>
    have hbusy : s.loadable = false := by simp only [Dev.loadable, hst]; rfl
    have heffect : planLoad s.toDev =
        ({ s.toDev with plan := { s.plan with lastFault := fltPlanBusy } } : Dev).unitRecord 6 0 0 fltPlanBusy {} := if_pos (by rw [hbusy]; rfl)
    obtain ⟨t, ht, hwrote, hj⟩ := load_wrote h heffect rfl
    rw [hbusy] at hj
    exact ⟨t, ht, hwrote.plan, (congrArg (fun u : State => u.flog.offered.length) hwrote.1).trans (unitRecord_offered_length ..), hj⟩
  case unloads =>
    have heffect : planUnload s.toDev = ({ s.toDev with seq := { s.seq with cmdHead := s.seq.cmdTail } } : Dev).dropPlan .none true := by
      simp only [planUnload, hst]
    obtain ⟨t, ht, hwrote⟩ := unload_wrote h heffect (dropPlan_journal ..)
    obtain ⟨hnone, hnewest, hprev⟩ := dropPlan_unloads ({ s.toDev with seq := { s.seq with cmdHead := s.seq.cmdTail } } : Dev) .none
    have hcmp := congrArg (fun u : State => u.cmp) hwrote.1
    exact ⟨t, ht, (congrArg (fun p : Plan => p.st) hwrote.plan).trans hnone, (congrArg (fun c : Cmp => c.newest) hcmp).trans hnewest,
      (congrArg (fun c : Cmp => c.prev) hcmp).trans hprev, hwrote.2⟩
  case starts =>
    have hstartable : s.startable = true := by
      rcases hrings with hfollower | ⟨hcmd, hresult, hbound⟩
      · simp [Dev.startable, hst, hfollower]
      · simp [Dev.startable, hst, hcmd, hresult, hbound]
    have heffect : planStart s.toDev = ({ s.toDev with plan := { s.plan with st := .running } } : Dev).heedLeader := by
      simp only [planStart, hst, hstartable, bne_self_eq_false, Bool.false_eq_true, if_true, if_false]
    exact start_wrote h heffect (Apart.heedLeader _).journal
  case waits => exact load_waits h hidle hready hwaits
  case unreadable =>
    have hwaits : s.loadBegun.imageWaits s.planAddr = false := by rw [Dev.imageWaits, hread]
    obtain ⟨t, ht, hplan, htotal⟩ := load_goes h hidle hready hwaits
    rw [loadImage_unreadable hread] at hplan
    exact ⟨t, ht, (congrArg (fun p : Plan => p.st) hplan).trans (failLoad_st ..), htotal⟩
  case magic =>
    obtain ⟨t, ht, hplan, htotal⟩ := load_goes h hidle hready hwaits
    exact ⟨t, ht, by rw [hplan]; exact loadImage_badMagic hread hmagic, htotal⟩
  case whole =>
    obtain ⟨t, ht, hplan, htotal⟩ := load_goes h hidle hready hwaits
    refine ⟨t, ht, htotal, ?_⟩
    rw [hplan]
    exact loadImage_whole hread hmagic hok himg
  · rw [Dev.loadBegun]; exact syncDomains_retains hc hi hcab hphys hentering
  · rw [Dev.loadBegun]; exact syncDomains_darkens hc hi rfl hcab

end Sys2Proof.Machine
end

section
/-! Messages at a bench (R42, R43, R48, R49, R98): what a slot leaves that begins something elsewhere or waits, and the statement about SEND, RECV
and POLL. -/

namespace Sys2Proof.Machine

/-! ## Slots that begin something elsewhere, and slots that wait (R86, R98) -/

/-- The issue of a slot command at bench k. -/
def Dev.soloIssue (d : Dev) (k slot : Nat) (tag : BitVec 16) : Issue := ⟨tag, (d.bench k).arch.pc, slot, false, 0⟩

@[simp] theorem bench_atRepeat0 (d : Dev) (k : Nat) : (d.atRepeat0 k).bench k = { d.bench k with repIdx := 0 } := by
  simp [Dev.atRepeat0]

theorem SlotReady.runs {d : Dev} {k : Nat} (h : SlotReady d k) :
    (d.bench k).st = .running ∧ (d.bench k).atStepEnd = false ∧ (d.bench k).awaitDiscard = false := by
  have hi := h.1
  simp only [Dev.issues, Bool.and_eq_true, beq_iff_eq, Bool.not_eq_true'] at hi
  exact ⟨hi.1.1.1, hi.1.1.2, hi.1.2⟩

/-- A plain slot has no part in the shelf. -/
theorem plain_beside_shelf {op : SlotOp} (hp : op.plain = true) (slot : Nat) (tag : BitVec 16) (r : Arch) :
    (soloBundle slot tag op).tiles r = [] ∧ ([(slot, op)].any (fun s : Nat × SlotOp => s.2.isVpop)) = false := by
  cases op <;> simp_all [Bundle.tiles, soloBundle, SlotOp.plain, SlotOp.isVpop]

/-- One repeat of a bundle of one plain slot whose effects elsewhere leave its bench RUNNING. -/
theorem repeatOnce_begins {d : Dev} {k slot : Nat} {tag : BitVec 16} {op : SlotOp} (hp : op.plain = true) (hw : (d.bench k).wait = none)
    (fetched : Bool) {st : List StoreW} {f : Arch → Arch} {late : Dev → Dev}
    (he : evalSlot (d.atRepeat0 k) k { soloBundle slot tag op with fetched := fetched } (d.soloIssue k slot tag) (d.bench k).store none op =
      .ok st f late)
    (hlate : ((slotEffect d k op slot tag st f late).bench k).st = .running ∧
      ((slotEffect d k op slot tag st f late).bench k).awaitDiscard = false) :
    repeatOnce (d.atRepeat0 k) k { soloBundle slot tag op with fetched := fetched } 0 = .go (slotEffect d k op slot tag st f late) := by
  obtain ⟨ht, hv⟩ := plain_beside_shelf hp slot tag (d.bench k).arch
  generalize hbd : ({ soloBundle slot tag op with fetched := fetched } : Bundle) = bd at he ⊢
  have htouch : (d.atRepeat0 k).touchAtoms k bd = d.atRepeat0 k := hbd ▸ touchAtoms_plain (d.atRepeat0 k) k slot tag op hp
  have htiles : bd.tiles (d.bench k).arch = [] := hbd ▸ ht
  have hsl : bd.slots = [(slot, op)] := hbd ▸ rfl
  have hc : ((0 : Nat) + 1 == bd.count) = true := hbd ▸ rfl
  have hiss : (⟨bd.tag, (d.bench k).arch.pc, slot, bd.rep.val != 0, 0⟩ : Issue) = d.soloIssue k slot tag := hbd ▸ rfl
  have hstep : bd.stepped = (soloBundle slot tag op).stepped := hbd ▸ rfl
  have hgo : (if ((slotEffect d k op slot tag st f late).bench k).st == .running &&
      !((slotEffect d k op slot tag st f late).bench k).awaitDiscard then RepOut.go (slotEffect d k op slot tag st f late) else
      .stop ((slotEffect d k op slot tag st f late).modBench k (fun b => { b with repIdx := 0 }))) =
    .go (slotEffect d k op slot tag st f late) := by simp [hlate]
  refine Eq.trans ?_ hgo
  unfold repeatOnce
  simp only [htouch, bench_atRepeat0, htiles, hv, shelfRepeat_idle, hsl, List.map_cons, List.map_nil, hiss, he, Res.stores, viewMem_self,
    firstFault, firstWait, Dev.waitEnds, hw, List.foldl_cons, List.foldl_nil, applyStores_one, hc, Bool.and_true, hstep, slotEffect, Dev.modBench]

section
variable {d : Dev} {k slot : Nat} {tag : BitVec 16} {op : SlotOp} (h : SlotReady d k) (hr : op.reasons (d.bench k).csv = [])
  (hp : op.plain = true)
include h hr hp

/-- A plain slot whose effects elsewhere leave its bench RUNNING retires with them. -/
theorem slotCommand_begins {st : List StoreW} {f : Arch → Arch} {late : Dev → Dev} (hs : op ≠ .stepend)
    (he : evalSlot (d.atRepeat0 k) k (soloBundle slot tag op) (d.soloIssue k slot tag) (d.bench k).store none op = .ok st f late)
    (hlate : ((slotEffect d k op slot tag st f late).bench k).st = .running ∧
      ((slotEffect d k op slot tag st f late).bench k).awaitDiscard = false) :
    slotCommand d k slot tag op = (slotEffect d k op slot tag st f late).retire k (soloBundle slot tag op)
      ((soloBundle slot tag op).nextPc (d.bench k).arch) := by
  have hrepeat := repeatOnce_begins hp h.2.1 false he hlate
  rw [show ({ soloBundle slot tag op with fetched := false } : Bundle) = soloBundle slot tag op from rfl] at hrepeat
  have hg : (soloBundle slot tag op).has .stepend = false := by simp [Bundle.has, soloBundle, hs]
  rw [slotCommand_ready h hr]
  unfold execBundle
  have hcount : (soloBundle slot tag op).count = 1 := rfl
  simp only [bench_atRepeat0, hcount, Nat.sub_zero, repeats, hrepeat, hg]
  simp

/-- A plain slot that waits. -/
theorem slotCommand_waits {kind : BitVec 3} {begun : Dev → Dev}
    (he : ∀ i, evalSlot (d.atRepeat0 k) k (soloBundle slot tag op) i (d.bench k).store none op = .wait kind begun) :
    slotCommand d k slot tag op = (begun (d.atRepeat0 k)).waitAt k kind (soloBundle slot tag op) 0 := by
  obtain ⟨ht, hv⟩ := plain_beside_shelf hp slot tag (d.bench k).arch
  have hsl : (soloBundle slot tag op).slots = [(slot, op)] := rfl
  have hcount : (soloBundle slot tag op).count = 1 := rfl
  have hrepeat : repeatOnce (d.atRepeat0 k) k (soloBundle slot tag op) 0 =
      .stop ((begun (d.atRepeat0 k)).waitAt k kind (soloBundle slot tag op) 0) := by
    unfold repeatOnce
    simp only [touchAtoms_plain _ _ _ _ _ hp, bench_atRepeat0, ht, hv, shelfRepeat_idle, hsl, List.map_cons, List.map_nil, he, Res.stores,
      viewMem_self, firstFault, firstWait]
  rw [slotCommand_ready h hr]
  unfold execBundle
  simp only [bench_atRepeat0, hcount, Nat.sub_zero, repeats, hrepeat]

end

/-- A bench that begins to wait keeps everything but the wait and the trace, and no other bench sees it (Table 3-17). -/
theorem waitAt_bench {d : Dev} {k : Nat} (hend : (d.bench k).atStepEnd = false) (hw : (d.bench k).wait = none) {kind : BitVec 3}
    (hkind : kind ≠ 0) (bd : Bundle) (idx : Nat) :
    (∃ m t, (d.waitAt k kind bd idx).bench k = { d.bench k with traceMem := m, trace := t, wait := some ⟨kind, bd⟩, repIdx := idx }) ∧
      ∀ j, j ≠ k → (d.waitAt k kind bd idx).bench j = d.bench j := by
  have hnone : ((d.bench k).waitKind == kind) = false := by
    simp only [Bench.waitKind, hend, hw, Bool.false_eq_true, if_false, beq_eq_false_iff_ne]
    exact hkind.symm
  simp only [Dev.waitAt, hnone, Bool.false_eq_true, if_false, Dev.waitEnds, hw]
  refine ⟨?_, fun j hj => (Dev.bench_modBench_ne _ _ hj).trans (Dev.bench_trace_ne _ _ _ _ _ hj)⟩
  obtain ⟨m, t, ht⟩ := bench_trace_self d k 6 ⟨bd.tag, (d.bench k).arch.pc, 0, bd.rep.val != 0, idx⟩ 0 (8 + kind.toNat)
  exact ⟨m, t, by rw [Dev.bench_modBench_self, ht]⟩

/-! ## What the end of a message slot leaves -/

@[simp] theorem noteHalt_net (d : Dev) : d.noteHalt.net = d.net := by
  simp only [Dev.noteHalt, Dev.abandonBare]
  split
  · split
    · split
      · rfl
      · split <;> rfl
    · rfl
  · rfl

theorem retire_net (d : Dev) (k : Nat) (bd : Bundle) (pc : Nat) : (d.retire k bd pc).net = d.net := by
  simp only [Dev.retire]
  split
  · exact noteHalt_net _
  · rfl

/-- Retiring, after what only bench k has seen, is all that differs. -/
theorem retire_only {s : State} {d : Dev} {k : Nat} (bd : Bundle) (pc : Nat)
    (hrest : { d with benches := [], free := 0 } = { s.toDev with benches := [], free := 0 }) (hothers : ∀ j, j ≠ k → d.bench j = s.bench j) :
    OnlyRetires s ⟨d.retire k bd pc, s.pending⟩ k := by
  refine ⟨?_, fun j hj => ((retire_others _ _ _ hj).trans (hothers j hj)).trans (ite_bench _ s.toDev j).symm⟩
  refine congrArg (fun d : Dev => ({ toDev := d, pending := s.pending } : State)) ((retire_rest d k bd pc 0).trans ?_)
  split
  · rw [noteHalt_beside, noteHalt_beside, hrest]
  · exact hrest

/-- What two benches share that agree beside their architectural state. -/
theorem besideArch_fields {b c : Bench} (h : b.besideArch = c.besideArch) : b.msgSeq = c.msgSeq ∧ b.store = c.store ∧ b.inbox = c.inbox :=
  ⟨(congrArg Bench.msgSeq h :), (congrArg Bench.store h :), (congrArg Bench.inbox h :)⟩

/-- The stores and register writes of a slot are its own bench's. -/
theorem slotEffect_others (d : Dev) {k j : Nat} (op : SlotOp) (slot : Nat) (tag : BitVec 16) (st : List StoreW) (f : Arch → Arch) (hj : j ≠ k) :
    (slotEffect d k op slot tag st f id).bench j = d.bench j := by
  simp only [slotEffect, Dev.atRepeat0, id]
  rw [Dev.bench_fresh, Dev.bench_modBench_ne _ _ hj, Dev.bench_modBench_ne _ _ hj]

/-- A step of address registers keeps the PC. -/
theorem stepAll_pc (r : Arch) (regs : List Nat) : (r.stepAll regs).pc = r.pc :=
  foldl_keep (p := Arch.pc) _ _ fun _ _ => rfl

/-- A slot that takes no branch stays at its bundle. -/
theorem soloBundle_samePc {op : SlotOp} (hb : ∀ r, branchTarget r op = none) (slot : Nat) (tag : BitVec 16) {r g : Arch} (hpc : g.pc = r.pc) :
    ({ g with pc := (soloBundle slot tag op).nextPc r } : Arch) = g := by
  have hnext : (soloBundle slot tag op).nextPc r = g.pc := by simp [Bundle.nextPc, soloBundle, hb, hpc]
  rw [hnext]

/-- A message slot leaves registers `g` stepped as its address operand says, at the same bundle. -/
theorem soloBundle_afterSlot {op : SlotOp} {a : AOp} (ha : op.aops = [a]) (hb : ∀ r, branchTarget r op = none) (slot : Nat) (tag : BitVec 16)
    (csv : BitVec 4) {r g : Arch} (hpc : g.pc = r.pc) :
    { (if csv == 2#4 then g else g.stepAll (soloBundle slot tag op).stepped) with pc := (soloBundle slot tag op).nextPc r } =
      g.afterSlot csv [a] := by
  have hstep : (soloBundle slot tag op).stepped = [a].foldl (fun l a => if a.step then nsInsert a.reg.val l else l) [] := by
    simp [Bundle.stepped, soloBundle, ha]
  have hkeep : (g.afterSlot csv [a]).pc = r.pc := by
    unfold Arch.afterSlot
    split
    · exact hpc
    · exact (stepAll_pc ..).trans hpc
  rw [hstep]
  exact soloBundle_samePc hb slot tag hkeep

/-! ## SEND -/

/-- The message that a SEND slot of bench k puts in flight. -/
def Dev.sent (d : Dev) (k : Nat) (tag : BitVec 16) (q : Fin 8) (a : AOp) (xdest xlen : Fin 32) : Msg :=
  let r := (d.bench k).arch
  sendMsg d k (d.soloIssue k 6 tag) (d.bench k).store q (r.aop a).ea (r.getX xlen).val.toNat ((r.getX xdest).val.setWidth 18)

/-- The conditions under which SEND neither faults nor waits (R98). -/
structure Sends (d : Dev) (k : Nat) (a : AOp) (xdest xlen : Fin 32) : Prop where
  dest : ((d.bench k).arch.getX xdest).mark = false
  len : ((d.bench k).arch.getX xlen).mark = false
  payload : ((d.bench k).arch.aop a).mark = false
  long : 1 ≤ ((d.bench k).arch.getX xlen).val.toNat
  short : ((d.bench k).arch.getX xlen).val.toNat ≤ 16384
  endpoint : ((d.bench k).arch.getX xdest).val.toNat < 2 ^ 18
  inside : ((d.bench k).arch.aop a).ea + ((d.bench k).arch.getX xlen).val.toNat ≤ 0x400000
  valid : epValid (((d.bench k).arch.getX xdest).val.setWidth 18) = true
  here : epDev (((d.bench k).arch.getX xdest).val.setWidth 18) = d.number.toNat
  route : d.inRoute (k / 96) (((d.bench k).arch.getX xdest).val.setWidth 18) = true
  room : d.outboxBytes k + 64 + (((d.bench k).arch.getX xlen).val.toNat + 63) / 64 * 64 ≤ 65536

theorem sent_atRepeat0 (d : Dev) (k : Nat) (tag : BitVec 16) (q : Fin 8) (a : AOp) (xdest xlen : Fin 32) :
    sendMsg (d.atRepeat0 k) k (d.soloIssue k 6 tag) (d.bench k).store q ((d.bench k).arch.aop a).ea ((d.bench k).arch.getX xlen).val.toNat
      (((d.bench k).arch.getX xdest).val.setWidth 18) = d.sent k tag q a xdest xlen := by
  simp only [sendMsg, bench_atRepeat0, Dev.sent]
  rfl

/-- The message goes out, and its bench counts it. -/
theorem sendDo_local (e : Dev) (k : Nat) (iss : Issue) (m : Msg) (hhere : epDev m.dest = e.number.toNat) (hroute : e.inRoute (k / 96) m.dest = true) :
    (sendDo k iss m e).net = e.net ++ e.expand m ∧
      (∃ tm t, (sendDo k iss m e).bench k = { e.bench k with msgSeq := (e.bench k).msgSeq + 1, traceMem := tm, trace := t }) ∧
      ∀ j, j ≠ k → (sendDo k iss m e).bench j = e.bench j := by
  have hemit : e.emit (k / 96) m = { e with net := e.net ++ e.expand m } := by simp [Dev.emit, hhere, hroute]
  simp only [sendDo, hemit]
  refine ⟨rfl, ?_, fun j hj => (Dev.bench_trace_ne _ _ _ _ _ hj).trans (Dev.bench_modBench_ne _ _ hj)⟩
  generalize (m.payload.length - 1) * 2 ^ 48 + m.seq.toNat = data
  obtain ⟨tm, t, ht⟩ := bench_trace_self (({ e with net := e.net ++ e.expand m } : Dev).modBench k (fun b => { b with msgSeq := b.msgSeq + 1 }))
    k 1 iss m.dest.toNat data
  exact ⟨tm, t, ht.trans (by rw [Dev.bench_modBench_self]; rfl)⟩

section
variable {d : Dev} {k : Nat} {tag : BitVec 16} {q : Fin 8} {a : AOp} {xdest xlen : Fin 32} (h : SlotReady d k)
  (hsend : Sends d k a xdest xlen)
include hsend

theorem evalSlot_send : evalSlot (d.atRepeat0 k) k (soloBundle 6 tag (.send q a xdest xlen)) (d.soloIssue k 6 tag) (d.bench k).store none
    (.send q a xdest xlen) = .ok [] id (sendDo k (d.soloIssue k 6 tag) (d.sent k tag q a xdest xlen)) := by
  obtain ⟨hdest, hlen, hpay, hlong, hshort, hep, hin, hvalid, hhere, hroute, hroom⟩ := hsend
  have hrange : (((d.bench k).arch.getX xlen).val.toNat < 1 || 16384 < ((d.bench k).arch.getX xlen).val.toNat ||
      2 ^ 18 ≤ ((d.bench k).arch.getX xdest).val.toNat) = false := by
    simp only [Bool.or_eq_false_iff, decide_eq_false_iff_not]; omega
  have hown : (epDev (((d.bench k).arch.getX xdest).val.setWidth 18) != (d.atRepeat0 k).number.toNat) = false := by
    simp only [bne_eq_false_iff_eq]; exact hhere
  have hbytes : ¬ 65536 < (d.atRepeat0 k).outboxBytes k + 64 + (((d.bench k).arch.getX xlen).val.toNat + 63) / 64 * 64 :=
    Nat.not_lt.mpr hroom
  simp only [evalSlot, evalSend, bench_atRepeat0, hdest, hlen, hpay, hvalid, hrange, hown, Bool.or_self, Bool.false_eq_true, if_false,
    Nat.not_lt.mpr hin, storeSize, Bool.not_true, Bool.false_and, hbytes]
  rw [sent_atRepeat0]

include h

/-- What SEND leaves where it neither faults nor waits (R42, R98). -/
theorem slotCommand_send : ∃ t : Dev, slotCommand d k 6 tag (.send q a xdest xlen) = t ∧ t.net = d.net ++ d.expand (d.sent k tag q a xdest xlen) ∧
    (t.bench k).msgSeq = (d.bench k).msgSeq + 1 ∧ (t.bench k).arch = (d.bench k).arch.afterSlot (d.bench k).csv [a] ∧
    (t.bench k).store = (d.bench k).store ∧ ∀ j, j ≠ k → t.bench j = d.bench j := by
  let op : SlotOp := .send q a xdest xlen
  let e := slotEffect d k op 6 tag [] id id
  have hk : e.bench k = { d.bench k with
      repIdx := 0
      arch := if (d.bench k).csv == 2#4 then (d.bench k).arch else (d.bench k).arch.stepAll (soloBundle 6 tag op).stepped } := by
    simp [e, slotEffect]
  obtain ⟨hnet, ⟨tm, t, hself⟩, hothers⟩ := sendDo_local e k (d.soloIssue k 6 tag) (d.sent k tag q a xdest xlen) hsend.here hsend.route
  obtain ⟨hst, _, hdiscard⟩ := h.runs
  have hlate : ((sendDo k (d.soloIssue k 6 tag) (d.sent k tag q a xdest xlen) e).bench k).st = .running ∧
      ((sendDo k (d.soloIssue k 6 tag) (d.sent k tag q a xdest xlen) e).bench k).awaitDiscard = false := by
    rw [hself, hk]; exact ⟨hst, hdiscard⟩
  obtain ⟨harch, hbeside⟩ := retire_bench (sendDo k (d.soloIssue k 6 tag) (d.sent k tag q a xdest xlen) e) k (soloBundle 6 tag op)
    ((soloBundle 6 tag op).nextPc (d.bench k).arch)
  obtain ⟨hseq, hstore, _⟩ := besideArch_fields hbeside
  refine ⟨_, slotCommand_begins h rfl rfl (by simp) (evalSlot_send hsend) hlate, ?_, ?_, ?_, ?_, fun j hj => ?_⟩
  · exact (retire_net ..).trans hnet
  · exact hseq.trans (by rw [hself, hk])
  · refine harch.trans ?_
    rw [hself, hk]
    exact soloBundle_afterSlot rfl (fun _ => rfl) 6 tag (d.bench k).csv rfl
  · exact hstore.trans (by rw [hself, hk])
  · exact (retire_others _ _ _ hj).trans ((hothers j hj).trans (slotEffect_others d op 6 tag [] id hj))

end
/-! ## RECV -/

/-- A message that leaves its queue: only its bench sees it. -/
theorem recvDo_bench (e : Dev) (k : Nat) (iss : Issue) (m : Msg) :
    (∃ tm t, (recvDo k iss m e).bench k = { e.bench k with
      inbox := (e.bench k).inbox.erase m, staging := [], traceMem := tm, trace := t }) ∧
      (∀ j, j ≠ k → (recvDo k iss m e).bench j = e.bench j) ∧
      ∀ n, { recvDo k iss m e with benches := [], free := n } = { e with benches := [], free := n } := by
  refine ⟨?_, fun j hj => (Dev.bench_trace_ne _ _ _ _ _ hj).trans (Dev.bench_modBench_ne _ _ hj), fun n => rfl⟩
  simp only [recvDo]
  generalize (m.payload.length - 1) * 2 ^ 48 + m.seq.toNat = data
  obtain ⟨tm, t, ht⟩ := bench_trace_self (e.modBench k (fun b => { b with inbox := b.inbox.erase m, staging := [] })) k 2 iss m.src.toNat data
  exact ⟨tm, t, ht.trans (by rw [Dev.bench_modBench_self])⟩

@[simp] theorem setX_pc (r : Arch) (i : Fin 32) (v : BitVec 64) (mark : Bool) : (r.setX i v mark).pc = r.pc := by
  unfold Arch.setX
  split <;> rfl

/-- The registers with the length and the sender of a message. -/
def Arch.received (r : Arch) (xlen xsrc : Fin 32) (m : Msg) : Arch :=
  (r.setX xlen (BitVec.ofNat 64 m.payload.length) false).setX xsrc (m.src.setWidth 64) false

theorem received_pc (r : Arch) (xlen xsrc : Fin 32) (m : Msg) : (r.received xlen xsrc m).pc = r.pc := by
  simp [Arch.received]

section
variable {s : State} {k : Nat} (tag : BitVec 16) {q : Fin 8} {a : AOp} (xlen xsrc : Fin 32) (h : SlotReady s.toDev k)
  (hmark : ((s.bench k).arch.aop a).mark = false)
include h hmark

/-- What RECV leaves where its queue holds a message whose payload fits the store (R49, R98). -/
theorem slotCommand_recv {m : Msg} (hold : (s.bench k).oldest q = some m) (hfits : ((s.bench k).arch.aop a).ea + m.payload.length ≤ 0x400000) :
    ∃ t, done s (slotCommand s.toDev k 6 tag (.recv q a xlen xsrc)) = .next t ∧ OnlyRetires s t k ∧
      (t.bench k).inbox = (s.bench k).inbox.erase m ∧ (t.bench k).arch = ((s.bench k).arch.received xlen xsrc m).afterSlot (s.bench k).csv [a] ∧
      (t.bench k).store = (s.bench k).store.put (((s.bench k).arch.aop a).ea, m.payload, payloadMarks m ((s.bench k).arch.aop a).ea) := by
  let op : SlotOp := .recv q a xlen xsrc
  let w : StoreW := (((s.bench k).arch.aop a).ea, m.payload, payloadMarks m ((s.bench k).arch.aop a).ea)
  let e := slotEffect s.toDev k op 6 tag [w] (fun g => g.received xlen xsrc m) id
  let d := recvDo k (s.soloIssue k 6 tag) m e
  have hk : e.bench k = { s.bench k with
      repIdx := 0
      store := (s.bench k).store.put w
      arch := if (s.bench k).csv == 2#4 then (s.bench k).arch.received xlen xsrc m
        else ((s.bench k).arch.received xlen xsrc m).stepAll (soloBundle 6 tag op).stepped } := by
    simp [e, slotEffect]
  have heval : evalSlot (s.atRepeat0 k) k (soloBundle 6 tag op) (s.soloIssue k 6 tag) (s.bench k).store none op =
      .ok [w] (fun g => g.received xlen xsrc m) (recvDo k (s.soloIssue k 6 tag) m) := by
    have hold' : ({ s.bench k with repIdx := 0 } : Bench).oldest q = some m := hold
    simp only [op, evalSlot, evalRecv, bench_atRepeat0, hmark, hold', storeSize, Nat.not_lt.mpr hfits, Bool.false_eq_true, if_false]
    rfl
  obtain ⟨⟨tm, t, hself⟩, hothers, hrest⟩ := recvDo_bench e k (s.soloIssue k 6 tag) m
  obtain ⟨hst, _, hdiscard⟩ := h.runs
  have hlate : (d.bench k).st = .running ∧ (d.bench k).awaitDiscard = false := by
    rw [hself, hk]; exact ⟨hst, hdiscard⟩
  obtain ⟨harch, hbeside⟩ := retire_bench d k (soloBundle 6 tag op) ((soloBundle 6 tag op).nextPc (s.bench k).arch)
  obtain ⟨_, hstore, hinbox⟩ := besideArch_fields hbeside
  have honly : OnlyRetires s ⟨d.retire k (soloBundle 6 tag op) ((soloBundle 6 tag op).nextPc (s.bench k).arch), s.pending⟩ k :=
    retire_only _ _ (hrest 0) fun j hj => (hothers j hj).trans (slotEffect_others s.toDev op 6 tag [w] _ hj)
  refine ⟨_, congrArg (done s) (slotCommand_begins h rfl rfl (by simp) heval hlate), honly, ?_, ?_, ?_⟩
  · exact hinbox.trans (by rw [hself, hk])
  · refine harch.trans ?_
    rw [hself, hk]
    exact soloBundle_afterSlot rfl (fun _ => rfl) 6 tag (s.bench k).csv (received_pc ..)
  · exact hstore.trans (by rw [hself, hk])

/-- RECV waits on an empty queue (R98). -/
theorem slotCommand_recv_waits (hold : (s.bench k).oldest q = none) : ∃ t : Dev, slotCommand s.toDev k 6 tag (.recv q a xlen xsrc) = t ∧
    (t.bench k).waitKind = 1 ∧ (t.bench k).arch = (s.bench k).arch ∧ (t.bench k).store = (s.bench k).store ∧
    ∀ j, j ≠ k → t.bench j = s.bench j := by
  obtain ⟨_, hend, _⟩ := h.runs
  have heval (i : Issue) : evalSlot (s.atRepeat0 k) k (soloBundle 6 tag (.recv q a xlen xsrc)) i (s.bench k).store none (.recv q a xlen xsrc) =
      .wait 1 id := by
    have hold' : ({ s.bench k with repIdx := 0 } : Bench).oldest q = none := hold
    simp only [evalSlot, evalRecv, bench_atRepeat0, hmark, hold', Bool.false_eq_true, if_false]
  have hk := bench_atRepeat0 s.toDev k
  obtain ⟨⟨m, t, hself⟩, hothers⟩ := waitAt_bench (d := s.atRepeat0 k) (k := k) (kind := 1) (by rw [hk]; exact hend) (by rw [hk]; exact h.2.1)
    (by decide) (soloBundle 6 tag (.recv q a xlen xsrc)) 0
  refine ⟨_, slotCommand_waits h rfl rfl heval, ?_, ?_, ?_, fun j hj => ?_⟩
  · rw [id, hself, hk]; simp [Bench.waitKind, hend]
  · rw [id, hself, hk]
  · rw [id, hself, hk]
  · exact (hothers j hj).trans (Dev.bench_modBench_ne _ _ hj)

end

/-! ## POLL -/

/-- POLL writes one register (R98). -/
theorem slotCommand_poll {s : State} {k : Nat} (tag : BitVec 16) {q : Fin 8} (xd : Fin 32) (h : SlotReady s.toDev k) :
    ∃ t, done s (slotCommand s.toDev k 6 tag (.poll q xd)) = .next t ∧ ArchOnly s t k
      ((s.bench k).arch.setX xd (BitVec.ofNat 64 ((s.bench k).inbox.filter (fun m => m.queue == q)).length) false) := by
  obtain ⟨t, ht, harch⟩ := slot_registers (slot := 6) (tag := tag) (op := .poll q xd) h rfl rfl (by simp) rfl
    (f := fun g => g.setX xd (BitVec.ofNat 64 ((s.bench k).inbox.filter (fun m => m.queue == q)).length) false)
    fun _ => by simp only [evalSlot, bench_atRepeat0]
  have hpc := soloBundle_samePc (op := .poll q xd) (fun _ => rfl) 6 tag (setX_pc (s.bench k).arch xd
    (BitVec.ofNat 64 ((s.bench k).inbox.filter (fun m => m.queue == q)).length) false)
  exact ⟨t, ht, by rwa [hpc] at harch⟩

/-! ## The statement -/

/-- Settles O26: SEND and RECV by what their slots begin, RECV on an empty queue by its wait, and POLL as a slot that writes a register only. -/
theorem messageSlots : Obligations.MessageSlots := by
  unfold Obligations.MessageSlots
  intro b tag s q h
  refine ⟨fun a xdest xlen hdest hlen hpay hlong hshort hep hin hvalid hhere hroute hroom => ?_,
    fun a xlen xsrc msg hmark hold hwf hfits => ?_, fun a xlen xsrc hmark hold => ?_, fun xd => ?_⟩
  · obtain ⟨t, ht, hnet, hseq, harch, hstore, hothers⟩ := slotCommand_send (tag := tag) (q := q) h
      ⟨hdest, hlen, hpay, hlong, hshort, hep, hin, hvalid, hhere, hroute, hroom⟩
    exact ⟨_, _, congrArg (done s) ht, hnet, rfl, rfl, rfl, rfl, rfl, rfl, rfl, rfl, hseq, harch, hstore, hothers⟩
  · obtain ⟨t, ht, honly, hinbox, harch, hstore⟩ := slotCommand_recv tag xlen xsrc h hmark hold hfits
    refine ⟨t, ht, honly, hinbox, harch, fun i => ?_⟩
    rw [hstore]
    exact Mem.byte_store _ _ _ _ hwf
  · obtain ⟨t, ht, hkind, harch, hstore, hothers⟩ := slotCommand_recv_waits tag xlen xsrc h hmark hold
    exact ⟨_, congrArg (done s) ht, hkind, harch, hstore, hothers⟩
  · exact slotCommand_poll tag xd h

end Sys2Proof.Machine
end

section
/-! Bundles (R75, R76, R79, R86, R105): how a NOP is fetched and retires, what a bundle that cannot be fetched leaves, the trace entry of a
bundle (R474), the SRAM errors that a bundle meets (R348, R362), and the statement. -/

namespace Sys2Proof.Machine

/-! ## Fetching (R75, R76, R79) -/

/-- The bundle of one 32-bit NOP, as it is fetched. -/
def nopBundle (tag : BitVec 16) : Bundle := { soloBundle 7 tag .nop with fetched := true }

section
variable {csv : BitVec 4} {program : Mem} {pc : Nat} (hin : pc + 8 ≤ 262144)
include hin

/-- A header of one word that lies in program memory is decoded with that word. -/
theorem fetchBundle_one (hone : bits 3 0 (program.readNat pc 4) = 0) : fetchBundle csv program pc =
    match decodeBundle csv (program.readNat pc 4) [program.readNat (pc + 4) 4] with
    | .bundle bd => .bundle bd
    | .bad r => .bad r (BitVec.ofNat 16 (bits 23 8 (program.readNat pc 4))) (bits 7 4 (program.readNat pc 4) != 0) := by
  have hhead : ¬ progSize < pc + 4 := by simp only [progSize]; omega
  have hword : ¬ progSize < pc + 4 + 4 * (0 + 1) := by simp only [progSize]; omega
  simp only [fetchBundle, hhead, hone, hword, if_false] <;> rfl

theorem fetchBundle_nop (hmask : program.readNat pc 4 / 2 ^ 24 = 0x80) (hlow : program.readNat pc 4 % 256 = 0)
    (hnop : program.readNat (pc + 4) 4 = 0x04000000) :
    fetchBundle csv program pc = .bundle (nopBundle (BitVec.ofNat 16 (program.readNat pc 4 / 256 % 65536))) := by
  generalize hh : program.readNat pc 4 = h at *
  have hm : bits 31 24 h = 128 := by simp only [bits]; omega
  have hr : bits 7 4 h = 0 := by simp only [bits]; omega
  have hn : bits 3 0 h = 0 := by simp only [bits]; omega
  have hdec : decodeBundle csv h [0x04000000] = .bundle (nopBundle (BitVec.ofNat 16 (bits 23 8 h))) := by
    simp only [decodeBundle, hm, hr, hn]
    rfl
  rw [fetchBundle_one hin (by rw [hh]; exact hn), hh, hnop, hdec]
  rfl

/-- A header without a slot. -/
theorem fetchBundle_empty (hmask : program.readNat pc 4 / 2 ^ 24 = 0) (hone : program.readNat pc 4 % 16 = 0) :
    ∃ tag rp, fetchBundle csv program pc = .bad 1 tag rp := by
  generalize hh : program.readNat pc 4 = h at *
  have hm : bits 31 24 h = 0 := by simp only [bits]; omega
  have hn : bits 3 0 h = 0 := by simp only [bits]; omega
  have hdec (w : Nat) : decodeBundle csv h [w] = .bad 1 := by
    simp only [decodeBundle, hm, hn]
    cases hr : bits 7 4 h != 0 <;> rfl
  exact ⟨_, _, by rw [fetchBundle_one hin (by rw [hh]; exact hn), hh, hdec]⟩

end

theorem fetchBundle_beyond {csv : BitVec 4} {program : Mem} {pc : Nat} (h : 262144 ≤ pc) : fetchBundle csv program pc = .beyond pc 0 false :=
  if_pos (by simp only [progSize]; omega)

/-! ## Issuing -/

section
variable {d : Dev} {k : Nat} (h : SlotReady d k)
include h

theorem bundleIssue_ready : bundleIssue d k =
    match fetchBundle (d.bench k).csv (d.bench k).program (d.bench k).arch.pc with
    | .bundle bd => startBundle d k bd
    | .bad reason tag rp => d.benchFault k fltAkkEncoding ⟨tag, (d.bench k).arch.pc, 0, rp, 0⟩ reason
    | .beyond off tag rp => d.benchFault k fltAkkPc ⟨tag, (d.bench k).arch.pc, 0, rp, 0⟩ off := by
  obtain ⟨hi, hw, _⟩ := h
  simp only [bundleIssue, hi, hw, Bool.not_true, Bool.false_eq_true, if_false] <;> rfl

/-- A fetched NOP retires at its one repeat. -/
theorem startBundle_nop (tag : BitVec 16) :
    startBundle d k (nopBundle tag) = (slotEffect d k .nop 7 tag [] id id).retire k (nopBundle tag) ((d.bench k).arch.pc + 8) := by
  obtain ⟨hst, _, hdiscard⟩ := h.runs
  have hlate : ((slotEffect d k .nop 7 tag [] id id).bench k).st = .running ∧
      ((slotEffect d k .nop 7 tag [] id id).bench k).awaitDiscard = false := by
    simp [slotEffect, hst, hdiscard]
  have hrepeat : repeatOnce (d.atRepeat0 k) k (nopBundle tag) 0 = .go (slotEffect d k .nop 7 tag [] id id) :=
    repeatOnce_begins rfl h.2.1 true rfl hlate
  have hstart : startBundle d k (nopBundle tag) = execBundle (d.atRepeat0 k) k (nopBundle tag) := rfl
  have hcount : (nopBundle tag).count = 1 := rfl
  have hend : (nopBundle tag).has .stepend = false := rfl
  have hnext : (nopBundle tag).nextPc { d.bench k with repIdx := 0 }.arch = (d.bench k).arch.pc + 8 := rfl
  rw [hstart]
  unfold execBundle
  simp only [bench_atRepeat0, hcount, Nat.sub_zero, repeats, hrepeat, hend, hnext, Bool.false_eq_true, if_false]

end

/-! ## The trace entry of a bundle (R105, R474, R475) -/

theorem fire_keeps (t : Trace) (tag : BitVec 16) :
    (t.fire tag).1.events = t.events ∧ (t.fire tag).1.seq = t.seq ∧ (t.fire tag).1.dropped = t.dropped := by
  simp only [Trace.fire, Trace.enable]
  split
  · split
    · split <;> exact ⟨rfl, rfl, rfl⟩
    · exact ⟨rfl, rfl, rfl⟩
    · exact ⟨rfl, rfl, rfl⟩
    · exact ⟨rfl, rfl, rfl⟩
  · exact ⟨rfl, rfl, rfl⟩

theorem capture_events (b : Bench) (src : BitVec 18) (planId step kind : Nat) (iss : Issue) (peer data : Nat) (lost : Bool) :
    (b.capture src planId step kind iss peer data lost).trace.events = b.trace.events := by
  simp only [Bench.capture]
  split <;> rfl

/-- The entry of Table 3-15 for a bundle that retires. -/
def bundleEntry (b : Bench) (src : BitVec 18) (planId step : Nat) (iss : Issue) (data : Nat) : List Byte :=
  rec32 (b.trace.seq.toNat * 65536 + iss.tag.toNat) (planId * 2 ^ 48 + iss.pc % 2 ^ 18 * 2 ^ 30 + 0 * 2 ^ 26 + iss.index)
    (src.toNat * 2 ^ 46 + 0 * 2 ^ 28 + step % 65536 * 2 ^ 12) data

/-- A captured bundle is one entry where TRACE_CTL admits it (R474). -/
theorem capture_traces (b : Bench) (src : BitVec 18) (planId step : Nat) (iss : Issue) (data : Nat) (lost : Bool) (hwf : b.traceMem.wf = true) :
    Traces b (b.capture src planId step 0 iss 0 data lost) 0 iss.tag.toNat (bundleEntry b src planId step iss data) := by
  have hkind (ctl : Nat) : bit 0 (bits 6 0 ctl) = bit 0 ctl := by simp [bit, bits]
  unfold Traces Bench.capture
  simp only [hkind]
  by_cases hadmit : bit 8 b.trace.ctl.toNat = true ∧ bit 0 b.trace.ctl.toNat = true ∧ bits 47 32 b.trace.ctl.toNat ≤ iss.tag.toNat ∧
      iss.tag.toNat ≤ bits 63 48 b.trace.ctl.toNat ∧ b.trace.stopped = false
  · rw [if_pos hadmit]
    obtain ⟨hon, hk, hlo, hhi, hstop⟩ := hadmit
    simp only [hon, hk, hlo, hhi, hstop, decide_true, Bool.and_self, Bool.or_true, Bool.not_false, if_true]
    refine ⟨trivial, ?_⟩
    cases lost
    · exact .inl ⟨rfl, fun i => Mem.byte_write _ _ _ hwf⟩
    · exact .inr ⟨rfl, rfl⟩
  · rw [if_neg hadmit, if_neg]
    · exact ⟨rfl, rfl, rfl⟩
    · simpa [and_assoc] using hadmit

/-- What retiring leaves of its bench's trace (R105). -/
theorem retire_trace (d : Dev) (k : Nat) (bd : Bundle) (pc : Nat) :
    let n := (d.bench k).trace.events + 1
    let iss : Issue := ⟨bd.tag, (d.bench k).arch.pc, 0, bd.rep.val != 0, bd.count - 1⟩
    ((d.retire k bd pc).bench k).trace.events = n ∧ ((d.bench k).traceMem.wf = true → Traces (d.bench k) ((d.retire k bd pc).bench k) 0 bd.tag.toNat
      (bundleEntry (d.bench k) (d.benchEp k) d.plan.planId.toNat d.step.toNat iss (bd.mask.toNat * 2 ^ 32 + n.toNat))) := by
  intro n iss
  let b : Bench := { d.bench k with trace := { (d.bench k).trace with events := n } }
  let c : Bench := b.capture (d.benchEp k) d.plan.planId.toNat d.step.toNat 0 iss 0 (bd.mask.toNat * 2 ^ 32 + n.toNat)
    (Config.traceLost d.free k (d.bench k).trace.seq.toNat)
  have hbench : ((d.retire k bd pc).bench k).trace = (c.trace.fire bd.tag).1 ∧ ((d.retire k bd pc).bench k).traceMem = c.traceMem := by
    simp only [bench_retire, Dev.retireBench, Dev.bench_modBench_self, Dev.trace]
    exact ⟨rfl, rfl⟩
  obtain ⟨htrace, hmem⟩ := hbench
  obtain ⟨hevents, hseq, hdropped⟩ := fire_keeps c.trace bd.tag
  refine ⟨?_, fun hwf => ?_⟩
  · rw [htrace, hevents]
    exact capture_events ..
  · have hc := capture_traces b (d.benchEp k) d.plan.planId.toNat d.step.toNat iss (bd.mask.toNat * 2 ^ 32 + n.toNat)
      (Config.traceLost d.free k (d.bench k).trace.seq.toNat) hwf
    unfold Traces at hc ⊢
    rw [htrace, hmem, hseq, hdropped]
    exact hc

/-! ## What BUNDLE_ISSUE leaves -/

/-- A bench that is FAULTED by code keeps its registers and its store, and no other bench sees it (R103). -/
theorem benchFault_faults {d : Dev} {code : BitVec 16} (k : Nat) (iss : Issue) (detail : Nat) (hpoison : code ≠ fltPoisonConsumed)
    (hfence : code ≠ fltFenceSuite) (hshelf : code ≠ fltShelfFlushed) :
    ((d.benchFault k code iss detail).bench k).st = .faulted ∧ ((d.benchFault k code iss detail).bench k).faultCode = code ∧
      ((d.benchFault k code iss detail).bench k).arch = (d.bench k).arch ∧ ((d.benchFault k code iss detail).bench k).store = (d.bench k).store ∧
      ∀ j, j ≠ k → (d.benchFault k code iss detail).bench j = d.bench j := by
  have hstop : (code == fltPoisonConsumed || code == fltFenceSuite) = false := by simp [hpoison, hfence]
  have hflush : (code == fltShelfFlushed) = false := by simp [hshelf]
  obtain ⟨m, t, hrec⟩ := bench_benchRecord_self d k code iss (BitVec.ofNat 16 d.step.toNat) detail
  simp only [Dev.benchFault, hstop, hflush, Bool.false_eq_true, if_false, Dev.bench_discard, Dev.bench_modBench_self, hrec, Bench.stop]
  refine ⟨trivial, trivial, trivial, trivial, fun j hj => ?_⟩
  rw [Dev.bench_modBench_ne _ _ hj]
  exact (Dev.bench_modBench_ne _ _ hj).trans (Dev.bench_trace_ne _ _ _ _ _ hj)

/-- The bench of a NOP before it retires: the shelf, the store and the registers are as they were. -/
theorem nopEffect_bench (d : Dev) (k : Nat) (tag : BitVec 16) :
    (slotEffect d k .nop 7 tag [] id id).bench k = { d.bench k with repIdx := 0 } := by
  have hstep : (soloBundle 7 tag .nop).stepped = [] := rfl
  simp [slotEffect, hstep, Arch.stepAll]

/-- The fields of the entry that a NOP leaves. -/
theorem bundleEntry_nop {b : Bench} {w : Nat} (hw : w < 65536) (hpc : b.arch.pc + 8 ≤ 262144) (src : BitVec 18) (planId step n : Nat) :
    bundleEntry b src planId step ⟨BitVec.ofNat 16 w, b.arch.pc, 0, false, 0⟩ (0x80 * 2 ^ 32 + n) =
      leBytes 8 (b.trace.seq.toNat * 65536 + w) ++ leBytes 8 (planId * 2 ^ 48 + b.arch.pc * 2 ^ 30) ++
        leBytes 8 (src.toNat * 2 ^ 46 + step % 65536 * 2 ^ 12) ++ leBytes 8 (0x80 * 2 ^ 32 + n) := by
  have hfit : b.arch.pc % 2 ^ 18 = b.arch.pc := by omega
  have htag : (BitVec.ofNat 16 w).toNat = w := (BitVec.toNat_ofNat ..).trans (Nat.mod_eq_of_lt hw)
  unfold bundleEntry rec32
  rw [htag, hfit, Nat.zero_mul, Nat.zero_mul, Nat.add_zero, Nat.add_zero, Nat.add_zero]

section
variable {s : State} {e : Dev} {k w : Nat} (hbench : e.bench k = { s.bench k with repIdx := 0 })
include hbench

/-- Retiring a NOP moves the PC on, and adds to the trace (R86, R105). -/
theorem retire_nop_arch (hrest : { e with benches := [], free := 0 } = { s.toDev with benches := [], free := 0 })
    (hothers : ∀ j, j ≠ k → e.bench j = s.bench j) (tag : BitVec 16) (pc : Nat) :
    ArchOnly s ⟨e.retire k (nopBundle tag) pc, s.pending⟩ k { (s.bench k).arch with pc := pc } := by
  obtain ⟨harch, hbeside⟩ := retire_bench e k (nopBundle tag) pc
  refine ⟨retire_only _ _ hrest hothers, ?_, ?_⟩
  · exact harch.trans (by rw [hbench])
  · exact hbeside.trans (by rw [hbench]; rfl)

theorem retire_nop_trace (hw : w < 65536) (hpc : (s.bench k).arch.pc + 8 ≤ 262144) (pc : Nat) :
    let t := e.retire k (nopBundle (BitVec.ofNat 16 w)) pc
    let n := (s.bench k).trace.events + 1
    (t.bench k).trace.events = n ∧ ((s.bench k).traceMem.wf = true → Traces (s.bench k) (t.bench k) 0 w
      (leBytes 8 ((s.bench k).trace.seq.toNat * 65536 + w) ++ leBytes 8 (e.plan.planId.toNat * 2 ^ 48 + (s.bench k).arch.pc * 2 ^ 30) ++
        leBytes 8 ((e.benchEp k).toNat * 2 ^ 46 + e.step.toNat % 65536 * 2 ^ 12) ++ leBytes 8 (0x80 * 2 ^ 32 + n.toNat))) := by
  intro t n
  obtain ⟨hevents, htraces⟩ := retire_trace e k (nopBundle (BitVec.ofNat 16 w)) pc
  have htag : (nopBundle (BitVec.ofNat 16 w)).tag.toNat = w := (BitVec.toNat_ofNat ..).trans (Nat.mod_eq_of_lt hw)
  rw [hbench] at hevents htraces
  refine ⟨hevents, fun hwf => ?_⟩
  have hentry := htraces hwf
  rw [htag] at hentry
  rw [← bundleEntry_nop hw hpc]
  exact hentry

end

/-! ## Errors of the bench's SRAM (R347, R348, R362) -/

theorem marked_setMark {m : Mem} {j k : Nat} : (m.setMark j true).marked k = true ↔ k = j ∨ m.marked k = true := by
  have hmarks : (m.setMark j true).marks = nsPut j (true != m.inLost j) m.marks := rfl
  have hlost : (m.setMark j true).inLost k = m.inLost k := rfl
  simp only [Mem.marked, hmarks, hlost]
  by_cases hk : k = j
  · subst hk
    cases m.inLost k <;> simp [nsPut, nsErase, mem_nsInsert]
  · cases m.inLost j <;> simp [nsPut, nsErase, mem_nsInsert, hk]

/-- A write that is marked throughout marks each sector that it touches (R153). -/
theorem marked_markWrite {m : Mem} {a n k : Nat} (h : k ∈ sectorsOf a n) : (m.markWrite a n (fun _ => true)).marked k = true := by
  have hmark (l : List Nat) (m : Mem) : (l.foldl (fun m k => m.setMark k true) m).marked k = true ↔ k ∈ l ∨ m.marked k = true := by
    induction l generalizing m with
    | nil => simp
    | cons j l ih => rw [List.foldl_cons, ih, marked_setMark, List.mem_cons]; tauto
  unfold Mem.markWrite
  simp only [Bool.true_or]
  exact (hmark _ m).mpr (.inl h)

theorem length_flipSyms (w : List Byte) (e : List SymErr) : (flipSyms w e).length = w.length :=
  foldl_keep (p := List.length) e w fun _ _ => List.length_set

/-- What a read of a sector delivers is a sector long. -/
theorem length_sramRead {data : List Byte} (hlen : data.length = 32) (marked : Bool) (e : List SymErr) :
    (sramRead data marked e).data.length = 32 := by
  have hbad : ((flipSyms (data ++ [0, 0, 0, 0]) e).take 32).length = 32 := by simp [length_flipSyms, hlen]
  simp only [sramRead]
  generalize (flipSyms (data ++ [0, 0, 0, 0]) e).take 32 = bad at hbad ⊢
  have hchunk (x : List Byte) (hx : x.length = 32) (j : Nat) (hj : j ∈ List.range 4) : ((x.drop (8 * j)).take 8).length = 8 := by
    have hj4 := List.mem_range.mp hj
    simp only [List.length_take, List.length_drop, hx]; omega
  split
  · exact hlen
  · split
    · exact hlen
    · rw [List.length_flatMap, List.map_congr_left (g := fun _ => 8) fun j hj => hchunk _ (by split <;> assumption) j hj]
      rfl

theorem length_retryRead {n : Nat} {read : List SymErr → WordRead} (h : ∀ e, (read e).data.length = n) (first again : List SymErr) :
    (retryRead read first again).word.data.length = n := by
  simp only [retryRead]
  split
  · exact h _
  · split
    · exact h _
    · split
      · exact h _
      · split <;> exact h _

/-- A sector of the store that is uncorrectable on both reads is delivered marked, and any other is left as it was. -/
theorem sramError_store (d : Dev) (k : Nat) (n : Fin 131072) (e : WordErr) :
    let m := (d.bench k).store
    let u := ((d.sramError k ⟨.store n, e⟩).bench k).store
    if (retryRead (sramRead (m.read (32 * n.val) 32) (m.marked n.val)) e.first e.again).lost then u.marked n.val = true else u = m := by
  intro m u
  have hsector : d.sramSector k (.store n) = some (m.read (32 * n.val) 32, m.marked n.val) := rfl
  have herror : d.sramError k ⟨.store n, e⟩ =
      if (retryRead (sramRead (m.read (32 * n.val) 32) (m.marked n.val)) e.first e.again).lost then
        d.sramSpoil k (.store n) (retryRead (sramRead (m.read (32 * n.val) 32) (m.marked n.val)) e.first e.again).word.data
      else d := by
    simp only [Dev.sramError, hsector]
  have hlen := length_retryRead (length_sramRead (data := m.read (32 * n.val) 32) (by simp [Mem.read]) (m.marked n.val)) e.first e.again
  cases hlost : (retryRead (sramRead (m.read (32 * n.val) 32) (m.marked n.val)) e.first e.again).lost
  · have hu : u = m := by simp only [u, herror, hlost, Bool.false_eq_true, if_false, m]
    simpa using hu
  · generalize (retryRead (sramRead (m.read (32 * n.val) 32) (m.marked n.val)) e.first e.again).word.data = bytes at *
    have hu : u = m.store (32 * n.val) bytes (fun _ => true) := by
      simp only [u, herror, hlost, if_true, Dev.sramSpoil, Dev.bench_setBench_self, m]
    have hin : n.val ∈ sectorsOf (32 * n.val) 32 := by simp [sectorsOf]
    have hmarked : u.marked n.val = true := by
      rw [hu, Mem.store, hlen]
      exact marked_markWrite hin
    simpa using hmarked

theorem benchLost_offered (d : Dev) (k : Nat) : (d.benchLost k).flog.offered.length = d.flog.offered.length + 1 :=
  unitRecord_offered_length ..

/-- With a lasting error the failed bench is recorded before the bundle and replaced after it (log 95). -/
theorem bundleWithErrors_lasting {d : Dev} {k : Nat} {errs : List SramErr} (ok : Bool) (hi : d.issues k = true)
    (h : ∃ e ∈ errs, d.sramLasting k e = true) : bundleWithErrors d k errs ok =
      (bundleIssue ((errs.foldl (fun d e => d.sramError k e) d).benchLost k) k).takeSpare k ok := by
  have hany : errs.any (fun e => d.sramLasting k e) = true := List.any_eq_true.mpr h
  simp only [bundleWithErrors, hi, hany, Bool.not_true, Bool.false_eq_true, if_false, if_true]

theorem exec_bundleIssue (b : BenchId) (errs : List SramErr) (ok : Bool) (s : State) :
    exec (.bundleIssue b errs ok) s = done s (bundleWithErrors s.toDev (benchKey b) errs ok) := rfl

/-! ## The statement -/

/-- Settles O27: a bundle by what its fetch finds, its SRAM errors by the order of log 95, and a sector by how its retry ends. -/
theorem bundleIssue_obligation : Obligations.BundleIssue := by
  unfold Obligations.BundleIssue
  intro b ok s h
  have hissue : exec (.bundleIssue b [] ok) s = done s (bundleIssue s.toDev (benchKey b)) :=
    congrArg (done s) (bundleWithErrors_nil ..)
  rw [bundleIssue_ready h] at hissue
  refine ⟨fun hin hmask hlow hnop => ?_, fun hin hmask hone => ?_, fun hout => ?_, fun errs => ⟨fun hpass => ?_, fun hlast => ⟨?_, ?_, ?_⟩,
    fun hfence hon => ?_⟩, fun n e => sramError_store s.toDev (benchKey b) n e⟩
  · rw [fetchBundle_nop hin hmask hlow hnop] at hissue
    have hbench := nopEffect_bench s.toDev (benchKey b) (BitVec.ofNat 16
      ((s.bench (benchKey b)).program.readNat (s.bench (benchKey b)).arch.pc 4 / 256 % 65536))
    refine ⟨_, hissue.trans (congrArg (done s) (startBundle_nop h _)), ?_, ?_⟩
    · exact retire_nop_arch hbench rfl (fun j hj => slotEffect_others s.toDev .nop 7 _ [] id hj) _ _
    · exact retire_nop_trace hbench (by omega) hin _
  · obtain ⟨tag, rp, hbad⟩ := fetchBundle_empty (csv := (s.bench (benchKey b)).csv) hin hmask hone
    rw [hbad] at hissue
    exact ⟨_, hissue, benchFault_faults (benchKey b) _ _ (by decide) (by decide) (by decide)⟩
  · rw [fetchBundle_beyond hout] at hissue
    exact ⟨_, hissue, benchFault_faults (benchKey b) _ _ (by decide) (by decide) (by decide)⟩
  · refine (congrArg (done s) (bundleWithErrors_passing ok h.1 hpass)).trans ?_
    rw [exec_bundleIssue, bundleWithErrors_nil]; rfl
  · exact benchLost_discards ..
  · exact benchLost_offered ..
  · refine ⟨_, congrArg (done _) (bundleWithErrors_nil ..), ?_⟩
    exact congrArg (done s) (bundleWithErrors_lasting ok h.1 hlast)
  · have hswap : spareSwap s.toDev (benchKey b) ok = (s.benchLost (benchKey b)).takeSpare (benchKey b) ok :=
      if_neg (by rw [hfence, beq_eq_false_iff_ne.2 hon]; decide)
    exact congrArg (done s) hswap

end Sys2Proof.Machine
end

section
/-! Frames of a port in service (R389–R391, R393, R399, R401, R403): what an answer, a replay and a failure leave of the port, and the flits of
a message that has one. -/

namespace Sys2Proof.Machine

/-! ## One port -/

@[simp] theorem setPort_setPort (d : Dev) (p : Nat) (x y : Port) : (d.setPort p x).setPort p y = d.setPort p y := by
  simp only [Dev.setPort, Tab.set_set]

@[simp] theorem modPort_setPort (d : Dev) (p : Nat) (x : Port) (f : Port → Port) : (d.setPort p x).modPort p f = d.setPort p (f x) := by
  simp only [Dev.modPort, Dev.port_setPort_self, setPort_setPort]

/-- With nothing to send, nothing is sent. -/
theorem pump_idle {x : Port} (n : Nat) (h : x.out = []) : Port.pump n x = x := by
  cases n with
  | zero => rfl
  | succ n => exact if_pos (by simp [h])

/-- Sending counts no replay and leaves the port in service. -/
theorem pump_keeps (n : Nat) (x : Port) : (Port.pump n x).replays = x.replays ∧ (Port.pump n x).st = x.st := by
  induction n generalizing x with
  | zero => exact ⟨rfl, rfl⟩
  | succ n ih =>
    simp only [Port.pump]
    split
    · exact ⟨rfl, rfl⟩
    · split
      · exact ⟨rfl, rfl⟩
      · exact ih _

theorem ack_keeps (x : Port) (late : Bool) (a : BitVec 48) : (x.ack late a).replays = x.replays ∧ (x.ack late a).st = x.st := by
  simp only [Port.ack]
  split
  · exact ⟨rfl, rfl⟩
  · split
    · exact ⟨rfl, rfl⟩
    · exact pump_keeps _ _

/-- An ACKSEQ touches its port alone. -/
theorem takeAck_port (d : Dev) (p : Nat) (a : BitVec 48) :
    (∃ late, (d.takeAck p a).port p = (d.port p).ack late a) ∧ ∀ j, j ≠ p → (d.takeAck p a).port j = d.port j := by
  simp only [Dev.takeAck]
  split
  · exact ⟨⟨false, Dev.port_setPort_self ..⟩, fun j hj => Dev.port_setPort_ne _ _ hj⟩
  · exact ⟨⟨_, Dev.port_setPort_self ..⟩, fun j hj => Dev.port_setPort_ne _ _ hj⟩

/-- With nothing unacknowledged, an ACKSEQ says nothing. -/
theorem takeAck_idle (d : Dev) (p : Nat) {x : Port} (a : BitVec 48) (hkept : x.unacked = []) (hlost : x.lost = 0) :
    (d.setPort p x).takeAck p a = d.setPort p x := by
  have hnone : x.ackAdvance a = 0 := by
    simp only [Port.ackAdvance, hkept, List.length_nil]
    split <;> omega
  simp [Dev.takeAck, hlost, Port.ack, hnone]

/-- A NAK counts a replay (R390). -/
theorem nak_counts {d : Dev} {p : Nat} (a : BitVec 48) (hup : (d.port p).up = true) :
    ((nak d p a).port p).replays = satInc16 (d.port p).replays ∧ ((nak d p a).port p).st = (d.port p).st ∧
      ∀ j, j ≠ p → (nak d p a).port j = d.port j := by
  obtain ⟨⟨late, hport⟩, hothers⟩ := takeAck_port d p a
  obtain ⟨hreplays, hst⟩ := ack_keeps (d.port p) late a
  have hnak : nak d p a = (d.takeAck p a).setPort p ((d.port p).ack late a).replay := by
    simp only [nak, hup, if_true, Dev.modPort, hport]
  rw [hnak, Dev.port_setPort_self]
  exact ⟨congrArg satInc16 hreplays, hst, fun j hj => (Dev.port_setPort_ne _ _ hj).trans (hothers j hj)⟩

/-! ## Failures (R398) -/

/-- The port has failed, and the step is discarded; the other ports stay. -/
def PortFailed (d t : Dev) (p : Nat) : Prop :=
  (t.port p).st = 6 ∧ (t.port p).unacked = [] ∧ (t.port p).out = [] ∧ ⟨fltLinkPort, d.step.setWidth 16⟩ ∈ t.discards ∧
    ∀ j, j ≠ p → t.port j = d.port j

theorem unitDiscard_reports (d : Dev) (kind c i : Nat) (code : BitVec 16) (n : UnitNote) :
    (d.unitDiscard kind c i code n).discards = d.discards ++ [⟨code, d.step.setWidth 16⟩] := by
  rw [← BitVec.ofNat_toNat]
  rfl

theorem failPort_discards (d : Dev) (p : Nat) (st : BitVec 4) :
    (d.failPort p st).discards = d.discards ++ [⟨fltLinkPort, d.step.setWidth 16⟩] := by
  simp only [Dev.failPort]
  exact unitDiscard_reports ..

theorem failPort_port (d : Dev) (p j : Nat) (st : BitVec 4) : (d.failPort p st).port j =
    (d.setPort p { (d.port p).drop with st := st, needRetrain := (d.port p).needRetrain || st == 7 }).port j := by
  simp only [Dev.port, failPort_ports]

/-- A failure of a port that has only been changed itself, or recorded. -/
theorem failPort_failed {d e : Dev} {p : Nat} (hstep : e.step = d.step) (hothers : ∀ j, j ≠ p → e.port j = d.port j) :
    PortFailed d (e.failPort p 6) p := by
  have hself := failPort_port e p p 6
  rw [Dev.port_setPort_self] at hself
  refine ⟨by rw [hself], by rw [hself]; rfl, by rw [hself]; rfl, ?_, fun j hj => ?_⟩
  · rw [failPort_discards, hstep]
    exact List.mem_append_right _ (List.mem_singleton.mpr rfl)
  · rw [failPort_port, Dev.port_setPort_ne _ _ hj]
    exact hothers j hj

theorem replayTimeout_again {d : Dev} {p : Nat} (hup : (d.port p).up = true) (hkept : (d.port p).unacked ≠ [])
    (hfew : (d.port p).expiries < 3) : replayTimeout d p =
      d.setPort p { (d.port p).replay with expiries := (d.port p).expiries + 1, lost := (d.port p).lost + 1 } := by
  have hcount : ((d.port p).expiries + 1 == 4) = false := by simp only [beq_eq_false_iff_ne]; omega
  simp [replayTimeout, hup, hkept, hcount]

theorem replayTimeout_fourth {d : Dev} {p : Nat} (hup : (d.port p).up = true) (hkept : (d.port p).unacked ≠ [])
    (hfourth : (d.port p).expiries = 3) : PortFailed d (replayTimeout d p) p := by
  have hfail : replayTimeout d p =
      (d.setPort p { (d.port p).replay with expiries := (d.port p).expiries + 1, lost := (d.port p).lost + 1 }).failPort p 6 := by
    simp [replayTimeout, hup, hkept, hfourth]
  rw [hfail]
  exact failPort_failed rfl fun j hj => Dev.port_setPort_ne _ _ hj

/-! ## Lanes (R397) -/

/-- The records of lost lanes. -/
def Dev.laneRecords (d : Dev) (p n : Nat) : Dev := (List.range n).foldl (fun d _ => d.portRecord p fltLinkLane { lasting := true }) d

theorem laneRecords_keeps (d : Dev) (p n : Nat) : (∀ j, (d.laneRecords p n).port j = d.port j) ∧ (d.laneRecords p n).step = d.step ∧
    (d.laneRecords p n).discards = d.discards ∧ (d.laneRecords p n).flog.offered.length = d.flog.offered.length + n := by
  induction n with
  | zero => exact ⟨fun _ => rfl, rfl, rfl, rfl⟩
  | succ n ih =>
    obtain ⟨hports, hstep, hdiscards, hlen⟩ := ih
    have hlast : d.laneRecords p (n + 1) = (d.laneRecords p n).portRecord p fltLinkLane { lasting := true } := by
      simp [Dev.laneRecords, List.range_succ]
    rw [hlast]
    refine ⟨hports, hstep, hdiscards, ?_⟩
    exact (unitRecord_offered_length ..).trans (by rw [hlen]; rfl)

section
variable {d : Dev} {p : Nat} {lanes : BitVec 4} (hup : (d.port p).up = true) (hbad : lanes &&& (d.port p).lanes ≠ 0)
include hup hbad

/-- The lanes that are left after a loss. -/
theorem dropLanes_some : d.dropLanes p lanes =
    let bad := lanes &&& (d.port p).lanes
    let left := keepLanes (d.port p).version ((d.port p).lanes &&& ~~~bad)
    let e := d.laneRecords p (laneCount bad)
    if laneCount left < 2 then (e.setPort p { d.port p with degraded := true }).failPort p 6 else (e.setPort p ((d.port p).narrow left)).voidFloor 2 := by
  have hgo : (!(d.port p).up || lanes &&& (d.port p).lanes == 0) = false := by
    simp only [hup, Bool.not_true, Bool.false_or, beq_eq_false_iff_ne]; exact hbad
  simp only [Dev.dropLanes, hgo, Bool.false_eq_true, if_false]
  rfl

/-- With two lanes left the port stays in service. -/
theorem dropLanes_serves :
    let bad := lanes &&& (d.port p).lanes
    let left := keepLanes (d.port p).version ((d.port p).lanes &&& ~~~bad)
    2 ≤ laneCount left → ((d.dropLanes p lanes).port p = (d.port p).narrow left ∧ (∀ j, j ≠ p → (d.dropLanes p lanes).port j = d.port j) ∧
      (d.dropLanes p lanes).flog.offered.length = d.flog.offered.length + laneCount bad ∧ (d.dropLanes p lanes).discards = d.discards) := by
  intro bad left hleft
  obtain ⟨hports, _, hdiscards, hlen⟩ := laneRecords_keeps d p (laneCount bad)
  obtain ⟨seq, suite, hfloor⟩ := voidFloor_keeps ((d.laneRecords p (laneCount bad)).setPort p ((d.port p).narrow left)) 2
  have hdrop : d.dropLanes p lanes = ((d.laneRecords p (laneCount bad)).setPort p ((d.port p).narrow left)).voidFloor 2 :=
    (dropLanes_some hup hbad).trans (if_neg (Nat.not_lt.mpr hleft))
  rw [hdrop, hfloor]
  exact ⟨Dev.port_setPort_self .., fun j hj => (Dev.port_setPort_ne _ _ hj).trans (hports j), hlen, hdiscards⟩

/-- With fewer it fails. -/
theorem dropLanes_fails :
    let left := keepLanes (d.port p).version ((d.port p).lanes &&& ~~~(lanes &&& (d.port p).lanes))
    laneCount left < 2 → PortFailed d (d.dropLanes p lanes) p := by
  intro left hleft
  obtain ⟨hports, hstep, _, _⟩ := laneRecords_keeps d p (laneCount (lanes &&& (d.port p).lanes))
  rw [(dropLanes_some hup hbad).trans (if_pos hleft)]
  exact failPort_failed hstep fun j hj => (Dev.port_setPort_ne _ _ hj).trans (hports j)

end

/-- A lane in use that is named is the lane that is lost. -/
theorem lane_inUse {lanes : BitVec 4} {i : Fin 4} (h : lanes.getLsbD i.val = true) :
    BitVec.ofNat 4 (2 ^ i.val) &&& lanes = BitVec.ofNat 4 (2 ^ i.val) ∧ BitVec.ofNat 4 (2 ^ i.val) ≠ 0 := by
  revert lanes i
  decide

theorem laneCount_zero : laneCount 0 = 0 := by decide

theorem laneLockLoss_few {d : Dev} {p : Nat} {l : BitVec 4} (hup : (d.port p).up = true) (hfew : laneCount (l &&& (d.port p).lanes) ≤ 2) :
    laneLockLoss d p l = d.dropLanes p l := by
  have hnot : ¬ 3 ≤ laneCount (l &&& (d.port p).lanes) := by omega
  simp only [laneLockLoss, hup, hnot, Bool.not_true, Bool.false_eq_true, if_false]

theorem laneLockLoss_many {d : Dev} {p : Nat} {l : BitVec 4} (hup : (d.port p).up = true) (hmany : 3 ≤ laneCount (l &&& (d.port p).lanes)) :
    PortFailed d (laneLockLoss d p l) p := by
  simp only [laneLockLoss, hup, hmany, Bool.not_true, Bool.false_eq_true, if_false, if_true]
  exact failPort_failed rfl fun _ _ => rfl

/-! ## Frames that fail their CRC, and frames without flits (R390, R391) -/

section
variable {d : Dev} {p : Nat} {f : List Byte} {errors : List (Nat × Byte)} (pieces : BitVec 25) (hup : (d.port p).up = true)
include hup

/-- Whether a frame was sent as the next one with flits. -/
def Port.awaits (x : Port) (f : List Byte) (pieces : BitVec 25) : Bool := atN f 0 6 == (x.rxSeq + 1).toNat && !(frameFlits f pieces).isEmpty

theorem frameReceive_bad (hcrc : frameIntact (fecFrame f errors) = false) : frameReceive d p f errors pieces =
    d.badFrame p ((d.port p).awaits f pieces) (lanesOf (d.port p).lanes (uncorrected errors)) := by
  simp only [frameReceive, hup, hcrc, Bool.not_true, Bool.false_eq_true, if_false]
  rfl

theorem frameReceive_good (hcrc : frameIntact (fecFrame f errors) = true) : frameReceive d p f errors pieces = d.goodFrame p (fecFrame f errors) pieces := by
  simp only [frameReceive, hup, hcrc, Bool.not_true, Bool.false_eq_true, if_false, if_true]

end

section
variable {d : Dev} {p : Nat}

/-- The first failure is answered with NAK; so is the second of a frame whose first did not show which lanes were bad. -/
theorem badFrame_nak {awaited : Bool} (lanes : BitVec 4) (hanswer : (d.port p).nakked = false ∨ awaited = true)
    (hfirst : awaited = true → (d.port p).badFrame = none) : d.badFrame p awaited lanes = d.setPort p { d.port p with
      replays := satInc16 (d.port p).replays, nakked := true, last := some ⟨(d.port p).txSeq, [], (d.port p).rxSeq, (0, 0, 0), 2⟩
      badFrame := if awaited then some lanes else (d.port p).badFrame } := by
  have hgo : ((d.port p).nakked && !awaited) = false := by
    rcases hanswer with h | h <;> simp [h]
  simp only [Dev.badFrame, hgo, Bool.false_eq_true, if_false]
  cases awaited
  · rfl
  · simp only [hfirst rfl]; rfl

/-- Later ones are only discarded. -/
theorem badFrame_discarded (lanes : BitVec 4) (hnak : (d.port p).nakked = true) : d.badFrame p false lanes = d :=
  if_pos (by simp [hnak])

/-- The frame number of a duplicate is not the next one. -/
theorem duplicate_ne_next {x fseq : BitVec 48} (h : (x - fseq).toNat < 2 ^ 47) : (fseq == x + 1) = false := by
  simp only [beq_eq_false_iff_ne]
  rintro rfl
  revert h
  have hback : x - (x + 1) = -1#48 := by bv_omega
  rw [hback]
  decide

theorem goodFrame_duplicate {g : List Byte} {pieces : BitVec 25} (hflits : frameFlits g pieces ≠ [])
    (hold : ((d.port p).rxSeq - BitVec.ofNat 48 (atN g 0 6)).toNat < 2 ^ 47) : d.goodFrame p g pieces = d := by
  simp only [Dev.goodFrame, duplicate_ne_next hold, Bool.and_false, Bool.false_eq_true, if_false, hold, if_true, List.isEmpty_iff, hflits]

/-- The credits that the control unit of a frame gives. -/
def Port.credited (x : Port) (g : List Byte) : Port := { x with txCredit := addCredit x.txCredit (atN g 12 2) (atN g 14 2) (atN g 16 2) }

/-- The control unit where nothing is in flight at the port: it gives credits and acknowledges nothing. -/
theorem takeControl_credits {g : List Byte} (hout : (d.port p).out = []) (hkept : (d.port p).unacked = []) (hlost : (d.port p).lost = 0)
    (hop : at1 g 25 ≠ 2) : d.takeControl p g = d.setPort p ((d.port p).credited g) := by
  have hnak : (at1 g 25 == 2) = false := beq_eq_false_iff_ne.mpr hop
  simp only [Dev.takeControl, hnak, Bool.false_eq_true, if_false]
  have hpump : Port.pump 48 ((d.port p).credited g) = (d.port p).credited g := pump_idle 48 hout
  exact (congrArg (fun y : Port => (d.setPort p y).takeAck p (BitVec.ofNat 48 (atN g 6 6))) hpump).trans (takeAck_idle d p _ hkept hlost)

theorem goodFrame_empty {g : List Byte} {pieces : BitVec 25} (hflits : frameFlits g pieces = [])
    (hold : ((d.port p).rxSeq - BitVec.ofNat 48 (atN g 0 6)).toNat < 2 ^ 47) : d.goodFrame p g pieces = d.takeControl p g := by
  simp only [Dev.goodFrame, hflits, List.isEmpty_nil, Bool.not_true, Bool.false_and, Bool.false_eq_true, if_false, hold, if_true]

end

/-! ## A message that has a frame of its own (R393, R399, R401, R409) -/

/-- The port after a flit of class M has been counted and has entered its buffer, with `rx` of the message that arrives. -/
def Port.joined (x : Port) (rx : List Flit) : Port := { ({ x.countFlit 2 with rxDrop := false } : Port).useCredit 2 with rx := rx }

theorem joined_fields (x : Port) (rx : List Flit) : (x.joined rx).st = x.st ∧ (x.joined rx).limit 2 = x.limit 2 ∧ (x.joined rx).rx = rx ∧
    (x.joined rx).rxCredit = (x.rxCredit.1, x.rxCredit.2.1 - 1, x.rxCredit.2.2) ∧ (x.joined rx).version = x.version ∧
    (x.joined rx).rxSeq = x.rxSeq ∧ (x.joined rx).txSeq = x.txSeq ∧ (x.joined rx).rxDrop = false :=
  ⟨rfl, rfl, rfl, rfl, rfl, rfl, rfl, rfl⟩

section
variable {d : Dev} {p : Nat} {x : Port} (hst : x.st = 4) (hlimit : x.limit 2 = 0) (hcredit : x.rxCredit.2.1 ≠ 0)
  (hdrop : (x.rxDrop && !x.rx.isEmpty) = false)
include hst hlimit hcredit hdrop

/-- A flit of class M joins the message, and the whole message goes on to its checks. -/
theorem rxMsgFlit_joins {f h : Flit} {body : List Flit} (hrx : x.rx ++ [f] = h :: body) : (d.setPort p x).rxMsgFlit p f =
    match arrivedPieces 5 (bits 24 11 (atN h.data 0 8) + 1) body with
    | none => d.setPort p (x.joined (h :: body))
    | some ps => (d.setPort p (x.joined [])).rxWhole p h.data ps := by
  have hfree : x.uncredited 2 = false := by simp [Port.uncredited, hst, creditOf, hcredit]
  have htrusted : (x.st == 5) = false := by simp [hst]
  have hunder : x.over 2 = false := by simp [Port.over, hlimit]
  have hmod : (d.setPort p x).modPort p (fun x => { x.countFlit 2 with rxDrop := x.rxDrop && !x.rx.isEmpty }) =
      d.setPort p { x.countFlit 2 with rxDrop := false } := by rw [modPort_setPort, hdrop]
  generalize hy : ({ x.countFlit 2 with rxDrop := false } : Port) = y at hmod
  have hup : (y.useCredit 2).up = true := by subst hy; simp [Port.up, Port.useCredit, Port.countFlit, hst]
  have hrx' : (y.useCredit 2).rx ++ [f] = h :: body := by subst hy; exact hrx
  have hkeep : (y.useCredit 2).rxDrop = false := by subst hy; rfl
  simp only [Dev.rxMsgFlit, Dev.port_setPort_self, hdrop, hfree, htrusted, hunder, Bool.false_eq_true, if_false, hmod, hup, Bool.not_true,
    hrx', setPort_setPort, hkeep, Port.joined, hy] <;>
    cases arrivedPieces 5 (bits 24 11 (atN h.data 0 8) + 1) body <;> rfl

end

/-- The header flit of a message waits for its payload. -/
theorem arrivedPieces_header (n : Nat) : arrivedPieces 5 (n + 1) [] = none := rfl

/-- A raw piece takes the flits of its bytes, and the rest of the payload follows. -/
theorem arrivedPieces_raw (n left : Nat) {f : Flit} (fs : List Flit) (hraw : f.piece = false) : arrivedPieces (n + 1) (left + 1) (f :: fs) =
    if (f :: fs).length < (min (left + 1) 4096 + 63) / 64 then none
    else (arrivedPieces n (left + 1 - 4096) ((f :: fs).drop ((min (left + 1) 4096 + 63) / 64))).map
      (fun r => (none, (f :: fs).take ((min (left + 1) 4096 + 63) / 64)) :: r) := by
  rw [arrivedPieces, hraw]
  rfl

theorem arrivedPieces_nothing (n : Nat) (fs : List Flit) : arrivedPieces n 0 fs = some [] := by cases n <;> rfl

/-- A payload of up to 64 bytes is one flit. -/
theorem arrivedPieces_short {n : Nat} {b : Flit} (hraw : b.piece = false) (hshort : n < 64) :
    arrivedPieces 5 (n + 1) [b] = some [(none, [b])] := by
  have hone : (min (n + 1) 4096 + 63) / 64 = 1 := by omega
  have hrest : n + 1 - 4096 = 0 := by omega
  rw [arrivedPieces_raw 4 n [] hraw, hone, hrest, arrivedPieces_nothing]
  rfl

/-- What a header says of the payload's length bounds what is read of it. -/
theorem msgOf_take {h : List Byte} (payload : List (Byte × Bool)) (hshort : bits 24 11 (atN h 0 8) < 64) :
    msgOf h (payload.take 4096) = msgOf h payload := by
  have hlen : min (bits 24 11 (atN h 0 8) + 1) 4096 = bits 24 11 (atN h 0 8) + 1 := by omega
  have htake : (payload.take 4096).take (bits 24 11 (atN h 0 8) + 1) = payload.take (bits 24 11 (atN h 0 8) + 1) := by
    rw [List.take_take, hlen]
  have hword : leNat ((h.drop (8 * 0)).take 8) = atN h 0 8 := rfl
  simp only [msgOf, hword, htake]

theorem rxWhole_raw (d : Dev) (p : Nat) {h : List Byte} (b : Flit) (hshort : bits 24 11 (atN h 0 8) < 64) :
    d.rxWhole p h [(none, [b])] = d.rxMessage p h (msgOf h b.bytes) := by
  have hbytes : ([b].flatMap Flit.bytes).take 4096 = b.bytes.take 4096 := by simp
  rw [← msgOf_take b.bytes hshort]
  simp [Dev.rxWhole, Cmp.piece]

/-- A message to this device that passes its checks enters it (R399, R409). -/
theorem rxMessage_enters {d : Dev} {p : Nat} {h : List Byte} {m : Msg} (hgood : headerBad h m = false) (hsuite : d.inSuite (epDev m.src) = true)
    (hloaded : d.planLoaded = true) (hplan : m.planId = d.plan.planId) (hhere : epDev m.dest = d.number.toNat) (hsb : epVal m.dest ≠ 0xF0) :
    d.rxMessage p h m = { d with net := d.net ++ d.expand m } := by
  have hload : (d.plan.st == .loaded || d.plan.st == .running || d.plan.st == .unloading) = true := hloaded
  have hsb' : (epVal m.dest == 0xF0) = false := beq_eq_false_iff_ne.mpr hsb
  simp [Dev.rxMessage, hgood, hsuite, hload, hplan, hhere, hsb']

/-- The credits of a message of two flits return with its acknowledgement (log 47). -/
theorem reply_returns {x : Port} (hst : x.st = 4) (hrx : x.rx = []) {c : Nat × Nat × Nat} (hcap : creditCap x.version = c)
    (hcredit : x.rxCredit = (c.1, c.2.1 - 2, c.2.2)) (hroom : 2 ≤ c.2.1) :
    x.reply = { x with rxCredit := c, last := some ⟨x.txSeq, [], x.rxSeq, (0, 2, 0), 0⟩ } := by
  have hgive : (c.1 - c.1, c.2.1 - (c.2.1 - 2) - 0, c.2.2 - c.2.2) = (0, 2, 0) := by
    simp only [Nat.sub_self, Prod.mk.injEq, and_true, true_and]; omega
  have hsum : addCredit (c.1, c.2.1 - 2, c.2.2) 0 2 0 = c := by
    simp only [addCredit, Nat.add_zero]
    rw [Nat.sub_add_cancel hroom]
  simp only [Port.reply, hst, beq_self_eq_true, if_true, hcap, hcredit, hrx, List.length_nil, hgive, hsum]
  rfl

/-- The port once the control unit of the next frame in order has been taken. -/
def Port.inOrder (x : Port) (g : List Byte) : Port :=
  { x.credited g with rxSeq := BitVec.ofNat 48 (atN g 0 6), nakked := false, badFrame := none }

theorem inOrder_fields (x : Port) (g : List Byte) : (x.inOrder g).st = x.st ∧ (x.inOrder g).limit 2 = x.limit 2 ∧ (x.inOrder g).rx = x.rx ∧
    (x.inOrder g).rxCredit = x.rxCredit ∧ (x.inOrder g).version = x.version ∧ (x.inOrder g).rxSeq = BitVec.ofNat 48 (atN g 0 6) ∧
    (x.inOrder g).txSeq = x.txSeq := ⟨rfl, rfl, rfl, rfl, rfl, rfl, rfl⟩

/-- The port once both flits of a message of two have left its buffer. -/
theorem message_fields (x : Port) (h : Flit) : ((x.joined [h]).joined []).st = x.st ∧ ((x.joined [h]).joined []).rx = [] ∧
    ((x.joined [h]).joined []).rxCredit = (x.rxCredit.1, x.rxCredit.2.1 - 2, x.rxCredit.2.2) ∧ ((x.joined [h]).joined []).version = x.version ∧
    ((x.joined [h]).joined []).rxSeq = x.rxSeq ∧ ((x.joined [h]).joined []).txSeq = x.txSeq := by
  obtain ⟨st, _, _, credit, version, rxSeq, txSeq, _⟩ := joined_fields x [h]
  obtain ⟨st', _, rx', credit', version', rxSeq', txSeq', _⟩ := joined_fields (x.joined [h]) []
  refine ⟨st'.trans st, rx', ?_, version'.trans version, rxSeq'.trans rxSeq, txSeq'.trans txSeq⟩
  rw [credit', credit, Nat.sub_sub]

/-- A message of two flits between them: the header waits, and the payload's flit completes it. -/
theorem rxFlit_two {d : Dev} {p : Nat} {x : Port} {h b : Flit} (hst : x.st = 4) (hlimit : x.limit 2 = 0) (hcredit : 2 ≤ x.rxCredit.2.1)
    (hrx : x.rx = []) (hclsh : h.cls = 2) (hclsb : b.cls = 2) (hraw : b.piece = false) (hshort : bits 24 11 (atN h.data 0 8) < 64) :
    ((d.setPort p x).rxFlit p h).rxFlit p b =
      (d.setPort p ((x.joined [h]).joined [])).rxMessage p h.data (msgOf h.data b.bytes) := by
  have hflit (y : Port) (hy : y.st = 4) (f : Flit) (hf : f.cls = 2) : (d.setPort p y).rxFlit p f = (d.setPort p y).rxMsgFlit p f := by
    have hup : y.up = true := by simp [Port.up, hy]
    simp [Dev.rxFlit, hup, hf]
  have hwait : (d.setPort p x).rxFlit p h = d.setPort p (x.joined [h]) := by
    rw [hflit x hst h hclsh, rxMsgFlit_joins hst hlimit (by omega) (by simp [hrx]) (h := h) (body := []) (by rw [hrx]; rfl), arrivedPieces_header]
  have hwhole : (d.setPort p (x.joined [h])).rxFlit p b = (d.setPort p ((x.joined [h]).joined [])).rxWhole p h.data [(none, [b])] := by
    obtain ⟨jst, jlimit, jrx, jcredit, _, _, _, jdrop⟩ := joined_fields x [h]
    have hleft : (x.joined [h]).rxCredit.2.1 ≠ 0 := by rw [jcredit]; dsimp only; omega
    rw [hflit (x.joined [h]) (jst.trans hst) b hclsb, rxMsgFlit_joins (jst.trans hst) (jlimit.trans hlimit) hleft (by rw [jdrop]; rfl) (h := h)
      (body := [b]) (by rw [jrx]; rfl), arrivedPieces_short hraw hshort]
  rw [hwait, hwhole]
  exact rxWhole_raw _ p b hshort

/-- The next frame in order, with one message of two flits (R390, R399, R409). -/
theorem goodFrame_message {d : Dev} {p : Nat} {g : List Byte} {pieces : BitVec 25} {h b : Flit} {c : Nat × Nat × Nat}
    (hout : (d.port p).out = []) (hkept : (d.port p).unacked = []) (hlost : (d.port p).lost = 0) (hop : at1 g 25 ≠ 2)
    (hflits : frameFlits g pieces = [h, b]) (hst : (d.port p).st = 4) (hlimit : (d.port p).limit 2 = 0) (hrx : (d.port p).rx = [])
    (hcap : creditCap (d.port p).version = c) (hcredit : (d.port p).rxCredit = c) (hroom : 2 ≤ c.2.1)
    (hnext : BitVec.ofNat 48 (atN g 0 6) = (d.port p).rxSeq + 1)
    (hclsh : h.cls = 2) (hclsb : b.cls = 2) (hraw : b.piece = false) (hshort : bits 24 11 (atN h.data 0 8) < 64)
    (henters : ∀ y : Port, (d.setPort p y).rxMessage p h.data (msgOf h.data b.bytes) =
      { d.setPort p y with net := d.net ++ d.expand (msgOf h.data b.bytes) }) :
    ∃ y : Port, d.goodFrame p g pieces = ({ d with net := d.net ++ d.expand (msgOf h.data b.bytes) } : Dev).setPort p y ∧
      y.rxSeq = (d.port p).rxSeq + 1 ∧ y.rx = [] ∧ y.rxCredit = c ∧ y.last = some ⟨(d.port p).txSeq, [], (d.port p).rxSeq + 1, (0, 2, 0), 0⟩ := by
  obtain ⟨ost, olimit, orx, ocredit, oversion, orxSeq, otxSeq⟩ := inOrder_fields (d.port p) g
  have hcontrol : (d.takeControl p g).modPort p (fun x => { x with rxSeq := BitVec.ofNat 48 (atN g 0 6), nakked := false, badFrame := none }) =
      d.setPort p ((d.port p).inOrder g) := by
    rw [takeControl_credits hout hkept hlost hop, modPort_setPort]; rfl
  generalize (d.port p).inOrder g = x at *
  obtain ⟨zst, zrx, zcredit, zversion, zrxSeq, ztxSeq⟩ := message_fields x h
  have htwo := rxFlit_two (d := d) (p := p) (ost.trans hst) (olimit.trans hlimit) (by rw [ocredit, hcredit]; exact hroom) (orx.trans hrx)
    hclsh hclsb hraw hshort
  rw [henters] at htwo
  generalize (x.joined [h]).joined [] = z at *
  have hzup : z.up = true := by simp [Port.up, zst, ost, hst]
  have hreply := reply_returns (x := z) (by rw [zst, ost, hst]) zrx (by rw [zversion, oversion, hcap]) (by rw [zcredit, ocredit, hcredit]) hroom
  have hnextFrame : (!(frameFlits g pieces).isEmpty && BitVec.ofNat 48 (atN g 0 6) == (d.port p).rxSeq + 1) = true := by simp [hflits, hnext]
  refine ⟨z.reply, ?_, ?_⟩
  · have hport : ({ d.setPort p z with net := d.net ++ d.expand (msgOf h.data b.bytes) } : Dev).port p = z := Dev.port_setPort_self ..
    rw [Dev.goodFrame, if_pos hnextFrame, hcontrol, hflits]
    simp only [List.foldl_cons, List.foldl_nil, htwo, hport, hzup, if_true, Dev.modPort]
    exact congrArg (fun e : Dev => ({ e with net := d.net ++ d.expand (msgOf h.data b.bytes) } : Dev)) (setPort_setPort d p z z.reply)
  · rw [hreply]
    refine ⟨by rw [← hnext, ← orxSeq, ← zrxSeq], zrx, rfl, ?_⟩
    show some (TxFrame.mk z.txSeq [] z.rxSeq (0, 2, 0) 0) = _
    rw [ztxSeq, otxSeq, zrxSeq, orxSeq, hnext]

/-! ## The statement -/

theorem rateWindowRestart_port (d : Dev) (p : Nat) : rateWindowRestart d p = d.setPort p (if 999 ≤ (d.port p).ticks
    then { d.port p with window := (0, 0, 0), ticks := 0, burst := 0, rateTold := false }
    else { d.port p with window := (0, 0, 0), ticks := (d.port p).ticks + 1 }) := rfl

/-- The lanes that either command takes from a port in service. -/
theorem lanes_dropped {s : State} {p : Pt} {c : Instr} {bad : BitVec 4} (hup : (s.port p.val).up = true)
    (h : (∃ lane : Fin 4, (s.port p.val).lanes.getLsbD lane.val = true ∧ c = .laneDrop p lane ∧ bad = BitVec.ofNat 4 (2 ^ lane.val)) ∨
      (∃ l, c = .laneLockLoss p l ∧ bad = l &&& (s.port p.val).lanes ∧ 1 ≤ laneCount bad ∧ laneCount bad ≤ 2)) :
    ∃ l, bad = l &&& (s.port p.val).lanes ∧ bad ≠ 0 ∧ exec c s = done s (s.dropLanes p.val l) := by
  rcases h with ⟨lane, huse, rfl, rfl⟩ | ⟨l, rfl, rfl, hone, htwo⟩
  · obtain ⟨hlane, hnonzero⟩ := lane_inUse huse
    exact ⟨BitVec.ofNat 4 (2 ^ lane.val), hlane.symm, hnonzero, rfl⟩
  · refine ⟨l, rfl, fun hzero => ?_, congrArg (done s) (laneLockLoss_few hup htwo)⟩
    rw [hzero, laneCount_zero] at hone
    exact absurd hone (by decide)

/-- Settles O52: frames by their CRC, order and flits, and lanes, expiries and NAK by what each leaves of the port. -/
theorem linkTraffic : Obligations.LinkTraffic := by
  unfold Obligations.LinkTraffic
  intro p s
  refine ⟨congrArg (done s) (rateWindowRestart_port ..), fun hup => ⟨fun f errors pieces hcrc => ⟨fun hanswer hfirst => ?_, fun hnak hnot => ?_⟩,
    fun f errors pieces hcrc hflits hold => ?_, fun f errors pieces hcrc hout hkept hlost hop => ⟨fun hflits hold => ?_, ?_⟩, fun a => ?_,
    fun c bad hcase => ?_, fun l hmany => ?_, fun hkept hfew => ?_, fun hkept hfourth => ?_⟩⟩
  · exact congrArg (done s) ((frameReceive_bad pieces hup hcrc).trans (badFrame_nak _ hanswer hfirst))
  · refine congrArg (done s) ((frameReceive_bad pieces hup hcrc).trans ?_)
    have hawaits : (s.port p.val).awaits f pieces = false := hnot
    rw [hawaits]
    exact badFrame_discarded _ hnak
  · exact congrArg (done s) ((frameReceive_good pieces hup hcrc).trans (goodFrame_duplicate hflits hold))
  · have hgood := (frameReceive_good pieces hup hcrc).trans ((goodFrame_empty hflits hold).trans (takeControl_credits hout hkept hlost hop))
    exact ⟨_, congrArg (done s) hgood, Dev.port_setPort_self .., fun j hj => Dev.port_setPort_ne _ _ hj, rfl⟩
  · intro h b hflits hclsh hclsb hraw hshort hst hrx hlimit hcredit hnext m hheader hsuite hloaded hplan hhere hsb
    obtain ⟨y, hy, hseq, hyrx, hycredit, hlast⟩ := goodFrame_message hout hkept hlost hop hflits hst hlimit hrx rfl hcredit (by simp [creditCap]) hnext
      hclsh hclsb hraw hshort fun y => rxMessage_enters hheader hsuite hloaded hplan hhere hsb
    refine ⟨_, congrArg (done s) ((frameReceive_good pieces hup hcrc).trans hy), ?_⟩
    have hport (n : List Msg) : (({ s.toDev with net := n } : Dev).setPort p.val y).port p.val = y := Dev.port_setPort_self ..
    refine ⟨?_, ?_, ?_, ?_, rfl, fun j hj => Dev.port_setPort_ne _ _ hj⟩
    · exact (congrArg Port.rxSeq (hport _)).trans hseq
    · exact (congrArg Port.rx (hport _)).trans hyrx
    · exact (congrArg Port.rxCredit (hport _)).trans (hycredit.trans hcredit.symm)
    · exact (congrArg Port.last (hport _)).trans hlast
  · exact ⟨_, rfl, nak_counts a hup⟩
  · obtain ⟨l, rfl, hbad, hexec⟩ := lanes_dropped hup hcase
    refine ⟨fun hleft => ?_, fun hleft => ⟨_, hexec, dropLanes_fails hup hbad hleft⟩⟩
    obtain ⟨hport, hothers, hlen, hdiscards⟩ := dropLanes_serves hup hbad hleft
    exact ⟨_, hexec, hport, (congrArg Port.lanes hport).trans rfl, (congrArg Port.degraded hport).trans rfl,
      (congrArg Port.replays hport).trans rfl, (congrArg Port.laneFrame hport).trans rfl, hothers, hlen, hdiscards⟩
  · exact ⟨_, rfl, laneLockLoss_many hup hmany⟩
  · exact congrArg (done s) (replayTimeout_again hup hkept hfew)
  · exact ⟨_, rfl, replayTimeout_fourth hup hkept hfourth⟩

end Sys2Proof.Machine
end

section
/-! What one slot leaves of its bench (R81, R86, R103): the repeat of a bundle of one slot, tried first or again after a wait, by whether the slot
goes on, faults or waits, and what retiring leaves. -/

namespace Sys2Proof.Machine

/-! ## Changes of one bench -/

/-- Nothing but bench k, and the count of the free values used, differs. -/
def OnlyAt (k : Nat) (d e : Dev) : Prop :=
  { e with benches := [], free := 0 } = { d with benches := [], free := 0 } ∧ ∀ j, j ≠ k → e.bench j = d.bench j

namespace OnlyAt

theorem refl (k : Nat) (d : Dev) : OnlyAt k d d := ⟨rfl, fun _ _ => rfl⟩

variable {k : Nat} {d e : Dev}

theorem trans {f : Dev} (h : OnlyAt k d e) (g : OnlyAt k e f) : OnlyAt k d f :=
  ⟨g.1.trans h.1, fun j hj => (g.2 j hj).trans (h.2 j hj)⟩

theorem modBench (h : OnlyAt k d e) (f : Bench → Bench) : OnlyAt k d (e.modBench k f) :=
  h.trans ⟨rfl, fun _ hj => Dev.bench_modBench_ne _ _ hj⟩

theorem trace (h : OnlyAt k d e) (kind : Nat) (iss : Issue) (peer data : Nat) : OnlyAt k d (e.trace k kind iss peer data) := h.modBench _

theorem fresh (h : OnlyAt k d e) : OnlyAt k d e.fresh := h.trans ⟨rfl, fun _ _ => rfl⟩

theorem waitEnds (h : OnlyAt k d e) (bd : Bundle) (idx : Nat) : OnlyAt k d (e.waitEnds k bd idx) := by
  simp only [Dev.waitEnds]
  split
  · exact h
  · exact (h.trace ..).modBench _

theorem atRepeat0 (h : OnlyAt k d e) : OnlyAt k d (e.atRepeat0 k) := h.modBench _

/-- A field of the device that is neither its benches nor the count. -/
theorem field (h : OnlyAt k d e) {α : Type} (p : Dev → α) (hp : ∀ x : Dev, p { x with benches := [], free := 0 } = p x) : p e = p d :=
  (hp e).symm.trans ((congrArg p h.1).trans (hp d))

end OnlyAt

/-! ## Retiring -/

/-- Bench k of t is c, of which a bundle has retired: the trace, the state and the halt request, and what a halt during an unload abandons, are
retirement's (R58, R63, R105). -/
structure Retires (s t : State) (k : Nat) (c : Bench) : Prop where
  only : OnlyRetires s t k
  arch : (t.bench k).arch = c.arch
  beside : (t.bench k).besideArch = c.besideArch
  wait : (t.bench k).wait = none

theorem retire_wait (d : Dev) (k : Nat) (bd : Bundle) (pc : Nat) : ((d.retire k bd pc).bench k).wait = none := by
  simp only [bench_retire, Dev.retireBench, Dev.bench_modBench_self]

theorem OnlyAt.retires {s : State} {d : Dev} {k : Nat} (h : OnlyAt k s.toDev d) (bd : Bundle) (pc : Nat) :
    Retires s ⟨d.retire k bd pc, s.pending⟩ k { d.bench k with arch := { (d.bench k).arch with pc := pc } } :=
  ⟨retire_only bd pc h.1 h.2, (retire_bench d k bd pc).1, (retire_bench d k bd pc).2, retire_wait d k bd pc⟩

/-- What a bench keeps beside its registers and what retiring writes. -/
theorem Retires.field {s t : State} {k : Nat} {c : Bench} (h : Retires s t k c) {α : Type} (p : Bench → α)
    (hp : ∀ b : Bench, p b.besideArch = p b) : p (t.bench k) = p c :=
  (hp _).symm.trans ((congrArg p h.beside).trans (hp c))

theorem Retires.archOnly {s t : State} {k : Nat} {c : Bench} (h : Retires s t k c) {r : Arch} (harch : c.arch = r)
    (hbeside : c.besideArch = (s.bench k).besideArch) : ArchOnly s t k r :=
  ⟨h.only, h.arch.trans harch, h.beside.trans hbeside⟩

/-! ## Address operands and the PC -/

@[simp] theorem afterSlot_nil (r : Arch) (csv : BitVec 4) : r.afterSlot csv [] = r := by
  unfold Arch.afterSlot
  split <;> rfl

@[simp] theorem afterSlot_pc (r : Arch) (csv : BitVec 4) (as : List AOp) : (r.afterSlot csv as).pc = r.pc := by
  unfold Arch.afterSlot
  split
  · rfl
  · exact stepAll_pc ..

theorem soloBundle_stepped (slot : Nat) (tag : BitVec 16) (op : SlotOp) :
    (soloBundle slot tag op).stepped = op.aops.foldl (fun l a => if a.step then nsInsert a.reg.val l else l) [] := by
  simp [Bundle.stepped, soloBundle]

/-- The registers of a slot command after its one repeat. -/
theorem afterSlot_solo (slot : Nat) (tag : BitVec 16) (op : SlotOp) (csv : BitVec 4) (r : Arch) :
    (if csv == 2#4 then r else r.stepAll (soloBundle slot tag op).stepped) = r.afterSlot csv op.aops := by
  rw [soloBundle_stepped]
  rfl

/-! ## One repeat -/

/-- The device as the slot's late effects find it: the wait is over, and the stores, the shelf and the registers of its bench are written. -/
def soloBase (d : Dev) (k slot : Nat) (tag : BitVec 16) (op : SlotOp) (st : List StoreW) (shelf : Shelf) (f : Arch → Arch) : Dev :=
  ((d.waitEnds k (soloBundle slot tag op) 0).modBench k (fun b =>
    { b with store := st.foldl Mem.put b.store, shelf := shelf, arch := (f b.arch).afterSlot b.csv op.aops })).fresh

theorem soloBase_only {s : State} {d : Dev} {k : Nat} (h : OnlyAt k s.toDev d) (slot : Nat) (tag : BitVec 16) (op : SlotOp) (st : List StoreW)
    (shelf : Shelf) (f : Arch → Arch) : OnlyAt k s.toDev (soloBase d k slot tag op st shelf f) := ((h.waitEnds ..).modBench _).fresh

theorem soloBase_bench (d : Dev) (k slot : Nat) (tag : BitVec 16) (op : SlotOp) (st : List StoreW) (shelf : Shelf) (f : Arch → Arch) :
    ∃ m t, (soloBase d k slot tag op st shelf f).bench k = { d.bench k with
      traceMem := m, trace := t, wait := none, store := st.foldl Mem.put (d.bench k).store, shelf := shelf
      arch := (f (d.bench k).arch).afterSlot (d.bench k).csv op.aops } := by
  simp only [soloBase, Dev.bench_fresh, Dev.bench_modBench_self]
  cases hw : (d.bench k).wait with
  | none => exact ⟨(d.bench k).traceMem, (d.bench k).trace, by simp only [Dev.waitEnds, hw]⟩
  | some w =>
    obtain ⟨m, t, h⟩ := bench_waitEnds_self (soloBundle slot tag op) 0 hw
    exact ⟨m, t, by rw [h]⟩

section
variable {d : Dev} {k slot : Nat} {tag : BitVec 16} {op : SlotOp}

/-- What the slot of a bundle of one evaluates to, where its VPOP takes `row`. -/
def soloEval (d : Dev) (k slot : Nat) (tag : BitVec 16) (op : SlotOp) (row : Option VReg) : Res :=
  evalSlot d k (soloBundle slot tag op) (d.soloIssue k slot tag) (d.bench k).store row op

/-- What the shelf answers to the repeat. -/
def soloShelf (d : Dev) (k slot : Nat) (tag : BitVec 16) (op : SlotOp) : ShelfOut :=
  shelfRepeat (d.bench k).shelf (d.bench k).wait.isSome ((soloBundle slot tag op).tiles (d.bench k).arch) op.isVpop

theorem soloShelf_plain (hp : op.plain = true) : soloShelf d k slot tag op = .go (d.bench k).shelf none := by
  obtain ⟨htiles, hpop⟩ := plain_beside_shelf hp slot tag (d.bench k).arch
  have hpop' : op.isVpop = false := by simpa using hpop
  simp [soloShelf, htiles, hpop', shelfRepeat]

variable (ht : d.touchAtoms k (soloBundle slot tag op) = d)
include ht

theorem repeatOnce_goes {shelf : Shelf} {row : Option VReg} {st : List StoreW} {f : Arch → Arch} {late : Dev → Dev}
    (hsh : soloShelf d k slot tag op = .go shelf row) (hst : (soloEval d k slot tag op none).stores = st)
    (he : soloEval d k slot tag op row = .ok st f late) :
    repeatOnce d k (soloBundle slot tag op) 0 =
      if ((late (soloBase d k slot tag op st shelf f)).bench k).st == .running &&
          !((late (soloBase d k slot tag op st shelf f)).bench k).awaitDiscard then .go (late (soloBase d k slot tag op st shelf f))
      else .stop ((late (soloBase d k slot tag op st shelf f)).modBench k (fun b => { b with repIdx := 0 })) := by
  have hsl : (soloBundle slot tag op).slots = [(slot, op)] := rfl
  have hc : ((0 : Nat) + 1 == (soloBundle slot tag op).count) = true := rfl
  unfold soloShelf at hsh
  unfold soloEval at hst he
  unfold repeatOnce
  simp only [ht, hsl, List.any_cons, List.any_nil, Bool.or_false, hsh, List.map_cons, List.map_nil, viewMem_self]
  rw [show (⟨(soloBundle slot tag op).tag, (d.bench k).arch.pc, slot, (soloBundle slot tag op).rep.val != 0, 0⟩ : Issue) =
    d.soloIssue k slot tag from rfl]
  simp only [hst, he, firstFault, firstWait, List.foldl_cons, List.foldl_nil, applyStores_one, hc, Bool.and_true, afterSlot_solo]
  rfl

theorem repeatOnce_waits {shelf : Shelf} {row : Option VReg} {kind : BitVec 3} {begun : Dev → Dev}
    (hsh : soloShelf d k slot tag op = .go shelf row) (he : soloEval d k slot tag op row = .wait kind begun) :
    repeatOnce d k (soloBundle slot tag op) 0 = .stop ((begun d).waitAt k kind (soloBundle slot tag op) 0) := by
  have hsl : (soloBundle slot tag op).slots = [(slot, op)] := rfl
  unfold soloShelf at hsh
  unfold soloEval at he
  unfold repeatOnce
  simp only [ht, hsl, List.any_cons, List.any_nil, Bool.or_false, hsh, List.map_cons, List.map_nil, viewMem_self]
  rw [show (⟨(soloBundle slot tag op).tag, (d.bench k).arch.pc, slot, (soloBundle slot tag op).rep.val != 0, 0⟩ : Issue) =
    d.soloIssue k slot tag from rfl]
  simp only [he, firstFault, firstWait]

theorem repeatOnce_faults {shelf : Shelf} {row : Option VReg} {code : BitVec 16} {detail : Nat}
    (hsh : soloShelf d k slot tag op = .go shelf row) (he : soloEval d k slot tag op row = .fault code detail) :
    repeatOnce d k (soloBundle slot tag op) 0 =
      .stop (((d.atRepeat0 k).fresh.waitEnds k (soloBundle slot tag op) 0).benchFault k code (d.soloIssue k slot tag) detail) := by
  have hsl : (soloBundle slot tag op).slots = [(slot, op)] := rfl
  unfold soloShelf at hsh
  unfold soloEval at he
  unfold repeatOnce
  simp only [ht, hsl, List.any_cons, List.any_nil, Bool.or_false, hsh, List.map_cons, List.map_nil, viewMem_self]
  rw [show (⟨(soloBundle slot tag op).tag, (d.bench k).arch.pc, slot, (soloBundle slot tag op).rep.val != 0, 0⟩ : Issue) =
    d.soloIssue k slot tag from rfl]
  simp only [he, firstFault, List.filter_cons, bne_self_eq_false, Bool.false_eq_true, if_false, List.filter_nil, partialStores, List.foldl_nil, id]
  rfl

theorem repeatOnce_holds {shelf : Shelf} {f : Arch → Arch} {st : List StoreW}
    (hsh : soloShelf d k slot tag op = .hold shelf) (he : soloEval d k slot tag op none = .ok st f id) :
    repeatOnce d k (soloBundle slot tag op) 0 = .stop ((d.modBench k (fun b => { b with
      shelf := shelf
      arch := (soloBundle slot tag op).pushed (((soloBundle slot tag op).tiles (d.bench k).arch).length - (shelf.rest.getD []).length) b.arch })).waitAt
        k 5 (soloBundle slot tag op) 0) := by
  have hsl : (soloBundle slot tag op).slots = [(slot, op)] := rfl
  unfold soloShelf at hsh
  unfold soloEval at he
  unfold repeatOnce
  simp only [ht, hsl, List.any_cons, List.any_nil, Bool.or_false, hsh, List.map_cons, List.map_nil, viewMem_self]
  rw [show (⟨(soloBundle slot tag op).tag, (d.bench k).arch.pc, slot, (soloBundle slot tag op).rep.val != 0, 0⟩ : Issue) =
    d.soloIssue k slot tag from rfl]
  simp only [he, firstFault, firstWait]

end

/-! ## The bundle -/

section
variable {d e : Dev} {k slot : Nat} {tag : BitVec 16} {op : SlotOp} (h0 : (d.bench k).repIdx = 0)
include h0

theorem execBundle_stops (h : repeatOnce d k (soloBundle slot tag op) 0 = .stop e) : execBundle d k (soloBundle slot tag op) = e := by
  have hcount : (soloBundle slot tag op).count = 1 := rfl
  unfold execBundle
  simp only [h0, hcount, Nat.sub_zero, repeats, h]

theorem execBundle_goes (h : repeatOnce d k (soloBundle slot tag op) 0 = .go e) (hs : op ≠ .stepend) :
    execBundle d k (soloBundle slot tag op) = e.retire k (soloBundle slot tag op) ((soloBundle slot tag op).nextPc (d.bench k).arch) := by
  have hcount : (soloBundle slot tag op).count = 1 := rfl
  have hend : (soloBundle slot tag op).has .stepend = false := by simp [Bundle.has, soloBundle, hs]
  unfold execBundle
  simp only [h0, hcount, Nat.sub_zero, repeats, h, hend, Bool.false_eq_true, if_false]

end

/-- A bundle of one slot retires where what the slot begins leaves its bench RUNNING and changes nothing but that bench. -/
theorem execBundle_retires {s : State} {d : Dev} {k slot : Nat} {tag : BitVec 16} {op : SlotOp} {shelf : Shelf} {row : Option VReg}
    {st : List StoreW} {f : Arch → Arch} {late : Dev → Dev} (hd : OnlyAt k s.toDev d) (h0 : (d.bench k).repIdx = 0)
    (ht : d.touchAtoms k (soloBundle slot tag op) = d) (hsh : soloShelf d k slot tag op = .go shelf row)
    (hst : (soloEval d k slot tag op none).stores = st) (he : soloEval d k slot tag op row = .ok st f late) (hs : op ≠ .stepend) {c : Bench}
    (hc : (late (soloBase d k slot tag op st shelf f)).bench k = c) (hrun : c.st = .running ∧ c.awaitDiscard = false)
    (hlate : ∀ e, OnlyAt k e (late e)) :
    ∃ t, done s (execBundle d k (soloBundle slot tag op)) = .next t ∧
      Retires s t k { c with arch := { c.arch with pc := (soloBundle slot tag op).nextPc (d.bench k).arch } } := by
  have hgo := repeatOnce_goes ht hsh hst he
  rw [hc, hrun.1, hrun.2] at hgo
  have hretire := ((soloBase_only hd slot tag op st shelf f).trans (hlate _)).retires (soloBundle slot tag op)
    ((soloBundle slot tag op).nextPc (d.bench k).arch)
  rw [hc] at hretire
  exact ⟨_, congrArg (done s) (execBundle_goes h0 hgo hs), hretire⟩

end Sys2Proof.Machine
end

section
/-! The scalar slots (R99): what they write, where they branch, what a marked register does to them (R102), and the step end (R100). -/

namespace Sys2Proof.Machine

/-! ## Slots that write registers -/

section
variable {s : State} {k slot : Nat} {tag : BitVec 16} {op : SlotOp} (h : SlotReady s.toDev k) (hr : op.reasons (s.bench k).csv = [])
  (hp : op.plain = true)
include h hr hp

/-- A plain slot that stores, writes registers and takes no branch. -/
theorem slot_stores {st : List StoreW} {f : Arch → Arch} (hs : op ≠ .stepend) (hb : ∀ r, branchTarget r op = none)
    (hpc : (f (s.bench k).arch).pc = (s.bench k).arch.pc)
    (he : ∀ i, evalSlot (s.atRepeat0 k) k (soloBundle slot tag op) i (s.bench k).store none op = .ok st f id) :
    ∃ t, done s (slotCommand s.toDev k slot tag op) = .next t ∧
      ArchStore s t k ((f (s.bench k).arch).afterSlot (s.bench k).csv op.aops) (st.foldl Mem.put (s.bench k).store) := by
  obtain ⟨t, ht, hout⟩ := slot_outcome h hr hp hs he
  rw [afterSlot_solo, soloBundle_samePc hb slot tag ((afterSlot_pc ..).trans hpc)] at hout
  exact ⟨t, ht, hout⟩

/-- A plain slot that writes registers and takes no branch. -/
theorem slot_writes {f : Arch → Arch} (hs : op ≠ .stepend) (hb : ∀ r, branchTarget r op = none)
    (hpc : (f (s.bench k).arch).pc = (s.bench k).arch.pc)
    (he : ∀ i, evalSlot (s.atRepeat0 k) k (soloBundle slot tag op) i (s.bench k).store none op = .regs f) :
    ∃ t, done s (slotCommand s.toDev k slot tag op) = .next t ∧
      ArchOnly s t k ((f (s.bench k).arch).afterSlot (s.bench k).csv op.aops) :=
  slot_stores (st := []) h hr hp hs hb hpc he

/-- The same for a slot that names no address register. -/
theorem slot_sets {f : Arch → Arch} (hs : op ≠ .stepend) (ha : op.aops = []) (hb : ∀ r, branchTarget r op = none)
    (hpc : (f (s.bench k).arch).pc = (s.bench k).arch.pc)
    (he : ∀ i, evalSlot (s.atRepeat0 k) k (soloBundle slot tag op) i (s.bench k).store none op = .regs f) :
    ∃ t, done s (slotCommand s.toDev k slot tag op) = .next t ∧ ArchOnly s t k (f (s.bench k).arch) := by
  have hout := slot_writes (slot := slot) (tag := tag) h hr hp hs hb hpc he
  rwa [ha, afterSlot_nil] at hout

/-- A branch that is taken. -/
theorem slot_branches {f : Arch → Arch} {x : Int} (hs : op ≠ .stepend) (ha : op.aops = []) (hb : branchTarget (s.bench k).arch op = some x)
    (he : ∀ i, evalSlot (s.atRepeat0 k) k (soloBundle slot tag op) i (s.bench k).store none op = .regs f) :
    ∃ t, done s (slotCommand s.toDev k slot tag op) = .next t ∧ ArchOnly s t k { f (s.bench k).arch with pc := x.toNat } := by
  have hnext : (soloBundle slot tag op).nextPc (s.bench k).arch = x.toNat := by simp [Bundle.nextPc, soloBundle, hb]
  have hout := slot_registers (slot := slot) (tag := tag) h hr hp hs ha he
  rwa [hnext] at hout

end

/-! ## O6: results -/

/-- The functions of Table 3-12. -/
def aluTable : List (BitVec 4 × (BitVec 64 → BitVec 64 → BitVec 64)) :=
  [(0, fun x y => x + y), (1, fun x y => x - y), (2, fun x y => x * y), (3, fun x y => x &&& y), (4, fun x y => x ||| y),
    (5, fun x y => x ^^^ y), (6, fun x y => x <<< (y.toNat % 64)), (7, fun x y => x >>> (y.toNat % 64)),
    (8, fun x y => x.sshiftRight (y.toNat % 64)), (9, fun x y => if x.toInt < y.toInt then 1 else 0),
    (10, fun x y => if x.toNat < y.toNat then 1 else 0), (11, fun x y => if x = y then 1 else 0),
    (12, fun x y => if x.toInt < y.toInt then x else y), (13, fun x y => if x.toInt < y.toInt then y else x)]

theorem aluFn_table (x y : BitVec 64) : ∀ p ∈ aluTable, aluFn p.1.toNat x y = p.2 x y := by
  simp [aluTable, aluFn, BitVec.slt, BitVec.ult]

theorem aluTable_decodes : ∀ p ∈ aluTable, p.1.toNat ≤ 13 := by simp [aluTable]

theorem reasons_alu {func : BitVec 4} (hf : func.toNat ≤ 13) (csv : BitVec 4) (xd xa xb : Fin 32) :
    (SlotOp.alu xd xa xb func).reasons csv = [] := by
  simp [SlotOp.reasons, Nat.not_lt.mpr hf]

/-- Settles O6: each slot evaluates to a write of one register, and ALU by the table of its functions. -/
theorem scalarResults : Obligations.ScalarResults := by
  unfold Obligations.ScalarResults
  intro b tag s h
  refine ⟨?_, fun xd imm => ?_, fun xd xa imm hxa => ?_, fun xd xa xb hxa hxb p hp => ?_⟩
  · exact slot_sets (op := .nop) (f := id) h rfl rfl nofun rfl (fun _ => rfl) rfl fun _ => rfl
  · exact slot_sets (op := .movi xd imm) (f := fun q => q.setX xd (imm.signExtend 64) false)
      h rfl rfl nofun rfl (fun _ => rfl) (setX_pc ..) fun _ => rfl
  · exact slot_sets (op := .addi xd xa imm) (f := fun q => q.setX xd (((s.bench (benchKey b)).arch.getX xa).val + imm.signExtend 64) false)
      h rfl rfl nofun rfl (fun _ => rfl) (setX_pc ..) fun _ => by simp [evalSlot, hxa]
  · refine slot_sets (op := .alu xd xa xb p.1)
      (f := fun q => q.setX xd (p.2 ((s.bench (benchKey b)).arch.getX xa).val ((s.bench (benchKey b)).arch.getX xb).val) false)
      h (reasons_alu (aluTable_decodes p hp) _ xd xa xb) rfl nofun rfl (fun _ => rfl) (setX_pc ..) fun _ => ?_
    simp [evalSlot, hxa, hxb, aluFn_table _ _ p hp]

/-! ## O8: address registers, repeat counters and GETS -/

theorem setField_off {a : AReg} (hw : a.wrap ≠ 0) (v : BitVec 64) : a.setField 1 v = { a with off := v.setWidth 32 % a.wrap } := by
  have hoff : BitVec.ofNat 32 ((v.setWidth 32).toNat % a.wrap.toNat) = v.setWidth 32 % a.wrap := by
    rw [← BitVec.toNat_umod, BitVec.ofNat_toNat, BitVec.setWidth_eq]
  have hset : a.setField 1 v =
      { a with off := if a.wrap = 0 then v.setWidth 32 else BitVec.ofNat 32 ((v.setWidth 32).toNat % a.wrap.toNat) } := rfl
  rw [hset, if_neg hw, hoff]

theorem setField_wrap (a : AReg) (v : BitVec 64) : a.setField 3 v =
    { a with wrap := v.setWidth 32, off := if v.setWidth 32 = 0 then a.off else a.off % v.setWidth 32 } := by
  have hoff (w : BitVec 32) : BitVec.ofNat 32 (a.off.toNat % w.toNat) = a.off % w := by
    rw [← BitVec.toNat_umod, BitVec.ofNat_toNat, BitVec.setWidth_eq]
  simp only [AReg.setField, BitVec.reduceToNat, hoff]

section
variable {b : BenchId} {tag : BitVec 16} {s : State} (h : SlotReady s.toDev (benchKey b))
include h

theorem seta_writes (ar : Fin 64) (field : BitVec 2) {xs : Fin 32} (hxs : ((s.bench (benchKey b)).arch.getX xs).mark = false) :
    ∃ t, exec (.seta b tag ar field xs) s = .next t ∧ ArchOnly s t (benchKey b) ((s.bench (benchKey b)).arch.setA ar
      (((s.bench (benchKey b)).arch.getA ar).setField field ((s.bench (benchKey b)).arch.getX xs).val)) :=
  slot_sets (op := .seta ar field xs) (f := fun q => q.setA ar ((q.getA ar).setField field ((s.bench (benchKey b)).arch.getX xs).val))
    h rfl rfl nofun rfl (fun _ => rfl) rfl fun _ => by simp [evalSlot, hxs]

theorem geta_writes (ar : Fin 64) (field : BitVec 2) (xd : Fin 32) :
    ∃ t, exec (.geta b tag ar field xd) s = .next t ∧ ArchOnly s t (benchKey b) ((s.bench (benchKey b)).arch.setX xd
      (((s.bench (benchKey b)).arch.getA ar).getField field) ((s.bench (benchKey b)).arch.getA ar).mark) :=
  slot_sets (op := .geta ar field xd)
    (f := fun q => q.setX xd (((s.bench (benchKey b)).arch.getA ar).getField field) ((s.bench (benchKey b)).arch.getA ar).mark)
    h rfl rfl nofun rfl (fun _ => rfl) (setX_pc ..) fun _ => by simp [evalSlot]

theorem gets_writes (xd : Fin 32) {sel : BitVec 4} (hr : (SlotOp.gets xd sel).reasons (s.bench (benchKey b)).csv = []) :
    ∃ t, exec (.gets b tag xd sel) s = .next t ∧ ArchOnly s t (benchKey b) ((s.bench (benchKey b)).arch.setX xd
      (getsVal (s.atRepeat0 (benchKey b)) (benchKey b) sel) false) :=
  slot_sets (op := .gets xd sel) (f := fun q => q.setX xd (getsVal (s.atRepeat0 (benchKey b)) (benchKey b) sel) false)
    h hr rfl nofun rfl (fun _ => rfl) (setX_pc ..) fun _ => rfl

end

/-- Settles O8: SETA and GETA by the field they name, SETN and GETS by what they write. -/
theorem addressRegisterSlots : Obligations.AddressRegisterSlots := by
  unfold Obligations.AddressRegisterSlots
  intro b tag s h k r
  refine ⟨fun ar xs hxs => ?_, fun ar xd => ?_, fun xd => ?_⟩
  · intro v a
    have hseta (field : BitVec 2) := seta_writes (tag := tag) h ar field hxs
    refine ⟨hseta 0, fun hw => ?_, fun hw => ?_, hseta 2, ?_, fun n hn hv => ?_⟩
    · have hoff : a.setField 1 v = { a with off := v.setWidth 32 } := by simp [AReg.setField, hw]
      exact hoff ▸ hseta 1
    · exact setField_off hw v ▸ hseta 1
    · exact setField_wrap a v ▸ hseta 3
    · refine slot_sets (op := .setn n xs) (f := fun q => q.setN n (v.setWidth 24)) h ?_ rfl nofun rfl (fun _ => rfl) rfl fun _ => ?_
      · simpa [SlotOp.reasons] using fun h0 => hn (Fin.ext h0)
      · have hxs' : (r.getX xs).mark = false := hxs
        have hv' : ¬ 16777215 < (r.getX xs).val.toNat := Nat.not_lt.mpr hv
        simp [evalSlot, r, k, hxs', hv', v]
  · exact ⟨geta_writes h ar 0 xd, geta_writes h ar 1 xd, geta_writes h ar 2 xd, geta_writes h ar 3 xd⟩
  · have hcsv : (getsVal (s.atRepeat0 k) k 4) = (s.bench k).csv.setWidth 64 := by simp [getsVal]
    refine ⟨gets_writes h xd rfl, gets_writes h xd rfl, gets_writes h xd rfl, gets_writes h xd rfl, fun hver => ?_⟩
    exact hcsv ▸ gets_writes h xd (by simpa [SlotOp.reasons] using hver)

end Sys2Proof.Machine
end

section
/-! Branches (R75, R99), faults of a slot (R102, R103) and the step end (R100, R101, R335). -/

namespace Sys2Proof.Machine

/-! ## A slot that faults -/

section
variable {s : State} {k slot : Nat} {tag : BitVec 16} {op : SlotOp} (h : SlotReady s.toDev k) (hr : op.reasons (s.bench k).csv = [])
  (hp : op.plain = true)
include h hr hp

/-- A plain slot that faults reports the fault before anything else of it is done (R88, R103). -/
theorem slotCommand_faults {code : BitVec 16} {detail : Nat} (he : soloEval (s.atRepeat0 k) k slot tag op none = .fault code detail) :
    ∃ d iss, slotCommand s.toDev k slot tag op = d.benchFault k code iss detail ∧ OnlyAt k s.toDev d ∧ d.discards = s.discards ∧ d.step = s.step ∧
      d.bench k = { s.bench k with repIdx := 0 } := by
  have hbench := bench_atRepeat0 s.toDev k
  have hwait : ((s.atRepeat0 k).atRepeat0 k).fresh.waitEnds k (soloBundle slot tag op) 0 = ((s.atRepeat0 k).atRepeat0 k).fresh := by
    have hw := h.2.1
    simp only [Dev.waitEnds, Dev.bench_fresh, bench_atRepeat0, hw]
  have hstop := repeatOnce_faults (touchAtoms_plain _ k slot tag op hp) (soloShelf_plain hp) he
  rw [hwait] at hstop
  refine ⟨((s.atRepeat0 k).atRepeat0 k).fresh, (s.atRepeat0 k).soloIssue k slot tag, ?_, (OnlyAt.refl k s.toDev).atRepeat0.atRepeat0.fresh, rfl, rfl, ?_⟩
  · rw [slotCommand_ready h hr]
    exact execBundle_stops (by rw [hbench]) hstop
  · rw [Dev.bench_fresh, bench_atRepeat0, bench_atRepeat0]

end

/-- What a fault of a bench reports to the sequencer (R363). -/
theorem benchFault_discards (d : Dev) (k : Nat) (code : BitVec 16) (iss : Issue) (detail : Nat) :
    (d.benchFault k code iss detail).discards = d.discards ++ [⟨code, d.step.setWidth 16⟩] := by
  simp only [Dev.benchFault]
  split
  · rfl
  · split <;> rfl

/-- The fault register holds the code until it is read (R66, R104). -/
theorem benchFault_pending (d : Dev) (k : Nat) (code : BitVec 16) (iss : Issue) (detail : Nat) :
    ((d.benchFault k code iss detail).bench k).faultPending = true := by
  obtain ⟨m, t, hrec⟩ := bench_benchRecord_self d k code iss (BitVec.ofNat 16 d.step.toNat) detail
  simp only [Dev.benchFault, Dev.bench_discard]
  split
  · rw [Dev.bench_modBench_self, hrec]
  · split
    · rw [hrec]
    · rw [Dev.bench_modBench_self, hrec]; rfl

/-- A bench that awaits the discard keeps its registers and its store, and no other bench sees it (R103). -/
theorem benchFault_poisoned (d : Dev) (k : Nat) (iss : Issue) (detail : Nat) :
    let t := d.benchFault k fltPoisonConsumed iss detail
    (t.bench k).st = (d.bench k).st ∧ (t.bench k).awaitDiscard = true ∧ (t.bench k).faultCode = fltPoisonConsumed ∧
      (t.bench k).arch = (d.bench k).arch ∧ (t.bench k).store = (d.bench k).store ∧ ∀ j, j ≠ k → t.bench j = d.bench j := by
  intro t
  have ht : t = _ := benchFault_awaits k iss detail (.inl rfl)
  obtain ⟨m, u, hrec⟩ := bench_benchRecord_self d k fltPoisonConsumed iss (BitVec.ofNat 16 d.step.toNat) detail
  rw [ht]
  simp only [Dev.bench_discard, Dev.bench_modBench_self, hrec]
  refine ⟨trivial, trivial, trivial, trivial, trivial, fun j hj => ?_⟩
  rw [Dev.bench_modBench_ne _ _ hj]
  exact (Dev.bench_modBench_ne _ _ hj).trans (Dev.bench_trace_ne _ _ _ _ _ hj)

/-! ## O9: branches -/

/-- A target inside program memory and aligned (R75). -/
def goodTarget (x : Int) : Prop := 0 ≤ x ∧ x ≤ 262140 ∧ x % 4 = 0

theorem targetOk_iff (x : Int) : targetOk x = true ↔ goodTarget x := by
  simp [targetOk, goodTarget, and_assoc]

theorem evalBranch_good {r : Arch} {op : SlotOp} {x : Int} (hb : branchTarget r op = some x) (hx : goodTarget x) (f : Arch → Arch) :
    evalBranch r op f = .regs f := by
  simp only [evalBranch, hb, (targetOk_iff x).mpr hx, if_true]

theorem evalBranch_bad {r : Arch} {op : SlotOp} {x : Int} (hb : branchTarget r op = some x) (hx : ¬ goodTarget x) (f : Arch → Arch) :
    evalBranch r op f = .fault fltAkkPc (x.emod (2 ^ 48)).toNat := by
  have hbad : targetOk x = false := Bool.eq_false_iff.mpr fun hok => hx ((targetOk_iff x).mp hok)
  simp only [evalBranch, hb, hbad, Bool.false_eq_true, if_false]

/-- The conditions of Table 3-12. -/
def brcTable : List (BitVec 2 × (BitVec 64 → Prop)) :=
  [(0, fun x => x = 0), (1, fun x => x ≠ 0), (2, fun x => x.toInt < 0), (3, fun x => 0 ≤ x.toInt)]

theorem brcTaken_table (x : BitVec 64) : ∀ p ∈ brcTable, brcTaken p.1 x = true ↔ p.2 x := by
  have hneg : x.msb = true ↔ x.toInt < 0 := by
    rw [BitVec.msb_eq_toInt]; simp
  have hpos : x.msb = false ↔ 0 ≤ x.toInt := by
    rw [← Bool.not_eq_true, hneg, not_lt]
  simp [brcTable, brcTaken, hneg, hpos]

section
variable {b : BenchId} {tag : BitVec 16} {s : State} (h : SlotReady s.toDev (benchKey b))
include h

theorem br_branches {off : BitVec 26} (hgood : goodTarget ((s.bench (benchKey b)).arch.pc + 4 * off.toInt)) :
    ∃ t, exec (.br b tag off) s = .next t ∧ ArchOnly s t (benchKey b)
      { (s.bench (benchKey b)).arch with pc := ((s.bench (benchKey b)).arch.pc + 4 * off.toInt).toNat } :=
  slot_branches (op := .br off) (f := id) h rfl rfl nofun rfl rfl fun _ => by
    simp only [evalSlot, bench_atRepeat0]
    exact evalBranch_good rfl hgood id

theorem br_faults {off : BitVec 26} (hbad : ¬ goodTarget ((s.bench (benchKey b)).arch.pc + 4 * off.toInt)) :
    ∃ d iss detail, exec (.br b tag off) s = done s (d.benchFault (benchKey b) fltAkkPc iss detail) ∧ OnlyAt (benchKey b) s.toDev d ∧
      d.discards = s.discards ∧ d.step = s.step ∧ d.bench (benchKey b) = { s.bench (benchKey b) with repIdx := 0 } := by
  obtain ⟨d, iss, hd, hrest⟩ := slotCommand_faults (slot := 7) (tag := tag) (op := .br off) h rfl rfl
    (by
      simp only [soloEval, evalSlot, bench_atRepeat0]
      exact evalBranch_bad rfl hbad id)
  exact ⟨d, iss, _, congrArg (done s) hd, hrest⟩

section
variable {xa : Fin 32} (hxa : ((s.bench (benchKey b)).arch.getX xa).mark = false)
include hxa

theorem brc_branches {cond : BitVec 2} {off : BitVec 19} (htaken : brcTaken cond ((s.bench (benchKey b)).arch.getX xa).val = true)
    (hgood : goodTarget ((s.bench (benchKey b)).arch.pc + 4 * off.toInt)) :
    ∃ t, exec (.brc b tag xa cond off) s = .next t ∧ ArchOnly s t (benchKey b)
      { (s.bench (benchKey b)).arch with pc := ((s.bench (benchKey b)).arch.pc + 4 * off.toInt).toNat } := by
  have hb : branchTarget (s.bench (benchKey b)).arch (.brc xa cond off) = some ((s.bench (benchKey b)).arch.pc + 4 * off.toInt) := if_pos htaken
  exact slot_branches (op := .brc xa cond off) (f := id) h rfl rfl nofun rfl hb fun _ => by
    simp only [evalSlot, bench_atRepeat0, hxa, Bool.false_eq_true, if_false]
    exact evalBranch_good hb hgood id

theorem brc_falls {cond : BitVec 2} {off : BitVec 19} (htaken : brcTaken cond ((s.bench (benchKey b)).arch.getX xa).val = false) :
    ∃ t, exec (.brc b tag xa cond off) s = .next t ∧ ArchOnly s t (benchKey b) (s.bench (benchKey b)).arch := by
  have hb : branchTarget (s.bench (benchKey b)).arch (.brc xa cond off) = none := if_neg (by simp [htaken])
  obtain ⟨t, ht, hout⟩ := slot_registers (slot := 7) (tag := tag) (op := .brc xa cond off) (f := id) h rfl rfl nofun rfl fun _ => by
    simp only [evalSlot, bench_atRepeat0, hxa, Bool.false_eq_true, if_false, evalBranch, hb]
  have hnext : (soloBundle 7 tag (.brc xa cond off)).nextPc (s.bench (benchKey b)).arch = (s.bench (benchKey b)).arch.pc := by
    simp [Bundle.nextPc, soloBundle, hb]
  rw [hnext] at hout
  exact ⟨t, ht, hout⟩

/-- BRX, with or without LINK. -/
theorem brx_branches (hal : ((s.bench (benchKey b)).arch.getX xa).val.toNat % 4 = 0) (link : Bool) :
    ∃ t, exec (.brx b tag xa link) s = .next t ∧ ArchOnly s t (benchKey b)
      { (if link then (s.bench (benchKey b)).arch.setX 31 (BitVec.ofNat 64 ((s.bench (benchKey b)).arch.pc + 8)) false
          else (s.bench (benchKey b)).arch) with pc := ((s.bench (benchKey b)).arch.getX xa).val.toNat % 2 ^ 18 } := by
  have hgood : goodTarget (((s.bench (benchKey b)).arch.getX xa).val.toNat % 2 ^ 18 : Nat) := by
    simp only [goodTarget]; omega
  exact slot_branches (op := .brx xa link)
    (f := fun q => if link then q.setX 31 (BitVec.ofNat 64 ((s.bench (benchKey b)).arch.pc + 8)) false else q) h rfl rfl nofun rfl rfl fun _ => by
    simp only [evalSlot, bench_atRepeat0, hxa, Bool.false_eq_true, if_false]
    exact evalBranch_good rfl hgood _

end

/-- HALT retires, and its bench is HALTED. -/
theorem halt_halts : ∃ t, exec (.halt b tag) s = .next t ∧ ArchOnly s t (benchKey b) (s.bench (benchKey b)).arch ∧
    (t.bench (benchKey b)).st = .halted := by
  have heval (i : Issue) : evalSlot (s.atRepeat0 (benchKey b)) (benchKey b) (soloBundle 7 tag .halt) i (s.bench (benchKey b)).store none .halt =
      .regs id := rfl
  obtain ⟨t, ht, hout⟩ := slot_sets (op := .halt) (f := id) h rfl rfl nofun rfl (fun _ => rfl) rfl heval
  have hst : done s (slotCommand s.toDev (benchKey b) 7 tag .halt) = .next t → (t.bench (benchKey b)).st = .halted := by
    rw [slotCommand_retires (op := .halt) h rfl rfl nofun heval]
    rintro ⟨⟩
    have hhalt : (soloBundle 7 tag .halt).has .halt = true := rfl
    simp only [bench_retire, Dev.retireBench, Dev.bench_modBench_self, hhalt, Bool.or_true, if_true]
  exact ⟨t, ht, hout, hst ht⟩

end

/-- Settles O9: a branch by whether it is taken and its target is good, a bad target as a fault of the bundle, HALT as a retirement. -/
theorem branches : Obligations.Branches := by
  unfold Obligations.Branches
  intro b tag s h k r good
  refine ⟨fun off hgood => br_branches h hgood, fun xa off hxa p hp => ⟨fun hcond hgood => ?_, fun hcond => ?_⟩,
    fun xa hxa hal => ⟨brx_branches h hxa hal false, brx_branches h hxa hal true⟩, halt_halts h, fun off hbad => ?_⟩
  · exact brc_branches h hxa ((brcTaken_table _ p hp).mpr hcond) hgood
  · exact brc_falls h hxa (Bool.eq_false_iff.mpr fun htaken => hcond ((brcTaken_table _ p hp).mp htaken))
  · obtain ⟨d, iss, detail, hexec, honly, hdiscards, hstep, hbench⟩ := br_faults (tag := tag) h hbad
    obtain ⟨hst, hcode, harch, hstore, hothers⟩ := benchFault_faults (d := d) k iss detail (code := fltAkkPc) (by decide) (by decide) (by decide)
    refine ⟨_, hexec, hst, hcode, benchFault_pending .., harch.trans (by rw [hbench]), hstore.trans (by rw [hbench]), ?_,
      fun j hj => (hothers j hj).trans (honly.2 j hj)⟩
    rw [← hdiscards, ← hstep]
    exact benchFault_discards ..

/-! ## O24: marked registers -/

/-- A plain slot that consumes a mark (R102, R350). -/
theorem slot_bites {s : State} {k slot : Nat} {tag : BitVec 16} {op : SlotOp} (h : SlotReady s.toDev k)
    (hr : op.reasons (s.bench k).csv = []) (hp : op.plain = true) (he : soloEval (s.atRepeat0 k) k slot tag op none = poisoned) :
    ∃ t, done s (slotCommand s.toDev k slot tag op) = .next t ∧ (t.bench k).arch = (s.bench k).arch ∧ (t.bench k).st = .running ∧
      (t.bench k).awaitDiscard = true ∧ (t.bench k).faultCode = fltPoisonConsumed ∧ (t.bench k).store = (s.bench k).store ∧
      t.discards = s.discards ++ [⟨fltPoisonConsumed, s.step.setWidth 16⟩] ∧ (∀ j, j ≠ k → t.bench j = s.bench j) := by
  obtain ⟨d, iss, hd, honly, hdiscards, hstep, hbench⟩ := slotCommand_faults h hr hp he
  obtain ⟨hst, hawait, hcode, harch, hstore, hothers⟩ := benchFault_poisoned d k iss 0
  refine ⟨_, congrArg (done s) hd, harch.trans (by rw [hbench]), ?_, hawait, hcode, hstore.trans (by rw [hbench]), ?_,
    fun j hj => (hothers j hj).trans (honly.2 j hj)⟩
  · exact hst.trans (by rw [hbench]; exact h.runs.1)
  · rw [← hdiscards, ← hstep]
    exact benchFault_discards ..

/-- Settles O24: each slot that reads the register evaluates to FLT_POISON_CONSUMED. -/
theorem markedRegisterBites : Obligations.MarkedRegisterBites := by
  unfold Obligations.MarkedRegisterBites
  intro b tag s x h k hx bites
  refine ⟨fun xd imm => ?_, fun xd y f hf => ⟨?_, ?_⟩, fun ar f => ?_, fun n hn => ?_, fun cond off => ?_, fun link => ?_, fun imm => ?_⟩
  · exact slot_bites (op := .addi xd x imm) h rfl rfl (by simp [soloEval, evalSlot, hx, k])
  · exact slot_bites (op := .alu xd x y f) h (reasons_alu hf ..) rfl (by simp [soloEval, evalSlot, hx, k])
  · exact slot_bites (op := .alu xd y x f) h (reasons_alu hf ..) rfl (by simp [soloEval, evalSlot, hx, k])
  · exact slot_bites (op := .seta ar f x) h rfl rfl (by simp [soloEval, evalSlot, hx, k])
  · refine slot_bites (op := .setn n x) h ?_ rfl (by simp [soloEval, evalSlot, hx, k])
    simpa [SlotOp.reasons] using fun h0 => hn (Fin.ext h0)
  · exact slot_bites (op := .brc x cond off) h rfl rfl (by simp [soloEval, evalSlot, hx, k])
  · exact slot_bites (op := .brx x link) h rfl rfl (by simp [soloEval, evalSlot, hx, k])
  · exact slot_bites (op := .vsetl true imm x) h rfl rfl (by simp [soloEval, evalSlot, evalVsetl, hx, k])

end Sys2Proof.Machine
end

section
/-! Waits of a slot (R86, Table 3-17) and the step end (R100, R101, R335). -/

namespace Sys2Proof.Machine

/-! ## Waiting -/

/-- A bench that waits keeps everything but the wait, the repeat index and the trace. -/
theorem waitAt_self (d : Dev) (k : Nat) (kind : BitVec 3) (bd : Bundle) (idx : Nat) :
    ∃ m t, (d.waitAt k kind bd idx).bench k = { d.bench k with traceMem := m, trace := t, wait := some ⟨kind, bd⟩, repIdx := idx } := by
  simp only [Dev.waitAt, Dev.bench_modBench_self]
  split
  · exact ⟨_, _, rfl⟩
  · obtain ⟨m, t, ht⟩ := bench_trace_self (d.waitEnds k bd idx) k 6 ⟨bd.tag, (d.bench k).arch.pc, 0, bd.rep.val != 0, idx⟩ 0 (8 + kind.toNat)
    cases hw : (d.bench k).wait with
    | none =>
      have hends : d.waitEnds k bd idx = d := by simp only [Dev.waitEnds, hw]
      rw [hends] at ht ⊢
      exact ⟨m, t, by rw [ht]⟩
    | some w =>
      obtain ⟨m', t', hends⟩ := bench_waitEnds_self bd idx hw
      exact ⟨m, t, by rw [ht, hends]⟩

theorem OnlyAt.waitAt {k : Nat} {d e : Dev} (h : OnlyAt k d e) (kind : BitVec 3) (bd : Bundle) (idx : Nat) :
    OnlyAt k d (e.waitAt k kind bd idx) := by
  simp only [Dev.waitAt]
  refine OnlyAt.modBench ?_ _
  split
  · exact h
  · exact (h.waitEnds bd idx).trace ..

/-! ## The release half (R335) -/

/-- The release half looks at the transfers of the bench and outside the benches. -/
theorem OnlyAt.released {k : Nat} {d e : Dev} (h : OnlyAt k d e) (ht : (e.bench k).transfers = (d.bench k).transfers) :
    e.released k = d.released k := by
  have hstks := h.field Dev.stks fun _ => rfl
  have hnet := h.field Dev.net fun _ => rfl
  have haway := h.field Dev.away fun _ => rfl
  have hnumber := h.field Dev.number fun _ => rfl
  have hep : e.benchEp k = d.benchEp k := by simp only [Dev.benchEp, hnumber]
  simp only [Dev.released, ht, hstks, hnet, haway, hep]

/-! ## STEPEND -/

theorem tellStepEnd_bench (d : Dev) (j : Nat) : d.tellStepEnd.bench j = d.bench j := by
  simp only [Dev.tellStepEnd]
  split
  · split <;> rfl
  · rfl

section
variable {d : Dev} {k : Nat} (bd : Bundle)

/-- A STEPEND whose release half is complete reports, and its bench is held (R100). -/
theorem stepEnd_reports (hrel : d.released k = true) : ((d.stepEnd k bd).bench k).atStepEnd = true ∧
    ((d.stepEnd k bd).bench k).arch = (d.bench k).arch ∧ ((d.stepEnd k bd).bench k).st = (d.bench k).st ∧
    ((d.stepEnd k bd).bench k).store = (d.bench k).store ∧ ∀ j, j ≠ k → (d.stepEnd k bd).bench j = d.bench j := by
  let only : Bundle := { bd with slots := bd.slots.filter (fun s => s.2 == .stepend) }
  obtain ⟨m, t, hwait⟩ := waitAt_self d k 3 only 0
  have honly := (OnlyAt.refl k d).waitAt 3 only 0
  have hreleased : (d.waitAt k 3 only 0).released k = true := (honly.released (by rw [hwait])).trans hrel
  let e := (d.waitAt k 3 only 0).trace k 5 ⟨bd.tag, ((d.waitAt k 3 only 0).bench k).arch.pc, 7, false, 0⟩ 0 (d.waitAt k 3 only 0).step.toNat
  obtain ⟨m', t', htrace⟩ := bench_trace_self (d.waitAt k 3 only 0) k 5 ⟨bd.tag, ((d.waitAt k 3 only 0).bench k).arch.pc, 7, false, 0⟩ 0
    (d.waitAt k 3 only 0).step.toNat
  have hend (j : Nat) : (d.stepEnd k bd).bench j = (e.modBench k (fun b => { b with atStepEnd := true })).bench j := by
    simp only [Dev.stepEnd]
    rw [if_pos hreleased, tellStepEnd_bench]
    split <;> rfl
  have hself : (d.stepEnd k bd).bench k = { d.bench k with
      traceMem := m', trace := t', wait := some ⟨3, only⟩, repIdx := 0, atStepEnd := true } := by
    rw [hend, Dev.bench_modBench_self, htrace, hwait]
  refine ⟨by rw [hself], by rw [hself], by rw [hself], by rw [hself], fun j hj => ?_⟩
  rw [hend, Dev.bench_modBench_ne _ _ hj]
  exact (Dev.bench_trace_ne _ _ _ _ _ hj).trans (honly.2 j hj)

/-- Otherwise it waits, and its bench is not at its step end (R335). -/
theorem stepEnd_waits (hrel : d.released k = false) (hend : (d.bench k).atStepEnd = false) : ((d.stepEnd k bd).bench k).atStepEnd = false ∧
    ((d.stepEnd k bd).bench k).waitKind = 3 ∧ ((d.stepEnd k bd).bench k).arch = (d.bench k).arch ∧
    ((d.stepEnd k bd).bench k).store = (d.bench k).store ∧ ∀ j, j ≠ k → (d.stepEnd k bd).bench j = d.bench j := by
  let only : Bundle := { bd with slots := bd.slots.filter (fun s => s.2 == .stepend) }
  obtain ⟨m, t, hwait⟩ := waitAt_self d k 3 only 0
  have honly := (OnlyAt.refl k d).waitAt 3 only 0
  have hreleased : (d.waitAt k 3 only 0).released k = false := (honly.released (by rw [hwait])).trans hrel
  have hstays : d.stepEnd k bd = d.waitAt k 3 only 0 := if_neg (by rw [hreleased]; exact Bool.false_ne_true)
  rw [hstays]
  exact ⟨by rw [hwait, hend], by rw [hwait]; simp [Bench.waitKind, hend], by rw [hwait], by rw [hwait], honly.2⟩

end

/-- A STEPEND slot begins its step end at the end of its one repeat. -/
theorem slotCommand_stepend {s : State} {k : Nat} (tag : BitVec 16) (h : SlotReady s.toDev k) :
    ∃ d, slotCommand s.toDev k 7 tag .stepend = d.stepEnd k (soloBundle 7 tag .stepend) ∧ OnlyAt k s.toDev d ∧
      d.bench k = { s.bench k with repIdx := 0 } := by
  let d := slotEffect s.toDev k .stepend 7 tag [] id id
  obtain ⟨hst, _, hawait⟩ := h.runs
  have hbench : d.bench k = { s.bench k with repIdx := 0 } := by
    have hstep : (soloBundle 7 tag .stepend).stepped = [] := rfl
    simp [d, slotEffect, hstep, Arch.stepAll]
  have hgo : repeatOnce (s.atRepeat0 k) k (soloBundle 7 tag .stepend) 0 = .go d :=
    repeatOnce_begins (fetched := false) rfl h.2.1 rfl (by rw [show slotEffect s.toDev k .stepend 7 tag [] id id = d from rfl, hbench]; exact ⟨hst, hawait⟩)
  refine ⟨d, ?_, (OnlyAt.refl k s.toDev).atRepeat0.modBench _ |>.fresh, hbench⟩
  have hcount : (soloBundle 7 tag .stepend).count = 1 := rfl
  have hend : (soloBundle 7 tag .stepend).has .stepend = true := rfl
  rw [slotCommand_ready (op := .stepend) h rfl]
  unfold execBundle
  simp only [bench_atRepeat0, hcount, Nat.sub_zero, repeats, hgo, hend, if_true]

/-- Settles O28: the slot's repeat changes nothing, and the step end reports or waits by the release half. -/
theorem stepEnd : Obligations.StepEnd := by
  unfold Obligations.StepEnd
  intro b tag s h k
  obtain ⟨d, hd, honly, hbench⟩ := slotCommand_stepend tag h
  have hrel : d.released k = s.released k := honly.released (by rw [hbench])
  refine ⟨fun hreleased => ?_, fun hreleased => ?_⟩
  · obtain ⟨hend, harch, hst, hstore, hothers⟩ := stepEnd_reports (soloBundle 7 tag .stepend) (hrel.trans hreleased)
    exact ⟨_, congrArg (done s) hd, hend, harch.trans (by rw [hbench]), hst.trans (by rw [hbench]; exact h.runs.1), hstore.trans (by rw [hbench]),
      fun j hj => (hothers j hj).trans (honly.2 j hj)⟩
  · obtain ⟨hend, hkind, harch, hstore, hothers⟩ := stepEnd_waits (soloBundle 7 tag .stepend) (hrel.trans hreleased)
      (by rw [hbench]; exact h.runs.2.1)
    exact ⟨_, congrArg (done s) hd, hend, hkind, harch.trans (by rw [hbench]), hstore.trans (by rw [hbench]),
      fun j hj => (hothers j hj).trans (honly.2 j hj)⟩

end Sys2Proof.Machine
end

section
/-! The register files (R80, R85, R129, R135): reads after writes, the address step, the lanes and the group marks of a vector register. -/

namespace Sys2Proof.Machine

/-! ## Scalar and address registers -/

@[simp] theorem getX_zero (r : Arch) : r.getX 0 = ⟨0, false⟩ := rfl

theorem setX_zero (r : Arch) (v : BitVec 64) (m : Bool) : r.setX 0 v m = r := rfl

theorem getX_setX (r : Arch) {i : Fin 32} (hi : i ≠ 0) (j : Fin 32) (v : BitVec 64) (m : Bool) :
    (r.setX i v m).getX j = if j = i then ⟨v, m⟩ else r.getX j := by
  have hne (x : Fin 32) (hx : x ≠ 0) : (x.val == 0) = false := beq_false_of_ne fun h => hx (Fin.ext h)
  by_cases hj : j = 0
  · subst hj
    rw [getX_zero, getX_zero, if_neg (Ne.symm hi)]
  · simp only [Arch.getX, Arch.setX, hne i hi, hne j hj, Bool.false_eq_true, if_false, Tab.get_set, Fin.ext_iff]

theorem step_unwrapped {a : AReg} (hw : a.wrap = 0) : a.step = { a with off := a.off + a.stride } := by
  have hoff : BitVec.ofInt 32 ((a.off.toNat : Int) + a.stride.toInt) = a.off + a.stride := by
    rw [BitVec.ofInt_add, BitVec.ofInt_natCast, BitVec.ofNat_toNat, BitVec.setWidth_eq, BitVec.ofInt_toInt]
  simp only [AReg.step, hw, if_true, hoff]

/-- OFF after a step where WRAP is not 0. -/
theorem step_wrapped {a : AReg} (hw : a.wrap ≠ 0) :
    (a.step.off.toNat : Int) = ((a.off.toNat : Int) + a.stride.toInt).emod a.wrap.toNat ∧ a.step.off.toNat < a.wrap.toNat := by
  have hpos : (0 : Int) < (a.wrap.toNat : Int) := by
    have := BitVec.toNat_eq (x := a.wrap) (y := 0)
    have hne : a.wrap.toNat ≠ 0 := fun h0 => hw (this.mpr h0)
    omega
  have hlow := Int.emod_nonneg ((a.off.toNat : Int) + a.stride.toInt) hpos.ne'
  have hhigh := Int.emod_lt_of_pos ((a.off.toNat : Int) + a.stride.toInt) hpos
  have hoff : a.step.off = BitVec.ofNat 32 (((a.off.toNat : Int) + a.stride.toInt).emod a.wrap.toNat).toNat := by
    simp only [AReg.step, if_neg hw]
  have hlt := a.wrap.isLt
  change 0 ≤ Int.emod _ _ at hlow
  change Int.emod _ _ < _ at hhigh
  rw [hoff, BitVec.toNat_ofNat, Nat.mod_eq_of_lt (by omega)]
  omega

/-! ## Vector registers -/

theorem getLsbD_groupMarks (f : Nat → Bool) {g : Nat} (hg : g < 16) : (groupMarks f).getLsbD g = f g := by
  have hpow (n : Nat) : (BitVec.ofNat 16 (2 ^ n)).getLsbD g = decide (n = g) := by
    rw [BitVec.getLsbD_ofNat, Nat.testBit_two_pow, decide_eq_true hg, Bool.true_and]
  have hmarks (n : Nat) : ((List.range n).foldl (fun (m : BitVec 16) g => if f g then m ||| BitVec.ofNat 16 (2 ^ g) else m) 0#16).getLsbD g =
      (decide (g < n) && f g) := by
    induction n with
    | zero => simp only [List.range_zero, List.foldl_nil, BitVec.getLsbD_zero, Nat.not_lt_zero, decide_false, Bool.false_and]
    | succ n ih =>
      rw [List.range_succ, List.foldl_append, List.foldl_cons, List.foldl_nil, apply_ite (BitVec.getLsbD · g), BitVec.getLsbD_or, ih, hpow]
      by_cases hn : n = g
      · subst hn
        cases f n <;> simp
      · have hlt : decide (g < n + 1) = decide (g < n) := by simp only [decide_eq_decide]; omega
        simp only [hlt, hn, decide_false, Bool.or_false, ite_self]
  rw [groupMarks, hmarks, decide_eq_true hg, Bool.true_and]

section
variable (v : VReg) (f : Nat → BitVec 32) (m : Nat → Bool)

theorem lane_put (p : Nat → Bool) {l : Nat} (hl : l < 128) : (v.put p f m).lane l = if p l then f l else v.lane l := by
  simp [VReg.put, VReg.lane, hl]

/-- The lanes of a group that lie below n. -/
theorem all_group (g n : Nat) : (List.range 8).all (fun i => decide (8 * g + i < n)) = decide (8 * g + 8 ≤ n) := by
  rw [Bool.eq_iff_iff, List.all_eq_true, decide_eq_true_iff]
  simp only [List.mem_range, decide_eq_true_iff]
  exact ⟨fun h => by have := h 7 (by omega); omega, fun h i hi => by omega⟩

theorem any_group (g n : Nat) : (List.range 8).any (fun i => decide (8 * g + i < n)) = decide (8 * g < n) := by
  rw [Bool.eq_iff_iff, List.any_eq_true, decide_eq_true_iff]
  simp only [List.mem_range, decide_eq_true_iff]
  exact ⟨fun ⟨i, hi, h⟩ => by omega, fun h => ⟨0, by omega, by omega⟩⟩

theorem marks_put (n : Nat) {g : Nat} (hg : g < 16) : (v.put (fun l => decide (l < n)) f m).marks.getLsbD g =
    if 8 * g + 8 ≤ n then m g else if 8 * g < n then m g || v.marks.getLsbD g else v.marks.getLsbD g := by
  simp only [VReg.put, getLsbD_groupMarks _ hg, all_group, any_group, decide_eq_true_iff]

end

/-- Settles O7: scalar registers and lanes as tables read after a write, marks group by group. -/
theorem registerFile : Obligations.RegisterFile := by
  unfold Obligations.RegisterFile
  refine ⟨fun r i j v m => ⟨getX_zero r, setX_zero r v m, fun hi => getX_setX r hi j v m⟩,
    fun a => ⟨fun hw => step_unwrapped hw, fun hw => ⟨(step_wrapped hw).1, (step_wrapped hw).2, rfl⟩⟩,
    fun v n f m hn => ⟨fun l hl => ?_, fun l hnl hl => ?_, fun g hg => marks_put v f m n hg⟩⟩
  · rw [lane_put v f m _ (by omega), if_pos (decide_eq_true hl)]
  · rw [lane_put v f m _ hl, if_neg (by simpa using hnl)]

end Sys2Proof.Machine
end

section
/-! Vector arithmetic (R96, R97, R130–R135): what the slots write to the lanes below vl, and that they write nothing where vl is 0. -/

namespace Sys2Proof.Machine

/-! ## Marks that a slot consumes (R135) -/

theorem consumed_mono {v : VReg} {m n : Nat} (hmn : m ≤ n) (h : v.consumed n = false) : v.consumed m = false := by
  simp only [VReg.consumed, List.any_eq_false, Bool.and_eq_true, decide_eq_true_iff, not_and] at h ⊢
  exact fun g hg hlt => h g hg (by omega)

@[simp] theorem consumed_zero (v : VReg) : v.consumed 0 = false := by
  simp [VReg.consumed]

/-! ## Lane results -/

/-- The registers with f in the lanes of vd below vl, and no mark of the data. -/
def Arch.withLanes (r : Arch) (vd : Fin 32) (f : Nat → BitVec 32) : Arch :=
  r.setV vd ((r.getV vd).put (fun l => decide (l < r.vl)) f (fun _ => false))

@[simp] theorem arith_zero (vd : Fin 32) (f : Nat → BitVec 32) : arith vd 0 f = .regs id := rfl

section
variable {s : State} {k slot : Nat} {tag : BitVec 16} {op : SlotOp} (h : SlotReady s.toDev k) (hr : op.reasons (s.bench k).csv = [])
  (hp : op.plain = true) (hs : op ≠ .stepend) (ha : op.aops = []) (hb : ∀ r, branchTarget r op = none)
include h hr hp hs ha hb

theorem arith_writes {vd : Fin 32} {f : Nat → BitVec 32} (hvl : 1 ≤ (s.bench k).arch.vl)
    (he : ∀ i, evalSlot (s.atRepeat0 k) k (soloBundle slot tag op) i (s.bench k).store none op = arith vd (s.bench k).arch.vl f) :
    ∃ t, done s (slotCommand s.toDev k slot tag op) = .next t ∧ ArchOnly s t k ((s.bench k).arch.withLanes vd f) := by
  refine slot_sets (f := fun q => q.setV vd ((q.getV vd).put (fun l => decide (l < (s.bench k).arch.vl)) f (fun _ => false)))
    h hr hp hs ha hb rfl fun i => (he i).trans ?_
  have hne : ((s.bench k).arch.vl == 0) = false := beq_false_of_ne (by omega)
  simp only [arith, hne, Bool.false_eq_true, if_false]

end

/-! ## O11: VFMA, VBIN, VUN -/

/-- The functions of VBIN (Table 3-10). -/
def binTable : List (BitVec 4 × (BitVec 32 → BitVec 32 → BitVec 32)) := [(0, fpAdd), (1, fpSub), (2, fpMul), (3, fpMax), (4, fpMin)]

theorem binFn_table : ∀ p ∈ binTable, binFn p.1.toNat = p.2 := by
  simp only [binTable, List.forall_mem_cons, List.not_mem_nil, false_imp_iff, implies_true, and_true]
  exact ⟨rfl, rfl, rfl, rfl, rfl⟩

theorem binTable_decodes : ∀ p ∈ binTable, p.1.toNat ≤ 4 := by simp [binTable]

theorem reasons_vbin {func : BitVec 4} (hf : func.toNat ≤ 4) (csv : BitVec 4) (vd va vb : Fin 32) (bs : Bool) :
    (SlotOp.vbin vd va vb func bs).reasons csv = [] := by
  simp [SlotOp.reasons, Nat.not_lt.mpr hf]

theorem reasons_vun {func : BitVec 4} (hf : func.toNat ≤ 7) (csv : BitVec 4) (vd va : Fin 32) : (SlotOp.vun vd va func).reasons csv = [] := by
  simp [SlotOp.reasons, Nat.not_lt.mpr hf]

theorem reasons_vred {func : BitVec 2} (hf : func.toNat ≤ 2) (csv : BitVec 4) (vd va : Fin 32) (half : Bool) :
    (SlotOp.vred vd va func half).reasons csv = [] := by
  have hne : func ≠ 3#2 := by rintro rfl; exact absurd hf (by decide)
  simp [SlotOp.reasons, hne]

theorem reasons_vscan {func : BitVec 2} (hf : func.toNat ≤ 1) (csv : BitVec 4) (vd va : Fin 32) (excl : Bool) :
    (SlotOp.vscan vd va func excl).reasons csv = [] := by
  simp [SlotOp.reasons, Nat.not_lt.mpr hf]

theorem reasons_vsegscan {func : BitVec 2} (hf : func.toNat ≤ 1) {csv : BitVec 4} (hcsv : csv ≠ 2) (vd va vf : Fin 32) (excl : Bool) :
    (SlotOp.vsegscan vd va vf func excl).reasons csv = [] := by
  have hne : csv ≠ 2#4 := hcsv
  simp [SlotOp.reasons, Nat.not_lt.mpr hf, hne]

section
variable {b : BenchId} {tag : BitVec 16} {s : State} (h : SlotReady s.toDev (benchKey b)) (hvl : 1 ≤ (s.bench (benchKey b)).arch.vl)
  {va : Fin 32} (hva : ((s.bench (benchKey b)).arch.getV va).consumed (s.bench (benchKey b)).arch.vl = false)
include h hvl hva

theorem vfma_writes {vd vb : Fin 32} (hvd : ((s.bench (benchKey b)).arch.getV vd).consumed (s.bench (benchKey b)).arch.vl = false)
    (hvb : ((s.bench (benchKey b)).arch.getV vb).consumed (s.bench (benchKey b)).arch.vl = false) :
    ∃ t, exec (.vfma b tag vd va vb) s = .next t ∧ ArchOnly s t (benchKey b) ((s.bench (benchKey b)).arch.withLanes vd (fun l =>
      fmaFV (fp32 (((s.bench (benchKey b)).arch.getV va).lane l)) (fp32 (((s.bench (benchKey b)).arch.getV vb).lane l))
        (fp32 (((s.bench (benchKey b)).arch.getV vd).lane l)))) :=
  arith_writes (op := .vfma vd va vb) h rfl rfl nofun rfl (fun _ => rfl) hvl fun _ => by
    simp only [evalSlot, bench_atRepeat0, evalVfma, hva, hvb, hvd, Bool.or_self, Bool.false_eq_true, if_false]

/-- VBIN reads lane 0 of vb with BS, and the lane itself without. -/
theorem vbin_writes (vd : Fin 32) {vb : Fin 32} {func : BitVec 4} (hf : func.toNat ≤ 4) (bs : Bool)
    (hvb : ((s.bench (benchKey b)).arch.getV vb).consumed (s.bench (benchKey b)).arch.vl = false) :
    ∃ t, exec (.vbin b tag vd va vb func bs) s = .next t ∧ ArchOnly s t (benchKey b) ((s.bench (benchKey b)).arch.withLanes vd (fun l =>
      binFn func.toNat (((s.bench (benchKey b)).arch.getV va).lane l)
        (((s.bench (benchKey b)).arch.getV vb).lane (if bs then 0 else l)))) := by
  have hread : ((s.bench (benchKey b)).arch.getV vb).consumed
      (if bs then min (s.bench (benchKey b)).arch.vl 1 else (s.bench (benchKey b)).arch.vl) = false :=
    consumed_mono (by split <;> omega) hvb
  exact arith_writes (op := .vbin vd va vb func bs) h (reasons_vbin hf ..) rfl nofun rfl (fun _ => rfl) hvl fun _ => by
    simp only [evalSlot, bench_atRepeat0, evalVbin, hva, hread, Bool.or_self, Bool.false_eq_true, if_false]

theorem vun_writes (vd : Fin 32) {func : BitVec 4} (hf : func.toNat ≤ 7) :
    ∃ t, exec (.vun b tag vd va func) s = .next t ∧ ArchOnly s t (benchKey b) ((s.bench (benchKey b)).arch.withLanes vd (fun l =>
      unFn func.toNat (((s.bench (benchKey b)).arch.getV va).lane l))) :=
  arith_writes (op := .vun vd va func) h (reasons_vun hf ..) rfl nofun rfl (fun _ => rfl) hvl fun _ => by
    simp only [evalSlot, bench_atRepeat0, evalVun, hva, Bool.false_eq_true, if_false]

end

/-- Settles O11: each instruction evaluates to a lane result, VBIN by the table of its functions. -/
theorem vectorArithmetic : Obligations.VectorArithmetic := by
  unfold Obligations.VectorArithmetic
  intro b tag s h
  refine ⟨fun vd va vb hvd hva hvb => vfma_writes h hva.1 hva.2 hvd.2 hvb.2, fun vd va vb hva hvb p hp => ?_,
    fun vd va func hva hf => vun_writes h hva.1 hva.2 vd hf⟩
  rw [← binFn_table p hp]
  exact ⟨vbin_writes h hva.1 hva.2 vd (binTable_decodes p hp) false hvb.2, vbin_writes h hva.1 hva.2 vd (binTable_decodes p hp) true hvb.2⟩

/-! ## O15: vl = 0 -/

theorem reasons_v3 {fmt csv : BitVec 4} (hv3 : isV3Fmt fmt = true → csv ≠ 2) : (isV3Fmt fmt && csv == 2#4) = false := by
  cases hf : isV3Fmt fmt
  · rfl
  · exact beq_false_of_ne (hv3 hf)

theorem reasons_vld {fmt csv : BitVec 4} (hv3 : isV3Fmt fmt = true → csv ≠ 2) (vd : Fin 32) (a : AOp) :
    (SlotOp.vld vd a fmt).reasons csv = [] := by
  simp only [SlotOp.reasons, reasons_v3 hv3, Bool.false_eq_true, if_false]

theorem reasons_vst {fmt csv : BitVec 4} (hv3 : isV3Fmt fmt = true → csv ≠ 2) (vs : Fin 32) (a : AOp) :
    (SlotOp.vst vs a fmt).reasons csv = [] := by
  simp only [SlotOp.reasons, reasons_v3 hv3, Bool.false_eq_true, if_false]

/-- Settles O15: with vl = 0 no mark is consumed and each slot evaluates to no write; VLD and VST step their address register. -/
theorem zeroLength : Obligations.ZeroLength := by
  unfold Obligations.ZeroLength
  intro b tag s vd va vb h hvl k r
  refine ⟨?_, fun f bs hf => ?_, fun f hf => ?_, fun f half hf => ?_, fun f e hf => ?_, fun f e hf hcsv => ?_, fun a fmt hv3 => ⟨?_, ?_⟩⟩
  · exact slot_sets (op := .vfma vd va vb) (f := id) h rfl rfl nofun rfl (fun _ => rfl) rfl fun _ => by
      simp only [evalSlot, bench_atRepeat0, evalVfma, hvl, consumed_zero, arith_zero, Bool.or_self, Bool.false_eq_true, if_false]
  · exact slot_sets (op := .vbin vd va vb f bs) (f := id) h (reasons_vbin hf ..) rfl nofun rfl (fun _ => rfl) rfl fun _ => by
      simp only [evalSlot, bench_atRepeat0, evalVbin, hvl, Nat.zero_min, ite_self, consumed_zero, arith_zero, Bool.or_self, Bool.false_eq_true, if_false]
  · exact slot_sets (op := .vun vd va f) (f := id) h (reasons_vun hf ..) rfl nofun rfl (fun _ => rfl) rfl fun _ => by
      simp only [evalSlot, bench_atRepeat0, evalVun, hvl, consumed_zero, arith_zero, Bool.false_eq_true, if_false]
  · refine slot_sets (op := .vred vd va f half) (f := id) h (reasons_vred hf ..) rfl nofun rfl (fun _ => rfl) rfl fun _ => ?_
    cases half <;> simp only [evalSlot, bench_atRepeat0, evalVred, hvl, consumed_zero, Bool.false_eq_true, if_false, if_true, arith_zero]
  · exact slot_sets (op := .vscan vd va f e) (f := id) h (reasons_vscan hf ..) rfl nofun rfl (fun _ => rfl) rfl fun _ => by
      simp only [evalSlot, bench_atRepeat0, evalVscan, hvl, consumed_zero, arith_zero, Bool.false_eq_true, if_false]
  · exact slot_sets (op := .vsegscan vd va vb f e) (f := id) h (reasons_vsegscan hf hcsv ..) rfl nofun rfl (fun _ => rfl) rfl fun _ => by
      simp only [evalSlot, bench_atRepeat0, evalVsegscan, hvl, consumed_zero, arith_zero, Bool.or_self, Bool.false_eq_true, if_false]
  · exact slot_writes (op := .vld vd a fmt) (f := id) h (reasons_vld hv3 ..) rfl nofun
      (fun _ => rfl) rfl fun _ => by simp only [evalSlot, bench_atRepeat0, evalVld, hvl, beq_self_eq_true, if_true]
  · exact slot_writes (op := .vst vd a fmt) (f := id) h (reasons_vst hv3 ..) rfl nofun
      (fun _ => rfl) rfl fun _ => by simp only [evalSlot, bench_atRepeat0, evalVst, hvl, beq_self_eq_true, if_true]

end Sys2Proof.Machine
end

section
/-! Slots that reach the bench store (R83, R92, R97): LDX and STX, VLD and VST, the tile loads, MMA and MSTA. -/

namespace Sys2Proof.Machine

/-! ## Slots that change their bench besides -/

/-- A bundle of one slot whose late effect is `g` on its bench retires with it. -/
theorem execBundle_modifies {s : State} {d : Dev} {k slot : Nat} {tag : BitVec 16} {op : SlotOp} {shelf : Shelf} {row : Option VReg}
    {st : List StoreW} {f : Arch → Arch} {late : Dev → Dev} {g : Bench → Bench} (hd : OnlyAt k s.toDev d) (h0 : (d.bench k).repIdx = 0)
    (hrun : (d.bench k).st = .running ∧ (d.bench k).awaitDiscard = false)
    (ht : d.touchAtoms k (soloBundle slot tag op) = d) (hsh : soloShelf d k slot tag op = .go shelf row)
    (hst : (soloEval d k slot tag op none).stores = st) (he : soloEval d k slot tag op row = .ok st f late) (hs : op ≠ .stepend)
    (hb : ∀ r, branchTarget r op = none) (hpc : (f (d.bench k).arch).pc = (d.bench k).arch.pc)
    (hlate : ∀ e, OnlyAt k e (late e) ∧ (late e).bench k = g (e.bench k))
    (hg : ∀ b, (g b).st = b.st ∧ (g b).awaitDiscard = b.awaitDiscard ∧ (g b).arch = b.arch) :
    ∃ t m tr, done s (execBundle d k (soloBundle slot tag op)) = .next t ∧ Retires s t k (g { d.bench k with
      traceMem := m, trace := tr, wait := none, store := st.foldl Mem.put (d.bench k).store, shelf := shelf
      arch := (f (d.bench k).arch).afterSlot (d.bench k).csv op.aops }) := by
  obtain ⟨m, tr, hbase⟩ := soloBase_bench d k slot tag op st shelf f
  have hc := (hlate (soloBase d k slot tag op st shelf f)).2
  rw [hbase] at hc
  generalize hn : ({ d.bench k with
      traceMem := m, trace := tr, wait := none, store := st.foldl Mem.put (d.bench k).store, shelf := shelf
      arch := (f (d.bench k).arch).afterSlot (d.bench k).csv op.aops } : Bench) = c at hc
  obtain ⟨hst', hawait, harch⟩ := hg c
  have hgc : (g c).st = .running ∧ (g c).awaitDiscard = false := by
    rw [hst', hawait, ← hn]; exact hrun
  obtain ⟨t, hexec, hretires⟩ := execBundle_retires hd h0 ht hsh hst he hs hc hgc fun e => (hlate e).1
  have hsame : ({ (g c).arch with pc := (soloBundle slot tag op).nextPc (d.bench k).arch } : Arch) = (g c).arch := by
    rw [harch, ← hn]
    exact soloBundle_samePc hb slot tag ((afterSlot_pc ..).trans hpc)
  rw [hsame] at hretires
  exact ⟨t, m, tr, hexec, hn ▸ hretires⟩

theorem OnlyAt.atRepeat0_refl (s : State) (k : Nat) : OnlyAt k s.toDev (s.atRepeat0 k) := (OnlyAt.refl k s.toDev).atRepeat0

/-- A plain slot command of a ready bench, the same way. -/
theorem slot_modifies {s : State} {k slot : Nat} {tag : BitVec 16} {op : SlotOp} {st : List StoreW} {f : Arch → Arch} {late : Dev → Dev}
    {g : Bench → Bench} (h : SlotReady s.toDev k) (hr : op.reasons (s.bench k).csv = []) (hp : op.plain = true)
    (he : soloEval (s.atRepeat0 k) k slot tag op none = .ok st f late) (hs : op ≠ .stepend) (hb : ∀ r, branchTarget r op = none)
    (hpc : (f (s.bench k).arch).pc = (s.bench k).arch.pc) (hlate : ∀ e, OnlyAt k e (late e) ∧ (late e).bench k = g (e.bench k))
    (hg : ∀ b, (g b).st = b.st ∧ (g b).awaitDiscard = b.awaitDiscard ∧ (g b).arch = b.arch) :
    ∃ t m tr, done s (slotCommand s.toDev k slot tag op) = .next t ∧ Retires s t k (g { s.bench k with
      repIdx := 0, traceMem := m, trace := tr, wait := none, store := st.foldl Mem.put (s.bench k).store
      arch := (f (s.bench k).arch).afterSlot (s.bench k).csv op.aops }) := by
  have hk := bench_atRepeat0 s.toDev k
  obtain ⟨hst, _, hawait⟩ := h.runs
  have hout := execBundle_modifies (OnlyAt.atRepeat0_refl s k) (by rw [hk]) (by rw [hk]; exact ⟨hst, hawait⟩)
    (touchAtoms_plain _ k slot tag op hp) (soloShelf_plain hp) (by rw [he]; rfl) he hs hb (by rw [hk]; exact hpc) hlate hg
  rw [hk] at hout
  rw [slotCommand_ready h hr]
  exact hout

/-! ## Bytes and elements of a store (R520) -/

theorem getD_leBytes {n i : Nat} (v : Nat) (hi : i < n) : (leBytes n v).getD i 0 = BitVec.ofNat 8 (v / 256 ^ i) := by
  induction n generalizing i v with
  | zero => omega
  | succ n ih =>
    cases i with
    | zero => simp [leBytes]
    | succ i =>
      rw [leBytes, List.getD_cons_succ, ih _ (by omega), Nat.div_div_eq_div_mul, Nat.pow_succ']

/-- Elements of n bytes one after the other. -/
def elemBytes (n : Nat) (vs : List Nat) : List Byte := vs.flatMap (leBytes n)

@[simp] theorem length_elemBytes (n : Nat) (vs : List Nat) : (elemBytes n vs).length = n * vs.length := by
  simp [elemBytes, List.length_flatMap, Nat.mul_comm]

theorem getD_elemBytes {n i : Nat} (vs : List Nat) {l : Nat} (hl : l < vs.length) (hi : i < n) :
    (elemBytes n vs).getD (n * l + i) 0 = (leBytes n (vs.getD l 0)).getD i 0 := by
  induction vs generalizing l with
  | nil => simp at hl
  | cons v vs ih =>
    have hcons : elemBytes n (v :: vs) = leBytes n v ++ elemBytes n vs := rfl
    cases l with
    | zero =>
      rw [hcons, Nat.mul_zero, Nat.zero_add, List.getD_append _ _ _ _ (by rw [length_leBytes]; exact hi), List.getD_cons_zero]
    | succ l =>
      have hskip : n * (l + 1) + i - (leBytes n v).length = n * l + i := by rw [length_leBytes, Nat.mul_succ]; omega
      rw [hcons, List.getD_append_right _ _ _ _ (by rw [length_leBytes, Nat.mul_succ]; omega), hskip, List.getD_cons_succ]
      exact ih (by simpa using hl)

/-- An element read back where elements have been stored one after the other. -/
theorem readNat_elemBytes {m : Mem} (hwf : m.wf = true) (x n : Nat) (vs : List Nat) (f : Nat → Bool) {l : Nat} (hl : l < vs.length) :
    (m.store x (elemBytes n vs) f).readNat (x + n * l) n = vs.getD l 0 % 2 ^ (8 * n) := by
  have hread : (m.store x (elemBytes n vs) f).read (x + n * l) n = leBytes n (vs.getD l 0) := by
    apply List.ext_getElem
    · simp [Mem.read]
    · intro i hi hi'
      rw [length_leBytes] at hi'
      have hin : n * l + i < n * vs.length :=
        calc n * l + i < n * l + n := by omega
          _ = n * (l + 1) := (Nat.mul_succ n l).symm
          _ ≤ n * vs.length := Nat.mul_le_mul_left n hl
      have hoff : x + n * l + i - x = n * l + i := by omega
      simp only [Mem.read, List.getElem_map, List.getElem_range, Mem.byte_store _ _ _ _ hwf, length_elemBytes]
      rw [if_pos (by omega), hoff, getD_elemBytes vs hl hi', List.getD_eq_getElem]
  rw [Mem.readNat, hread, leNat_leBytes, Nat.pow_mul]

/-! ## O13: LDX and STX -/

section
variable {b : BenchId} {tag : BitVec 16} {s : State} (h : SlotReady s.toDev (benchKey b)) {a : AOp} {size : Fin 4}
  (hmark : ((s.bench (benchKey b)).arch.aop a).mark = false) (halign : ((s.bench (benchKey b)).arch.aop a).ea % 2 ^ size.val = 0)
  (hin : ((s.bench (benchKey b)).arch.aop a).ea + 2 ^ size.val ≤ 0x400000)
include h hmark halign hin

theorem ldx_loads (xd : Fin 32) (sx : Bool) :
    ∃ t, exec (.ldx b tag xd a size sx) s = .next t ∧ ArchOnly s t (benchKey b) (((s.bench (benchKey b)).arch.setX xd
      (if sx then BitVec.ofInt 64 (sext (8 * 2 ^ size.val)
          ((s.bench (benchKey b)).store.readNat ((s.bench (benchKey b)).arch.aop a).ea (2 ^ size.val)))
        else BitVec.ofNat 64 ((s.bench (benchKey b)).store.readNat ((s.bench (benchKey b)).arch.aop a).ea (2 ^ size.val)))
      ((s.bench (benchKey b)).store.anyMark ((s.bench (benchKey b)).arch.aop a).ea (2 ^ size.val))).afterSlot (s.bench (benchKey b)).csv [a]) := by
  refine slot_writes (op := .ldx xd a size sx) (f := fun q => q.setX xd _ _) h rfl rfl nofun (fun _ => rfl) (setX_pc ..) fun _ => ?_
  simp only [evalSlot, bench_atRepeat0, evalLdx, hmark, halign, bne_self_eq_false, storeSize, Nat.not_lt.mpr hin, Bool.false_eq_true, if_false]

theorem stx_stores (xs : Fin 32) : ∃ t marks, exec (.stx b tag xs a size) s = .next t ∧
    ArchStore s t (benchKey b) ((s.bench (benchKey b)).arch.afterSlot (s.bench (benchKey b)).csv [a]) ((s.bench (benchKey b)).store.put
      (((s.bench (benchKey b)).arch.aop a).ea, leBytes (2 ^ size.val) ((s.bench (benchKey b)).arch.getX xs).val.toNat, marks)) := by
  obtain ⟨t, ht, hout⟩ := slot_stores (slot := 4) (tag := tag) (op := .stx xs a size) (f := id)
    (st := [(((s.bench (benchKey b)).arch.aop a).ea, leBytes (2 ^ size.val) ((s.bench (benchKey b)).arch.getX xs).val.toNat,
      if ((s.bench (benchKey b)).arch.getX xs).mark then sectorsOf ((s.bench (benchKey b)).arch.aop a).ea (2 ^ size.val) else [])])
    h rfl rfl nofun (fun _ => rfl) rfl fun _ => by
      simp only [evalSlot, bench_atRepeat0, evalStx, hmark, halign, bne_self_eq_false, storeSize, Nat.not_lt.mpr hin, Bool.false_eq_true, if_false]
  exact ⟨t, _, ht, hout⟩

end

/-- Settles O13: LDX as a register write from the store, STX as a store whose bytes read back. -/
theorem scalarMemory : Obligations.ScalarMemory := by
  unfold Obligations.ScalarMemory
  intro b tag s a size h k r m x n hwf hmark halign hin
  refine ⟨fun xd sx => ldx_loads h hmark halign hin xd sx, fun xs => ?_⟩
  obtain ⟨t, marks, ht, hout⟩ := stx_stores (tag := tag) h hmark halign hin xs
  refine ⟨t, _, ht, hout, fun i => ?_⟩
  rw [Mem.put, Mem.byte_store _ _ _ _ hwf, length_leBytes]
  split
  · next hi => exact getD_leBytes _ (by omega)
  · rfl

/-! ## Formats (Table 3-5) -/

/-- The formats that VLD, VST and MSTA take, none of which version 2 lacks. -/
theorem storeFmt_of_mem {fmt : BitVec 4} (h : fmt ∈ [1#4, 2#4, 8#4, 9#4, 0xA#4, 0xC#4]) : storeFmt fmt = true ∧ isV3Fmt fmt = false := by
  simp only [List.mem_cons, List.not_mem_nil, or_false] at h
  rcases h with rfl | rfl | rfl | rfl | rfl | rfl <;> exact ⟨rfl, rfl⟩

/-- The codes that a store converts its elements to. -/
def codesOf (fmt : BitVec 4) (xs : List (BitVec 32)) : List Nat := xs.map (fun x => (fromFp32 fmt x).code)

theorem convAll_bytes (fmt : BitVec 4) (xs : List (BitVec 32)) : (convAll fmt xs).1 = elemBytes (fmtBytes fmt) (codesOf fmt xs) := by
  simp only [convAll, elemBytes, codesOf, List.flatMap_map]

theorem getD_codesOf (fmt : BitVec 4) {xs : List (BitVec 32)} {l : Nat} (hl : l < xs.length) :
    (codesOf fmt xs).getD l 0 = (fromFp32 fmt (xs.getD l 0)).code := by
  simp [codesOf, hl]

/-- The counts of a conversion (R127). -/
def Bench.counts (sat nan : Nat) (b : Bench) : Bench := { b with sat := satAdd16 b.sat sat, nan := satAdd16 b.nan nan }

theorem countConv_local (k sat nan : Nat) (e : Dev) : OnlyAt k e (e.countConv k sat nan) ∧
    (e.countConv k sat nan).bench k = (e.bench k).counts sat nan :=
  ⟨(OnlyAt.refl k e).modBench _, Dev.bench_modBench_self ..⟩

/-- What a store of converted elements leaves in the bench store. -/
theorem converted_store {m : Mem} (hwf : m.wf = true) (fmt : BitVec 4) (x : Nat) (xs : List (BitVec 32)) (marks : List Nat) :
    (∀ i, ¬ (x ≤ i ∧ i < x + fmtBytes fmt * xs.length) → (m.put (x, (convAll fmt xs).1, marks)).byte i = m.byte i) ∧
      ∀ l, l < xs.length → (m.put (x, (convAll fmt xs).1, marks)).readNat (x + fmtBytes fmt * l) (fmtBytes fmt) =
        (fromFp32 fmt (xs.getD l 0)).code % 2 ^ (8 * fmtBytes fmt) := by
  have hlen : (codesOf fmt xs).length = xs.length := List.length_map ..
  rw [convAll_bytes]
  refine ⟨fun i hi => ?_, fun l hl => ?_⟩
  · rw [Mem.put, Mem.byte_store _ _ _ _ hwf, length_elemBytes, hlen, if_neg hi]
  · rw [Mem.put, readNat_elemBytes hwf _ _ _ _ (by rw [hlen]; exact hl), getD_codesOf fmt hl]

/-! ## O14: VLD and VST -/

section
variable {b : BenchId} {tag : BitVec 16} {s : State} (h : SlotReady s.toDev (benchKey b)) {a : AOp} {fmt : BitVec 4}
  (hvl : 1 ≤ (s.bench (benchKey b)).arch.vl) (hfmt : fmt ∈ [1#4, 2#4, 8#4, 9#4, 0xA#4, 0xC#4])
  (hmark : ((s.bench (benchKey b)).arch.aop a).mark = false) (halign : ((s.bench (benchKey b)).arch.aop a).ea % fmtBytes fmt = 0)
  (hin : ((s.bench (benchKey b)).arch.aop a).ea + fmtBytes fmt * (s.bench (benchKey b)).arch.vl ≤ 0x400000)
include h hvl hfmt hmark halign hin

theorem vld_loads (vd : Fin 32) :
    ∃ t, exec (.vld b tag vd a fmt) s = .next t ∧ ArchOnly s t (benchKey b) (((s.bench (benchKey b)).arch.setV vd
      (((s.bench (benchKey b)).arch.getV vd).put (fun l => decide (l < (s.bench (benchKey b)).arch.vl))
        (fun l => toFp32 fmt ((s.bench (benchKey b)).store.readNat (((s.bench (benchKey b)).arch.aop a).ea + fmtBytes fmt * l) (fmtBytes fmt)))
        (fun g => (s.bench (benchKey b)).store.anyMark (((s.bench (benchKey b)).arch.aop a).ea + fmtBytes fmt * (8 * g))
          (fmtBytes fmt * (min (s.bench (benchKey b)).arch.vl (8 * g + 8) - 8 * g))))).afterSlot (s.bench (benchKey b)).csv [a]) := by
  obtain ⟨hstore, hv3⟩ := storeFmt_of_mem hfmt
  have hne : ((s.bench (benchKey b)).arch.vl == 0) = false := beq_false_of_ne (by omega)
  refine slot_writes (op := .vld vd a fmt) (f := fun q => q.setV vd ((q.getV vd).put _ _ _)) h (reasons_vld (fun hon => by simp [hv3] at hon) ..)
    rfl nofun (fun _ => rfl) rfl fun _ => ?_
  simp only [evalSlot, bench_atRepeat0, evalVld, hne, hstore, hmark, halign, bne_self_eq_false, storeSize, decide_eq_true_iff, Nat.not_lt.mpr hin,
    Bool.not_true, Bool.false_eq_true, if_false]

theorem vst_stores (vs : Fin 32) : ∃ t c marks sat nan, exec (.vst b tag vs a fmt) s = .next t ∧ Retires s t (benchKey b) (Bench.counts sat nan c) ∧
    c.arch = (s.bench (benchKey b)).arch.afterSlot (s.bench (benchKey b)).csv [a] ∧ c.store = (s.bench (benchKey b)).store.put
      (((s.bench (benchKey b)).arch.aop a).ea,
        (convAll fmt (((s.bench (benchKey b)).arch.getV vs).slice 0 (s.bench (benchKey b)).arch.vl)).1, marks) := by
  obtain ⟨hstore, hv3⟩ := storeFmt_of_mem hfmt
  have hne : ((s.bench (benchKey b)).arch.vl == 0) = false := beq_false_of_ne (by omega)
  obtain ⟨t, m, tr, ht, hretires⟩ := slot_modifies (slot := 4) (tag := tag) (op := .vst vs a fmt) (f := id) h
    (reasons_vst (fun hon => by simp [hv3] at hon) ..) rfl
    (by
      simp only [soloEval, evalSlot, bench_atRepeat0, evalVst, hne, hstore, hmark, halign, bne_self_eq_false, storeSize, decide_eq_true_iff,
        Nat.not_lt.mpr hin, Bool.not_true, Bool.false_eq_true, if_false]
      rfl)
    nofun (fun _ => rfl) rfl (countConv_local _ _ _) fun _ => ⟨rfl, rfl, rfl⟩
  exact ⟨t, _, _, _, _, ht, hretires, rfl, rfl⟩

end

/-- Settles O14: VLD as a write of the converted lanes, VST as a store whose elements read back. -/
theorem vectorMemory : Obligations.VectorMemory := by
  unfold Obligations.VectorMemory
  intro b tag s a v fmt h k r m x n hwf hvl hfmt hmark halign hin
  refine ⟨vld_loads h hvl hfmt hmark halign hin v, ?_⟩
  obtain ⟨t, c, marks, sat, nan, ht, hretires, harch, hstore⟩ := vst_stores (tag := tag) h hvl hfmt hmark halign hin v
  have hlen : ((r.getV v).slice 0 r.vl).length = r.vl := by simp [VReg.slice]
  have htstore := (hretires.field Bench.store fun _ => rfl).trans hstore
  obtain ⟨hframe, helems⟩ := converted_store hwf fmt x ((r.getV v).slice 0 r.vl) marks
  rw [hlen] at hframe helems
  refine ⟨t, ht, hretires.only, hretires.arch.trans harch, fun i hi => ?_, fun l hl => ?_⟩
  · rw [htstore]
    exact hframe i hi
  · have hlane : ((r.getV v).slice 0 r.vl).getD l 0 = (r.getV v).lane l := by simp [VReg.slice, hl]
    rw [htstore, ← hlane]
    exact helems l hl

/-! ## O16: tile loads -/

/-- The registers after a tile has passed through the register tile. -/
def Arch.passed (q : Arch) (tr : Bool) (tile : List Byte) : Arch := if tr then { q with regTile := tile } else q

/-- The loader that a tile load fills (R115, R350). -/
def loaderOf (r : Arch) (m : Mem) (a sa : AOp) (fmt pw : BitVec 4) (tr : Bool) : Loader :=
  { fmt := fmt, pw := pw, tile := m.read (r.aop a).ea (tileBytes fmt pw), scales := if isMx fmt then m.read (r.aop sa).ea 128 else []
    tileMarks := m.markList (r.aop a).ea (tileBytes fmt pw), scaleMarks := if isMx fmt then m.markList (r.aop sa).ea 128 else [], tr := tr
    addr := BitVec.ofNat 48 (r.aop a).ea, saddr := BitVec.ofNat 48 (r.aop sa).ea }

/-- The registers with a loader filled (R92). -/
def Arch.tileLoaded (q : Arch) (isB : Bool) (l : Loader) : Arch :=
  if isB then { q.passed l.tr (lastPass l.fmt l.tile) with lb := l } else { q.passed l.tr (lastPass l.fmt l.tile) with la := l }

theorem tileLoaded_pc (q : Arch) (isB : Bool) (l : Loader) : (q.tileLoaded isB l).pc = q.pc := by
  unfold Arch.tileLoaded Arch.passed
  split <;> split <;> rfl

/-- The conditions under which a tile load meets no fault (R92, R521). -/
structure Loads (isB : Bool) (r : Arch) (a sa : AOp) (fmt pw : BitVec 4) (tr : Bool) : Prop where
  format : loadFmt isB fmt = true
  transposes : tr = true → trFmt fmt = true
  mark : (r.aop a).mark = false
  align : (r.aop a).ea % 64 = 0
  inside : (r.aop a).ea + tileBytes fmt pw ≤ 0x400000
  scales : isMx fmt = true → (r.aop sa).mark = false ∧ (r.aop sa).ea % 64 = 0 ∧ (r.aop sa).ea + 128 ≤ 0x400000

theorem evalLoad_loads {isB : Bool} {r : Arch} {a sa : AOp} {fmt pw : BitVec 4} {tr : Bool} (h : Loads isB r a sa fmt pw tr) (m : Mem) :
    evalLoad isB r m a fmt tr sa pw = .regs (fun q => q.tileLoaded isB (loaderOf r m a sa fmt pw tr)) := by
  obtain ⟨hfmt, htr, hmark, halign, hin, hscales⟩ := h
  have hform : (!loadFmt isB fmt || (tr && !trFmt fmt)) = false := by
    cases tr
    · simp [hfmt]
    · simp [hfmt, htr rfl]
  have hmx : (isMx fmt && (r.aop sa).mark) = false ∧ (isMx fmt && (r.aop sa).ea % 64 != 0) = false ∧
      (isMx fmt && decide (storeSize < (r.aop sa).ea + 128)) = false := by
    cases hf : isMx fmt
    · exact ⟨rfl, rfl, rfl⟩
    · obtain ⟨hsmark, hsalign, hsin⟩ := hscales hf
      exact ⟨hsmark, by simp [hsalign], decide_eq_false (Nat.not_lt.mpr hsin)⟩
  have hout : ¬ storeSize < (r.aop a).ea + tileBytes fmt pw := Nat.not_lt.mpr hin
  simp only [evalLoad, hform, hmark, hmx, halign, hout, bne_self_eq_false, decide_false, Bool.or_self, Bool.false_eq_true, if_false]
  rfl

theorem trFmt_of_mem {fmt : BitVec 4} (h : fmt ∈ [1#4, 2#4, 8#4, 9#4, 0xA#4]) : trFmt fmt = true := by
  simp only [List.mem_cons, List.not_mem_nil, or_false] at h
  rcases h with rfl | rfl | rfl | rfl | rfl <;> rfl

/-- A load without scales names no scale register (R92). -/
theorem scales_named {fmt : BitVec 4} {sa : AOp} (h : isMx fmt = false → sa.step = false ∧ sa.reg = 0) :
    (!(decide (3 ≤ fmt.toNat) && decide (fmt.toNat ≤ 7)) && (sa.step || sa.reg.val != 0)) = false := by
  change (!isMx fmt && _) = false
  cases hf : isMx fmt
  · obtain ⟨hstep, hreg⟩ := h hf
    simp [hstep, hreg]
  · rfl

section
variable {fmt csv : BitVec 4} {sa : AOp} (hv3 : isV3Fmt fmt = true → csv ≠ 2) (hsa : isMx fmt = false → sa.step = false ∧ sa.reg = 0)
include hv3 hsa

theorem reasons_mlda (a : AOp) (tr : Bool) : (SlotOp.mlda a fmt tr sa).reasons csv = [] := by
  simp only [SlotOp.reasons, reasons_v3 hv3, scales_named hsa, Bool.false_eq_true, if_false, List.append_nil]

theorem reasons_mldb {pw : BitVec 4} (hplane : fmt = 0xB → 1 ≤ pw.toNat ∧ pw.toNat ≤ 8) (hpw : fmt ≠ 0xB → pw = 0) (a : AOp) (tr : Bool) :
    (SlotOp.mldb a fmt tr sa pw).reasons csv = [] := by
  have hwidth : (if fmt == 0xB#4 then pw.toNat == 0 || decide (8 < pw.toNat) else pw != 0#4) = false := by
    by_cases hf : fmt = 0xB#4
    · obtain ⟨hlow, hhigh⟩ := hplane hf
      have hne : (pw.toNat == 0) = false := beq_false_of_ne (by omega)
      simp only [hf, beq_self_eq_true, if_true, hne, Bool.false_or, decide_eq_false_iff_not]; omega
    · have hzero : pw = 0#4 := hpw hf
      simp [hf, hzero]
  simp only [SlotOp.reasons, reasons_v3 hv3, scales_named hsa, hwidth, Bool.or_self, Bool.false_eq_true, if_false, List.append_nil]

end

section
variable {b : BenchId} {tag : BitVec 16} {s : State} (h : SlotReady s.toDev (benchKey b)) {a sa : AOp} {fmt pw : BitVec 4} {tr : Bool}
include h

theorem mlda_loads (hr : (SlotOp.mlda a fmt tr sa).reasons (s.bench (benchKey b)).csv = [])
    (hloads : Loads false (s.bench (benchKey b)).arch a sa fmt 0 tr) :
    ∃ t, exec (.mlda b tag a fmt tr sa) s = .next t ∧ ArchOnly s t (benchKey b)
      (((s.bench (benchKey b)).arch.tileLoaded false (loaderOf (s.bench (benchKey b)).arch (s.bench (benchKey b)).store a sa fmt 0 tr)).afterSlot
        (s.bench (benchKey b)).csv [a, sa]) :=
  slot_writes (op := .mlda a fmt tr sa)
    (f := fun q => q.tileLoaded false (loaderOf (s.bench (benchKey b)).arch (s.bench (benchKey b)).store a sa fmt 0 tr)) h hr rfl nofun (fun _ => rfl) (tileLoaded_pc ..) fun _ => by
    simp only [evalSlot, bench_atRepeat0]
    exact evalLoad_loads hloads _

theorem mldb_loads (hr : (SlotOp.mldb a fmt tr sa pw).reasons (s.bench (benchKey b)).csv = [])
    (hloads : Loads true (s.bench (benchKey b)).arch a sa fmt pw tr) :
    ∃ t, exec (.mldb b tag a fmt tr sa pw) s = .next t ∧ ArchOnly s t (benchKey b)
      (((s.bench (benchKey b)).arch.tileLoaded true (loaderOf (s.bench (benchKey b)).arch (s.bench (benchKey b)).store a sa fmt pw tr)).afterSlot
        (s.bench (benchKey b)).csv [a, sa]) :=
  slot_writes (op := .mldb a fmt tr sa pw)
    (f := fun q => q.tileLoaded true (loaderOf (s.bench (benchKey b)).arch (s.bench (benchKey b)).store a sa fmt pw tr)) h hr rfl nofun (fun _ => rfl) (tileLoaded_pc ..) fun _ => by
    simp only [evalSlot, bench_atRepeat0]
    exact evalLoad_loads hloads _

end

/-- Settles O16: both loads by the one evaluation of a tile load that meets no fault. -/
theorem tileLoads : Obligations.TileLoads := by
  unfold Obligations.TileLoads
  intro b tag s a sa fmt pw tr h k r m x y n loader through hv3 htr hmark halign hscales hsa
  refine ⟨fun hlow hhigh hin => ?_, fun hlow hhigh hplane hpw hin => ?_⟩
  · exact mlda_loads h (reasons_mlda hv3 hsa ..)
      ⟨by simp [loadFmt, hlow, hhigh], fun hon => trFmt_of_mem (htr hon), hmark, halign, hin, hscales⟩
  · exact mldb_loads h (reasons_mldb hv3 hsa hplane hpw ..)
      ⟨by simp [loadFmt, hlow, hhigh], fun hon => trFmt_of_mem (htr hon), hmark, halign, hin, hscales⟩

/-! ## O17: MMA and MSTA -/

theorem length_fullTile (t : List (BitVec 32)) : (fullTile t).length = 4096 := by simp [fullTile]

theorem getD_fullTile (t : List (BitVec 32)) {e : Nat} (he : e < 4096) : (fullTile t).getD e 0 = t.getD e 0 := by
  rw [fullTile, List.getD_eq_getElem _ _ (by simpa using he), List.getElem_map, List.getElem_range]
  rfl

section
variable {b : BenchId} {tag : BitVec 16} {s : State} (h : SlotReady s.toDev (benchKey b)) (acc : Fin 4)
include h

theorem mma_adds (z : Bool) (hpair : mmaPair (s.bench (benchKey b)).arch.la.fmt (s.bench (benchKey b)).arch.lb.fmt = true)
    (hat : (s.bench (benchKey b)).arch.la.tileMarks = []) (has : (s.bench (benchKey b)).arch.la.scaleMarks = [])
    (hbt : (s.bench (benchKey b)).arch.lb.tileMarks = []) (hbs : (s.bench (benchKey b)).arch.lb.scaleMarks = []) :
    ∃ t, exec (.mma b tag acc z) s = .next t ∧ ArchOnly s t (benchKey b) ((s.bench (benchKey b)).arch.setAcc acc
      (mmaTile (s.bench (benchKey b)).arch.la (s.bench (benchKey b)).arch.lb (if z then [] else (s.bench (benchKey b)).arch.getAcc acc))) := by
  have hout := slot_modifies (slot := 0) (tag := tag) (op := .mma acc z) (g := id) (st := []) (late := id)
    (f := fun q => q.setAcc acc (mmaTile (s.bench (benchKey b)).arch.la (s.bench (benchKey b)).arch.lb
      (if z then [] else (s.bench (benchKey b)).arch.getAcc acc))) h rfl rfl
    (by
      have hidx : (z && (0 : Nat) == 0) = z := Bool.and_true z
      simp only [soloEval, evalSlot, bench_atRepeat0, evalMma, hpair, hat, has, hbt, hbs, Dev.soloIssue, hidx, List.isEmpty_nil, Bool.not_true,
        Bool.false_eq_true, if_false]
      rfl)
    nofun (fun _ => rfl) rfl (fun e => ⟨OnlyAt.refl _ e, rfl⟩) fun _ => ⟨rfl, rfl, rfl⟩
  obtain ⟨t, m, tr, ht, hretires⟩ := hout
  exact ⟨t, ht, hretires.archOnly (afterSlot_nil ..) rfl⟩

theorem msta_stores (clr : Bool) {a : AOp} {fmt : BitVec 4} (hfmt : fmt ∈ [1#4, 2#4, 8#4, 9#4, 0xA#4, 0xC#4])
    (hmark : ((s.bench (benchKey b)).arch.aop a).mark = false) (halign : ((s.bench (benchKey b)).arch.aop a).ea % 64 = 0)
    (hin : ((s.bench (benchKey b)).arch.aop a).ea + 4096 * fmtBytes fmt ≤ 0x400000) :
    ∃ t c sat nan, exec (.msta b tag acc clr a fmt) s = .next t ∧ Retires s t (benchKey b) (Bench.counts sat nan c) ∧
      c.arch = (if clr then (s.bench (benchKey b)).arch.setAcc acc [] else (s.bench (benchKey b)).arch).afterSlot (s.bench (benchKey b)).csv [a] ∧
      c.store = (s.bench (benchKey b)).store.put
        (((s.bench (benchKey b)).arch.aop a).ea, (convAll fmt (fullTile ((s.bench (benchKey b)).arch.getAcc acc))).1, []) := by
  obtain ⟨hstore, hv3⟩ := storeFmt_of_mem hfmt
  obtain ⟨t, m, tr, ht, hretires⟩ := slot_modifies (slot := 0) (tag := tag) (op := .msta acc clr a fmt)
    (f := fun q => if clr then q.setAcc acc [] else q) h (by simp [SlotOp.reasons, hv3]) rfl
    (by
      simp only [soloEval, evalSlot, bench_atRepeat0, evalMsta, hstore, hmark, halign, bne_self_eq_false, storeSize, decide_eq_true_iff,
        Nat.not_lt.mpr hin, Bool.not_true, Bool.false_eq_true, if_false]
      rfl)
    nofun (fun _ => rfl) (by cases clr <;> rfl) (countConv_local _ _ _) fun _ => ⟨rfl, rfl, rfl⟩
  exact ⟨t, _, _, _, ht, hretires, rfl, by simp only [List.foldl_cons, List.foldl_nil]⟩

end

/-- Settles O17: MMA as a write of the product, MSTA as a store whose elements read back. -/
theorem matrixSlots : Obligations.MatrixSlots := by
  unfold Obligations.MatrixSlots
  intro b tag s acc h k r m
  refine ⟨fun z hpair hat has hbt hbs => mma_adds h acc z hpair hat has hbt hbs, fun clr a fmt hfmt hwf hmark halign hin => ?_⟩
  obtain ⟨t, c, sat, nan, ht, hretires, harch, hstore⟩ := msta_stores (tag := tag) h acc clr hfmt hmark halign hin
  have htstore := (hretires.field Bench.store fun _ => rfl).trans hstore
  obtain ⟨hframe, helems⟩ := converted_store hwf fmt (r.aop a).ea (fullTile (r.getAcc acc)) []
  rw [length_fullTile] at hframe helems
  refine ⟨t, ht, hretires.only, hretires.arch.trans harch, fun i hi => ?_, fun e he => ?_⟩
  · rw [htstore]
    exact hframe i (by rwa [Nat.mul_comm (fmtBytes fmt)])
  · rw [htstore, ← getD_fullTile _ he]
    exact helems e he

end Sys2Proof.Machine
end

section
/-! Slots that wait and go on (R86, R94, R139, R142, R330–R335): waits of a ready bench, the retry of a bundle of one slot, fences, and the shelf. -/

namespace Sys2Proof.Machine

/-! ## Waits and retries -/

/-- A plain slot of a ready bench that waits, having begun `begun`. -/
theorem slot_waits {s : State} {k slot : Nat} {tag : BitVec 16} {op : SlotOp} {kind : BitVec 3} {begun : Dev → Dev} {c : Bench}
    (h : SlotReady s.toDev k) (hr : op.reasons (s.bench k).csv = []) (hp : op.plain = true)
    (he : ∀ i, evalSlot (s.atRepeat0 k) k (soloBundle slot tag op) i (s.bench k).store none op = .wait kind begun)
    (hc : (begun (s.atRepeat0 k)).bench k = c) (hend : c.atStepEnd = false) :
    ∃ t m tr, done s (slotCommand s.toDev k slot tag op) = .next t ∧ OnlyAt k (begun (s.atRepeat0 k)) t.toDev ∧
      t.bench k = { c with traceMem := m, trace := tr, wait := some ⟨kind, soloBundle slot tag op⟩, repIdx := 0 } ∧
      (t.bench k).waitKind = kind := by
  obtain ⟨m, tr, hself⟩ := waitAt_self (begun (s.atRepeat0 k)) k kind (soloBundle slot tag op) 0
  rw [hc] at hself
  refine ⟨_, m, tr, congrArg (done s) (slotCommand_waits h hr hp he), (OnlyAt.refl k _).waitAt .., hself, ?_⟩
  rw [State.toDev_mk, hself]
  simp only [Bench.waitKind, hend, Bool.false_eq_true, if_false]

theorem issues_runs {d : Dev} {k : Nat} (h : d.issues k = true) : (d.bench k).st = .running ∧ (d.bench k).awaitDiscard = false := by
  simp only [Dev.issues, Bool.and_eq_true, beq_iff_eq, Bool.not_eq_true'] at h
  exact ⟨h.1.1.1, h.1.2⟩

section
variable {b : BenchId} {s : State} {slot : Nat} {tag : BitVec 16} {op : SlotOp} {kind : BitVec 3} (hi : s.issues (benchKey b) = true)
  (hw : (s.bench (benchKey b)).wait = some ⟨kind, soloBundle slot tag op⟩)
include hi hw

/-- BUNDLE_ISSUE, or its own command again, tries a bundle that waits once more (R86). -/
theorem exec_retries {own c : Instr} (hown : exec own s = done s (slotCommand s.toDev (benchKey b) slot tag op))
    (hc : c = own ∨ ∃ ok, c = .bundleIssue b [] ok) : exec c s = done s (retryWait s.toDev (benchKey b) ⟨kind, soloBundle slot tag op⟩) := by
  rcases hc with rfl | ⟨ok, rfl⟩
  · rw [hown]
    have hsame : ((soloBundle slot tag op) == (soloBundle slot tag op)) = true := beq_self_eq_true _
    unfold soloBundle at hsame
    simp only [slotCommand, hi, hw, Bool.not_true, Bool.false_eq_true, if_false]
    exact congrArg (done s) (if_pos hsame)
  · rw [exec_bundleIssue, bundleWithErrors_nil]
    simp only [bundleIssue, hi, hw, Bool.not_true, Bool.false_eq_true, if_false]

theorem exec_tries {own c : Instr} (hown : exec own s = done s (slotCommand s.toDev (benchKey b) slot tag op))
    (hc : c = own ∨ ∃ ok, c = .bundleIssue b [] ok) (hkind : kind ≠ 3) :
    exec c s = done s (execBundle s.toDev (benchKey b) (soloBundle slot tag op)) := by
  rw [exec_retries hi hw hown hc]
  exact congrArg (done s) (if_neg (by simpa using hkind))

end

/-! ## O22: fences -/

theorem soloBundle_scope (slot : Nat) (tag : BitVec 16) (sc : FenceScope) : (soloBundle slot tag (.fence sc)).scope = sc := by
  cases sc <;> rfl

/-- A bench whose fence has completed (R330, R343). -/
def Bench.fenceDone (sc : FenceScope) (b : Bench) : Bench :=
  { b with
    staging := [], fence := none
    fenceBench := if sc = .bench then satInc16 b.fenceBench else b.fenceBench
    fenceDevice := if sc = .device then satInc16 b.fenceDevice else b.fenceDevice
    fenceSuite := if sc = .suite then satInc16 b.fenceSuite else b.fenceSuite }

theorem fenceDone_local (k : Nat) (sc : FenceScope) (e : Dev) :
    OnlyAt k e (fenceDone k sc e) ∧ (fenceDone k sc e).bench k = (e.bench k).fenceDone sc := by
  refine ⟨(OnlyAt.refl k e).modBench _, ?_⟩
  simp only [Machine.fenceDone, Dev.bench_modBench_self]
  cases sc <;> rfl

section
variable {d : Dev} {k : Nat} (sc : FenceScope)

theorem evalFence_unreleased (hrel : d.released k = false) (widest : FenceScope) : evalFence d k widest sc = .wait 6 id := by
  simp only [evalFence, hrel, Bool.not_false, if_true]

variable (hrel : d.released k = true)
include hrel

theorem evalFence_bench : evalFence d k .bench sc = .ok [] id (fenceDone k sc) := by
  simp only [evalFence, hrel, Bool.not_true, Bool.false_eq_true, if_false]

theorem evalFence_acknowledged {f : FenceRun} (hf : (d.bench k).fence = some f) (hplaces : f.places = []) (hsuite : f.suite = false)
    (widest : FenceScope) : evalFence d k widest sc = .ok [] id (fenceDone k sc) := by
  cases widest <;> simp [evalFence, hrel, hf, hplaces, hsuite]

theorem evalFence_device (hf : (d.bench k).fence = none) : evalFence d k .device sc =
    .wait 6 (fun d => d.modBench k (fun b => { b with fence := some ⟨.device, d.places, false, []⟩ })) := by
  simp only [evalFence, hrel, hf, Bool.not_true, Bool.false_eq_true, if_false]

theorem evalFence_suite (hf : (d.bench k).fence = none) : evalFence d k .suite sc = .wait 6 (fenceSuiteStart k) := by
  simp only [evalFence, hrel, hf, Bool.not_true, Bool.false_eq_true, if_false]

end

/-- What a fence of scope SUITE begins (R332): its bench awaits the marker, which another device than the suite head sends to it. -/
theorem fenceSuiteStart_begins (k : Nat) (d : Dev) :
    (fenceSuiteStart k d).bench k = { d.bench k with fence := some ⟨.suite, [], true, []⟩ } ∧
      (fenceSuiteStart k d).suite.sent = (if d.suite.head then d.suite.sent else d.suite.sent ++ [.fence (d.benchEp k)]) ∧
      ∀ j, j ≠ k → (fenceSuiteStart k d).bench j = d.bench j := by
  have hhead : (d.modBench k (fun b => { b with fence := some ⟨.suite, [], true, []⟩ })).suite.head = d.suite.head := rfl
  have hothers : ∀ j, j ≠ k → (d.modBench k (fun b => { b with fence := some ⟨.suite, [], true, []⟩ })).bench j = d.bench j :=
    fun j hj => Dev.bench_modBench_ne _ _ hj
  have hself := Dev.bench_modBench_self d k (fun b => { b with fence := some ⟨.suite, [], true, []⟩ })
  simp only [fenceSuiteStart, hhead]
  split
  · exact ⟨hself, rfl, hothers⟩
  · exact ⟨hself, rfl, hothers⟩

/-- A fence slot whose evaluation completes the fence, tried on a bench that runs. -/
theorem execBundle_fence {s : State} {d : Dev} {k : Nat} (tag : BitVec 16) (sc : FenceScope) (hd : OnlyAt k s.toDev d) (h0 : (d.bench k).repIdx = 0)
    (hrun : (d.bench k).st = .running ∧ (d.bench k).awaitDiscard = false) (he : evalFence d k sc sc = .ok [] id (fenceDone k sc)) :
    ∃ t m tr, done s (execBundle d k (soloBundle 4 tag (.fence sc))) = .next t ∧
      Retires s t k (Bench.fenceDone sc { d.bench k with traceMem := m, trace := tr, wait := none }) := by
  have heval : soloEval d k 4 tag (.fence sc) none = .ok [] id (fenceDone k sc) := by
    simp only [soloEval, evalSlot, soloBundle_scope]
    exact he
  obtain ⟨t, m, tr, ht, hretires⟩ := execBundle_modifies hd h0 hrun (touchAtoms_plain _ k 4 tag (.fence sc) rfl) (soloShelf_plain rfl)
    (by rw [heval]; rfl) heval nofun (fun _ => rfl) rfl (fenceDone_local k sc) fun _ => ⟨rfl, rfl, rfl⟩
  have harch : (id (d.bench k).arch).afterSlot (d.bench k).csv (SlotOp.fence sc).aops = (d.bench k).arch := afterSlot_nil ..
  rw [harch] at hretires
  exact ⟨t, m, tr, ht, hretires⟩

/-- What the statement says of a fence that has completed. -/
theorem Retires.fenced {s t : State} {k : Nat} {c : Bench} {sc : FenceScope} (h : Retires s t k (Bench.fenceDone sc c)) :
    (t.bench k).staging = [] ∧ (t.bench k).fence = none ∧ (t.bench k).arch = c.arch ∧ (t.bench k).store = c.store ∧
      (t.bench k).fenceBench = (if sc = .bench then satInc16 c.fenceBench else c.fenceBench) ∧
      (t.bench k).fenceDevice = (if sc = .device then satInc16 c.fenceDevice else c.fenceDevice) ∧
      (t.bench k).fenceSuite = if sc = .suite then satInc16 c.fenceSuite else c.fenceSuite :=
  ⟨h.field Bench.staging fun _ => rfl, h.field Bench.fence fun _ => rfl, h.arch, h.field Bench.store fun _ => rfl,
    h.field Bench.fenceBench fun _ => rfl, h.field Bench.fenceDevice fun _ => rfl, h.field Bench.fenceSuite fun _ => rfl⟩

/-- A fence slot of a ready bench that waits. -/
theorem fence_waits {b : BenchId} (tag : BitVec 16) {s : State} (h : SlotReady s.toDev (benchKey b)) (sc : FenceScope) {begun : Dev → Dev}
    {c : Bench} (he : evalFence (s.atRepeat0 (benchKey b)) (benchKey b) sc sc = .wait 6 begun)
    (hc : (begun (s.atRepeat0 (benchKey b))).bench (benchKey b) = c) (hend : c.atStepEnd = false) :
    ∃ t, exec (.fence b tag sc) s = .next t ∧ OnlyAt (benchKey b) (begun (s.atRepeat0 (benchKey b))) t.toDev ∧ (t.bench (benchKey b)).waitKind = 6 ∧
      (t.bench (benchKey b)).fence = c.fence ∧ (t.bench (benchKey b)).arch = c.arch ∧ (t.bench (benchKey b)).store = c.store := by
  obtain ⟨t, m, tr, ht, honly, hself, hkind⟩ := slot_waits (slot := 4) (tag := tag) (op := .fence sc) h rfl rfl
    (fun _ => by simp only [evalSlot, soloBundle_scope]; exact he) hc hend
  exact ⟨t, ht, honly, hkind, by rw [hself], by rw [hself], by rw [hself]⟩

theorem atRepeat0_ne (d : Dev) {k j : Nat} (hj : j ≠ k) : (d.atRepeat0 k).bench j = d.bench j := Dev.bench_modBench_ne _ _ hj

/-- Settles O22: a FENCE by its scope, its release half and what has been acknowledged. -/
theorem fences : Obligations.Fences := by
  unfold Obligations.Fences
  intro b tag s k
  have hk := bench_atRepeat0 s.toDev k
  have hreleased : (s.atRepeat0 k).released k = s.released k := (OnlyAt.atRepeat0_refl s k).released (by rw [hk])
  have hretried : (s.atRepeat0 k).bench k = { s.bench k with repIdx := 0 } := hk
  refine ⟨fun h hrel => ⟨?bench, fun hnone => ⟨?device, ?suite⟩⟩, fun h hrel sc => ?unreleased, fun sc hi h0 hrel hw hack c hc => ?retry⟩
  case bench =>
    obtain ⟨t, m, tr, ht, hretires⟩ := execBundle_fence tag .bench (OnlyAt.atRepeat0_refl s k) (by rw [hk])
      (by rw [hk]; exact ⟨h.runs.1, h.runs.2.2⟩) (evalFence_bench .bench (hreleased.trans hrel))
    obtain ⟨hstaging, _, harch, hstore, hcount, _⟩ := hretires.fenced
    refine ⟨t, (congrArg (done s) (slotCommand_ready h rfl)).trans ht, hretires.only, harch.trans (by rw [hk]), hstore.trans (by rw [hk]),
      hretires.wait, hstaging, hcount.trans (by rw [hk]; rfl)⟩
  case device =>
    obtain ⟨t, ht, honly, hkind, hfence, harch, hstore⟩ := fence_waits tag h .device
      (evalFence_device .device (hreleased.trans hrel) (by rw [hk]; exact hnone)) (Dev.bench_modBench_self ..) (by rw [hk]; exact h.runs.2.1)
    exact ⟨t, ht, hkind, hfence, harch.trans (by rw [hretried]), hstore.trans (by rw [hretried]), fun j hj =>
      (honly.2 j hj).trans ((Dev.bench_modBench_ne _ _ hj).trans (atRepeat0_ne _ hj))⟩
  case suite =>
    obtain ⟨hself, hsent, hothers⟩ := fenceSuiteStart_begins k (s.atRepeat0 k)
    obtain ⟨t, ht, honly, hkind, hfence, harch, hstore⟩ := fence_waits tag h .suite
      (evalFence_suite .suite (hreleased.trans hrel) (by rw [hk]; exact hnone)) hself (by rw [hk]; exact h.runs.2.1)
    exact ⟨t, ht, hkind, hfence, (honly.field (fun d => d.suite.sent) fun _ => rfl).trans hsent, harch.trans (by rw [hretried]),
      hstore.trans (by rw [hretried]), fun j hj => (honly.2 j hj).trans ((hothers j hj).trans (atRepeat0_ne _ hj))⟩
  case unreleased =>
    obtain ⟨t, ht, honly, hkind, hfence, harch, hstore⟩ := fence_waits tag h sc (evalFence_unreleased sc (hreleased.trans hrel) sc) hk h.runs.2.1
    exact ⟨t, ht, hkind, hfence, harch, hstore, fun j hj => (honly.2 j hj).trans (atRepeat0_ne _ hj)⟩
  case retry =>
    have heval : evalFence s.toDev k sc sc = .ok [] id (fenceDone k sc) := by
      rcases hack with rfl | ⟨f, hf, hplaces, hsuite⟩
      · exact evalFence_bench .bench hrel
      · exact evalFence_acknowledged sc hrel hf hplaces hsuite sc
    obtain ⟨t, m, tr, ht, hretires⟩ := execBundle_fence tag sc (OnlyAt.refl k s.toDev) h0 (issues_runs hi) heval
    obtain ⟨hstaging, hfence, harch, hstore, hbench, hdevice, hsuite⟩ := hretires.fenced
    exact ⟨t, (exec_tries (slot := 4) (tag := tag) (op := .fence sc) hi hw rfl hc (by decide)).trans ht, hretires.only, hretires.wait, hstaging,
      hfence, harch, hstore, hbench, hdevice, hsuite⟩

end Sys2Proof.Machine
end

section
/-! The shelf at its slots (R136–R142): MPUSH and VPOP, tried first or again, as they go on or wait. -/

namespace Sys2Proof.Machine

/-! ## The shelf in one repeat -/

section
variable {sh : Shelf}

@[simp] theorem settled_items (sh : Shelf) : sh.settled.items = sh.items := rfl
@[simp] theorem settled_headPair (sh : Shelf) : sh.settled.headPair = sh.headPair := rfl

/-- A tile that meets room is admitted in either mode (R141, R142). -/
theorem shelfRepeat_admits (tile : List (BitVec 32)) (hroom : sh.items.length < 16) :
    ∃ t, shelfRepeat sh false [tile] false = .go t none ∧ t.items = sh.items ++ [⟨tile, []⟩] := by
  have hone : min 1 (16 - sh.items.length) = 1 := by omega
  cases hm : sh.mode <;>
    simp [shelfRepeat, Shelf.settled, Shelf.native, Shelf.pushAll, hm, hone]

/-- In native mode a tile that meets 16 is ignored and counted (R141). -/
theorem shelfRepeat_ignores (tile : List (BitVec 32)) (hfull : 16 ≤ sh.items.length) (hm : sh.mode = false) :
    ∃ t, shelfRepeat sh false [tile] false = .go t none ∧ t.items = sh.items ∧ t.overrun = true ∧ t.overruns = satAdd16 sh.overruns 1 := by
  have hnone : 16 - sh.items.length = 0 := by omega
  simp [shelfRepeat, Shelf.settled, Shelf.native, hm, hnone]

/-- In back-pressure mode a tile that meets 16 waits (R142). -/
theorem shelfRepeat_backpressure (tile : List (BitVec 32)) (hfull : 16 ≤ sh.items.length) (hm : sh.mode = true) :
    ∃ t, shelfRepeat sh false [tile] false = .hold t ∧ t.items = sh.items ∧ t.bpWait = true ∧ t.rest = some [tile] := by
  have hnone : 16 - sh.items.length = 0 := by omega
  simp [shelfRepeat, Shelf.settled, Shelf.pushAll, hm, hnone]

/-- A tile that waited is admitted once there is room (R142). -/
theorem shelfRepeat_readmits {tile tile' : List (BitVec 32)} (hrest : sh.rest = some [tile]) (hroom : sh.items.length < 16) :
    ∃ t, shelfRepeat sh true [tile'] false = .go t sh.popped ∧ t.items = sh.items ++ [⟨tile, []⟩] ∧ t.bpWait = false := by
  have hone : min 1 (16 - sh.items.length) = 1 := by omega
  simp [shelfRepeat, Shelf.settled, Shelf.pushAll, hrest, hone]

/-- What a VPOP leaves of the shelf, whose next row pair it takes (R137). -/
theorem popOlder_items {it : ShelfItem} {rest : List ShelfItem} (hitems : sh.items = it :: rest) (hpopped : sh.popped = none) (hown : sh.own = 0) :
    sh.popOlder.items = (if sh.headPair = 31 then rest else sh.items) ∧
      sh.popOlder.headPair = (if sh.headPair = 31 then 0 else sh.headPair + 1) ∧ sh.popOlder.popped = some (it.pair sh.headPair) := by
  by_cases hlast : sh.headPair = 31 <;> simp [Shelf.popOlder, Shelf.pop, hitems, hpopped, hown, hlast]

/-- A shelf whose VPOP has its rows pushes nothing and goes on. -/
theorem shelfRepeat_pops {it : ShelfItem} {rest : List ShelfItem} {again : Bool} (hitems : sh.items = it :: rest)
    (hagain : (again && sh.rest.isSome) = true → sh.popped = none ∧ sh.rest = some [] ∧ sh.own = 0) :
    ∃ t, shelfRepeat sh again [] true = .go t (some (it.pair sh.headPair)) ∧ t.items = (if sh.headPair = 31 then rest else sh.items) ∧
      t.headPair = if sh.headPair = 31 then 0 else sh.headPair + 1 := by
  unfold shelfRepeat
  cases hkept : again && sh.rest.isSome with
  | true =>
    obtain ⟨hpopped, hrest, hown⟩ := hagain hkept
    obtain ⟨hleft, hpair, htaken⟩ := popOlder_items hitems hpopped hown
    simp only [Bool.not_true, Bool.and_false, Bool.false_eq_true, if_false, if_true, hrest]
    simp [Shelf.pushAll, Shelf.settled, hleft, hpair, htaken]
  | false =>
    obtain ⟨hleft, hpair, htaken⟩ : sh.settled.popOlder.items = (if sh.headPair = 31 then rest else sh.items) ∧
        sh.settled.popOlder.headPair = (if sh.headPair = 31 then 0 else sh.headPair + 1) ∧
        sh.settled.popOlder.popped = some (it.pair sh.headPair) := popOlder_items (sh := sh.settled) hitems rfl rfl
    simp only [Bool.not_true, Bool.and_false, Bool.false_eq_true, if_false, if_true, show sh.settled.rest = none from rfl]
    cases hm : sh.settled.mode <;> simp [Shelf.pushAll, Shelf.native, hleft, hpair, htaken]

/-- On an empty shelf a VPOP waits (R139). -/
theorem shelfRepeat_empty (hitems : sh.items = []) : ∃ t, shelfRepeat sh false [] true = .hold t := by
  cases hm : sh.mode <;> simp [shelfRepeat, Shelf.settled, Shelf.popOlder, Shelf.native, Shelf.pushAll, hm, hitems]

end

/-! ## MPUSH and VPOP -/

section
variable {s : State} {d : Dev} {k : Nat}

theorem touchAtoms_mpush (d : Dev) (k slot : Nat) (tag : BitVec 16) (acc : Fin 4) (clr : Bool) :
    d.touchAtoms k (soloBundle slot tag (.mpush acc clr)) = d := rfl

theorem touchAtoms_vpop (d : Dev) (k slot : Nat) (tag : BitVec 16) (vd : Fin 32) : d.touchAtoms k (soloBundle slot tag (.vpop vd)) = d := rfl

/-- A slot at the shelf, tried on a bench that runs, retires where the shelf lets it go on. -/
theorem execBundle_shelf {slot : Nat} {tag : BitVec 16} {op : SlotOp} {shelf : Shelf} {row : Option VReg} {f f' : Arch → Arch}
    (hd : OnlyAt k s.toDev d) (h0 : (d.bench k).repIdx = 0) (hrun : (d.bench k).st = .running ∧ (d.bench k).awaitDiscard = false)
    (ht : d.touchAtoms k (soloBundle slot tag op) = d) (hsh : soloShelf d k slot tag op = .go shelf row)
    (hnone : soloEval d k slot tag op none = .ok [] f' id) (he : soloEval d k slot tag op row = .ok [] f id) (hs : op ≠ .stepend)
    (hb : ∀ r, branchTarget r op = none) (ha : op.aops = []) (hpc : (f (d.bench k).arch).pc = (d.bench k).arch.pc) :
    ∃ t, done s (execBundle d k (soloBundle slot tag op)) = .next t ∧ OnlyRetires s t k ∧ (t.bench k).wait = none ∧
      (t.bench k).shelf = shelf ∧ (t.bench k).arch = f (d.bench k).arch ∧ (t.bench k).store = (d.bench k).store := by
  obtain ⟨t, m, tr, hexec, hretires⟩ := execBundle_modifies (g := id) hd h0 hrun ht hsh (by rw [hnone]; rfl) he hs hb hpc
    (fun e => ⟨OnlyAt.refl k e, rfl⟩) (fun _ => ⟨rfl, rfl, rfl⟩)
  refine ⟨t, hexec, hretires.only, hretires.wait, hretires.field Bench.shelf fun _ => rfl, hretires.arch.trans ?_,
    hretires.field Bench.store fun _ => rfl⟩
  rw [ha]
  exact afterSlot_nil ..

/-- The registers after an MPUSH: CLR zeroes its accumulator (R90). -/
def Arch.mpushed (acc : Fin 4) (clr : Bool) (r : Arch) : Arch := if clr then r.setAcc acc [] else r

theorem mpushed_pc (acc : Fin 4) (clr : Bool) (r : Arch) : (r.mpushed acc clr).pc = r.pc := by
  cases clr <;> rfl

theorem execBundle_mpush {slot : Nat} {tag : BitVec 16} {acc : Fin 4} {clr : Bool} {shelf : Shelf} {row : Option VReg} (hd : OnlyAt k s.toDev d)
    (h0 : (d.bench k).repIdx = 0) (hrun : (d.bench k).st = .running ∧ (d.bench k).awaitDiscard = false)
    (hsh : shelfRepeat (d.bench k).shelf (d.bench k).wait.isSome [fullTile ((d.bench k).arch.getAcc acc)] false = .go shelf row) :
    ∃ t, done s (execBundle d k (soloBundle slot tag (.mpush acc clr))) = .next t ∧ OnlyRetires s t k ∧ (t.bench k).wait = none ∧
      (t.bench k).shelf = shelf ∧ (t.bench k).arch = (d.bench k).arch.mpushed acc clr ∧ (t.bench k).store = (d.bench k).store :=
  execBundle_shelf hd h0 hrun rfl hsh (f := Arch.mpushed acc clr) rfl rfl nofun (fun _ => rfl) rfl (mpushed_pc ..)

theorem execBundle_vpop {slot : Nat} {tag : BitVec 16} {vd : Fin 32} {shelf : Shelf} {row : VReg} (hd : OnlyAt k s.toDev d)
    (h0 : (d.bench k).repIdx = 0) (hrun : (d.bench k).st = .running ∧ (d.bench k).awaitDiscard = false)
    (hsh : shelfRepeat (d.bench k).shelf (d.bench k).wait.isSome [] true = .go shelf (some row)) :
    ∃ t, done s (execBundle d k (soloBundle slot tag (.vpop vd))) = .next t ∧ OnlyRetires s t k ∧ (t.bench k).wait = none ∧
      (t.bench k).shelf = shelf ∧ (t.bench k).arch = (d.bench k).arch.setV vd row ∧ (t.bench k).store = (d.bench k).store :=
  execBundle_shelf hd h0 hrun rfl hsh (f := fun q => q.setV vd row) rfl rfl nofun (fun _ => rfl) rfl rfl

/-- A slot command of a ready bench that the shelf holds. -/
theorem slot_holds {slot : Nat} {tag : BitVec 16} {op : SlotOp} {shelf : Shelf} {f : Arch → Arch} (h : SlotReady s.toDev k)
    (hr : op.reasons (s.bench k).csv = []) (ht : (s.atRepeat0 k).touchAtoms k (soloBundle slot tag op) = s.atRepeat0 k)
    (hsh : soloShelf (s.atRepeat0 k) k slot tag op = .hold shelf) (he : soloEval (s.atRepeat0 k) k slot tag op none = .ok [] f id)
    (hkept : ∀ r, (soloBundle slot tag op).pushed (((soloBundle slot tag op).tiles (s.bench k).arch).length - (shelf.rest.getD []).length) r = r) :
    ∃ t, done s (slotCommand s.toDev k slot tag op) = .next t ∧ (t.bench k).shelf = shelf ∧ (t.bench k).waitKind = 5 ∧
      (t.bench k).arch = (s.bench k).arch ∧ (t.bench k).store = (s.bench k).store ∧ ∀ j, j ≠ k → t.bench j = s.bench j := by
  have hk := bench_atRepeat0 s.toDev k
  have hstop := repeatOnce_holds ht hsh he
  generalize hheld : (s.atRepeat0 k).modBench k (fun b => { b with
    shelf := shelf
    arch := (soloBundle slot tag op).pushed (((soloBundle slot tag op).tiles ((s.atRepeat0 k).bench k).arch).length - (shelf.rest.getD []).length)
      b.arch }) = d at hstop
  have hself : d.bench k = { s.bench k with repIdx := 0, shelf := shelf } := by
    rw [← hheld, Dev.bench_modBench_self, hk, hkept]
  have honly : OnlyAt k s.toDev d := hheld ▸ (OnlyAt.atRepeat0_refl s k).modBench _
  obtain ⟨m, tr, hwait⟩ := waitAt_self d k 5 (soloBundle slot tag op) 0
  refine ⟨_, congrArg (done s) ((slotCommand_ready h hr).trans (execBundle_stops (by rw [hk]) hstop)), ?_⟩
  rw [State.toDev_mk, hwait, hself]
  refine ⟨rfl, ?_, rfl, rfl, (honly.waitAt ..).2⟩
  simp only [Bench.waitKind, h.runs.2.1, Bool.false_eq_true, if_false]

end

/-- Settles O19: by what the shelf answers, whose room and items decide whether the slot goes on. -/
theorem shelfSlots : Obligations.ShelfSlots := by
  unfold Obligations.ShelfSlots
  intro b tag s h k r sh
  have hk := bench_atRepeat0 s.toDev k
  obtain ⟨hst, -, hawait⟩ := h.runs
  have hrun : ((s.atRepeat0 k).bench k).st = .running ∧ ((s.atRepeat0 k).bench k).awaitDiscard = false := by rw [hk]; exact ⟨hst, hawait⟩
  have hwait : ((s.atRepeat0 k).bench k).wait.isSome = false := by rw [hk, h.2.1]; rfl
  have hshelf : ((s.atRepeat0 k).bench k).shelf = sh := by rw [hk]
  have hpush : ∀ {acc clr shelf}, shelfRepeat sh false [fullTile (r.getAcc acc)] false = .go shelf none →
      ∃ t, exec (.mpush b tag acc clr) s = .next t ∧ OnlyRetires s t k ∧ (t.bench k).shelf = shelf ∧ (t.bench k).arch = r.mpushed acc clr ∧
        (t.bench k).store = (s.bench k).store := by
    intro acc clr shelf hsh
    obtain ⟨t, ht, honly, -, hleft, harch, hstore⟩ := execBundle_mpush (slot := 0) (tag := tag) (clr := clr) (OnlyAt.atRepeat0_refl s k) (by rw [hk])
      hrun (by rw [hwait, hshelf, hk]; exact hsh)
    exact ⟨t, (congrArg (done s) (slotCommand_ready h rfl)).trans ht, honly, hleft, harch.trans (by rw [hk]), hstore.trans (by rw [hk])⟩
  refine ⟨fun acc clr hroom => ?admits, fun acc clr hfull hmode => ?ignores, fun acc clr hfull hmode => ?waits, fun vd it rest hitems => ?pops,
    fun vd hitems => ?empty⟩
  case admits =>
    obtain ⟨shelf, hsh, hnew⟩ := shelfRepeat_admits (fullTile (r.getAcc acc)) hroom
    obtain ⟨t, ht, honly, rfl, harch, hstore⟩ := hpush (clr := clr) hsh
    exact ⟨t, ht, honly, hnew, harch, hstore⟩
  case ignores =>
    obtain ⟨shelf, hsh, hnew, hover, hcount⟩ := shelfRepeat_ignores (fullTile (r.getAcc acc)) hfull hmode
    obtain ⟨t, ht, honly, rfl, harch, hstore⟩ := hpush (clr := clr) hsh
    exact ⟨t, ht, hnew, hover, hcount, harch, hstore, fun j hj => (honly.2 j hj).trans (ite_bench ..)⟩
  case waits =>
    obtain ⟨shelf, hsh, hitems, hbp, hrest⟩ := shelfRepeat_backpressure (fullTile (r.getAcc acc)) hfull hmode
    obtain ⟨t, ht, rfl, hkind, harch, hstore, hothers⟩ := slot_holds (slot := 0) (tag := tag) (op := .mpush acc clr) h rfl rfl
      (by rw [soloShelf, hwait, hshelf, hk]; exact hsh) rfl fun q => by rw [hrest]; rfl
    exact ⟨t, ht, hitems, hbp, hkind, harch, hstore, hothers⟩
  case pops =>
    obtain ⟨shelf, hsh, hleft, hpair⟩ := shelfRepeat_pops (again := false) hitems nofun
    obtain ⟨t, ht, honly, -, rfl, harch, hstore⟩ := execBundle_vpop (slot := 2) (tag := tag) (vd := vd) (OnlyAt.atRepeat0_refl s k) (by rw [hk])
      hrun (by rw [hwait, hshelf]; exact hsh)
    exact ⟨t, (congrArg (done s) (slotCommand_ready h rfl)).trans ht, honly, harch.trans (by rw [hk]), hleft, hpair, hstore.trans (by rw [hk])⟩
  case empty =>
    obtain ⟨shelf, hsh⟩ := shelfRepeat_empty hitems
    obtain ⟨t, ht, -, hkind, harch, hstore, hothers⟩ := slot_holds (slot := 2) (tag := tag) (op := .vpop vd) h rfl rfl
      (by rw [soloShelf, hwait, hshelf, hk]; exact hsh) rfl fun q => by
        simp [Bundle.pushed, soloBundle, SlotOp.isMpush]
    exact ⟨t, ht, hkind, harch, hstore, hothers⟩

end Sys2Proof.Machine
end

section
/-! Bundles that wait and go on (R86, R93, R98, R100, R139, R142): the shelf's releases, and RECV, CWAIT and STEPEND tried again. -/

namespace Sys2Proof.Machine

/-! ## The shelf from outside -/

/-- A bundle of one slot that waits at the shelf is tried again. -/
theorem retryShelf_tries {d : Dev} {k slot : Nat} {tag : BitVec 16} {op : SlotOp} {p : SlotOp → Bool} (hi : d.issues k = true)
    (hw : (d.bench k).wait = some ⟨5, soloBundle slot tag op⟩) (hp : p op = true) :
    retryShelf k p d = execBundle d k (soloBundle slot tag op) := by
  have hany : ([(slot, op)].any (fun s : Nat × SlotOp => p s.2)) = true := by simp [hp]
  simp only [retryShelf, hw, hi, Bool.and_true]
  exact if_pos hany

/-! ## RECV -/

/-- A RECV whose queue holds a message that fits the store takes it, tried on a bench that runs. -/
theorem execBundle_recv {s : State} {k : Nat} {tag : BitVec 16} {q : Fin 8} {a : AOp} {xlen xsrc : Fin 32} {m : Msg}
    (hrun : (s.bench k).st = .running ∧ (s.bench k).awaitDiscard = false) (h0 : (s.bench k).repIdx = 0) (hmark : ((s.bench k).arch.aop a).mark = false)
    (hold : (s.bench k).oldest q = some m) (hfits : ((s.bench k).arch.aop a).ea + m.payload.length ≤ 0x400000) :
    ∃ t, done s (execBundle s.toDev k (soloBundle 6 tag (.recv q a xlen xsrc))) = .next t ∧ OnlyRetires s t k ∧ (t.bench k).wait = none ∧
      (t.bench k).inbox = (s.bench k).inbox.erase m ∧
      (t.bench k).arch = ((s.bench k).arch.received xlen xsrc m).afterSlot (s.bench k).csv [a] ∧
      (t.bench k).store = (s.bench k).store.put (((s.bench k).arch.aop a).ea, m.payload, payloadMarks m ((s.bench k).arch.aop a).ea) := by
  let op : SlotOp := .recv q a xlen xsrc
  let w : StoreW := (((s.bench k).arch.aop a).ea, m.payload, payloadMarks m ((s.bench k).arch.aop a).ea)
  have heval : soloEval s.toDev k 6 tag op none = .ok [w] (fun g => g.received xlen xsrc m) (recvDo k (s.soloIssue k 6 tag) m) := by
    simp only [op, soloEval, evalSlot, evalRecv, hmark, hold, storeSize, Nat.not_lt.mpr hfits, Bool.false_eq_true, if_false]
    rfl
  obtain ⟨tm, tr, hbase⟩ := soloBase_bench s.toDev k 6 tag op [w] (s.bench k).shelf (fun g => g.received xlen xsrc m)
  obtain ⟨⟨tm', tr', hc⟩, -⟩ := recvDo_bench (soloBase s.toDev k 6 tag op [w] (s.bench k).shelf fun g => g.received xlen xsrc m) k
    (s.soloIssue k 6 tag) m
  rw [hbase] at hc
  obtain ⟨t, ht, hretires⟩ := execBundle_retires (OnlyAt.refl k s.toDev) h0 (touchAtoms_plain _ k 6 tag op rfl) (soloShelf_plain rfl)
    (by rw [heval]; rfl) heval nofun hc hrun fun e =>
      have hrest := recvDo_bench e k (s.soloIssue k 6 tag) m
      ⟨hrest.2.2 0, hrest.2.1⟩
  exact ⟨t, ht, hretires.only, hretires.wait, hretires.field Bench.inbox fun _ => rfl,
    hretires.arch.trans (soloBundle_samePc (op := op) (fun _ => rfl) 6 tag ((afterSlot_pc ..).trans (received_pc ..))),
    hretires.field Bench.store fun _ => rfl⟩

/-! ## Slots that only read, and STEPEND -/

/-- A plain slot that changes nothing retires, tried on a bench that runs. -/
theorem execBundle_passes {s : State} {k slot : Nat} {tag : BitVec 16} {op : SlotOp}
    (hrun : (s.bench k).st = .running ∧ (s.bench k).awaitDiscard = false) (h0 : (s.bench k).repIdx = 0) (hp : op.plain = true)
    (he : soloEval s.toDev k slot tag op none = .regs id) (hs : op ≠ .stepend) (hb : ∀ r, branchTarget r op = none) (ha : op.aops = []) :
    ∃ t, done s (execBundle s.toDev k (soloBundle slot tag op)) = .next t ∧ ArchOnly s t k (s.bench k).arch ∧ (t.bench k).wait = none := by
  obtain ⟨t, m, tr, ht, hretires⟩ := execBundle_modifies (g := id) (OnlyAt.refl k s.toDev) h0 hrun (touchAtoms_plain _ k slot tag op hp)
    (soloShelf_plain hp) (by rw [he]; rfl) he hs hb rfl (fun e => ⟨OnlyAt.refl k e, rfl⟩) (fun _ => ⟨rfl, rfl, rfl⟩)
  exact ⟨t, ht, hretires.archOnly (by rw [ha]; exact afterSlot_nil ..) rfl, hretires.wait⟩

/-- Settles O20: each wait tries its bundle again, which then finds what it waited for. -/
theorem waitReleases : Obligations.WaitReleases := by
  unfold Obligations.WaitReleases
  intro b s tag k r sh solo hi h0
  have hrun := issues_runs hi
  refine ⟨fun acc clr tile hw hbp hrest hroom => ?mpush, fun vd it rest hw hpopped hrest hown hitems => ?vpop, ?retries⟩
  case mpush =>
    obtain ⟨shelf, hsh, hnew, hover⟩ := shelfRepeat_readmits (tile' := fullTile (r.getAcc acc)) hrest hroom
    obtain ⟨t, ht, honly, hend, rfl, harch, hstore⟩ := execBundle_mpush (slot := 0) (tag := tag) (clr := clr) (OnlyAt.refl k s.toDev) h0 hrun
      (by rw [hw]; exact hsh)
    have hadmit : admitMpush k s.toDev = execBundle s.toDev k (soloBundle 0 tag (.mpush acc clr)) := (if_pos hbp).trans (retryShelf_tries hi hw rfl)
    exact ⟨t, (congrArg (done s) hadmit).trans ht, honly, hend, hover, hnew, harch, hstore⟩
  case vpop =>
    obtain ⟨shelf, hsh, -⟩ := shelfRepeat_pops (again := true) hitems fun _ => ⟨hpopped, hrest, hown⟩
    obtain ⟨t, ht, honly, hend, -, harch, hstore⟩ := execBundle_vpop (slot := 2) (tag := tag) (vd := vd) (OnlyAt.refl k s.toDev) h0 hrun
      (by rw [hw]; exact hsh)
    have hlater : ¬ sh.items.length ≤ sh.own := by rw [hitems, hown]; simp
    have harrive : vpopRows k s.toDev = execBundle s.toDev k (soloBundle 2 tag (.vpop vd)) := (if_neg hlater).trans (retryShelf_tries hi hw rfl)
    exact ⟨t, (congrArg (done s) harrive).trans ht, honly, hend, harch, hstore⟩
  case retries =>
    refine ⟨fun q a xlen xsrc msg hw hmark hold hwf hfits c hc => ?recv, fun ct max hw hct c hc => ?cwait, fun hw hrel c hc => ?stepend⟩
    case recv =>
      obtain ⟨t, ht, honly, hend, hinbox, harch, hstore⟩ := execBundle_recv (tag := tag) (xlen := xlen) (xsrc := xsrc) hrun h0 hmark hold hfits
      refine ⟨t, (exec_tries (slot := 6) (tag := tag) (op := .recv q a xlen xsrc) hi hw rfl hc (by decide)).trans ht, honly, hend, hinbox, harch,
        fun i => ?_⟩
      rw [hstore]
      exact Mem.byte_store _ _ _ _ hwf
    case cwait =>
      obtain ⟨t, ht, harch, hend⟩ := execBundle_passes (slot := 4) (tag := tag) (op := .cwait ct max) hrun h0 rfl
        (by simp only [soloEval, evalSlot]; exact if_pos hct) nofun (fun _ => rfl) rfl
      exact ⟨t, (exec_tries (slot := 4) (tag := tag) (op := .cwait ct max) hi hw rfl hc (by decide)).trans ht, harch, hend⟩
    case stepend =>
      obtain ⟨hend, harch, hst, hstore, hothers⟩ := stepEnd_reports (soloBundle 7 tag .stepend) hrel
      exact ⟨_, exec_retries (slot := 7) (tag := tag) (op := .stepend) hi hw rfl hc, hend, harch, hst.trans hrun.1, hstore, hothers⟩

end Sys2Proof.Machine
end

section
/-! ATOM (R95, R167, R170): a slot that also writes outside its bench, what retiring keeps there, and the combined word. -/

namespace Sys2Proof.Machine

/-! ## Retiring outside the bench -/

theorem noteHalt_stores (d : Dev) : d.noteHalt.stks = d.stks ∧ d.noteHalt.sbs = d.sbs := by
  simp only [Dev.noteHalt, Dev.abandonBare]
  split
  · split
    · split
      · exact ⟨rfl, rfl⟩
      · split <;> exact ⟨rfl, rfl⟩
    · exact ⟨rfl, rfl⟩
  · exact ⟨rfl, rfl⟩

theorem retire_stores (d : Dev) (k : Nat) (bd : Bundle) (pc : Nat) : (d.retire k bd pc).stks = d.stks ∧ (d.retire k bd pc).sbs = d.sbs := by
  simp only [Dev.retire]
  split
  · exact noteHalt_stores _
  · exact ⟨rfl, rfl⟩

/-- A bundle of one slot retires after effects elsewhere that leave its bench RUNNING. -/
theorem execBundle_begins {d : Dev} {k slot : Nat} {tag : BitVec 16} {op : SlotOp} {shelf : Shelf} {row : Option VReg} {st : List StoreW}
    {f : Arch → Arch} {late : Dev → Dev} (h0 : (d.bench k).repIdx = 0) (ht : d.touchAtoms k (soloBundle slot tag op) = d)
    (hsh : soloShelf d k slot tag op = .go shelf row) (hst : (soloEval d k slot tag op none).stores = st)
    (he : soloEval d k slot tag op row = .ok st f late) (hs : op ≠ .stepend)
    (hrun : ((late (soloBase d k slot tag op st shelf f)).bench k).st = .running ∧
      ((late (soloBase d k slot tag op st shelf f)).bench k).awaitDiscard = false) :
    execBundle d k (soloBundle slot tag op) = (late (soloBase d k slot tag op st shelf f)).retire k (soloBundle slot tag op)
      ((soloBundle slot tag op).nextPc (d.bench k).arch) := by
  have hgo := repeatOnce_goes ht hsh hst he
  rw [hrun.1, hrun.2] at hgo
  exact execBundle_goes h0 hgo hs

/-! ## The word of an ATOM -/

theorem Mem.read_write_self {m : Mem} (hwf : m.wf = true) (x : Nat) (vs : List Byte) : (m.write x vs).read x vs.length = vs := by
  apply List.ext_getElem
  · simp [Mem.read]
  · intro i hi hi'
    simp only [Mem.read, List.getElem_map, List.getElem_range, Mem.byte_write _ _ _ hwf]
    rw [if_pos (by omega), Nat.add_sub_cancel_left, List.getD_eq_getElem _ _ hi']

theorem Mem.readNat_write_leBytes {m : Mem} (hwf : m.wf = true) (x n v : Nat) : (m.write x (leBytes n v)).readNat x n = v % 2 ^ (8 * n) := by
  have hread := Mem.read_write_self hwf x (leBytes n v)
  rw [length_leBytes] at hread
  rw [Mem.readNat, hread, leNat_leBytes, Nat.pow_mul]

/-- The word that an ATOM at x finds. -/
def Dev.atomOld (d : Dev) (op : BitVec 4) (x : Nat) : BitVec 64 := BitVec.ofNat 64 ((d.sb (sbCab x)).mem.readNat (sbOff x) (atomSize op))

section
variable (k : Nat) (op : BitVec 4) (x : Nat) (xs xc : BitVec 64) (xd : Fin 32) (e : Dev)

theorem sb_arrive (d : Dev) (id : Nat) (block : BitVec 16) (j : Nat) : (d.arrive id block).sb j = d.sb j := by
  obtain ⟨p, hp⟩ := arrive_pwr d id block
  rw [hp]
  rfl

/-- An ATOM writes its word at the sideboard and, where it returns, the old one to a register (R95). -/
theorem atomDo_sb : (atomDo k op x xs xc xd e).sb (sbCab x) = { e.sb (sbCab x) with
      mem := (e.sb (sbCab x)).mem.write (sbOff x) (leBytes (atomSize op) (atomNew op (e.atomOld op x) xs xc).toNat) } ∧
    ∀ j, j ≠ sbCab x → (atomDo k op x xs xc xd e).sb j = e.sb j := by
  simp only [atomDo, sb_arrive]
  split
  · exact ⟨Dev.sb_setSb_self .., fun j hj => (Dev.sb_setSb_ne _ _ hj).trans (sb_arrive ..)⟩
  · exact ⟨Dev.sb_setSb_self .., fun j hj => (Dev.sb_setSb_ne _ _ hj).trans (sb_arrive ..)⟩

theorem atomDo_bench : (atomDo k op x xs xc xd e).bench k = { e.bench k with
      arch := if 4 ≤ op.toNat then (e.bench k).arch.setX xd (e.atomOld op x) false else (e.bench k).arch } ∧
    ∀ j, j ≠ k → (atomDo k op x xs xc xd e).bench j = e.bench j := by
  have hkeeps (m : Mem) (j : Nat) : ((e.arrive (sbDom (sbCab x)) (e.benchBlock k)).setSb (sbCab x) { e.sb (sbCab x) with mem := m }).bench j =
      e.bench j := (Dev.bench_setSb ..).trans (bench_arrive ..)
  by_cases hreturns : 4 ≤ op.toNat
  · simp only [atomDo, sb_arrive, atomReturns, hreturns, decide_true, if_true]
    refine ⟨(Dev.bench_modBench_self ..).trans ?_, fun j hj => (Dev.bench_modBench_ne _ _ hj).trans (hkeeps ..)⟩
    rw [hkeeps]
    rfl
  · simp only [atomDo, sb_arrive, atomReturns, hreturns, decide_false, Bool.false_eq_true, if_false]
    exact ⟨hkeeps .., fun j _ => hkeeps ..⟩

end

/-- An ATOM whose sideboard holds no latent error meets none. -/
theorem touchAtoms_clean {d : Dev} {k slot : Nat} {tag : BitVec 16} {op : BitVec 4} {a : AOp} {xd xs xc : Fin 32}
    (h : (d.sb (sbCab ((d.bench k).arch.aop a).ea)).upsets = []) : d.touchAtoms k (soloBundle slot tag (.atom op a xd xs xc)) = d := by
  simp only [Dev.touchAtoms, soloBundle, List.foldl_cons, List.foldl_nil]
  split
  · exact touchSbWords_clean _ h
  · rfl

/-- ATOM has no reason not to decode, but for ATOM_ADD_BF16 in version 2 (R95). -/
theorem reasons_atom {csv op : BitVec 4} (a : AOp) (xd xs xc : Fin 32) (hop : op.toNat ≤ 10) (hcsv : op = 3 → csv ≠ 2) :
    (SlotOp.atom op a xd xs xc).reasons csv = [] := by
  have hknown : ¬ 11 ≤ op.toNat := by omega
  have hversion : (op == 3#4 && csv == 2#4) = false := by
    simp only [Bool.and_eq_false_imp, beq_iff_eq, beq_eq_false_iff_ne]
    exact hcsv
  simp [SlotOp.reasons, hknown, hversion]

/-- An ATOM that passes its checks (R95, R167, R170). -/
theorem evalAtom_combines {d : Dev} {r : Arch} {op : BitVec 4} {a : AOp} (k : Nat) (xd : Fin 32) {xs xc : Fin 32} (hmark : (r.aop a).mark = false)
    (hxs : (r.getX xs).mark = false) (hxc : op = 10 → (r.getX xc).mark = false) (hspace : bits 47 44 (r.aop a).ea = 1)
    (halign : (r.aop a).ea % atomSize op = 0) (hopen : d.sbRefusal (bits 43 0 (r.aop a).ea) (atomSize op) = none)
    (hfilled : (d.sb (sbCab (r.aop a).ea)).filled = true)
    (hword : (d.sb (sbCab (r.aop a).ea)).mem.anyMark (sbOff (r.aop a).ea) (atomSize op) = false) :
    evalAtom d k r op a xd xs xc = .ok [] id (atomDo k op (r.aop a).ea (r.getX xs).val (r.getX xc).val xd) := by
  have hcompare : (op == 10#4 && (r.getX xc).mark) = false := by
    simp only [Bool.and_eq_false_imp, beq_iff_eq]
    exact hxc
  simp only [evalAtom, hmark, hxs, hcompare, hspace, halign, hopen, hfilled, hword, Bool.or_self, bne_self_eq_false, Bool.not_true,
    Bool.false_eq_true, if_false]

theorem retire_sb (d : Dev) (k : Nat) (bd : Bundle) (pc j : Nat) : (d.retire k bd pc).sb j = d.sb j := by
  simp only [Dev.sb, retire_stores]

/-- Settles O25: the late effect is the ATOM at its bank, on the bench whose operand has stepped. -/
theorem atomics : Obligations.Atomics := by
  unfold Obligations.Atomics
  intro b tag s op a xd xs xc h k r x c o n old hop hcsv hmark hxs hxc hspace halign hopen hfilled hword hupsets hwf
  let sop : SlotOp := .atom op a xd xs xc
  let e := soloBase (s.atRepeat0 k) k 4 tag sop [] (s.bench k).shelf id
  let d := atomDo k op x (r.getX xs).val (r.getX xc).val xd e
  have hk := bench_atRepeat0 s.toDev k
  have heval : soloEval (s.atRepeat0 k) k 4 tag sop none = .ok [] id (atomDo k op x (r.getX xs).val (r.getX xc).val xd) := by
    have harch : ((s.atRepeat0 k).bench k).arch = r := by rw [hk]
    simp only [soloEval, sop, evalSlot, harch]
    exact evalAtom_combines k xd hmark hxs hxc hspace halign hopen hfilled hword
  obtain ⟨m, tr, hbase⟩ := soloBase_bench (s.atRepeat0 k) k 4 tag sop [] (s.bench k).shelf id
  rw [hk] at hbase
  have honly : OnlyAt k s.toDev e := soloBase_only (OnlyAt.atRepeat0_refl s k) ..
  have hsb (j : Nat) : e.sb j = s.sb j := honly.field (fun d => d.sb j) fun _ => rfl
  have hold : e.atomOld op x = old := by rw [Dev.atomOld, hsb]
  obtain ⟨hcombined, hsbs⟩ := atomDo_sb k op x (r.getX xs).val (r.getX xc).val xd e
  obtain ⟨hself, hothers⟩ := atomDo_bench k op x (r.getX xs).val (r.getX xc).val xd e
  rw [hold, hbase] at hself
  rw [hold, hsb] at hcombined
  have hgo := execBundle_begins (by rw [hk]) (touchAtoms_clean (by rw [hk]; exact hupsets)) (shelf := (s.bench k).shelf) (by rw [soloShelf, hk]; rfl)
    (by rw [heval]; rfl) heval nofun (by rw [hself]; exact ⟨h.runs.1, h.runs.2.2⟩)
  have hexec : exec (.atom b tag op a xd xs xc) s = .next ⟨d.retire k (soloBundle 4 tag sop) ((soloBundle 4 tag sop).nextPc r), s.pending⟩ := by
    refine (congrArg (done s) (slotCommand_ready (op := sop) h (reasons_atom a xd xs xc hop hcsv))).trans ((congrArg (done s) hgo).trans ?_)
    rw [hk]
    rfl
  obtain ⟨harch, hbeside⟩ := retire_bench d k (soloBundle 4 tag sop) ((soloBundle 4 tag sop).nextPc r)
  have hmem : ((d.retire k (soloBundle 4 tag sop) ((soloBundle 4 tag sop).nextPc r)).sb c).mem =
      (s.sb c).mem.write o (leBytes n (atomNew op old (r.getX xs).val (r.getX xc).val).toNat) := by
    rw [retire_sb]
    exact congrArg Sideboard.mem hcombined
  refine ⟨_, hexec, ?_, fun i hi => ?_, fun j hj => ?_, ?_, ?_, fun j hj => ?_⟩
  · rw [State.toDev_mk, hmem]
    exact Mem.readNat_write_leBytes hwf ..
  · rw [State.toDev_mk, hmem, Mem.byte_write _ _ _ hwf, length_leBytes]
    exact if_neg hi
  · exact (retire_sb ..).trans ((hsbs j hj).trans (hsb j))
  · refine harch.trans ?_
    rw [show d.bench k = _ from hself]
    refine soloBundle_samePc (op := sop) (fun _ => rfl) 4 tag ?_
    split
    · exact (setX_pc ..).trans (afterSlot_pc ..)
    · exact afterSlot_pc ..
  · exact (besideArch_fields hbeside).2.1.trans (by rw [show d.bench k = _ from hself]; rfl)
  · exact (retire_others _ _ _ hj).trans ((hothers j hj).trans (honly.2 j hj))

end Sys2Proof.Machine
end

section
/-! What stops a transfer (R280, R282, R291, R357): a held channel, or a fault of one of its accesses or checks, none of which is the shelf's. -/

namespace Sys2Proof.Machine

/-! ## Accesses -/

theorem stkRefusal_code {d : Dev} {a n : Nat} {who : Who} {write : Bool} {f : BitVec 16} (h : d.stkRefusal a n who write = some f) :
    f = fltStkAddr ∨ f = fltDestFenced := by
  simp only [Dev.stkRefusal] at h
  split_ifs at h <;> simp_all

theorem sbRefusal_code {d : Dev} {a n : Nat} {f : BitVec 16} (h : d.sbRefusal a n = some f) :
    f = fltSbAddr ∨ f = fltDestFenced ∨ f = fltSbReserve := by
  simp only [Dev.sbRefusal] at h
  split_ifs at h <;> simp_all

theorem stkRefusal_ne {d : Dev} {a n : Nat} {who : Who} {write : Bool} {f : BitVec 16} (h : d.stkRefusal a n who write = some f) :
    f ≠ fltShelfFlushed := by
  rcases stkRefusal_code h with rfl | rfl <;> decide

theorem sbRefusal_ne {d : Dev} {a n : Nat} {f : BitVec 16} (h : d.sbRefusal a n = some f) : f ≠ fltShelfFlushed := by
  rcases sbRefusal_code h with rfl | rfl | rfl <;> decide

/-- What stops an access or a transfer is not FLT_SHELF_FLUSHED, which no bundle raises (R144). -/
def Stop.notFlushed : Stop → Prop
  | .fault code _ => code ≠ fltShelfFlushed
  | .wait => True

theorem readPlace_stop {d e : Dev} {k a : Nat} {stop : Stop} (h : readPlace d k a = (e, .error stop)) : stop.notFlushed := by
  unfold readPlace at h
  split at h
  · split at h
    · rename_i hrefused
      cases h
      exact stkRefusal_ne hrefused
    · split at h
      · cases h; trivial
      · cases h
  · split at h
    · rename_i hrefused
      cases h
      exact sbRefusal_ne hrefused
    · cases h
  · split at h
    · cases h
      show fltCopyRange ≠ fltShelfFlushed
      decide
    · cases h

theorem readSector_stop {d e : Dev} {k a : Nat} {stop : Stop} (h : readSector d k a = (e, .error stop)) : stop.notFlushed := by
  rcases hread : readPlace d k a with ⟨d', f | v⟩ <;> simp only [readSector, hread] at h
  · have hplace := readPlace_stop hread
    split at h
    · cases h; exact hplace
    · split at h
      · split at h
        · cases h
        · cases h; exact hplace
      · cases h; exact hplace
  · split at h
    · cases h
    · split at h
      · split at h <;> cases h
      · cases h

/-- A transfer that nothing but a held channel, or a fault other than the shelf's, has stopped. -/
def Xfer.Sound (t : Xfer) : Prop := ∀ stop, t.stop = some stop → stop.notFlushed

namespace Xfer.Sound

variable {t : Xfer} {k : Nat} {x : Desc}

theorem going (h : t.stop = none) : t.Sound := fun stop hs => by rw [h] at hs; cases hs

theorem stopped {code : BitVec 16} {det : Nat} (h : t.stop = some (.fault code det)) (hcode : code ≠ fltShelfFlushed) : t.Sound := fun stop hs => by
  rw [h] at hs
  cases hs
  exact hcode

theorem fold {α : Type} {f : Xfer → α → Xfer} (hf : ∀ t a, t.Sound → (f t a).Sound) (l : List α) (h : t.Sound) : (l.foldl f t).Sound := by
  induction l generalizing t with
  | nil => exact h
  | cons a l ih => exact ih (hf t a h)

theorem fetch (h : t.Sound) (a : Nat) : (t.fetch k a).Sound := by
  unfold Xfer.fetch
  split
  · exact h
  · rcases hread : readSector t.d k a with ⟨d, stop | v⟩
    · intro s hs
      cases hs
      exact readSector_stop hread
    · exact h

theorem narrow (h : t.Sound) (a n : Nat) : (t.narrow k a n).Sound := by
  unfold Xfer.narrow
  split
  · rename_i hrefused
    exact stopped rfl (stkRefusal_ne hrefused)
  · split
    · intro s hs
      cases hs
      trivial
    · exact h

theorem writeRun (h : t.Sound) (replace counted : Bool) (r : List ByteW) : (t.writeRun k replace counted r).Sound := by
  unfold Xfer.writeRun
  split
  · exact h
  · exact h
  · rename_i hgoing
    dsimp only
    split
    · split
      · rename_i hrefused
        exact stopped rfl (stkRefusal_ne hrefused)
      · exact going hgoing
    · split
      · rename_i hrefused
        exact stopped rfl (sbRefusal_ne hrefused)
      · split
        · exact stopped rfl (by decide)
        · split
          · exact stopped rfl (by decide)
          · exact going hgoing
    · split
      · exact stopped rfl (by decide)
      · exact going hgoing

theorem writeRuns (h : t.Sound) (replace : Bool) (rs : List (List ByteW)) : (t.writeRuns k replace rs).Sound := by
  have hpair : ∀ (rs : List (List ByteW)) (p : Xfer × Option Nat), p.1.Sound → ((rs.foldl (fun (p : Xfer × Option Nat) r =>
      let sector := r.head?.map (fun w => w.1 / 64)
      (p.1.writeRun k replace (p.2.isSome && p.2 == sector) r, if r.any (fun w => w.2.2) then sector else p.2)) p).1).Sound := by
    intro rs
    induction rs with
    | nil => exact fun _ hp => hp
    | cons r rs ih => exact fun p hp => ih _ (hp.writeRun _ _ _)
  exact hpair rs (t, none) h

theorem writeBytes (h : t.Sound) (replace down : Bool) (ws : List ByteW) : (t.writeBytes k replace down ws).Sound :=
  fold (fun _ _ ht => ht.writeRuns _ _) _ h

theorem passTile (h : t.Sound) : (t.passTile k x).Sound := by
  unfold Xfer.passTile
  split <;> exact h

/-- What follows a step that a transfer may stop in. -/
theorem andThen {u : Xfer} {f : Xfer → Xfer} (hu : u.Sound) (hf : ∀ {t : Xfer}, t.Sound → (f t).Sound) : (if u.stop.isSome then u else f u).Sound := by
  split
  · exact hu
  · exact hf hu

theorem fetches (h : t.Sound) (box : List (Nat × Nat × Nat)) (addrs : Nat × Nat × Nat → List Nat) :
    (box.foldl (fun t i => (addrs i).foldl (fun t a => t.fetch k (a / 64 * 64)) t) t).Sound :=
  fold (fun _ _ ht => fold (fun _ _ ht => ht.fetch _) _ ht) _ h

theorem block (h : t.Sound) (so dO : Nat × Nat × Nat) (skip : Bool) : (t.block k x so dO skip).Sound := by
  unfold Xfer.block
  split
  · exact h
  · refine andThen (f := fun t => Xfer.writeBytes { t.passTile k x with cache := [] } k x.replace x.shiftsDown _) ?_ fun {u} hu => ?_
    · split
      · exact h
      · split
        · exact h.narrow _ _
        · exact h.fetches _ _
    · exact writeBytes (t := { u.passTile k x with cache := [] }) hu.passTile _ _ _

theorem listEntry (h : t.Sound) (i : Nat) : (Machine.listEntry t k x i).1.Sound := by
  unfold Machine.listEntry
  dsimp only
  split
  · exact stopped rfl (by decide)
  · split <;> exact h

/-- The checks of a listed block stop the transfer (R282, R288). -/
theorem listed {v : Xfer} {far shared : Bool} (h : v.Sound) : (if far then { t with stop := some (.fault fltCopyList 0) }
    else if shared then { t with stop := some (.fault fltCopyOverlap 0) } else v).Sound := by
  split
  · exact stopped rfl (by decide)
  · split
    · exact stopped rfl (by decide)
    · exact h

theorem listBlocks (h : t.Sound) (n i : Nat) : (Xfer.listBlocks k x n i t).Sound := by
  induction n generalizing i t with
  | zero => exact h
  | succ n ih =>
    unfold Xfer.listBlocks
    split
    · exact h
    · have hentry := h.listEntry (k := k) (x := x) i
      generalize Machine.listEntry t k x i = p at hentry ⊢
      obtain ⟨u, e⟩ := p
      dsimp only at hentry ⊢
      split
      · exact hentry
      · cases e with
        | none =>
          refine ih ?_ _
          split
          · refine block ?_ _ _ _
            exact hentry
          · exact hentry
        | some o =>
          rcases Bool.eq_false_or_eq_true (x.op == 2) with hop | hop <;> simp only [hop, if_true, Bool.false_eq_true, if_false] <;>
            exact listed (ih (hentry.block _ _ _) _)

theorem readRange (h : t.Sound) (a n : Nat) : (t.readRange k a n).1.Sound := by
  unfold Xfer.readRange
  dsimp only
  split
  · exact h
  · exact fold (fun _ _ ht => ht.fetch _) _ h

theorem readEntry (h : t.Sound) (j : Nat) : (t.readEntry k x j).1.Sound := by
  unfold Xfer.readEntry
  dsimp only
  split
  · exact h.fetch _
  · split
    · exact stopped rfl (by decide)
    · exact h.fetch _

theorem writeEntry (h : t.Sound) (j : Nat) (e : Entry) : (t.writeEntry k x j e).Sound := by
  refine writeBytes ?_ _ _ _
  exact h

theorem noteRaw (h : t.Sound) (st : Stored) : (t.noteRaw st).Sound := h

theorem rawSource (h : t.Sound) : (t.rawSource k x).1.Sound := h.fetches _ _

theorem encodeBlocks (h : t.Sound) (tab : CodeTable) (n j : Nat) (raw : List (Byte × Bool)) : (Xfer.encodeBlocks k x tab n j raw t).Sound := by
  induction n generalizing j raw t with
  | zero => exact h
  | succ n ih =>
    unfold Xfer.encodeBlocks
    split
    · exact h
    · have hentry := readEntry (t := { t with cache := [] }) (k := k) (x := x) h j
      generalize Xfer.readEntry { t with cache := [] } k x j = p at hentry ⊢
      obtain ⟨u, old⟩ := p
      dsimp only at hentry ⊢
      split
      · exact hentry
      · split
        · exact stopped rfl (by decide)
        · refine ih ?_ _ _
          refine andThen (f := fun t => t.writeEntry k x j _) (noteRaw ?_ _) fun hu => writeEntry hu _ _
          refine writeBytes ?_ _ _ _
          exact hentry

theorem tallyBlocks (h : t.Sound) (tab : CodeTable) (n j off : Nat) (raw : List (Byte × Bool)) : (Xfer.tallyBlocks k x tab n j off raw t).Sound := by
  induction n generalizing j off raw t with
  | zero => exact h
  | succ n ih =>
    unfold Xfer.tallyBlocks
    split
    · exact h
    · exact ih (writeEntry (h.noteRaw _) _ _) _ _ _

theorem tally (h : t.Sound) : (t.tally k x).Sound := by
  unfold Xfer.tally
  have hraw := h.rawSource (k := k) (x := x)
  generalize t.rawSource k x = p at hraw ⊢
  obtain ⟨u, raw⟩ := p
  dsimp only at hraw ⊢
  split
  · exact hraw
  · split
    · exact stopped rfl (by decide)
    · split
      · exact stopped rfl (by decide)
      · refine tallyBlocks ?_ _ _ _ _ _
        exact hraw

theorem decodeBlocks (h : t.Sound) (n j : Nat) : (Xfer.decodeBlocks k x n j t).1.Sound := by
  induction n generalizing j t with
  | zero => exact h
  | succ n ih =>
    unfold Xfer.decodeBlocks
    split
    · exact h
    · have hentry := h.readEntry (k := k) (x := x) j
      generalize t.readEntry k x j = p at hentry ⊢
      obtain ⟨u, e⟩ := p
      dsimp only at hentry ⊢
      split
      · exact hentry
      · refine ih ?_ _
        have hread (a n : Nat) : (Xfer.readRange { u with queued := u.queued ++ u.d.cmp.queuedGen e } k a n).1.Sound := by
          refine readRange ?_ _ _
          exact hentry
        split
        · exact hread _ _
        · exact hread _ _

theorem decodeMove (h : t.Sound) : (t.decodeMove k x).Sound := by
  unfold Xfer.decodeMove
  have hraw := h.decodeBlocks (k := k) (x := x) x.nblocks 0
  generalize Xfer.decodeBlocks k x x.nblocks 0 t = p at hraw ⊢
  obtain ⟨u, raw⟩ := p
  dsimp only at hraw ⊢
  split
  · exact hraw
  · refine block ?_ _ _ _
    exact hraw

theorem run (h : t.Sound) : (t.run k x).Sound := by
  unfold Xfer.run
  split
  · exact h.tally
  · split
    · exact h.decodeMove
    · split
      · refine encodeBlocks (rawSource ?_) _ _ _ _
        exact h
      · split
        · exact h.listBlocks _ _
        · exact h.block _ _ _

end Xfer.Sound

/-- A fault that stops a whole transfer is not the shelf's. -/
theorem run_fault_ne {d : Dev} {k : Nat} {x : Desc} {queued : List (Nat × BitVec 16)} {code : BitVec 16} {det : Nat}
    (h : ((Xfer.start d queued).run k x).stop = some (.fault code det)) : code ≠ fltShelfFlushed :=
  (Xfer.Sound.going (t := Xfer.start d queued) rfl).run _ h

end Sys2Proof.Machine
end

section
/-! Copy commands, COPY_COMPLETE and CWAIT (R93, R164, R277, R280, R282, R290, R308). -/

namespace Sys2Proof.Machine

/-! ## Slots with effects on other units -/

theorem modBench_congr {d : Dev} {k : Nat} {f g : Bench → Bench} (h : f (d.bench k) = g (d.bench k)) : d.modBench k f = d.modBench k g := by
  simp only [Dev.modBench, h]

/-- What a bundle of one slot leaves whose late effect gives the device `e`: its bench retires if it still runs, and else stops (R103). -/
theorem execBundle_leaves {s : State} {d e : Dev} {k slot : Nat} {tag : BitVec 16} {op : SlotOp} {shelf : Shelf} {row : Option VReg}
    {st : List StoreW} {f : Arch → Arch} {late : Dev → Dev} (h0 : (d.bench k).repIdx = 0) (ht : d.touchAtoms k (soloBundle slot tag op) = d)
    (hsh : soloShelf d k slot tag op = .go shelf row) (hst : (soloEval d k slot tag op none).stores = st)
    (he : soloEval d k slot tag op row = .ok st f late) (hs : op ≠ .stepend) (hlate : late (soloBase d k slot tag op st shelf f) = e) :
    ∃ t, done s (execBundle d k (soloBundle slot tag op)) = .next t ∧ t.stks = e.stks ∧ t.sbs = e.sbs ∧ (∀ j, j ≠ k → t.bench j = e.bench j) ∧
      (t.bench k).store = (e.bench k).store ∧ (t.bench k).transfers = (e.bench k).transfers ∧
      if (e.bench k).st = .running ∧ (e.bench k).awaitDiscard = false
        then (t.bench k).arch = { (e.bench k).arch with pc := (soloBundle slot tag op).nextPc (d.bench k).arch }
        else (t.bench k).st ≠ .running ∨ (t.bench k).awaitDiscard = true := by
  by_cases hrun : (e.bench k).st = .running ∧ (e.bench k).awaitDiscard = false
  · obtain ⟨hstks, hsbs⟩ := retire_stores e k (soloBundle slot tag op) ((soloBundle slot tag op).nextPc (d.bench k).arch)
    obtain ⟨harch, hbeside⟩ := retire_bench e k (soloBundle slot tag op) ((soloBundle slot tag op).nextPc (d.bench k).arch)
    have hgo := execBundle_begins h0 ht hsh hst he hs (by rw [hlate]; exact hrun)
    rw [hlate] at hgo
    refine ⟨_, congrArg (done s) hgo, hstks, hsbs, fun j hj => retire_others _ _ _ hj, (congrArg Bench.store hbeside :),
      (congrArg Bench.transfers hbeside :), ?_⟩
    rw [if_pos hrun]
    exact harch
  · have hstop := repeatOnce_goes ht hsh hst he
    have hstopped : ((e.bench k).st == .running && !(e.bench k).awaitDiscard) = false := by
      simpa [Bool.and_eq_false_iff, Classical.not_and_iff_not_or_not] using hrun
    rw [hlate, hstopped] at hstop
    have hself := Dev.bench_modBench_self e k (fun b => { b with repIdx := 0 })
    refine ⟨_, congrArg (done s) (execBundle_stops h0 hstop), rfl, rfl, fun j hj => Dev.bench_modBench_ne _ _ hj, (congrArg Bench.store hself :),
      (congrArg Bench.transfers hself :), ?_⟩
    rw [if_neg hrun]
    refine (Classical.not_and_iff_not_or_not.mp hrun).imp (fun h => ?_) fun h => ?_
    · exact fun h' => h (((congrArg Bench.st hself :).symm.trans h'))
    · exact (congrArg Bench.awaitDiscard hself :).trans (by simpa using h)

/-- The device as the late effect of a slot command finds it that writes no register and no store. -/
theorem soloBase_ready {s : State} {k slot : Nat} {tag : BitVec 16} {op : SlotOp} (h : SlotReady s.toDev k) :
    soloBase (s.atRepeat0 k) k slot tag op [] (s.bench k).shelf id =
      ((s.toDev.modBench k (fun q => { q with repIdx := 0 })).modBench k (fun q => { q with arch := q.arch.afterSlot q.csv op.aops })).fresh := by
  have hk := bench_atRepeat0 s.toDev k
  have hnowait : (s.atRepeat0 k).waitEnds k (soloBundle slot tag op) 0 = s.atRepeat0 k := by
    simp only [Dev.waitEnds, hk, h.2.1]
  rw [soloBase, hnowait]
  refine congrArg Dev.fresh (modBench_congr ?_)
  rw [hk]
  rfl

/-! ## Faults of a bench -/

/-- A fault of bench k leaves the stores and the other benches (R103). -/
theorem benchFault_leaves (d : Dev) (k : Nat) (code : BitVec 16) (iss : Issue) (detail : Nat) :
    (d.benchFault k code iss detail).stks = d.stks ∧ (d.benchFault k code iss detail).sbs = d.sbs ∧
      ((d.benchFault k code iss detail).bench k).store = (d.bench k).store ∧ ∀ j, j ≠ k → (d.benchFault k code iss detail).bench j = d.bench j := by
  obtain ⟨m, t, hrec⟩ := bench_benchRecord_self d k code iss (BitVec.ofNat 16 d.step.toNat) detail
  have hothers (j : Nat) (hj : j ≠ k) : (d.benchRecord k code iss (BitVec.ofNat 16 d.step.toNat) detail).bench j = d.bench j :=
    (Dev.bench_modBench_ne _ _ hj).trans (Dev.bench_trace_ne _ _ _ _ _ hj)
  simp only [Dev.benchFault]
  split
  · exact ⟨rfl, rfl, by rw [Dev.bench_discard, Dev.bench_modBench_self, hrec], fun j hj =>
      (Dev.bench_discard ..).trans ((Dev.bench_modBench_ne _ _ hj).trans (hothers j hj))⟩
  · split
    · exact ⟨rfl, rfl, by rw [Dev.bench_discard, hrec], hothers⟩
    · exact ⟨rfl, rfl, by rw [Dev.bench_discard, Dev.bench_modBench_self, hrec]; rfl,
        fun j hj =>
      (Dev.bench_discard ..).trans ((Dev.bench_modBench_ne _ _ hj).trans (hothers j hj))⟩

/-- After any fault but the shelf's the bench is FAULTED or awaits the discard (R103, R144). -/
theorem benchFault_stops (d : Dev) (k : Nat) {code : BitVec 16} (iss : Issue) (detail : Nat) (hshelf : code ≠ fltShelfFlushed) :
    ¬ (((d.benchFault k code iss detail).bench k).st = .running ∧ ((d.benchFault k code iss detail).bench k).awaitDiscard = false) := by
  have hflush : (code == fltShelfFlushed) = false := by simp [hshelf]
  simp only [Dev.benchFault, hflush, Bool.false_eq_true, if_false, Dev.bench_discard]
  split <;> simp [Dev.bench_modBench_self]

/-! ## Copy commands -/

section
variable {d : Dev} {k : Nat} {iss : Issue} {ea : Nat} {ct : Fin 8} {op : BitVec 4} {bytes : List Byte} (hop : op.toNat = (descOf bytes).op)
  (hchecks : (descOf bytes).firstFault d.cmp = none)
include hop hchecks

/-- A transfer that meets no fault is outstanding, its bytes moved (R280, R290). -/
theorem copyIssue_moves (hstop : ((Xfer.start d []).run k (descOf bytes)).stop = none) :
    copyIssue k iss ea ct (some op) bytes none d = ({ ((Xfer.start d []).run k (descOf bytes)).d with
        free := ((Xfer.start d []).run k (descOf bytes)).d.free + 1 } : Dev).modBench k (fun b => { b with transfers := b.transfers ++
      [⟨ct, iss, BitVec.ofNat 48 ea, (descOf bytes).inPlace, ((Xfer.start d []).run k (descOf bytes)).queued, none,
        d.writtenIn ((Xfer.start d []).run k (descOf bytes)).d k⟩] }) := by
  simp only [copyIssue, hop, hchecks, hstop, bne_self_eq_false, Bool.false_and, Bool.false_eq_true, if_false]

/-- A transfer that meets a held channel is outstanding with its descriptor (R357). -/
theorem copyIssue_waits (hstop : ((Xfer.start d []).run k (descOf bytes)).stop = some .wait) :
    ∃ tr : Transfer, tr.ct = ct ∧ tr.todo = some bytes ∧
      copyIssue k iss ea ct (some op) bytes none d = d.modBench k (fun b => { b with transfers := b.transfers ++ [tr] }) := by
  simp only [copyIssue, hop, hchecks, hstop, bne_self_eq_false, Bool.false_and, Bool.false_eq_true, if_false]
  exact ⟨_, rfl, rfl, rfl⟩

/-- A transfer that meets a fault stops its bench (R282, R292). -/
theorem copyIssue_faults {code : BitVec 16} {det : Nat} (hstop : ((Xfer.start d []).run k (descOf bytes)).stop = some (.fault code det)) :
    ∃ detail, copyIssue k iss ea ct (some op) bytes none d = ({ ((Xfer.start d []).run k (descOf bytes)).d with
        free := ((Xfer.start d []).run k (descOf bytes)).d.free + 1 } : Dev).benchFault k code iss detail := by
  simp only [copyIssue, hop, hchecks, hstop, bne_self_eq_false, Bool.false_and, Bool.false_eq_true, if_false]
  exact ⟨_, rfl⟩

end

/-- The evaluation of a copy whose descriptor it can read (R277). -/
theorem evalCopy_issues {s : State} {k : Nat} {tag : BitVec 16} {a : AOp} {ct : Fin 8} {op : Option (BitVec 4)} (hmark : ((s.bench k).arch.aop a).mark = false)
    (halign : ((s.bench k).arch.aop a).ea % 64 = 0) (hin : ((s.bench k).arch.aop a).ea + 64 ≤ 0x400000) (hroom : (s.bench k).transfers.length < 64)
    (hfirst : (s.bench k).store.firstMark ((s.bench k).arch.aop a).ea 64 = none) :
    soloEval (s.atRepeat0 k) k 4 tag (.copy a ct op) none = .ok [] id (copyIssue k (s.soloIssue k 4 tag) ((s.bench k).arch.aop a).ea ct op
      ((s.bench k).store.read ((s.bench k).arch.aop a).ea 64) none) := by
  have halone : ((soloBundle 4 tag (.copy a ct op)).slots.filter (fun p => decide (p.1 < 4) && p.2.isCopy)).length = 0 := rfl
  simp only [soloEval, evalSlot, evalCopy, Dev.soloIssue, bench_atRepeat0, hmark, halign, hfirst, storeSize, Nat.not_lt.mpr hin, halone, Nat.add_zero,
    Nat.not_le.mpr hroom, bne_self_eq_false, Bool.false_eq_true, if_false]

section
variable {s : State} {b : BenchId} {a : AOp} (h : SlotReady s.toDev (benchKey b)) (hmark : ((s.bench (benchKey b)).arch.aop a).mark = false)
  (halign : ((s.bench (benchKey b)).arch.aop a).ea % 64 = 0) (hin : ((s.bench (benchKey b)).arch.aop a).ea + 64 ≤ 0x400000)
  (hroom : (s.bench (benchKey b)).transfers.length < 64) (hfirst : (s.bench (benchKey b)).store.firstMark ((s.bench (benchKey b)).arch.aop a).ea 64 = none)
include h hmark halign hin hroom hfirst

/-- A copy command leaves what its issue leaves. -/
theorem slotCommand_copy (tag : BitVec 16) (ct : Fin 8) (op : BitVec 4) :
    let k := benchKey b
    let r := (s.bench k).arch
    let e : Dev := ((s.toDev.modBench k (fun q => { q with repIdx := 0 })).modBench k (fun q => { q with arch := q.arch.afterSlot q.csv [a] })).fresh
    let f := copyIssue k (s.soloIssue k 4 tag) (r.aop a).ea ct (some op) ((s.bench k).store.read (r.aop a).ea 64) none e
    ∃ t, done s (slotCommand s.toDev k 4 tag (.copy a ct (some op))) = .next t ∧ t.stks = f.stks ∧ t.sbs = f.sbs ∧
      (∀ j, j ≠ k → t.bench j = f.bench j) ∧ (t.bench k).store = (f.bench k).store ∧ (t.bench k).transfers = (f.bench k).transfers ∧
      if (f.bench k).st = .running ∧ (f.bench k).awaitDiscard = false then (t.bench k).arch = { (f.bench k).arch with pc := r.pc }
        else (t.bench k).st ≠ .running ∨ (t.bench k).awaitDiscard = true := by
  intro k r e f
  have hk := bench_atRepeat0 s.toDev k
  have heval := evalCopy_issues (tag := tag) (ct := ct) (op := some op) hmark halign hin hroom hfirst
  have hout := execBundle_leaves (s := s) (by rw [hk]) (touchAtoms_plain _ k 4 tag (.copy a ct (some op)) rfl) (soloShelf_plain rfl) (by rw [heval]; rfl)
    heval nofun (congrArg (copyIssue k (s.soloIssue k 4 tag) (r.aop a).ea ct (some op) ((s.bench k).store.read (r.aop a).ea 64) none)
      ((congrArg (soloBase (s.atRepeat0 k) k 4 tag (.copy a ct (some op)) [] · id) (by rw [hk])).trans (soloBase_ready h)))
  rw [hk] at hout
  rw [slotCommand_ready (op := .copy a ct (some op)) h rfl]
  exact hout

/-- A copy command of a ready bench whose descriptor passes its checks, by what stops the transfer (R93, R277, R280). -/
theorem copy_issues (tag : BitVec 16) (ct : Fin 8) {op : BitVec 4} :
    let k := benchKey b
    let r := (s.bench k).arch
    let m := (s.bench k).store
    let x := (r.aop a).ea
    let ds := descOf (m.read x 64)
    let e : Dev := ((s.toDev.modBench k (fun q => { q with repIdx := 0 })).modBench k (fun q => { q with arch := q.arch.afterSlot q.csv [a] })).fresh
    let out := (Xfer.start e []).run k ds
    op.toNat = ds.op → ds.firstFault s.cmp = none → ∃ t, done s (slotCommand s.toDev k 4 tag (.copy a ct (some op))) = .next t ∧
      if out.stop = some .wait then (∀ j, j ≠ k → t.bench j = s.bench j) ∧ t.stks = s.stks ∧ t.sbs = s.sbs ∧ (t.bench k).store = m ∧
        ∃ tr : Transfer, (t.bench k).transfers = (s.bench k).transfers ++ [tr] ∧ tr.ct = ct ∧ tr.todo = some (m.read x 64)
      else (t.bench k).store = (out.d.bench k).store ∧ t.stks = out.d.stks ∧
        t.sbs = out.d.sbs ∧ (∀ j, j ≠ k → t.bench j = out.d.bench j) ∧
        if out.stop = none ∧ (out.d.bench k).st = .running ∧ (out.d.bench k).awaitDiscard = false then
          (t.bench k).arch = { (out.d.bench k).arch with pc := r.pc } ∧
            ∃ i : Issue, (t.bench k).transfers = (out.d.bench k).transfers ++ [⟨ct, i, BitVec.ofNat 48 x, ds.inPlace, out.queued, none, e.writtenIn out.d k⟩]
        else (t.bench k).st ≠ .running ∨ (t.bench k).awaitDiscard = true := by
  intro k r m x ds e out hop hchecks
  obtain ⟨t, ht, hstks, hsbs, hothers, hstore, htransfers, hend⟩ := slotCommand_copy h hmark halign hin hroom hfirst tag ct op
  refine ⟨t, ht, ?_⟩
  have hchecks' : ds.firstFault e.cmp = none := hchecks
  generalize hf : copyIssue k (s.soloIssue k 4 tag) (r.aop a).ea ct (some op) (m.read (r.aop a).ea 64) none e = f at *
  rcases hstop : out.stop with _ | ⟨code, det⟩ | _
  case none =>
    rw [copyIssue_moves hop hchecks' hstop] at hf
    subst hf
    rw [if_neg nofun]
    rw [Dev.bench_modBench_self] at hstore htransfers hend
    refine ⟨hstore, hstks, hsbs, fun j hj => (hothers j hj).trans (Dev.bench_modBench_ne _ _ hj), ?_⟩
    by_cases hrun : (out.d.bench k).st = .running ∧ (out.d.bench k).awaitDiscard = false
    · rw [if_pos ⟨rfl, hrun⟩]
      exact ⟨(if_pos hrun).mp hend, s.soloIssue k 4 tag, htransfers⟩
    · rw [if_neg fun hboth => hrun hboth.2]
      exact (if_neg hrun).mp hend
  case some.fault =>
    obtain ⟨detail, hfault⟩ := copyIssue_faults (iss := s.soloIssue k 4 tag) (ea := x) (ct := ct) hop hchecks' hstop
    rw [hfault] at hf
    subst hf
    rw [if_neg nofun, if_neg (fun hnone => nomatch hnone.1)]
    rw [if_neg (benchFault_stops _ _ _ _ (run_fault_ne hstop))] at hend
    obtain ⟨hstks', hsbs', hstore', hothers'⟩ := benchFault_leaves ({ out.d with free := out.d.free + 1 } : Dev) k code (s.soloIssue k 4 tag) detail
    exact ⟨hstore.trans hstore', hstks.trans hstks', hsbs.trans hsbs', fun j hj => (hothers j hj).trans (hothers' j hj), hend⟩
  case some.wait =>
    obtain ⟨tr, hct, htodo, hwait⟩ := copyIssue_waits (iss := s.soloIssue k 4 tag) (ea := x) (ct := ct) hop hchecks' hstop
    rw [hwait] at hf
    subst hf
    rw [if_pos rfl]
    rw [Dev.bench_modBench_self] at hstore htransfers
    have hself : e.bench k = { s.bench k with repIdx := 0, arch := r.afterSlot (s.bench k).csv [a] } := by
      simp only [e, Dev.bench_fresh, Dev.bench_modBench_self]
      rfl
    rw [hself] at hstore htransfers
    have honly : OnlyAt k s.toDev e := (((OnlyAt.refl k s.toDev).modBench _).modBench _).fresh
    exact ⟨fun j hj => (hothers j hj).trans ((Dev.bench_modBench_ne _ _ hj).trans (honly.2 j hj)), hstks, hsbs, hstore, tr, htransfers, hct, htodo⟩

end

/-! ## COPY_COMPLETE -/

section
variable {d : Dev} {k idx : Nat} {x : Transfer} (hx : (d.bench k).transfers[idx]? = some x)
include hx

/-- A transfer whose writes wait in a held channel goes on waiting (R164). -/
theorem copyComplete_waits (hmoved : x.todo = none) (hwait : d.writesWait k x = true) : copyComplete d k idx = d := by
  simp only [copyComplete, hx, hmoved, hwait, if_true]

/-- A transfer whose bytes have moved and whose writes are performed ends (R290). -/
theorem copyComplete_ends (hmoved : x.todo = none) (hdone : d.writesWait k x = false) : OnlyAt k d (copyComplete d k idx) ∧ ∃ m t,
    (copyComplete d k idx).bench k = { d.bench k with transfers := (d.bench k).transfers.eraseIdx idx, traceMem := m, trace := t } := by
  simp only [copyComplete, hx, hmoved, hdone, Bool.false_eq_true, if_false]
  obtain ⟨m, t, htrace⟩ := bench_trace_self (d.modBench k (fun b => { b with transfers := b.transfers.eraseIdx idx })) k 3 x.issue 0
    (x.ct.val * 2 ^ 48 + x.desc.toNat)
  exact ⟨((OnlyAt.refl k d).modBench _).trace .., m, t, by rw [htrace, Dev.bench_modBench_self]⟩

variable {bytes : List Byte} (htodo : x.todo = some bytes)
include htodo

/-- A transfer that still meets a held channel goes on waiting (R357). -/
theorem copyComplete_held (hstop : ((Xfer.start d x.queued).run k (descOf bytes)).stop = some .wait) : copyComplete d k idx = d := by
  simp only [copyComplete, hx, htodo, hstop]

/-- A transfer that had waited moves its bytes, and ends unless its writes wait (R164, R290). -/
theorem copyComplete_moves (hstop : ((Xfer.start d x.queued).run k (descOf bytes)).stop = none) :
    let out := (Xfer.start d x.queued).run k (descOf bytes)
    let y : Transfer := { x with todo := none, wrote := d.writtenIn out.d k }
    (copyComplete d k idx).stks = out.d.stks ∧ (copyComplete d k idx).sbs = out.d.sbs ∧
      (∀ j, j ≠ k → (copyComplete d k idx).bench j = out.d.bench j) ∧ ((copyComplete d k idx).bench k).store = (out.d.bench k).store ∧
      ((copyComplete d k idx).bench k).transfers =
        if out.d.writesWait k y then (out.d.bench k).transfers.set idx y else (out.d.bench k).transfers.eraseIdx idx := by
  intro out y
  have hwaits : Dev.writesWait ({ out.d with free := out.d.free + 1 } : Dev) k y = out.d.writesWait k y := rfl
  simp only [copyComplete, hx, htodo, hstop]
  rw [hwaits]
  split
  · have hself := Dev.bench_modBench_self ({ out.d with free := out.d.free + 1 } : Dev) k (fun b => { b with transfers := b.transfers.set idx y })
    exact ⟨rfl, rfl, fun j hj => Dev.bench_modBench_ne _ _ hj, (congrArg Bench.store hself :), (congrArg Bench.transfers hself :)⟩
  · obtain ⟨m, t, htrace⟩ := bench_trace_self (({ out.d with free := out.d.free + 1 } : Dev).modBench k
      (fun b => { b with transfers := b.transfers.eraseIdx idx })) k 3 x.issue 0 (x.ct.val * 2 ^ 48 + x.desc.toNat)
    rw [Dev.bench_modBench_self] at htrace
    exact ⟨rfl, rfl, fun j hj => (Dev.bench_trace_ne _ _ _ _ _ hj).trans (Dev.bench_modBench_ne _ _ hj), (congrArg Bench.store htrace :),
      (congrArg Bench.transfers htrace :)⟩

end

/-! ## CWAIT and the statement -/

/-- CWAIT decodes with a limit of at most 64 (R93). -/
theorem reasons_cwait {csv : BitVec 4} (ct : Fin 8) {max : BitVec 7} (h : max.toNat ≤ 64) : (SlotOp.cwait ct max).reasons csv = [] := by
  simp [SlotOp.reasons, Nat.not_lt.mpr h]

/-- Settles O21: a copy command by what stops its transfer, COPY_COMPLETE by what still waits, CWAIT by its counter. -/
theorem copySlots : Obligations.CopySlots := by
  unfold Obligations.CopySlots
  intro b tag s k r m
  have hk := bench_atRepeat0 s.toDev k
  refine ⟨?issues, fun idx x hx => ?completes, fun ct max h hmax => ?cwait⟩
  case issues =>
    intro a ct h x ds e out hmark halign hin hroom hfirst hchecks good
    have hissue (op : BitVec 4) (hop : op.toNat = ds.op) := copy_issues h hmark halign hin hroom hfirst tag ct hop hchecks
    exact ⟨fun hop => hissue 1 hop.symm, fun hop => hissue 2 hop.symm, fun hop => hissue 3 hop.symm, fun hop => hissue 4 hop.symm⟩
  case completes =>
    refine ⟨fun hmoved hwait => congrArg (done s) (copyComplete_waits hx hmoved hwait), fun hmoved hdone => ?_, fun bytes htodo => ⟨fun hstop =>
      congrArg (done s) (copyComplete_held hx htodo hstop), fun hstop => ⟨_, rfl, copyComplete_moves hx htodo hstop⟩⟩⟩
    obtain ⟨honly, mem, tr, hself⟩ := copyComplete_ends hx hmoved hdone
    refine ⟨_, rfl, ⟨congrArg (fun d : Dev => ({ toDev := d, pending := s.pending } : State)) honly.1, honly.2⟩, ?_⟩
    rw [State.toDev_mk, hself]
    exact ⟨rfl, rfl, rfl⟩
  case cwait =>
    have hcount : ((s.atRepeat0 k).bench k).ct ct = (s.bench k).ct ct := by rw [hk]; rfl
    refine ⟨fun hle => ?_, fun hlt => ?_⟩
    · exact slot_sets (slot := 4) (tag := tag) (op := .cwait ct max) (f := id) h (reasons_cwait ct hmax) rfl nofun rfl (fun _ => rfl) rfl
        fun _ => by simp only [evalSlot, hcount]; exact if_pos hle
    · obtain ⟨t, mem, tr, ht, honly, hself, hkind⟩ := slot_waits (slot := 4) (tag := tag) (op := .cwait ct max) (begun := id) h (reasons_cwait ct hmax) rfl
        (fun _ => by simp only [evalSlot, hcount]; exact if_neg (Nat.not_le.mpr hlt)) hk h.runs.2.1
      exact ⟨t, ht, hkind, by rw [hself], by rw [hself], fun j hj => (honly.2 j hj).trans (atRepeat0_ne _ hj)⟩

end Sys2Proof.Machine
end

section
/-! Cells of an MMA that are NaN (R117, R118, R119). -/

namespace Sys2Proof.Machine

/-! ## O18: the first row of Table 4-4 -/

section
variable {a b : List FV} {sa sb : Nat × Nat} {acc : BitVec 32}

/-- The condition of Table 4-4's first row: a NaN among the operands, a scale of 255 or a NaN in the accumulator. -/
def CellNaN (a b : List FV) (sa sb : Nat × Nat) (acc : BitVec 32) : Prop :=
  (∃ p ∈ a.zip b, p.1.isNaN = true ∨ p.2.isNaN = true) ∨ sa.1 = 255 ∨ sa.2 = 255 ∨ sb.1 = 255 ∨ sb.2 = 255 ∨ (fp32 acc).isNaN = true

/-- `CellNaN` is the test that a cell of an MMA makes before all others. -/
theorem cellNaN_iff : CellNaN a b sa sb acc ↔
    ((a.zip b).any (fun p => p.1.isNaN || p.2.isNaN) || sa.1 == 255 || sa.2 == 255 || sb.1 == 255 || sb.2 == 255 || (fp32 acc).isNaN) = true := by
  simp only [CellNaN, Bool.or_eq_true, List.any_eq_true, beq_iff_eq, or_assoc]

/-- Where the first row of Table 4-4 applies, neither its later rows nor the sums of R117 and R118 are reached. -/
theorem mmaCell_of_cellNaN (half : Bool) (h : CellNaN a b sa sb acc) : mmaCell half a b sa sb acc = canonNaN :=
  if_pos (cellNaN_iff.mp h)

end

/-- Settles O18: the claim's condition is the first test of the cell, for both groupings of the products. -/
theorem mmaSpecialValues : Obligations.MmaSpecialValues := by
  unfold Obligations.MmaSpecialValues
  intro half a b sa sb acc h
  exact mmaCell_of_cellNaN half h

end Sys2Proof.Machine
end

section
/-! The vector length, the broadcast and the lane reductions (R132–R135, R524). -/

namespace Sys2Proof.Machine

/-! ## O10: VSETL and VBCAST -/

theorem reasons_vsetl_immediate {imm : BitVec 8} (himm : imm.toNat ≤ 128) (csv : BitVec 4) (xs : Fin 32) :
    (SlotOp.vsetl false imm xs).reasons csv = [] := by
  simp [SlotOp.reasons, Nat.not_lt.mpr himm]

section
variable {r : Arch} {xs : Fin 32} (hmark : (r.getX xs).mark = false) (imm : BitVec 8)
include hmark

theorem evalVsetl_register (hle : (r.getX xs).val.toNat ≤ 128) :
    evalVsetl r true imm xs = .regs (fun q => { q with vl := (r.getX xs).val.toNat }) := by
  simp only [evalVsetl, hmark, Nat.not_lt.mpr hle, Bool.not_true, Bool.false_eq_true, if_false]

theorem evalVsetl_tooLong (hlong : 128 < (r.getX xs).val.toNat) : evalVsetl r true imm xs = .fault fltAkkOperand 0 := by
  simp only [evalVsetl, hmark, hlong, Bool.not_true, Bool.false_eq_true, if_false, if_true]

end

/-- A slot that faults, but not by poison, by a suite fence or by the shelf, leaves its bench FAULTED and everything else of it (R103). -/
theorem slot_faulted {s : State} {k slot : Nat} {tag : BitVec 16} {op : SlotOp} {code : BitVec 16} {detail : Nat} (h : SlotReady s.toDev k)
    (hr : op.reasons (s.bench k).csv = []) (hp : op.plain = true) (hpoison : code ≠ fltPoisonConsumed) (hfence : code ≠ fltFenceSuite)
    (hshelf : code ≠ fltShelfFlushed) (he : soloEval (s.atRepeat0 k) k slot tag op none = .fault code detail) :
    ∃ t, done s (slotCommand s.toDev k slot tag op) = .next t ∧ (t.bench k).st = .faulted ∧ (t.bench k).faultCode = code ∧
      (t.bench k).arch = (s.bench k).arch ∧ (t.bench k).store = (s.bench k).store ∧ (∀ j, j ≠ k → t.bench j = s.bench j) := by
  obtain ⟨d, iss, hd, honly, -, -, hbench⟩ := slotCommand_faults h hr hp he
  obtain ⟨hst, hcode, harch, hstore, hothers⟩ := benchFault_faults (d := d) k iss detail hpoison hfence hshelf
  exact ⟨_, congrArg (done s) hd, hst, hcode, harch.trans (by rw [hbench]), hstore.trans (by rw [hbench]),
    fun j hj => (hothers j hj).trans (honly.2 j hj)⟩

section
variable {b : BenchId} {tag : BitVec 16} {s : State} (h : SlotReady s.toDev (benchKey b))
include h

theorem vsetl_sets_immediate {imm : BitVec 8} (xs : Fin 32) (himm : imm.toNat ≤ 128) : ∃ t, exec (.vsetl b tag false imm xs) s = .next t ∧
    ArchOnly s t (benchKey b) { (s.bench (benchKey b)).arch with vl := imm.toNat } :=
  slot_sets (op := .vsetl false imm xs) (f := fun q => { q with vl := imm.toNat }) h (reasons_vsetl_immediate himm ..) rfl nofun rfl
    (fun _ => rfl) rfl fun _ => rfl

theorem vbcast_sets (vd : Fin 32) (imm : BitVec 32) : ∃ t, exec (.vbcast b tag vd imm) s = .next t ∧
    ArchOnly s t (benchKey b) ((s.bench (benchKey b)).arch.setV vd ⟨List.replicate 128 imm, 0⟩) :=
  slot_sets (op := .vbcast vd imm) (f := fun q => q.setV vd ⟨List.replicate 128 imm, 0⟩) h rfl rfl nofun rfl (fun _ => rfl) rfl fun _ => rfl

variable {xs : Fin 32} (hmark : ((s.bench (benchKey b)).arch.getX xs).mark = false) (imm : BitVec 8)
include hmark

theorem vsetl_sets_register (hle : ((s.bench (benchKey b)).arch.getX xs).val.toNat ≤ 128) : ∃ t, exec (.vsetl b tag true imm xs) s = .next t ∧
    ArchOnly s t (benchKey b) { (s.bench (benchKey b)).arch with vl := ((s.bench (benchKey b)).arch.getX xs).val.toNat } :=
  slot_sets (op := .vsetl true imm xs) (f := fun q => { q with vl := ((s.bench (benchKey b)).arch.getX xs).val.toNat }) h rfl rfl nofun rfl
    (fun _ => rfl) rfl fun _ => by
      simp only [evalSlot, bench_atRepeat0]
      exact evalVsetl_register hmark imm hle

theorem vsetl_faults (hlong : 128 < ((s.bench (benchKey b)).arch.getX xs).val.toNat) : ∃ t, exec (.vsetl b tag true imm xs) s = .next t ∧
    (t.bench (benchKey b)).st = .faulted ∧ (t.bench (benchKey b)).faultCode = fltAkkOperand ∧
      (t.bench (benchKey b)).arch = (s.bench (benchKey b)).arch ∧ (t.bench (benchKey b)).store = (s.bench (benchKey b)).store ∧
        (∀ j, j ≠ benchKey b → t.bench j = s.bench j) :=
  slot_faulted (op := .vsetl true imm xs) (detail := 0) h rfl rfl (by decide) (by decide) (by decide) (by
    simp only [soloEval, evalSlot, bench_atRepeat0]
    exact evalVsetl_tooLong hmark imm hlong)

end

/-- Settles O10: VSETL by where its length comes from and whether it is at most 128, VBCAST as a write of one register. -/
theorem lengthAndBroadcast : Obligations.LengthAndBroadcast := by
  unfold Obligations.LengthAndBroadcast
  intro b tag s h
  exact ⟨fun _ xs himm => vsetl_sets_immediate h xs himm, fun imm _ hmark hle => vsetl_sets_register h hmark imm hle,
    fun imm _ hmark hlong => vsetl_faults h hmark imm hlong, fun vd imm => vbcast_sets h vd imm⟩

/-! ## O12: VRED, VSCAN and VSEGSCAN -/

/-- The functions of VRED (Table 3-10). -/
def redTable : List (BitVec 2 × (BitVec 32 → BitVec 32 → BitVec 32)) := [(0, fpAdd), (1, fpMax), (2, fpMin)]

theorem redFn_table : ∀ p ∈ redTable, redFn p.1.toNat = p.2 := by
  simp only [redTable, List.forall_mem_cons, List.not_mem_nil, false_imp_iff, implies_true, and_true]
  exact ⟨rfl, rfl, rfl⟩

theorem redTable_decodes : ∀ p ∈ redTable, p.1.toNat ≤ 2 := by simp [redTable]

/-- What VRED writes to lane l, the first n lanes of v being active: with HALF the two halves are reduced apart (R132). -/
def VReg.reduced (v : VReg) (f : BitVec 32 → BitVec 32 → BitVec 32) (n : Nat) (half : Bool) (l : Nat) : BitVec 32 :=
  if half then if l < 64 then reduceLanes f (v.slice 0 (min n 64)) else reduceLanes f (v.slice 64 n)
  else reduceLanes f (v.slice 0 n)

section
variable {r : Arch} {va : Fin 32} (hva : (r.getV va).consumed r.vl = false) (vd : Fin 32) (func : BitVec 2)
include hva

theorem evalVred_unmarked (half : Bool) :
    evalVred r vd va func half = arith vd r.vl ((r.getV va).reduced (redFn func.toNat) r.vl half) := by
  simp only [evalVred, hva, Bool.false_eq_true, if_false]
  cases half <;> rfl

theorem evalVscan_unmarked (excl : Bool) : evalVscan r vd va func excl =
    arith vd r.vl (fun l => (scanAll func.toNat excl ((r.getV va).slice 0 r.vl) (fun _ => false)).getD l 0#32) := by
  simp only [evalVscan, hva, Bool.false_eq_true, if_false]

theorem evalVsegscan_unmarked {vf : Fin 32} (hvf : (r.getV vf).consumed r.vl = false) (excl : Bool) : evalVsegscan r vd va vf func excl =
    arith vd r.vl (fun l => (scanAll func.toNat excl ((r.getV va).slice 0 r.vl) (fun j => (r.getV vf).lane j != 0#32)).getD l 0#32) := by
  simp only [evalVsegscan, hva, hvf, Bool.or_self, Bool.false_eq_true, if_false]

end

section
variable {b : BenchId} {tag : BitVec 16} {s : State} (h : SlotReady s.toDev (benchKey b)) (hvl : 1 ≤ (s.bench (benchKey b)).arch.vl)
  {va : Fin 32} (hva : ((s.bench (benchKey b)).arch.getV va).consumed (s.bench (benchKey b)).arch.vl = false) (vd : Fin 32) {func : BitVec 2}
include h hvl hva

theorem vred_writes (hf : func.toNat ≤ 2) (half : Bool) :
    ∃ t, exec (.vred b tag vd va func half) s = .next t ∧ ArchOnly s t (benchKey b) ((s.bench (benchKey b)).arch.withLanes vd
      (((s.bench (benchKey b)).arch.getV va).reduced (redFn func.toNat) (s.bench (benchKey b)).arch.vl half)) :=
  arith_writes (op := .vred vd va func half) h (reasons_vred hf ..) rfl nofun rfl (fun _ => rfl) hvl fun _ => by
    simp only [evalSlot, bench_atRepeat0]
    exact evalVred_unmarked hva vd func half

theorem vscan_writes (hf : func.toNat ≤ 1) (excl : Bool) :
    ∃ t, exec (.vscan b tag vd va func excl) s = .next t ∧ ArchOnly s t (benchKey b) ((s.bench (benchKey b)).arch.withLanes vd (fun l =>
      (scanAll func.toNat excl (((s.bench (benchKey b)).arch.getV va).slice 0 (s.bench (benchKey b)).arch.vl) (fun _ => false)).getD l 0)) :=
  arith_writes (op := .vscan vd va func excl) h (reasons_vscan hf ..) rfl nofun rfl (fun _ => rfl) hvl fun _ => by
    simp only [evalSlot, bench_atRepeat0]
    exact evalVscan_unmarked hva vd func excl

theorem vsegscan_writes (hf : func.toNat ≤ 1) (excl : Bool) {vf : Fin 32}
    (hvf : ((s.bench (benchKey b)).arch.getV vf).consumed (s.bench (benchKey b)).arch.vl = false) (hcsv : (s.bench (benchKey b)).csv ≠ 2) :
    ∃ t, exec (.vsegscan b tag vd va vf func excl) s = .next t ∧ ArchOnly s t (benchKey b) ((s.bench (benchKey b)).arch.withLanes vd (fun l =>
      (scanAll func.toNat excl (((s.bench (benchKey b)).arch.getV va).slice 0 (s.bench (benchKey b)).arch.vl)
        (fun j => ((s.bench (benchKey b)).arch.getV vf).lane j != 0)).getD l 0)) :=
  arith_writes (op := .vsegscan vd va vf func excl) h (reasons_vsegscan hf hcsv ..) rfl nofun rfl (fun _ => rfl) hvl fun _ => by
    simp only [evalSlot, bench_atRepeat0]
    exact evalVsegscan_unmarked hva vd func hvf excl

end

/-- Settles O12: each instruction evaluates to a lane result, VRED by the table of its functions and by HALF. -/
theorem vectorReductions : Obligations.VectorReductions := by
  unfold Obligations.VectorReductions
  intro b tag s h
  refine ⟨fun vd va hva p hp => ?_, fun vd va func excl hva hf => ⟨vscan_writes h hva.1 hva.2 vd hf excl,
    fun vf hvf hcsv => vsegscan_writes h hva.1 hva.2 vd hf excl hvf.2 hcsv⟩⟩
  rw [← redFn_table p hp]
  exact ⟨vred_writes h hva.1 hva.2 vd (redTable_decodes p hp) false, vred_writes h hva.1 hva.2 vd (redTable_decodes p hp) true⟩

end Sys2Proof.Machine
end

section
/-! The writable registers of a stack and the accumulate-on-write regions of a sideboard (R156, R168, R175, R382), and O33. -/

namespace Sys2Proof.Machine

/-! ## Where the registers of a stack lie (Table 18-5) -/

theorem regAt_stack {x o : Nat} (hx : x < 24) (ho : o < 0x10000) : regAt (0x400000 + 0x10000 * x + o) = stackReg x o := by
  have hblock : 0x400000 ≤ 0x400000 + 0x10000 * x + o ∧ 0x400000 + 0x10000 * x + o < 0x580000 := by omega
  have hstk : (0x400000 + 0x10000 * x + o - 0x400000) / 0x10000 = x := by omega
  have hoff : (0x400000 + 0x10000 * x + o) % 0x10000 = o := by omega
  rw [regAt, if_neg (by omega), if_neg (by omega), if_neg (by omega), if_pos hblock, hstk, hoff]

theorem indexIn_at {base stride n i : Nat} (hs : 0 < stride) (hi : i < n) : indexIn (base + stride * i) base stride n = some i := by
  have hindex : (base + stride * i - base) / stride = i := by rw [Nat.add_sub_cancel_left, Nat.mul_div_cancel_left _ hs]
  have hstart : (base + stride * i - base) % stride = 0 := by rw [Nat.add_sub_cancel_left, Nat.mul_mod_right]
  rw [indexIn, if_pos ⟨Nat.le_add_right _ _, hstart, hindex.symm ▸ hi⟩, hindex]

theorem stackReg_ilv (x : Nat) (i : Fin 8) : stackReg x (0x40 + 4 * i.val) = some (.ilv x i.val) := by
  have hne (k : Nat) (hk : k < 0x40) : (0x40 + 4 * i.val == k) = false := beq_eq_false_iff_ne.2 (by omega)
  simp only [stackReg, hne 0 (by decide), hne 4 (by decide), hne 8 (by decide), hne 0xC (by decide), hne 0x10 (by decide),
    indexIn_at (by decide : 0 < 4) i.isLt]
  rfl

theorem cabinetReg_aow (c : Nat) (n : Fin 16) : cabinetReg c (0x140 + 8 * n.val) = some (.aow c n.val) := by
  have hbench : ¬ (0x10000 ≤ 0x140 + 8 * n.val ∧ 0x140 + 8 * n.val < 0x10000 + 0x100 * 96) := by omega
  have hne (k : Nat) (hk : k < 0x140 ∨ 0x1C0 ≤ k) : (0x140 + 8 * n.val == k) = false := beq_eq_false_iff_ne.2 (by omega)
  simp only [cabinetReg, if_neg hbench, hne 0x0 (by decide), hne 0x4 (by decide), hne 0x100 (by decide), hne 0x104 (by decide),
    hne 0x200 (by decide), hne 0x204 (by decide), hne 0x208 (by decide), hne 0x20C (by decide), hne 0x210 (by decide), hne 0x214 (by decide),
    hne 0x218 (by decide), hne 0x21C (by decide), indexIn_at (by decide : 0 < 8) n.isLt]
  rfl

/-! ## What the writes do -/

/-- An interleave set that is invalid, or lies within 0 to 288 beside the others, is stored (R156). -/
theorem writeIlv_takes {x i : Nat} {v : BitVec 32} {d : Dev} (hidle : d.planIdle = true)
    (hv : v.getLsbD 31 = true → bits 17 8 v.toNat < bits 27 18 v.toNat ∧ bits 27 18 v.toNat ≤ 288 ∧ bits 30 28 v.toNat ≤ 4 ∧
      ∀ j, j < 8 → j ≠ i → (ilvRange ((d.stk x).ilvOf j)).2 ≤ bits 17 8 v.toNat ∨
        bits 27 18 v.toNat ≤ (ilvRange ((d.stk x).ilvOf j)).1) :
    writeIlv x i (v.toNat &&& 0xFFFFFF00) d = (d.setStk x { d.stk x with ilv := (d.stk x).ilv.set i (v &&& 0xFFFFFF00#32) }, true) := by
  have hvalid : bit 31 (v.toNat &&& 0xFFFFFF00) = v.getLsbD 31 := by
    rw [bit_land, bit_toNat, show bit 31 0xFFFFFF00 = true by decide, Bool.and_true]
  have hbase : bits 17 8 (v.toNat &&& 0xFFFFFF00) = bits 17 8 v.toNat := bits_land (by decide) _
  have hlimit : bits 27 18 (v.toNat &&& 0xFFFFFF00) = bits 27 18 v.toNat := bits_land (by decide) _
  have hgran : bits 30 28 (v.toNat &&& 0xFFFFFF00) = bits 30 28 v.toNat := bits_land (by decide) _
  have hgood : (v.getLsbD 31 && (decide (bits 27 18 v.toNat ≤ bits 17 8 v.toNat) || decide (288 < bits 27 18 v.toNat) ||
      decide (4 < bits 30 28 v.toNat) || ((List.range 8).filter (· != i)).any (fun j =>
        decide (bits 17 8 v.toNat < (ilvRange ((d.stk x).ilvOf j)).2) && decide ((ilvRange ((d.stk x).ilvOf j)).1 < bits 27 18 v.toNat)))) =
      false := by
    rw [Bool.and_eq_false_imp]
    intro h
    obtain ⟨hlt, hle, hg, hothers⟩ := hv h
    simp only [Bool.or_eq_false_iff, decide_eq_false_iff_not, List.any_eq_false, List.mem_filter, List.mem_range, bne_iff_ne, ne_eq,
      Bool.and_eq_true, decide_eq_true_eq, not_and, Nat.not_lt, Nat.not_le]
    refine ⟨⟨⟨hlt, hle⟩, hg⟩, fun j ⟨hj, hne⟩ hmeets => ?_⟩
    have := hothers j hj hne
    omega
  simp only [writeIlv, hidle, hvalid, hbase, hlimit, hgran, hgood, ofNat_land, Bool.not_true, Bool.or_self, Bool.false_eq_true, if_false]

/-- What a write of STK_CLASS_CTL presents. -/
theorem taken_classCtl (x : Nat) (v : BitVec 32) : Reg.taken (.classCtl x) false v.toNat = v.toNat &&& 0xFFFFFF := by
  simp [Reg.mask, Nat.mod_eq_of_lt v.isLt]

/-- The three fields of STK_CLASS_CTL, of what a write presents. -/
theorem classFields (v : BitVec 32) : bits 23 16 (v.toNat &&& 0xFFFFFF) = bits 23 16 v.toNat ∧
    bits 15 8 (v.toNat &&& 0xFFFFFF) = bits 15 8 v.toNat ∧ bits 7 0 (v.toNat &&& 0xFFFFFF) = bits 7 0 v.toNat :=
  ⟨bits_land (by decide) _, bits_land (by decide) _, bits_land (by decide) _⟩

/-- Fields within their ranges are stored (R175). -/
theorem writeClassCtl_takes {x : Nat} {v : BitVec 32} {d : Dev} (hidle : d.planIdle = true) (hw : 16 ≤ bits 23 16 v.toNat)
    (h1 : 1 ≤ bits 15 8 v.toNat) (h62 : bits 15 8 v.toNat ≤ 62) (h2 : 2 ≤ bits 7 0 v.toNat) (h16 : bits 7 0 v.toNat ≤ 16)
    (hsum : bits 15 8 v.toNat + bits 7 0 v.toNat ≤ 64) :
    writeClassCtl x (v.toNat &&& 0xFFFFFF) d = (d.setStk x { d.stk x with classCtl := v &&& 0xFFFFFF#32 }, true) := by
  obtain ⟨hwf, hc0, hc2⟩ := classFields v
  have hlow : (v.toNat &&& 0xFFFFFF) % 2 ^ 24 = v.toNat &&& 0xFFFFFF := by rw [Nat.and_two_pow_sub_one_eq_mod _ 24, Nat.mod_mod]
  simp only [writeClassCtl, hidle, hwf, hc0, hc2, hlow, ofNat_land, decide_eq_false (Nat.not_lt.2 hw), decide_eq_false (Nat.not_lt.2 h1),
    decide_eq_false (Nat.not_lt.2 h62), decide_eq_false (Nat.not_lt.2 h2), decide_eq_false (Nat.not_lt.2 h16),
    decide_eq_false (Nat.not_lt.2 hsum), Bool.not_true, Bool.or_self, Bool.false_eq_true, if_false]

/-- Classes that exceed the window are ignored and recorded (R175, R377). -/
theorem writeClassCtl_refuses {x : Nat} {v : BitVec 32} {d : Dev} (hsum : 64 < bits 15 8 v.toNat + bits 7 0 v.toNat) :
    writeClassCtl x (v.toNat &&& 0xFFFFFF) d = (d.regRefused 1 (x / 2) x fltStkCfg (0x400008 + 0x10000 * x), false) := by
  obtain ⟨-, hc0, hc2⟩ := classFields v
  simp only [writeClassCtl, hc0, hc2, decide_eq_true hsum, Bool.or_true, if_true]

/-- A number below bit n + 1 by its top bit and the rest. -/
theorem bit_add_bits (n x : Nat) : b2n (bit (n + 1) x) * 2 ^ (n + 1) + bits n 0 x = x % 2 ^ (n + 2) := by
  have hbit : b2n (bit (n + 1) x) = x / 2 ^ (n + 1) % 2 := by
    rw [b2n, bit, Nat.testBit_eq_decide_div_mod_eq]
    simp only [decide_eq_true_eq]
    split <;> omega
  rw [bits_low, hbit, Nat.pow_succ 2 (n + 1), Nat.mod_mul, Nat.add_comm, Nat.mul_comm]

/-- SCRUB_CTL with CLR_COUNTS and a RATE that is not 0 (R382). -/
theorem writeScrubCtl_clears {x : Nat} {v : BitVec 32} (d : Dev) (hrate : v.toNat % 2 ^ 12 ≠ 0) :
    writeScrubCtl x (Reg.taken (.scrubCtl x) false (v.toNat ||| 0x2000)) d = (d.setStk x
      { d.stk x with scrubCtl := v &&& 0x1FFF#32, errLasting := 0, errTransient := 0, errUncorrectable := 0, errRemaps := 0 }, true) := by
  have hset : bit 13 0x2000 = true ∧ bit 13 0x3FFF = true := by decide
  obtain ⟨y, hy⟩ : ∃ y, y = (v.toNat ||| 0x2000) % 2 ^ 32 &&& 0x3FFF := ⟨_, rfl⟩
  have htaken : Reg.taken (.scrubCtl x) false (v.toNat ||| 0x2000) = y := by simp only [hy, Reg.taken, Reg.mask, accessBits]; rfl
  have hclear : bit 13 y = true := by
    rw [hy, bit_or_masked 13 0x2000 0x3FFF v, hset.1, hset.2, Bool.or_true]; rfl
  have hstored : BitVec.ofNat 32 (y % 2 ^ 13) = v &&& 0x1FFF#32 := by
    rw [← Nat.and_two_pow_sub_one_eq_mod, BitVec.ofNat_and, hy]
    exact stored_or v (by decide) (by decide)
  have hlow : bits 11 0 y = bits 11 0 v.toNat := by
    have h : y % 2 ^ 13 % 2 ^ 32 = v.toNat &&& 0x1FFF := congrArg BitVec.toNat hstored
    rw [← bits_land (m := 0x1FFF) (by decide) v.toNat, ← h, bits_low, bits_low]
    omega
  have hnz : (bits 11 0 y == 0) = false := by rw [hlow, bits_low]; exact beq_eq_false_iff_ne.2 hrate
  simp only [htaken, writeScrubCtl, hnz, hclear, bit_add_bits 11 y, hstored, Bool.false_eq_true, if_false, if_true]

/-- While no plan is loaded a region is stored that is invalid, or lies within the sideboard beside the program reserve and the other
regions (R168). -/
theorem writeAow_takes {c n : Nat} {v : BitVec 64} {d : Dev} (hidle : d.planIdle = true) (hb : bits 26 0 v.toNat % 64 = 0)
    (hl : bits 53 27 v.toNat % 64 = 0) (hop : bits 61 60 v.toNat ≤ 1)
    (hv : v.getLsbD 63 = true → bits 26 0 v.toNat < bits 53 27 v.toNat ∧ bits 53 27 v.toNat + (d.sb c).reserve * 0x40000 ≤ 0x6000000 ∧
      ∀ j, j < 16 → j ≠ n → bit 63 ((d.sb c).aowOf j) = true →
        bits 53 27 v.toNat ≤ bits 26 0 ((d.sb c).aowOf j) ∨ bits 53 27 ((d.sb c).aowOf j) ≤ bits 26 0 v.toNat) :
    writeAow c n (v.toNat &&& 0xB03FFFFFFFFFFFFF) d =
      (d.setSb c { d.sb c with aow := (d.sb c).aow.set n (v &&& 0xB03FFFFFFFFFFFFF#64) }, true) := by
  have hvalid : bit 63 (v.toNat &&& 0xB03FFFFFFFFFFFFF) = v.getLsbD 63 := by
    rw [bit_land, bit_toNat, show bit 63 0xB03FFFFFFFFFFFFF = true by decide, Bool.and_true]
  have hbase : bits 26 0 (v.toNat &&& 0xB03FFFFFFFFFFFFF) = bits 26 0 v.toNat := bits_land (by decide) _
  have hlimit : bits 53 27 (v.toNat &&& 0xB03FFFFFFFFFFFFF) = bits 53 27 v.toNat := bits_land (by decide) _
  have hfn : bits 61 60 (v.toNat &&& 0xB03FFFFFFFFFFFFF) = bits 61 60 v.toNat := bits_land (by decide) _
  have hapart : (v.getLsbD 63 && (decide (bits 26 0 v.toNat < sbSize) && decide (sbSize - (d.sb c).reserve * 0x40000 < bits 53 27 v.toNat) ||
      ((List.range 16).filter (· != n)).any (fun j => bit 63 ((d.sb c).aowOf j) &&
        (decide (bits 26 0 v.toNat < bits 53 27 ((d.sb c).aowOf j)) && decide (bits 26 0 ((d.sb c).aowOf j) < bits 53 27 v.toNat))))) = false := by
    rw [Bool.and_eq_false_imp]
    intro h
    obtain ⟨hlt, hreserve, hothers⟩ := hv h
    have hbelow : decide (0x6000000 - (d.sb c).reserve * 0x40000 < bits 53 27 v.toNat) = false := decide_eq_false (by omega)
    simp only [Bool.or_eq_false_iff, Bool.and_eq_false_imp, decide_eq_true_eq, List.any_eq_false, List.mem_filter,
      List.mem_range, bne_iff_ne, ne_eq, Bool.and_eq_true, not_and, sbSize]
    refine ⟨fun _ => hbelow, fun j ⟨hj, hne⟩ hjv hmeets => ?_⟩
    have := hothers j hj hne hjv
    omega
  have hrange : (v.getLsbD 63 && (decide (bits 53 27 v.toNat ≤ bits 26 0 v.toNat) || decide (sbSize < bits 53 27 v.toNat))) = false := by
    rw [Bool.and_eq_false_imp]
    intro h
    obtain ⟨hlt, hreserve, -⟩ := hv h
    have hwithin : bits 53 27 v.toNat ≤ sbSize := Nat.le_trans (Nat.le_add_right _ _) hreserve
    rw [decide_eq_false (Nat.not_le.2 hlt), decide_eq_false (Nat.not_lt.2 hwithin), Bool.or_self]
  simp only [writeAow, hidle, hvalid, hbase, hlimit, hfn, hapart, hrange, hb, hl, ofNat_land, decide_eq_false (Nat.not_lt.2 hop),
    Bool.true_or, Bool.not_true, Bool.or_self, bne_self_eq_false, Bool.false_eq_true, if_false]

/-! ## The writes -/

section

variable {path : Path} {s : State}

/-- A write of a journalled 32-bit register of a stack block, by its effect. -/
theorem writeStkReg {sk : Stk} {r : Reg} {o off x : Nat} {d : Dev} {applied : Bool} (h : Reaches s.toDev path r)
    (hoff : off = 0x400000 + 0x10000 * sk.val + o) (ho : o < 0x10000) (hreg : stackReg sk.val o = some r) (hc : r.covered false = true)
    (hquiet : r.quiet = false) (heffect : s.regEffect path r (r.taken false x) (Config.startUp s.free) = (d, applied))
    (hj : d.journal = s.journal) :
    ∃ t, done s (writeReg s.toDev path off false x) = .next t ∧ Wrote s t d ∧ Journalled s t path applied false off
      (s.regValue r % 2 ^ 32) ((d.regValue r ||| (x % 2 ^ 32 &&& r.mask.wo)) % 2 ^ 32) := by
  subst hoff
  have hsk := sk.isLt
  exact writeReg_journalled h (by omega) ((regAt_stack hsk ho).trans hreg) hc hquiet heffect hj

theorem stkIlvWrite_stores {sk : Stk} {i : Fin 8} {v : BitVec 32} (h : Reaches s.toDev path (.ilv sk.val i.val)) (hidle : s.planIdle = true)
    (hv : v.getLsbD 31 = true → bits 17 8 v.toNat < bits 27 18 v.toNat ∧ bits 27 18 v.toNat ≤ 288 ∧ bits 30 28 v.toNat ≤ 4 ∧
      ∀ j, j < 8 → j ≠ i.val → (ilvRange ((s.stk sk.val).ilvOf j)).2 ≤ bits 17 8 v.toNat ∨
        bits 27 18 v.toNat ≤ (ilvRange ((s.stk sk.val).ilvOf j)).1) :
    ∃ t, exec (.stkIlvWrite path sk i v) s = .next t ∧
      Wrote s t (s.setStk sk.val { s.stk sk.val with ilv := (s.stk sk.val).ilv.set i.val (v &&& 0xFFFFFF00#32) }) := by
  have htaken : Reg.taken (.ilv sk.val i.val) false v.toNat = v.toNat &&& 0xFFFFFF00 := by simp [Reg.mask, Nat.mod_eq_of_lt v.isLt]
  have heffect := htaken ▸ writeIlv_takes hidle hv
  obtain ⟨t, ht, hwrote, -⟩ := writeStkReg (x := v.toNat) (o := 0x40 + 4 * i.val) h rfl (by omega) (stackReg_ilv _ i) (by simp [Reg.mask]) rfl
    heffect rfl
  have hoff : 0x400000 + 0x10000 * sk.val + (0x40 + 4 * i.val) = 0x400040 + 0x10000 * sk.val + 4 * i.val := by omega
  rw [hoff] at ht
  exact ⟨t, ht, hwrote⟩

theorem stkClassCtlWrite_stores {sk : Stk} {v : BitVec 32} (h : Reaches s.toDev path (.classCtl sk.val)) (hidle : s.planIdle = true)
    (hw : 16 ≤ bits 23 16 v.toNat) (h1 : 1 ≤ bits 15 8 v.toNat) (h62 : bits 15 8 v.toNat ≤ 62) (h2 : 2 ≤ bits 7 0 v.toNat)
    (h16 : bits 7 0 v.toNat ≤ 16) (hsum : bits 15 8 v.toNat + bits 7 0 v.toNat ≤ 64) :
    ∃ t, exec (.stkClassCtlWrite path sk v) s = .next t ∧ Wrote s t (s.setStk sk.val { s.stk sk.val with classCtl := v &&& 0xFFFFFF#32 }) ∧
      Journalled s t path true false (0x400008 + 0x10000 * sk.val) (s.stk sk.val).classCtl.toNat (v &&& 0xFFFFFF#32).toNat := by
  have heffect := taken_classCtl sk.val v ▸ writeClassCtl_takes (x := sk.val) hidle hw h1 h62 h2 h16 hsum
  obtain ⟨t, ht, hwrote, hj⟩ := writeStkReg (off := 0x400008 + 0x10000 * sk.val) (o := 8) h (by omega) (by decide) rfl (by simp [Reg.mask]) rfl heffect rfl
  obtain ⟨-, hserved, -, -⟩ := h
  rw [regValue_served hserved, regValue_served (d := s.setStk sk.val { s.stk sk.val with classCtl := v &&& 0xFFFFFF#32 }) hserved] at hj
  refine ⟨t, ht, hwrote, ?_⟩
  simpa only [Dev.regRaw, Dev.stk_setStk_self, Reg.mask, Nat.and_zero, Nat.or_zero, Nat.mod_eq_of_lt (BitVec.isLt _)] using hj

theorem stkClassCtlWrite_refuses {sk : Stk} {v : BitVec 32} (h : Reaches s.toDev path (.classCtl sk.val))
    (hsum : 64 < bits 15 8 v.toNat + bits 7 0 v.toNat) :
    ∃ t, exec (.stkClassCtlWrite path sk v) s = .next t ∧ t.stk sk.val = s.stk sk.val ∧ t.flog.offered.length = s.flog.offered.length + 1 ∧
      Journalled s t path false false (0x400008 + 0x10000 * sk.val) (s.stk sk.val).classCtl.toNat (s.stk sk.val).classCtl.toNat := by
  have heffect := taken_classCtl sk.val v ▸ writeClassCtl_refuses (x := sk.val) (d := s.toDev) hsum
  obtain ⟨t, ht, hwrote, hj⟩ := writeStkReg (off := 0x400008 + 0x10000 * sk.val) (o := 8) h (by omega) (by decide) rfl (by simp [Reg.mask]) rfl heffect rfl
  obtain ⟨-, hserved, -, -⟩ := h
  rw [regValue_served hserved, regValue_served (d := s.regRefused 1 (sk.val / 2) sk.val fltStkCfg (0x400008 + 0x10000 * sk.val)) hserved] at hj
  have hstk : (s.regRefused 1 (sk.val / 2) sk.val fltStkCfg (0x400008 + 0x10000 * sk.val)).stk sk.val = s.stk sk.val := rfl
  refine ⟨t, ht, (congrArg (fun u : State => u.stk sk.val) hwrote.1).trans hstk, ?_, ?_⟩
  · have hflog : t.flog = (s.regRefused 1 (sk.val / 2) sk.val fltStkCfg (0x400008 + 0x10000 * sk.val)).flog :=
      congrArg (fun u : State => u.flog) hwrote.1
    rw [hflog]
    exact unitRecord_offered_length ..
  · simpa only [Dev.regRaw, hstk, Reg.mask, Nat.and_zero, Nat.or_zero, Nat.mod_eq_of_lt (BitVec.isLt _)] using hj

theorem scrubClrCounts_wrote {sk : Stk} {v : BitVec 32} (h : Reaches s.toDev path (.scrubCtl sk.val)) (hrate : v.toNat % 2 ^ 12 ≠ 0) :
    ∃ t, exec (.scrubClrCounts path sk v) s = .next t ∧ Wrote s t (s.setStk sk.val
      { s.stk sk.val with scrubCtl := v &&& 0x1FFF#32, errLasting := 0, errTransient := 0, errUncorrectable := 0, errRemaps := 0 }) := by
  obtain ⟨t, ht, hwrote, -⟩ := writeStkReg (off := 0x40000C + 0x10000 * sk.val) (o := 0xC) h (by omega) (by decide) rfl (by simp [Reg.mask]) rfl
    (writeScrubCtl_clears s.toDev hrate) rfl
  exact ⟨t, ht, hwrote⟩

theorem sbAowWrite_stores {c : Cab} {n : Fin 16} {v : BitVec 64} (h : Reaches s.toDev path (.aow c.val n.val)) (hidle : s.planIdle = true)
    (hb : bits 26 0 v.toNat % 64 = 0) (hl : bits 53 27 v.toNat % 64 = 0) (hop : bits 61 60 v.toNat ≤ 1)
    (hv : v.getLsbD 63 = true → bits 26 0 v.toNat < bits 53 27 v.toNat ∧
      bits 53 27 v.toNat + (s.sb c.val).reserve * 0x40000 ≤ 0x6000000 ∧ ∀ j, j < 16 → j ≠ n.val → bit 63 ((s.sb c.val).aowOf j) = true →
        bits 53 27 v.toNat ≤ bits 26 0 ((s.sb c.val).aowOf j) ∨ bits 53 27 ((s.sb c.val).aowOf j) ≤ bits 26 0 v.toNat) :
    ∃ t, exec (.sbAowWrite path c n v) s = .next t ∧
      Wrote s t (s.setSb c.val { s.sb c.val with aow := (s.sb c.val).aow.set n.val (v &&& 0xB03FFFFFFFFFFFFF#64) }) := by
  have hcab := c.isLt
  have htaken : Reg.taken (.aow c.val n.val) true v.toNat = v.toNat &&& 0xB03FFFFFFFFFFFFF := by simp [Reg.mask, Nat.mod_eq_of_lt v.isLt]
  have hoff : 0x1000140 + 0x100000 * c.val + 8 * n.val = 0x1000000 + 0x100000 * c.val + (0x140 + 8 * n.val) := by omega
  have hreg : regAt (0x1000140 + 0x100000 * c.val + 8 * n.val) = some (.aow c.val n.val) := by
    rw [hoff, regAt_cabinet hcab (by omega), cabinetReg_aow]
  exact writeReg_wrote (wide := true) h (by omega) hreg (by simp [Reg.mask, Reg.wide]) rfl (htaken ▸ writeAow_takes hidle hb hl hop hv) rfl

end

/-- Settles O33, register by register. -/
theorem stackAndSideboardRegisters : Obligations.StackAndSideboardRegisters := by
  intro path s hidle
  refine ⟨fun sk i v h hv => stkIlvWrite_stores h hidle hv, fun sk v h hw h1 h62 h2 h16 hsum => stkClassCtlWrite_stores h hidle hw h1 h62 h2 h16 hsum,
    fun sk v h hsum => stkClassCtlWrite_refuses h hsum, fun sk v h hrate => scrubClrCounts_wrote h hrate, fun c n v h hinvalid hb hl hop => ?_,
    fun c n v h _ hb hl hop hlt hreserve hothers => sbAowWrite_stores h hidle hb hl hop fun _ => ⟨hlt, hreserve, hothers⟩⟩
  exact sbAowWrite_stores h hidle hb hl hop fun hvalid => absurd (hinvalid.symm.trans hvalid) Bool.false_ne_true

end Sys2Proof.Machine
end

section
/-! Messages that write a sideboard (R169, R170, R330, R377), and O40. -/

namespace Sys2Proof.Machine

section

variable {d : Dev} {src : BitVec 18} {c : Nat} {m : Msg}
  (hfind : d.net.find? (fun m => m.src == src && m.target == d.epOf c 0xF0) = some m) (hfence : d.fenced c = false)
  (hon : d.domOn (sbDom c) = true)
include hfind hfence hon

/-- One that breaks Table 6-7 is recorded by the sideboard, and writes nothing. -/
theorem sideboardWriteMessage_bad (hbad : (sbHeader m.payload).bad m.payload.length = true) : ∃ p, sideboardWriteMessage d src c =
    ({ d with pwr := p, net := d.net.erase m } : Dev).unitRecord 2 c 0 fltSbMsg { endpoint := m.src.toNat, detail := m.seq.toNat } := by
  obtain ⟨p, hp⟩ := arrive_pwr d (sbDom c) (d.senderBlock src)
  have hon' := domOn_arrive (d.senderBlock src) hon
  rw [hp] at hon'
  refine ⟨p, ?_⟩
  simp only [sideboardWriteMessage, hfind, hfence, hp, hon', hbad, Bool.not_true, Bool.false_eq_true, if_false, if_true]

/-- One with REPLACE and no counter, outside the program reserve, stores its data at its offset, where no word shows an error. -/
theorem sideboardWriteMessage_replaces (hgood : (sbHeader m.payload).bad m.payload.length = false)
    (hreserve : d.sbReserved c (sbHeader m.payload) m.payload.length = false) (hflags : (sbHeader m.payload).flags = 1)
    (hclean : (d.sb c).upsets = []) (hwf : (d.sb c).mem.wf = true) :
    ∃ p sb', sideboardWriteMessage d src c = ({ d with pwr := p, net := d.net.erase m } : Dev).setSb c sb' ∧ ∀ i, sb'.mem.byte i =
      if (sbHeader m.payload).off ≤ i ∧ i < (sbHeader m.payload).off + (m.payload.length - 64)
      then m.payload.getD (64 + (i - (sbHeader m.payload).off)) 0 else (d.sb c).mem.byte i := by
  obtain ⟨p, hp⟩ := arrive_pwr d (sbDom c) (d.senderBlock src)
  have hon' := domOn_arrive (d.senderBlock src) hon
  rw [hp] at hon'
  have hsb : ({ d with pwr := p, net := d.net.erase m } : Dev).sb c = d.sb c := rfl
  have hreserve' : ({ d with pwr := p, net := d.net.erase m } : Dev).sbReserved c (sbHeader m.payload) m.payload.length = false := hreserve
  have htouch : ({ d with pwr := p, net := d.net.erase m } : Dev).touchSb c (sbHeader m.payload).off (m.payload.drop 64).length =
      { d with pwr := p, net := d.net.erase m } := touchSbWords_clean _ hclean
  have hbits : bit 0 1 = true ∧ bit 1 1 = false := by decide
  obtain ⟨hhit, hbytes⟩ := sbWriteSectors_replace (x := (sbHeader m.payload).off)
    (fun q => m.marks.contains (q - (sbHeader m.payload).off / 32 + 2)) none (le_refl (m.payload.drop 64).length) hwf
  refine ⟨p, _, ?_, fun i => (hbytes i).trans ?_⟩
  · simp only [sideboardWriteMessage, hfind, hfence, hp, hon', hgood, hreserve', htouch, hflags, hbits, Dev.sbWrite, hsb, hhit, Bool.not_true,
      Bool.false_eq_true, if_false]
  · simp only [List.length_drop, List.getD_eq_getElem?_getD, List.getElem?_drop]

end

/-- One delivered at another device is no longer awaited (R330; log 99). -/
theorem sideboardWriteAway_delivered {d : Dev} {src : BitVec 18} {dev c : Nat} {m : Msg}
    (hfind : d.away.find? (fun m => m.src == src && epDev m.dest == dev && epCab m.dest == c && epVal m.dest == 0xF0) = some m) :
    sideboardWriteAway d src dev c = { d with away := d.away.erase m } := by
  simp only [sideboardWriteAway, hfind]

/-- Settles O40, by what the message is and where its sideboard lies. -/
theorem sideboardWriteMessage_obligation : Obligations.SideboardWriteMessage := by
  refine fun src c s m hquiet => ⟨fun hfind hfence hon => ⟨fun hbad => ?_, fun hgood hreserve hflags hclean hwf => ?_⟩, fun dev hfind => ?_⟩
  · obtain ⟨p, hp⟩ := sideboardWriteMessage_bad hfind hfence hon hbad
    have hq : QuietSequencer (sideboardWriteMessage s.toDev src c.val) := by rw [hp]; exact hquiet
    refine ⟨_, congrArg (done s) ((settle_quiet hq).trans hp), rfl, rfl, ?_⟩
    exact unitRecord_offered_length ({ s.toDev with pwr := p, net := s.net.erase m }) 2 c.val 0 fltSbMsg _
  · obtain ⟨p, sb', hp, hbytes⟩ := sideboardWriteMessage_replaces hfind hfence hon hgood hreserve hflags hclean hwf
    have hq : QuietSequencer (sideboardWriteMessage s.toDev src c.val) := by rw [hp]; exact hquiet
    refine ⟨_, congrArg (done s) ((settle_quiet hq).trans hp), rfl, fun j hj => Dev.sb_setSb_ne _ _ hj, fun i => ?_⟩
    exact (congrArg (fun x : Sideboard => x.mem.byte i) (Dev.sb_setSb_self ..)).trans (hbytes i)
  · have hq : QuietSequencer (sideboardWriteAway s.toDev src dev.toNat c.val) := by rw [sideboardWriteAway_delivered hfind]; exact hquiet
    exact ⟨_, congrArg (done s) ((settle_quiet hq).trans (sideboardWriteAway_delivered hfind)), rfl, rfl⟩

end Sys2Proof.Machine
end

section
/-! A fill starts and completes (R164, R171–R173, R180), and O43. -/

namespace Sys2Proof.Machine

/-! ## DEV_FILL_CTL.START (R172, R173) -/

/-- The journal and the fill engine's registers are those of d. -/
def FillKept (d e : Dev) : Prop := e.journal = d.journal ∧ e.fill = d.fill

theorem FillKept.arrive {d e : Dev} (h : FillKept d e) (id : Nat) (block : BitVec 16) : FillKept d (e.arrive id block) := by
  obtain ⟨p, hp⟩ := arrive_pwr e id block
  rw [hp]
  exact h

/-- The fill of the stacks of a list. -/
def Dev.fillStks (d : Dev) (n : Nat) (ss : List Nat) : Dev :=
  ss.foldl (fun d s => d.setStk s ((d.stk s).fillWith d.fill.pattern n)) d

/-- The fill of the sideboards of a list. -/
def Dev.fillSbs (d : Dev) (cs : List Nat) : Dev :=
  cs.foldl (fun d c => d.setSb c { d.sb c with mem := Mem.filled d.fill.pattern, dq := [] }) d

/-- The fill's writes reach the domains of stacks and sideboards (R433). -/
def Dev.fillArrives (d : Dev) (ss cs : List Nat) : Dev :=
  cs.foldl (fun d c => d.arrive (sbDom c) ed0Block) (ss.foldl (fun d s => d.arrive (stkDom s) ed0Block) d)

/-- The stacks, and the sideboards, that a START written as v fills. -/
def Dev.stksToFill (d : Dev) (v : Nat) : List Nat := (List.range 24).filter (fun s => bit s v && d.active (s / 2) && d.domOn (stkDom s))
def Dev.sbsToFill (d : Dev) (v : Nat) : List Nat :=
  if bit 24 v then (List.range 12).filter (fun c => d.active c && d.domOn (sbDom c)) else []

/-- The device once a START written as v has begun: the units filled, and the fill FILLING where there is one. -/
def Dev.fillBegun (d : Dev) (v : Nat) : Dev :=
  let ss := d.stksToFill v
  let cs := d.sbsToFill v
  let d0 : Dev := { d with fill := { d.fill with ctl := BitVec.ofNat 32 (v % 2 ^ 25) } }
  let e := ((d0.fillArrives ss cs).fresh.fillStks d.free ss).fillSbs cs
  { e with fill := { e.fill with st := if ss.isEmpty && cs.isEmpty then 2 else 1, done := 0, stks := ss, sideboards := cs } }

theorem writeFillCtl_begins {d : Dev} {v : Nat} (hstart : bit 25 v = true) (hfill : d.fillable = true) : writeFillCtl v d = (d.fillBegun v, true) := by
  have hfill' : ({ d with fill := { d.fill with ctl := BitVec.ofNat 32 (v % 2 ^ 25) } } : Dev).fillable = true := hfill
  simp only [writeFillCtl, hstart, hfill', Bool.not_true, Bool.false_eq_true, if_false]
  rfl

theorem FillKept.fillArrives {d e : Dev} (h : FillKept d e) (ss cs : List Nat) : FillKept d (e.fillArrives ss cs) :=
  List.foldlRecOn _ _ (List.foldlRecOn _ _ h fun _ h _ _ => h.arrive _ _) fun _ h _ _ => h.arrive _ _

theorem FillKept.fillSbs {d e : Dev} (h : FillKept d e) (cs : List Nat) : FillKept d (e.fillSbs cs) :=
  List.foldlRecOn (motive := FillKept d) _ _ h fun _ h _ _ => h

@[simp] theorem fillSbs_stks (d : Dev) (cs : List Nat) : (d.fillSbs cs).stks = d.stks :=
  foldl_keep (p := Dev.stks) _ _ fun _ _ => rfl

/-- Each stack of the list then holds the pattern. -/
theorem FillKept.fillStks {d e : Dev} (h : FillKept d e) (n : Nat) {ss : List Nat} (hnodup : ss.Nodup) :
    FillKept d (e.fillStks n ss) ∧ ∀ x ∈ ss, ((e.fillStks n ss).stk x).mem = Mem.filled d.fill.pattern := by
  refine ⟨List.foldlRecOn (motive := FillKept d) _ _ h fun _ h _ _ => h, fun x hx => And.right (a := FillKept d (e.fillStks n ss)) ?_⟩
  refine foldl_hits (P := FillKept d) (f := fun e s => e.setStk s ((e.stk s).fillWith e.fill.pattern n)) (Q := fun e => FillKept d e ∧ (e.stk x).mem = Mem.filled d.fill.pattern) hnodup hx
    (fun _ _ _ _ h => h) (fun e h => ⟨h, ?_⟩) (fun e y _ hy ⟨h, hmem⟩ => ⟨h, ?_⟩) h
  · rw [Dev.stk_setStk_self]
    exact congrArg (fun f : Fill => Mem.filled f.pattern) h.2
  · rwa [Dev.stk_setStk_ne _ _ (Ne.symm hy)]

/-- The journal and the mask after a START, and what it leaves in a stack that it fills. -/
theorem fillBegun_fields (d : Dev) (v : Nat) : (d.fillBegun v).journal = d.journal ∧ (d.fillBegun v).fill.ctl = BitVec.ofNat 32 (v % 2 ^ 25) ∧
    ∀ x ∈ d.stksToFill v, (d.fillBegun v).fill.st = 1 ∧ ((d.fillBegun v).stk x).mem = Mem.filled d.fill.pattern := by
  have harrived : FillKept { d with fill := { d.fill with ctl := BitVec.ofNat 32 (v % 2 ^ 25) } } (Dev.fresh _) :=
    FillKept.fillArrives ⟨rfl, rfl⟩ (d.stksToFill v) (d.sbsToFill v)
  obtain ⟨hstks, hmem⟩ := harrived.fillStks d.free (List.nodup_range.filter _ : (d.stksToFill v).Nodup)
  obtain ⟨hjournal, hfill⟩ := hstks.fillSbs (d.sbsToFill v)
  refine ⟨hjournal, congrArg Fill.ctl hfill, fun x hx => ⟨?_, ?_⟩⟩
  · have hsome : (d.stksToFill v).isEmpty = false := List.isEmpty_eq_false_iff.2 (List.ne_nil_of_mem hx)
    simp only [Dev.fillBegun, hsome, Bool.false_and, Bool.false_eq_true, if_false]
  · exact (congrArg (fun t : Tab Stack => (t.get Stack.reset x).mem) (fillSbs_stks ..)).trans (hmem x hx)

theorem regAt_fillCtl : regAt 0x188 = some .fillCtl := by decide +kernel

theorem fillStart_starts {path : Path} {s : State} (v : BitVec 32) (h : Reaches s.toDev path .fillCtl) (hfill : s.fillable = true) :
    ∃ t e, exec (.fillStart path v) s = .next t ∧ Wrote s t e ∧ e.fill.ctl = v &&& 0x1FFFFFF#32 ∧
      ∀ x : Stk, v.getLsbD x.val = true → s.active (x.val / 2) = true → s.domOn (stkDom x.val) = true →
        e.fill.st = 1 ∧ (e.stk x.val).mem = Mem.filled s.fill.pattern := by
  have hset : bit 25 0x2000000 = true ∧ ∀ i : Fin 26, bit i.val 0x3FFFFFF = true := by decide
  have hbit (i : Fin 26) : bit i.val (Reg.fillCtl.taken false (v.toNat ||| 2 ^ 25)) = (v.getLsbD i.val || bit i.val 0x2000000) := by
    refine (bit_or_masked i.val 0x2000000 0x3FFFFFF v).trans ?_
    rw [hset.2 i, Bool.and_true, decide_eq_true (by omega), Bool.true_and]
  have hstart : bit 25 (Reg.fillCtl.taken false (v.toNat ||| 2 ^ 25)) = true := (hbit 25).trans (by rw [show bit (25 : Fin 26).val 0x2000000 = true from hset.1, Bool.or_true])
  obtain ⟨hjournal, hctl, hstks⟩ := fillBegun_fields s.toDev (Reg.fillCtl.taken false (v.toNat ||| 2 ^ 25))
  obtain ⟨t, ht, hwrote⟩ := writeReg_wrote (wide := false) (x := v.toNat ||| 2 ^ 25) h (by decide) regAt_fillCtl rfl rfl
    (writeFillCtl_begins hstart hfill) hjournal
  refine ⟨t, _, ht, hwrote, hctl.trans ?_, fun x hx hact hon => hstks x.val (List.mem_filter.2 ⟨List.mem_range.2 x.isLt, ?_⟩)⟩
  · rw [← Nat.and_two_pow_sub_one_eq_mod, BitVec.ofNat_and]
    exact stored_or (a := 2 ^ 25) (m := 0x3FFFFFF) v (by decide) (by decide)
  · rw [hbit ⟨x.val, by omega⟩, hx, hact, hon]; rfl

/-! ## The end of a unit's fill (R164, R173) -/

theorem not_mem_nsErase (k : Nat) (t : List Nat) : k ∉ nsErase k t := by simp [nsErase]

/-- The end of a fill changes its state alone. -/
theorem fillEnd_st (d : Dev) : ∃ st, d.fillEnd = { d with fill := { d.fill with st := st } } := by
  unfold Dev.fillEnd
  split
  · exact ⟨_, rfl⟩
  · exact ⟨d.fill.st, rfl⟩

@[simp] theorem stk_fillEnd (d : Dev) (x : Nat) : d.fillEnd.stk x = d.stk x := by obtain ⟨st, h⟩ := fillEnd_st d; rw [h]; rfl
@[simp] theorem sb_fillEnd (d : Dev) (c : Nat) : d.fillEnd.sb c = d.sb c := by obtain ⟨st, h⟩ := fillEnd_st d; rw [h]; rfl

theorem fillEnd_units (d : Dev) :
    d.fillEnd.fill.stks = d.fill.stks ∧ d.fillEnd.fill.sideboards = d.fill.sideboards ∧ d.fillEnd.fill.done = d.fill.done := by
  obtain ⟨st, h⟩ := fillEnd_st d
  rw [h]
  exact ⟨rfl, rfl, rfl⟩

/-- A stack of an active cabinet waits while one of its channels is held. -/
theorem fillComplete_waits {d : Dev} {x : Stk} (hact : d.active (x.val / 2) = true) (hhold : (d.stk x.val).hold = true) :
    fillComplete d (.stack x) = d := by
  simp only [fillComplete, hact, hhold, Bool.and_self, Bool.or_true, if_true]

/-- A stack with no channel held finishes. -/
theorem fillComplete_stack {d : Dev} {x : Stk} (hin : x.val ∈ d.fill.stks) (hact : d.active (x.val / 2) = true)
    (hhold : (d.stk x.val).hold = false) :
    ((fillComplete d (.stack x)).stk x.val).filled = true ∧ x.val ∉ (fillComplete d (.stack x)).fill.stks ∧
      (fillComplete d (.stack x)).fill.done.getLsbD x.val = true := by
  have hgo : (!d.fill.stks.contains x.val || d.active (x.val / 2) && (d.stk x.val).hold) = false := by
    rw [List.contains_iff_mem.2 hin, hhold, Bool.and_false]; rfl
  have hact' : ({ d with fill := { d.fill with stks := nsErase x.val d.fill.stks } } : Dev).active (x.val / 2) = true := hact
  have hbit : (BitVec.ofNat 24 (2 ^ x.val)).getLsbD x.val = true := by
    rw [BitVec.getLsbD_ofNat, Nat.testBit_two_pow_self, decide_eq_true x.isLt]; rfl
  simp only [fillComplete, hgo, hact', Bool.not_true, Bool.false_eq_true, if_false, stk_fillEnd, fillEnd_units]
  refine ⟨?_, not_mem_nsErase _ _, ?_⟩
  · exact congrArg Stack.filled (Dev.stk_setStk_self ..)
  · rw [BitVec.getLsbD_or, hbit, Bool.or_true]

/-- So does a sideboard. -/
theorem fillComplete_sideboard {d : Dev} {c : Cab} (hin : c.val ∈ d.fill.sideboards) (hact : d.active c.val = true) :
    ((fillComplete d (.sideboard c)).sb c.val).filled = true ∧ c.val ∉ (fillComplete d (.sideboard c)).fill.sideboards := by
  have hgo : (!d.fill.sideboards.contains c.val) = false := by rw [List.contains_iff_mem.2 hin]; rfl
  have hact' : ({ d with fill := { d.fill with sideboards := nsErase c.val d.fill.sideboards } } : Dev).active c.val = true := hact
  simp only [fillComplete, hgo, hact', Bool.not_true, Bool.false_eq_true, if_false, sb_fillEnd, fillEnd_units]
  exact ⟨congrArg Sideboard.filled (Dev.sb_setSb_self ..), not_mem_nsErase _ _⟩

/-- Settles O43: START by the fold over the units it names, the end of a unit's fill by what it finds. -/
theorem fills : Obligations.Fills := by
  refine ⟨fun path v s h hfill => ?_, fun x s hact hhold => congrArg (done s) (fillComplete_waits hact hhold),
    fun x s hin hact hhold => ⟨_, rfl, fillComplete_stack hin hact hhold⟩, fun c s hin hact => ⟨_, rfl, fillComplete_sideboard hin hact⟩⟩
  obtain ⟨t, e, ht, hwrote, hctl, hstks⟩ := fillStart_starts v h hfill
  have hfill : t.fill = e.fill := congrArg (fun u : State => u.fill) hwrote.1
  have hstk (x : Nat) : t.stk x = e.stk x := congrArg (fun u : State => u.stk x) hwrote.1
  refine ⟨t, ht, by rw [hfill, hctl], hwrote.2, fun x hx hact hon => ?_⟩
  obtain ⟨hst, hmem⟩ := hstks x hx hact hon
  rw [hfill, hstk, hmem]
  exact ⟨hst, rfl, fun _ => rfl⟩

end Sys2Proof.Machine
end

section
/-! Channels of a stack (R164, R213, R331, R357–R363): their retraining, the copy to the spare and their loss; and O42. -/

namespace Sys2Proof.Machine

/-! ## Fences that wait for the end of a hold (R331) -/

/-- The fence's marker waits at stack s. -/
def FenceRun.waitsAt (f : FenceRun) (s : Nat) : Bool := f.held.any (fun x => x.val == s)

/-- The fence once stack s has acknowledged it. -/
def FenceRun.released (f : FenceRun) (s : Nat) : FenceRun :=
  if f.waitsAt s then { f with places := f.places.filter (fun p => p != .stack (Fin.ofNat 24 s)), held := f.held.filter (fun x => x.val != s) }
  else f

theorem waitsAt_iff {f : FenceRun} {x : Stk} : f.waitsAt x.val = true ↔ x ∈ f.held := by
  simp only [FenceRun.waitsAt, List.any_eq_true, beq_iff_eq, Fin.val_inj, exists_eq_right]

theorem released_waiting {f : FenceRun} {x : Stk} (h : x ∈ f.held) :
    f.released x.val = { f with places := f.places.filter (· != .stack x), held := f.held.filter (· != x) } := by
  have hx : Fin.ofNat 24 x.val = x := Fin.ext (Nat.mod_eq_of_lt x.isLt)
  have hne : ∀ y : Stk, (y.val != x.val) = (y != x) := fun y => by simp [bne, Fin.ext_iff]
  simp only [FenceRun.released, waitsAt_iff.2 h, if_true, hx, hne]

/-- Every bench's fence released at stack s. -/
def Dev.releaseFences (d : Dev) (s : Nat) : Dev :=
  d.mapBenches (fun _ b => { b with fence := b.fence.map (fun f => f.released s) })

theorem fence_releaseFences (d : Dev) (s k : Nat) : ((d.releaseFences s).bench k).fence = (d.bench k).fence.map (fun f => f.released s) :=
  Tab.get_map_rel (R := fun a b => b.fence = a.fence.map (fun f => f.released s))
    (f := fun p => (p.1, { p.2 with fence := p.2.fence.map (fun f => f.released s) })) (fun _ => rfl) (fun _ => rfl) rfl d.benches k

/-- While a channel is held the stack acknowledges nothing. -/
theorem ackHeld_holds {d : Dev} {s : Nat} (h : (d.stk s).hold = true) : d.ackHeld s = d := if_pos h

theorem ackHeld_open {d : Dev} {s : Nat} (h : (d.stk s).hold = false) : d.ackHeld s =
    (if d.benches.any (fun (p : Nat × Bench) => p.2.fence.any (fun f => f.waitsAt s)) then d.drainStk s (fun _ => true) else d).releaseFences s :=
  if_neg (by rw [h]; exact Bool.false_ne_true)

/-- Where no fence waits at the stack nothing but the benches' records can change. -/
theorem ackHeld_unfenced {d : Dev} {x : Stk} (h : ∀ p ∈ d.benches, ∀ f, p.2.fence = some f → x ∉ f.held) :
    ∃ bs, d.ackHeld x.val = { d with benches := bs } := by
  have hnone : d.benches.any (fun (p : Nat × Bench) => p.2.fence.any (fun f => f.waitsAt x.val)) = false := by
    rw [List.any_eq_false]
    intro p hp hany
    cases hf : p.2.fence with
    | none => simp [hf] at hany
    | some f => exact h p hp f hf (waitsAt_iff.1 (by simpa [hf] using hany))
  cases hh : (d.stk x.val).hold with
  | true => exact ⟨d.benches, ackHeld_holds hh⟩
  | false =>
    rw [ackHeld_open hh, hnone]
    exact ⟨_, rfl⟩

/-- With no channel held, and a fence waiting, the stack performs its writes and acknowledges. -/
theorem ackHeld_acks {d : Dev} {x : Stk} {k : Nat} {f : FenceRun} (hhold : (d.stk x.val).hold = false) (hf : (d.bench k).fence = some f)
    (hwaits : x ∈ f.held) : d.ackHeld x.val = (d.drainStk x.val (fun _ => true)).releaseFences x.val := by
  have hmem : (k, d.bench k) ∈ d.benches := (Tab.get_mem d.benches Bench.reset k).resolve_left fun h =>
    Option.some_ne_none f (hf.symm.trans (congrArg Bench.fence h))
  have hany : d.benches.any (fun (p : Nat × Bench) => p.2.fence.any (fun f => f.waitsAt x.val)) = true :=
    List.any_eq_true.2 ⟨_, hmem, by rw [hf]; exact waitsAt_iff.2 hwaits⟩
  rw [ackHeld_open hhold, if_pos hany]

/-! ## What the commands leave beside the stack -/

/-- Nothing waits for a held channel after a change that leaves the coding unit, the plan loader and the host bridge alone. -/
theorem NothingHeld.resumes {d e : Dev} (h : NothingHeld d) (hcmp : e.cmp = d.cmp) (hplan : e.plan = d.plan) (hbridge : e.bridge = d.bridge) :
    e.resumeReads = e :=
  Dev.resumeReads_idle (hcmp ▸ h.1) (hplan ▸ h.2.1) (hbridge ▸ h.2.2)

/-- An interruption shows in the sequencer and in what a follower tells its leader (R252, R357). -/
theorem interrupts_eq (d : Dev) (c : Nat) : ∃ q u, d.interrupts c = { d with seq := q, suite := u } := by
  unfold Dev.interrupts
  split
  · obtain ⟨run, u, h⟩ := voidFloor_eq d 2
    exact ⟨_, u, h⟩
  · exact ⟨d.seq, d.suite, rfl⟩

@[simp] theorem stkRuns_setStk (d : Dev) (s j : Nat) (st : Stack) : (d.setStk s st).stkRuns j = d.stkRuns j := rfl

/-! ## CHANNEL_RETRAIN (R357, R359) -/

section

variable {d : Dev} {x ch : Nat}

/-- The holds of a stack beside that of channel ch. -/
def Stack.otherHolds (st : Stack) (ch : Nat) : List ChanHold := st.holds.filter (fun h => h.ch.toNat != ch)

/-- A fault that is not lasting, or can still be repaired, leaves the channel held beside the others, and recorded. -/
theorem channelRetrain_holds {ok within10 : Bool} (hruns : d.stkRuns x = true) (hch : ch < 32)
    (hspare : (ok = true ∧ within10 = false) ∨ ((d.stk x).spareActive = false ∧ (d.stk x).spareLost = false ∧
      ((d.stk x).copying = true → (d.stk x).copyCh.toNat = ch))) :
    ∃ q u, channelRetrain d x ch ok within10 = ({ d.setStk x { d.stk x with
      holds := (d.stk x).otherHolds ch ++ [⟨BitVec.ofNat 5 ch, ok, !ok || within10⟩] } with seq := q, suite := u } : Dev).unitRecord 1 (x / 2) x
        fltChanRetrain { detail := ch } := by
  have hlogical : (ch == 32) = false := beq_eq_false_iff_ne.2 (by omega)
  have hkept : ((!ok || within10) && ((d.stk x).spareActive || (d.stk x).spareLost ||
      ((d.stk x).copying && (d.stk x).copyCh.toNat != ch))) = false := by
    rcases hspare with ⟨hok, hlate⟩ | ⟨hactive, hlost, hcopy⟩
    · simp [hok, hlate]
    · simp only [hactive, hlost, Bool.false_or, Bool.and_eq_false_imp, bne_eq_false_iff_eq]
      exact fun _ => hcopy
  obtain ⟨q, u, hint⟩ := interrupts_eq (d.setStk x { d.stk x with
    holds := (d.stk x).otherHolds ch ++ [⟨BitVec.ofNat 5 ch, ok, !ok || within10⟩] }) (x / 2)
  refine ⟨q, u, ?_⟩
  simp only [channelRetrain, hruns, hlogical, hkept, Bool.not_true, Bool.false_eq_true, if_false]
  exact congrArg (fun e : Dev => e.unitRecord 1 (x / 2) x fltChanRetrain { detail := ch }) hint

/-! ## CHANNEL_HOLD_END (R331, R357, R358) -/

theorem channelHoldEnd_none (h : ∀ h ∈ (d.stk x).holds, h.ch.toNat ≠ ch) : channelHoldEnd d x ch = d := by
  have hfind : (d.stk x).holds.find? (fun h => h.ch.toNat == ch) = none :=
    List.find?_eq_none.2 fun g hg => by simpa using h g hg
  simp only [channelHoldEnd, hfind]

/-- After a retraining without a lasting fault the accesses go on. -/
theorem channelHoldEnd_retrained (h : (d.stk x).holds.find? (fun h => h.ch.toNat == ch) = some ⟨BitVec.ofNat 5 ch, true, false⟩) :
    channelHoldEnd d x ch = (d.setStk x { d.stk x with holds := (d.stk x).otherHolds ch }).ackHeld x := by
  simp only [channelHoldEnd, h, Bool.not_false, Bool.and_self, Bool.or_true, if_true]
  rfl

/-- One that succeeded, of a channel that is faulty lastingly, starts the copy to a free spare. -/
theorem channelHoldEnd_copies (hruns : d.stkRuns x = true)
    (h : (d.stk x).holds.find? (fun h => h.ch.toNat == ch) = some ⟨BitVec.ofNat 5 ch, true, true⟩)
    (hactive : (d.stk x).spareActive = false) (hlost : (d.stk x).spareLost = false) (hcopy : (d.stk x).copying = false) :
    channelHoldEnd d x ch = ((d.setStk x { d.stk x with
      holds := (d.stk x).otherHolds ch, copying := true, copyCh := BitVec.ofNat 5 ch }).unitRecord 1 (x / 2) x fltChanRepair
        { detail := ch, lasting := true }).ackHeld x := by
  simp only [channelHoldEnd, h, stkRuns_setStk, hruns, hactive, hlost, hcopy, Bool.not_true, Bool.and_false, Bool.or_self, Bool.false_eq_true, if_false,
    Dev.stk_setStk_self, setStk_setStk]
  rfl

/-! ## CHANNEL_REPAIR_HANDOVER (R213, R358) -/

theorem channelRepairHandover_waits (h : (d.stk x).chanHeld (d.stk x).copyCh.toNat = true) : channelRepairHandover d x = d := by
  simp only [channelRepairHandover, h, Bool.or_true, if_true]

/-- The copy ends with the spare serving the channel. -/
theorem channelRepairHandover_serves (hruns : d.stkRuns x = true) (hcopy : (d.stk x).copying = true) (hclean : (d.stk x).upsets = [])
    (hfree : (d.stk x).chanHeld (d.stk x).copyCh.toNat = false) : (channelRepairHandover d x).stk x =
      { d.stk x with copying := false, spareActive := true, logical := (d.stk x).copyCh } := by
  have hleft : ({ d.stk x with upsets := [], copying := false, spareActive := true, logical := (d.stk x).copyCh } : Stack) =
      { d.stk x with copying := false, spareActive := true, logical := (d.stk x).copyCh } := by rw [← hclean]
  obtain ⟨q, u, hint⟩ := interrupts_eq (d.setStk x { d.stk x with copying := false, spareActive := true, logical := (d.stk x).copyCh }) (x / 2)
  simp only [channelRepairHandover, hruns, hcopy, hfree, touchWords_clean _ hclean, Bool.not_true, Bool.or_self, Bool.false_eq_true,
    if_false]
  rw [hclean, List.filter_nil, hleft, hint]
  split <;> exact Dev.stk_setStk_self ..

/-! ## CHANNEL_LOST (R359, R360) -/

/-- The stack once its spare has taken the addresses of a channel that was lost: the channel's words are marked, and its held writes performed. -/
def Stack.channelSpared (st : Stack) (ch : Nat) : Stack :=
  ({ st with
    holds := st.otherHolds ch, copying := false, spareActive := true, spareLost := false, logical := BitVec.ofNat 5 ch
    mem := st.mem.loseRange (ch * chanSize / 32) (ch * chanSize / 32 + chanSize / 32)
    upsets := st.upsets.filter (fun u => 32 * u.word / chanSize != ch) } : Stack).drain (fun h => h.key / chanSize == ch)

/-- A free spare, not taken by another channel's copy, takes over. -/
theorem loseChannel_spares (hactive : (d.stk x).spareActive = false) (hlost : (d.stk x).spareLost = false)
    (hcopy : (d.stk x).copying = true → (d.stk x).copyCh.toNat = ch) :
    d.loseChannel x ch false = (d.setStk x ((d.stk x).channelSpared ch)).unitDiscard 1 (x / 2) x fltChanLost
      { detail := ch, atRest := true, lasting := true } := by
  have htaken : ((d.stk x).spareActive || (d.stk x).spareLost || ((d.stk x).copying && (d.stk x).copyCh.toNat != ch)) = false := by
    simp only [hactive, hlost, Bool.false_or, Bool.and_eq_false_imp, bne_eq_false_iff_eq]
    exact hcopy
  simp only [Dev.loseChannel, htaken, Bool.false_eq_true, if_false, setStk_setStk]
  rfl

theorem splitDue_none {p : HeldWrite → Bool} {hs : List HeldWrite} (h : ∀ g ∈ hs, p g = false) : splitDue p hs = ([], hs) := by
  induction hs with
  | nil => rfl
  | cons g t ih =>
    obtain ⟨hg, ht⟩ := List.forall_mem_cons.1 h
    have hany : t.any (fun y => p y && y.key / 64 == g.key / 64) = false := List.any_eq_false.2 fun y hy => by simp [ht y hy]
    simp only [splitDue, ih ht, hg, hany, Bool.or_self, Bool.false_eq_true, if_false]

/-- A word of a range that was lost is marked (R360). -/
theorem marked_loseRange {m : Mem} {lo hi w : Nat} (hlo : lo ≤ w) (hhi : w < hi) : (m.loseRange lo hi).marked w = true := by
  have hmarks : (m.loseRange lo hi).marks.contains w = false := by
    simp only [Mem.loseRange, List.contains_eq_mem, decide_eq_false_iff_not, List.mem_filter, Bool.or_eq_true, decide_eq_true_eq]
    omega
  have hlost : (m.loseRange lo hi).inLost w = true := by simp [Mem.loseRange, Mem.inLost, hlo, hhi]
  rw [Mem.marked, hmarks, hlost]; rfl

/-- Every word of the channel is marked, where it has no held write. -/
theorem channelSpared_marked {st : Stack} (h : ∀ g ∈ st.held, g.key / chanSize ≠ ch) {w : Nat} (hw : 32 * w / chanSize = ch) :
    (st.channelSpared ch).mem.marked w = true := by
  have hsplit := splitDue_none (p := fun g => g.key / chanSize == ch) (hs := st.held) fun g hg => beq_eq_false_iff_ne.2 (h g hg)
  have hsize : chanSize = 0x90000000 := by decide
  rw [Stack.channelSpared, Stack.drain, Stack.performSome, hsplit]
  rw [hsize] at hw ⊢
  exact marked_loseRange (by omega) (by omega)

end

/-! ## The statement -/

section

variable {s : State} {sk : Stk} {ch : Fin 32} (hidle : NothingHeld s.toDev)
include hidle

theorem channelRetrain_command {ok within10 : Bool} (hruns : s.stkRuns sk.val = true)
    (hspare : (ok = true ∧ within10 = false) ∨ ((s.stk sk.val).spareActive = false ∧ (s.stk sk.val).spareLost = false ∧
      ((s.stk sk.val).copying = true → (s.stk sk.val).copyCh.toNat = ch.val))) :
    ∃ t, exec (.channelRetrain sk (Fin.castLE (by decide) ch) ok within10) s = .next t ∧ t.stk sk.val = { s.stk sk.val with
      holds := (s.stk sk.val).otherHolds ch.val ++ [⟨BitVec.ofNat 5 ch.val, ok, !ok || within10⟩] } ∧
      t.flog.offered.length = s.flog.offered.length + 1 := by
  obtain ⟨q, u, h⟩ := channelRetrain_holds hruns ch.isLt hspare
  refine ⟨_, congrArg (done s) ((congrArg Dev.resumeReads h).trans (hidle.resumes rfl rfl rfl)), Dev.stk_setStk_self .., ?_⟩
  exact unitRecord_offered_length ..

theorem channelHoldEnd_copies_command (hruns : s.stkRuns sk.val = true)
    (h : (s.stk sk.val).holds.find? (fun h => h.ch.toNat == ch.val) = some ⟨BitVec.ofNat 5 ch.val, true, true⟩)
    (hactive : (s.stk sk.val).spareActive = false) (hlost : (s.stk sk.val).spareLost = false) (hcopy : (s.stk sk.val).copying = false)
    (hunfenced : ∀ p ∈ s.benches, ∀ f, p.2.fence = some f → sk ∉ f.held) :
    ∃ t, exec (.channelHoldEnd sk ch) s = .next t ∧ t.stk sk.val = { s.stk sk.val with
      holds := (s.stk sk.val).otherHolds ch.val, copying := true, copyCh := BitVec.ofNat 5 ch.val } := by
  have hend := channelHoldEnd_copies hruns h hactive hlost hcopy
  obtain ⟨bs, hack⟩ := ackHeld_unfenced (d := (s.setStk sk.val { s.stk sk.val with
    holds := (s.stk sk.val).otherHolds ch.val, copying := true, copyCh := BitVec.ofNat 5 ch.val }).unitRecord 1 (sk.val / 2) sk.val fltChanRepair
      { detail := ch.val, lasting := true }) hunfenced
  refine ⟨_, congrArg (done s) ((congrArg Dev.resumeReads (hend.trans hack)).trans (hidle.resumes rfl rfl rfl)), Dev.stk_setStk_self ..⟩

theorem channelHoldEnd_last_command {k : Nat} {f : FenceRun}
    (h : (s.stk sk.val).holds.find? (fun h => h.ch.toNat == ch.val) = some ⟨BitVec.ofNat 5 ch.val, true, false⟩)
    (hclean : (s.stk sk.val).upsets = []) (hf : (s.bench k).fence = some f) (hwaits : sk ∈ f.held) (hlast : (s.stk sk.val).otherHolds ch.val = []) :
    ∃ t, exec (.channelHoldEnd sk ch) s = .next t ∧ (t.stk sk.val).holds = [] ∧ (t.stk sk.val).held = [] ∧
      (t.bench k).fence = some { f with places := f.places.filter (· != .stack sk), held := f.held.filter (· != sk) } := by
  obtain ⟨st, hst⟩ : ∃ st : Stack, st = { s.stk sk.val with holds := [] } := ⟨_, rfl⟩
  have hself : (s.setStk sk.val st).stk sk.val = st := Dev.stk_setStk_self ..
  have hend := channelHoldEnd_retrained h
  rw [hlast, ← hst] at hend
  have hack := ackHeld_acks (d := s.setStk sk.val st) (by rw [hself, hst]; rfl) hf hwaits
  have hdrain : (s.setStk sk.val st).drainStk sk.val (fun _ => true) = s.setStk sk.val (st.performSome (st.held, [])) := by
    rw [Dev.drainStk, performSome_clean _ (by rw [hself, hst]; exact hclean), hself, splitDue_all, setStk_setStk]
  rw [hdrain] at hack
  refine ⟨_, congrArg (done s) ((congrArg Dev.resumeReads (hend.trans hack)).trans (hidle.resumes rfl rfl rfl)), ?_, ?_, ?_⟩
  · exact (congrArg Stack.holds (Dev.stk_setStk_self ..)).trans (by rw [hst]; rfl)
  · exact congrArg Stack.held (Dev.stk_setStk_self ..)
  · refine (fence_releaseFences ..).trans ?_
    rw [← released_waiting hwaits]
    exact congrArg (Option.map fun f : FenceRun => f.released sk.val) hf

theorem channelHoldEnd_goes_command
    (h : (s.stk sk.val).holds.find? (fun h => h.ch.toNat == ch.val) = some ⟨BitVec.ofNat 5 ch.val, true, false⟩)
    (hmore : (s.stk sk.val).otherHolds ch.val ≠ []) : exec (.channelHoldEnd sk ch) s =
      .next { s with toDev := s.setStk sk.val { s.stk sk.val with holds := (s.stk sk.val).otherHolds ch.val } } := by
  have hhold : ((s.setStk sk.val { s.stk sk.val with holds := (s.stk sk.val).otherHolds ch.val }).stk sk.val).hold = true := by
    rw [Dev.stk_setStk_self, Stack.hold, List.isEmpty_eq_false_iff.2 hmore]; rfl
  have hend := (channelHoldEnd_retrained h).trans (ackHeld_holds hhold)
  exact congrArg (done s) ((congrArg Dev.resumeReads hend).trans (hidle.resumes rfl rfl rfl))

theorem channelHoldEnd_none_command (h : ∀ h ∈ (s.stk sk.val).holds, h.ch.toNat ≠ ch.val) : exec (.channelHoldEnd sk ch) s = .next s :=
  congrArg (done s) ((congrArg Dev.resumeReads (channelHoldEnd_none h)).trans (hidle.resumes rfl rfl rfl))

theorem channelLost_command (hruns : s.stkRuns sk.val = true) (hactive : (s.stk sk.val).spareActive = false)
    (hlost : (s.stk sk.val).spareLost = false) (hcopy : (s.stk sk.val).copying = true → (s.stk sk.val).copyCh.toNat = ch.val)
    (hunfenced : ∀ p ∈ s.benches, ∀ f, p.2.fence = some f → sk ∉ f.held) :
    ∃ t, exec (.channelLost sk (.channel ch)) s = .next t ∧ t.stk sk.val = (s.stk sk.val).channelSpared ch.val ∧
      t.discards = s.discards ++ [⟨fltChanLost, s.step.setWidth 16⟩] := by
  have hlose : channelLost s.toDev sk.val (.channel ch) = (s.loseChannel sk.val ch.val false).ackHeld sk.val := by
    simp only [channelLost, hruns, Bool.not_true, Bool.false_eq_true, if_false]
  rw [loseChannel_spares hactive hlost hcopy] at hlose
  obtain ⟨bs, hack⟩ := ackHeld_unfenced (d := (s.setStk sk.val ((s.stk sk.val).channelSpared ch.val)).unitDiscard 1 (sk.val / 2) sk.val
    fltChanLost { detail := ch.val, atRest := true, lasting := true }) hunfenced
  refine ⟨_, congrArg (done s) ((congrArg Dev.resumeReads (hlose.trans hack)).trans (hidle.resumes rfl rfl rfl)), Dev.stk_setStk_self .., ?_⟩
  exact congrArg (fun n => s.discards ++ [⟨fltChanLost, n⟩]) (BitVec.ofNat_toNat 16 s.step)

end

/-- Settles O42, command by command. -/
theorem channels : Obligations.Channels := by
  intro sk s hidle
  refine ⟨fun hruns ch ok within10 hspare => channelRetrain_command hidle hruns hspare,
    fun hruns ch hheld hactive hlost hcopy hunfenced => channelHoldEnd_copies_command hidle hruns hheld hactive hlost hcopy hunfenced,
    fun ch hheld hclean k f hf hwaits => ⟨fun hlast => channelHoldEnd_last_command hidle hheld hclean hf hwaits hlast,
      fun hmore => channelHoldEnd_goes_command hidle hheld hmore⟩,
    fun ch hnone => channelHoldEnd_none_command hidle hnone,
    fun hruns hcopy hclean hfree => ⟨_, rfl, channelRepairHandover_serves hruns hcopy hclean hfree⟩,
    fun hheld => congrArg (done s) (channelRepairHandover_waits hheld), fun hruns ch hactive hlost hcopy hunfenced => ?_⟩
  obtain ⟨t, ht, hstk, hdiscards⟩ := channelLost_command hidle hruns hactive hlost hcopy hunfenced
  refine ⟨t, ht, ?_, ?_, ?_, hdiscards, fun hnone w hw => ?_⟩
  all_goals rw [hstk]
  · rfl
  · rfl
  · rfl
  · exact channelSpared_marked hnone hw

end Sys2Proof.Machine
end

/-! ## O3: rules for the addressed stores -/

section
namespace Sys2Proof.Machine
variable {d : Dev}

/-! ### Rules for the shapes of the model's definitions

Each function of the model keeps `MemOk`; its lemma is named `memOk_` and the function's name
(`benchOk_`, `wfStack_`, `wfSb_`, `wf_` for one that gives a bench, a stack, a sideboard or a
store).  Where a function branches or folds, its lemma follows by the rules below. -/

theorem memOk_ite {c : Prop} [Decidable c] {a b : Dev} (ha : a.MemOk) (hb : b.MemOk) :
    (if c then a else b).MemOk := by
  split <;> assumption

theorem memOk_ite_fst {α : Type} {c : Prop} [Decidable c] {a b : Dev × α} (ha : a.1.MemOk)
    (hb : b.1.MemOk) : (if c then a else b).1.MemOk := by
  split <;> assumption

/-- `p.1.MemOk`, as a predicate of the whole pair: where `p` branches on a value that the kernel
would otherwise compute on the way to the pair's device. -/
def Dev.FstMemOk {α : Type} (p : Dev × α) : Prop := p.1.MemOk

theorem memOk_of_fst {α : Type} {p : Dev × α} {e : Dev} {x : α} (hp : p = (e, x))
    (h : p.1.MemOk) : e.MemOk := by
  subst hp
  exact h

theorem memOk_foldl {α : Type} {f : Dev → α → Dev} {l : List α} (h : d.MemOk)
    (hf : ∀ e x, e.MemOk → (f e x).MemOk) : (l.foldl f d).MemOk :=
  foldl_inv hf l h

theorem memOk_foldl_fst {α β : Type} {f : Dev × β → α → Dev × β} {l : List α} {p : Dev × β}
    (h : p.1.MemOk) (hf : ∀ e x, e.1.MemOk → (f e x).1.MemOk) : (l.foldl f p).1.MemOk :=
  foldl_inv (P := fun p : Dev × β => p.1.MemOk) hf l h

theorem benchOk_ite {c : Prop} [Decidable c] {a b : Bench} (ha : a.MemOk) (hb : b.MemOk) :
    (if c then a else b).MemOk := by
  split <;> assumption

theorem wfStack_ite {c : Prop} [Decidable c] {a b : Stack} (ha : a.mem.wf = true)
    (hb : b.mem.wf = true) : (if c then a else b).mem.wf = true := by
  split <;> assumption

theorem wf_ite {c : Prop} [Decidable c] {a b : Mem} (ha : a.wf = true) (hb : b.wf = true) :
    (if c then a else b).wf = true := by
  split <;> assumption

theorem wf_ite_fst {α : Type} {c : Prop} [Decidable c] {a b : Mem × α} (ha : a.1.wf = true)
    (hb : b.1.wf = true) : (if c then a else b).1.wf = true := by
  split <;> assumption

theorem wf_foldl {α : Type} {f : Mem → α → Mem} {m : Mem} {l : List α} (h : m.wf = true)
    (hf : ∀ m x, m.wf = true → (f m x).wf = true) : (l.foldl f m).wf = true :=
  foldl_inv (P := fun m : Mem => m.wf = true) hf l h

/-! ### The tables of benches, stacks and sideboards -/

theorem memOk_bench {k} (h : d.MemOk) : (d.bench k).MemOk :=
  Tab.get_all (P := Bench.MemOk) ⟨rfl, rfl, rfl⟩ h.1 k

theorem wf_stk {s} (h : d.MemOk) : (d.stk s).mem.wf = true :=
  Tab.get_all (P := fun y : Stack => y.mem.wf = true) rfl h.2.1 s

theorem wf_sb {c} (h : d.MemOk) : (d.sb c).mem.wf = true :=
  Tab.get_all (P := fun y : Sideboard => y.mem.wf = true) rfl h.2.2.1 c

theorem memOk_setBench {k b} (h : d.MemOk) (hb : b.MemOk) : (d.setBench k b).MemOk :=
  ⟨Tab.set_all (P := Bench.MemOk) hb h.1, h.2⟩

theorem memOk_setStk {s x} (h : d.MemOk) (hx : x.mem.wf = true) : (d.setStk s x).MemOk :=
  ⟨h.1, Tab.set_all (P := fun y : Stack => y.mem.wf = true) hx h.2.1, h.2.2⟩

theorem memOk_setSb {c x} (h : d.MemOk) (hx : x.mem.wf = true) : (d.setSb c x).MemOk :=
  ⟨h.1, h.2.1, Tab.set_all (P := fun y : Sideboard => y.mem.wf = true) hx h.2.2.1, h.2.2.2⟩

/-- A bench written back after a change of the bench that stood there. -/
theorem memOk_updBench {k b} (h : d.MemOk) (hb : (d.bench k).MemOk → b.MemOk) :
    (d.setBench k b).MemOk :=
  memOk_setBench h (hb (memOk_bench h))

/-- A stack written back after a change of the stack that stood there. -/
theorem memOk_updStk {s x} (h : d.MemOk) (hx : (d.stk s).mem.wf = true → x.mem.wf = true) :
    (d.setStk s x).MemOk :=
  memOk_setStk h (hx (wf_stk h))

/-- A sideboard written back after a change of the sideboard that stood there. -/
theorem memOk_updSb {c x} (h : d.MemOk) (hx : (d.sb c).mem.wf = true → x.mem.wf = true) :
    (d.setSb c x).MemOk :=
  memOk_setSb h (hx (wf_sb h))

theorem memOk_modBench {k f} (h : d.MemOk) (hf : ∀ b : Bench, b.MemOk → (f b).MemOk) :
    (d.modBench k f).MemOk :=
  memOk_updBench h (hf _)

theorem memOk_mapBenches {f} (h : d.MemOk) (hf : ∀ k b, b.MemOk → (f k b).MemOk) :
    (d.mapBenches f).MemOk := by
  obtain ⟨hbench, hrest⟩ := h
  refine ⟨?_, hrest⟩
  intro p hp
  obtain ⟨q, hq, rfl⟩ := List.mem_map.1 hp
  exact hf _ _ (hbench q hq)

/-- A device changed in nothing but parts that hold no addressed store. -/
theorem memOk_with {cabs drawers plan hmb flog cmp fill pwr ports suite bridge seq wdCtl lateCount
    net away discards irqs boot journal mgmt tap obs number step template free} (h : d.MemOk) :
    ({ d with
      cabs := cabs, drawers := drawers, plan := plan, hmb := hmb, flog := flog, cmp := cmp
      fill := fill, pwr := pwr, ports := ports, suite := suite, bridge := bridge, seq := seq
      wdCtl := wdCtl, lateCount := lateCount, net := net, away := away, discards := discards
      irqs := irqs, boot := boot, journal := journal, mgmt := mgmt, tap := tap, obs := obs
      number := number, step := step, template := template, free := free } : Dev).MemOk := h

end Sys2Proof.Machine
end

/-! ## Units, records and faults keep the stores -/

section
namespace Sys2Proof.Machine
variable {d : Dev}

theorem memOk_setCab {c x} (h : d.MemOk) : (d.setCab c x).MemOk := h

theorem memOk_setDrw {c x} (h : d.MemOk) : (d.setDrw c x).MemOk := h

theorem memOk_setPort {p x} (h : d.MemOk) : (d.setPort p x).MemOk := h

theorem memOk_fresh (h : d.MemOk) : (d.fresh).MemOk := h

theorem memOk_interrupt {vector} (h : d.MemOk) : (d.interrupt vector).MemOk := memOk_ite h h

theorem memOk_setDom {id x} (h : d.MemOk) : (d.setDom id x).MemOk := h

theorem memOk_arrive {id block} (h : d.MemOk) : (d.arrive id block).MemOk :=
  memOk_ite (memOk_setDom h) h

/-- One bit of a control register, which acts where it is written. -/
theorem memOk_actBit {on ok f} {r : Dev × Bool} (hr : r.1.MemOk)
    (hf : ∀ e : Dev, e.MemOk → (f e).MemOk) : (actBit on ok f r).1.MemOk :=
  memOk_ite_fst (hf _ hr) hr

theorem memOk_offer {r} (h : d.MemOk) : (d.offer r).MemOk := h

theorem memOk_unitRecord {kind c i code n} (h : d.MemOk) : (d.unitRecord kind c i code n).MemOk := h

theorem memOk_discard {code} (h : d.MemOk) : (d.discard code).MemOk := h

theorem memOk_unitDiscard {kind c i code n} (h : d.MemOk) : (d.unitDiscard kind c i code n).MemOk :=
  memOk_discard (memOk_unitRecord h)

theorem memOk_regRefused {kind c i code off} (h : d.MemOk) :
    (d.regRefused kind c i code off).MemOk := memOk_unitRecord h

theorem memOk_telemetry {kind sensor value record} (h : d.MemOk) :
    (d.telemetry kind sensor value record).MemOk := h

theorem memOk_setCabSt {c st} (h : d.MemOk) : (d.setCabSt c st).MemOk :=
  memOk_ite h (memOk_telemetry (memOk_setCab h))

theorem benchOk_capture {b : Bench} {src planId step kind iss peer data lost} (h : b.MemOk) :
    (b.capture src planId step kind iss peer data lost).MemOk :=
  benchOk_ite ⟨h.1, h.2.1, wf_ite h.2.2 (Mem.wf_write _ _ h.2.2)⟩ h

theorem memOk_trace {k kind iss peer data} (h : d.MemOk) : (d.trace k kind iss peer data).MemOk :=
  memOk_modBench h fun _ hb => benchOk_capture hb

theorem memOk_benchRecord {k code iss step detail} (h : d.MemOk) :
    (d.benchRecord k code iss step detail).MemOk :=
  memOk_modBench (memOk_trace (memOk_offer h)) fun _ hb => hb

theorem benchOk_stop {b : Bench} (h : b.MemOk) : (b.stop).MemOk := h

theorem memOk_movePlanRoutes {off} (h : d.MemOk) : (d.movePlanRoutes off).MemOk := h

theorem memOk_loseCabinet {c cause chest plain} (h : d.MemOk) :
    (d.loseCabinet c cause chest plain).MemOk := by
  refine memOk_ite h (memOk_unitDiscard (memOk_movePlanRoutes (memOk_with ?_)))
  exact memOk_mapBenches (memOk_setCab (memOk_setCabSt h)) fun _ _ hb => benchOk_ite hb hb

theorem memOk_tell {n t} (h : d.MemOk) : (d.tell n t).MemOk := h

theorem memOk_voidFloor {b} (h : d.MemOk) : (d.voidFloor b).MemOk := by
  unfold Dev.voidFloor
  split
  · exact memOk_ite h (memOk_ite h (memOk_tell h))
  · exact h

theorem memOk_interrupts {c} (h : d.MemOk) : (d.interrupts c).MemOk :=
  memOk_ite (memOk_voidFloor h) h

theorem memOk_benchFault {k code iss detail} (h : d.MemOk) :
    (d.benchFault k code iss detail).MemOk :=
  memOk_discard <| memOk_ite (memOk_modBench (memOk_benchRecord h) fun _ hb => hb) <|
    memOk_ite (memOk_benchRecord h) <|
    memOk_modBench (memOk_benchRecord h) fun _ hb => benchOk_stop hb

end Sys2Proof.Machine
end

/-! ## Stacks and sideboards keep their stores -/

section
namespace Sys2Proof.Machine
variable {d : Dev}

theorem wf_performHeld {filled} {m : Mem} {w} (h : m.wf = true) :
    (performHeld filled m w).wf = true :=
  Mem.wf_store _ _ _ h

theorem wfStack_performSome {st : Stack} {r} (h : st.mem.wf = true) :
    (st.performSome r).mem.wf = true :=
  wf_foldl h fun _ _ hm => wf_performHeld hm

theorem wfStack_drain {st : Stack} {p} (h : st.mem.wf = true) : (st.drain p).mem.wf = true :=
  wfStack_performSome h

theorem wfStack_accept {st : Stack} {off data marked owner} (h : st.mem.wf = true) :
    (st.accept off data marked owner).mem.wf = true := h

theorem memOk_stkLostWord {s w} (h : d.MemOk) : (d.stkLostWord s w).MemOk := memOk_unitRecord h

theorem wfStack_counted {st : Stack} {w o} (h : st.mem.wf = true) :
    (st.counted w o).mem.wf = true := Mem.wf_settleWord _ _ h

theorem memOk_copyWord {s u} (h : d.MemOk) : (d.copyWord s u).MemOk :=
  memOk_ite (memOk_stkLostWord (memOk_setStk h (wfStack_counted (wf_stk h)))) <|
    memOk_setStk h (wfStack_counted (wf_stk h))

theorem memOk_copyWords {s p} (h : d.MemOk) : (d.copyWords s p).MemOk := by
  unfold Dev.copyWords
  dsimp only
  split
  · exact h
  · exact memOk_foldl (memOk_setStk h (wf_stk h)) fun _ _ he => memOk_copyWord he

theorem memOk_stkError {s u} (h : d.MemOk) : (d.stkError s u).MemOk := by
  unfold Dev.stkError
  split
  · exact h
  · extract_lets st o st' e p n
    have hst : st'.mem.wf = true := wfStack_counted (wf_stk h)
    have he : e.MemOk := memOk_setStk h hst
    refine memOk_ite he ?_
    split
    extract_lets e₁ e₂ e₃
    have h₁ : e₁.MemOk := memOk_setStk he hst
    have h₂ : e₂.MemOk := memOk_ite (memOk_stkLostWord h₁) h₁
    have h₃ : e₃.MemOk := memOk_ite (memOk_interrupts (memOk_copyWords h₂)) h₂
    exact memOk_foldl h₃ fun _ _ hx => memOk_unitRecord hx

theorem memOk_touchWords {s p} (h : d.MemOk) : (d.touchWords s p).MemOk := by
  refine memOk_ite h ?_
  split
  · exact h
  · exact memOk_foldl h fun _ _ he => memOk_ite (memOk_stkError (memOk_setStk he (wf_stk he))) he

theorem memOk_touchStk {s x n} (h : d.MemOk) : (d.touchStk s x n).MemOk := memOk_touchWords h

theorem memOk_performSome {s r} (h : d.MemOk) : (d.performSome s r).MemOk :=
  memOk_updStk (memOk_touchWords h) fun hx => wfStack_performSome hx

theorem memOk_drainStk {s p} (h : d.MemOk) : (d.drainStk s p).MemOk := memOk_performSome h

theorem wf_combine {sb : Sideboard} {x data marked} (h : sb.mem.wf = true) :
    (sb.combine x data marked).1.wf = true := by
  unfold Sideboard.combine
  split
  · exact Mem.wf_store _ _ _ h
  · exact wf_ite_fst (wf_foldl h fun m k hm => (Mem.setMark_wf m k true).trans hm)
      (Mem.wf_write _ _ h)

theorem wfSb_sbWriteSectors {sb : Sideboard} {replace parts marked hit} (h : sb.mem.wf = true) :
    (sbWriteSectors sb replace parts marked hit).1.mem.wf = true := by
  induction parts generalizing sb hit with
  | nil => exact h
  | cons p t ih =>
    unfold sbWriteSectors
    split
    · exact ih (sb := { sb with mem := _ }) (Mem.wf_store _ _ _ h)
    · exact ih (sb := { sb with mem := _ }) (wf_combine h)

theorem wfSb_performPort {sb : Sideboard} {w} (h : sb.mem.wf = true) :
    (sb.performPort w).1.mem.wf = true := wfSb_sbWriteSectors h

theorem memOk_sbWrite {c x data marked replace} (h : d.MemOk) :
    (d.sbWrite c x data marked replace).1.MemOk := memOk_setSb h (wfSb_sbWriteSectors (wf_sb h))

theorem wfSb_counted {sb : Sideboard} {w o} (h : sb.mem.wf = true) :
    (sb.counted w o).mem.wf = true := Mem.wf_settleWord _ _ h

theorem memOk_sbWord {c u} (h : d.MemOk) : (d.sbWord c u).1.MemOk :=
  memOk_ite (memOk_unitRecord (memOk_setSb h (wfSb_counted (wf_sb h)))) <|
    memOk_setSb h (wfSb_counted (wf_sb h))

theorem memOk_sbError {c u} (h : d.MemOk) : (d.sbError c u).MemOk :=
  memOk_ite h <| memOk_ite (memOk_sbWord h) <|
    memOk_ite (memOk_loseCabinet (memOk_unitDiscard (memOk_sbWord h))) <| memOk_interrupts <|
    memOk_foldl (memOk_updSb (memOk_sbWord h) id) fun _ _ he => memOk_sbWord he

theorem memOk_touchSbWords {c p} (h : d.MemOk) : (d.touchSbWords c p).MemOk := by
  refine memOk_ite h ?_
  split
  · exact h
  · exact memOk_foldl h fun _ _ he => memOk_ite (memOk_sbError (memOk_setSb he (wf_sb he))) he

theorem memOk_touchSb {c x n} (h : d.MemOk) : (d.touchSb c x n).MemOk := memOk_touchSbWords h

end Sys2Proof.Machine
end

/-! ## Messages and rings keep the stores -/

section
namespace Sys2Proof.Machine
variable {d : Dev}

theorem memOk_pushMsg {p m} (h : d.MemOk) : (d.pushMsg p m).MemOk := memOk_setPort h

theorem memOk_emit {c m} (h : d.MemOk) : (d.emit c m).MemOk := by
  refine memOk_ite (memOk_ite h (memOk_unitRecord h)) ?_
  split
  · exact memOk_with (memOk_pushMsg h)
  · exact memOk_unitRecord h

theorem memOk_unitSend {kind c i m} (h : d.MemOk) : (d.unitSend kind c i m).MemOk :=
  memOk_ite (memOk_unitRecord h) <| memOk_ite (memOk_ite (memOk_emit h) (memOk_unitRecord h)) <|
    memOk_ite (memOk_emit h) (memOk_unitRecord h)

theorem memOk_messageArrival {src k bc} (h : d.MemOk) : (messageArrival d src k bc).MemOk := by
  unfold messageArrival
  dsimp only
  split
  · exact h
  · refine memOk_ite h (memOk_ite (memOk_ite (memOk_arrive h) (memOk_arrive h)) ?_)
    split
    · exact memOk_modBench (memOk_arrive h) fun _ hb => hb
    · split
      · exact memOk_modBench (memOk_with (memOk_modBench (memOk_arrive h) fun _ hb => hb))
          fun _ hb => hb
      · exact memOk_modBench (memOk_with (memOk_modBench (memOk_arrive h) fun _ hb => hb))
          fun _ hb => hb
      · exact memOk_unitRecord (memOk_modBench (memOk_with
          (memOk_modBench (memOk_arrive h) fun _ hb => hb)) fun _ hb => hb)
      · exact memOk_with (memOk_modBench (memOk_arrive h) fun _ hb => hb)

theorem memOk_returned {m} (h : d.MemOk) : (d.returned m).MemOk := by
  refine memOk_ite h ?_
  split
  · exact memOk_benchRecord h
  · exact memOk_unitRecord h

theorem memOk_destFencedReturn {src dst seq} (h : d.MemOk) :
    (destFencedReturn d src dst seq).MemOk := by
  refine memOk_ite ?_ ?_
  · dsimp only
    split
    · exact h
    · exact memOk_returned h
  · split
    · exact h
    · exact memOk_returned h

theorem benchOk_writeEpoch {b : Bench} {q epoch chk} (h : b.MemOk) :
    (b.writeEpoch q epoch chk).MemOk := benchOk_ite h h

theorem benchOk_dropMsgs {b : Bench} {p} (h : b.MemOk) : (b.dropMsgs p).MemOk := h

end Sys2Proof.Machine
end

/-! ## The copy engine keeps the stores -/

section
namespace Sys2Proof.Machine
variable {d : Dev}

theorem memOk_readPlace {k a} (h : d.MemOk) : (readPlace d k a).1.MemOk := by
  unfold readPlace
  split
  · split
    · exact h
    · exact memOk_ite_fst h (memOk_touchStk (memOk_arrive h))
  · split
    · exact h
    · exact memOk_touchSb (memOk_arrive h)
  · exact memOk_ite_fst h h

theorem memOk_readSector {k a} (h : d.MemOk) : (readSector d k a).1.MemOk := by
  refine memOk_ite_fst (memOk_readPlace h) ?_
  have hplace := memOk_readPlace (k := k) (a := a) h
  generalize readPlace d k a = p at hplace ⊢
  obtain ⟨e, r⟩ := p
  dsimp only
  split
  · refine memOk_ite_fst h ?_
    cases r with
    | ok => exact memOk_modBench hplace fun _ hb => hb
    | error => exact hplace
  · cases r with
    | ok => exact memOk_modBench hplace fun _ hb => hb
    | error => exact hplace

/-! ### Transfers of the copy engine (R280 to R291, R308 to R310) -/

section
variable {t : Xfer} {k : Nat} {x : Desc}

theorem xferOk_ite {c : Prop} [Decidable c] {u : Xfer} (ht : t.d.MemOk) (hu : u.d.MemOk) :
    (if c then t else u).d.MemOk := by
  split <;> assumption

theorem xferOk_foldl {α : Type} {f : Xfer → α → Xfer} {l : List α} (h : t.d.MemOk)
    (hf : ∀ u a, u.d.MemOk → (f u a).d.MemOk) : (l.foldl f t).d.MemOk :=
  foldl_inv (P := fun u : Xfer => u.d.MemOk) hf l h

theorem xferOk_fetch {a} (h : t.d.MemOk) : (t.fetch k a).d.MemOk := by
  have hread := memOk_readSector (k := k) (a := a) h
  refine xferOk_ite h ?_
  generalize readSector t.d k a = p at hread ⊢
  obtain ⟨e, r⟩ := p
  cases r <;> exact hread

theorem xferOk_narrow {a n} (h : t.d.MemOk) : (t.narrow k a n).d.MemOk := by
  unfold Xfer.narrow
  split
  · exact h
  · exact xferOk_ite h (memOk_touchStk (memOk_arrive h))

theorem xferOk_writeRun {replace counted r} (h : t.d.MemOk) :
    (t.writeRun k replace counted r).d.MemOk := by
  unfold Xfer.writeRun
  split
  · exact h
  · exact h
  · dsimp only
    split
    · split
      · exact h
      · exact memOk_modBench (memOk_updStk (memOk_arrive h) wfStack_accept) fun _ hb => hb
    · split
      · exact h
      · refine xferOk_ite h ?_
        split <;> exact memOk_modBench (memOk_sbWrite (memOk_arrive h)) fun _ hb => hb
    · refine xferOk_ite h (memOk_modBench h fun _ hb => ?_)
      exact ⟨Mem.wf_store _ _ _ hb.1, hb.2⟩

theorem xferOk_writeRuns {replace rs} (h : t.d.MemOk) : (t.writeRuns k replace rs).d.MemOk :=
  foldl_inv (P := fun p : Xfer × Option Nat => p.1.d.MemOk) (fun _ _ hp => xferOk_writeRun hp) rs h

theorem xferOk_writeBytes {replace down ws} (h : t.d.MemOk) :
    (t.writeBytes k replace down ws).d.MemOk :=
  xferOk_foldl h fun _ _ hu => xferOk_writeRuns hu

theorem xferOk_passTile (h : t.d.MemOk) : (t.passTile k x).d.MemOk :=
  xferOk_ite (memOk_modBench h fun _ hb => hb) h

theorem xferOk_fetches {box : List (Nat × Nat × Nat)} {addrs : Nat × Nat × Nat → List Nat}
    (h : t.d.MemOk) :
    (box.foldl (fun t i => (addrs i).foldl (fun t a => t.fetch k (a / 64 * 64)) t) t).d.MemOk :=
  xferOk_foldl h fun _ _ hu => xferOk_foldl hu fun _ _ hv => xferOk_fetch hv

/-- What follows a step that a transfer may stop in. -/
theorem xferOk_andThen {u : Xfer} {f : Xfer → Xfer} (hu : u.d.MemOk)
    (hf : ∀ v : Xfer, v.d.MemOk → (f v).d.MemOk) :
    (if u.stop.isSome then u else f u).d.MemOk :=
  xferOk_ite hu (hf u hu)

theorem xferOk_block {so dO skip} (h : t.d.MemOk) : (t.block k x so dO skip).d.MemOk := by
  refine xferOk_ite h ?_
  refine xferOk_andThen (f := fun t => Xfer.writeBytes { t.passTile k x with cache := [] }
    k x.replace x.shiftsDown _) ?_ fun u hu => ?_
  · exact xferOk_ite h (xferOk_ite (xferOk_narrow h) (xferOk_fetches h))
  · exact xferOk_writeBytes (t := { u.passTile k x with cache := [] }) (xferOk_passTile hu)

theorem listEntry_d {i} : (listEntry t k x i).1.d = t.d := by
  unfold listEntry
  dsimp only
  split
  · rfl
  · split <;> rfl

theorem xferOk_listBlocks {n i} (h : t.d.MemOk) : (Xfer.listBlocks k x n i t).d.MemOk := by
  induction n generalizing i t with
  | zero => exact h
  | succ n ih =>
    refine xferOk_ite h ?_
    have hentry := listEntry_d (t := t) (k := k) (x := x) (i := i)
    generalize listEntry t k x i = p at hentry ⊢
    obtain ⟨u, e⟩ := p
    have hu : u.d.MemOk := hentry ▸ h
    refine xferOk_ite hu ?_
    cases e with
    | none =>
      have hskip : (u.d.modBench k fun b => { b with skipped := satInc16 b.skipped }).MemOk :=
        memOk_modBench hu fun _ hb => hb
      exact ih (xferOk_ite (xferOk_block hskip) hskip)
    | some o =>
      refine xferOk_ite hu (xferOk_ite hu (ih (xferOk_ite ?_ ?_)))
        <;> exact xferOk_block hu

theorem xferOk_readRange {a n} (h : t.d.MemOk) : (t.readRange k a n).1.d.MemOk :=
  xferOk_ite h (xferOk_foldl h fun _ _ hu => xferOk_fetch hu)

theorem xferOk_readEntry {j} (h : t.d.MemOk) : (t.readEntry k x j).1.d.MemOk := by
  unfold Xfer.readEntry
  dsimp only
  split
  · exact xferOk_fetch h
  · split <;> exact xferOk_fetch h

theorem xferOk_writeEntry {j e} (h : t.d.MemOk) : (t.writeEntry k x j e).d.MemOk :=
  xferOk_writeBytes (t := { t with cache := t.cache.erase _ }) h

theorem xferOk_rawSource (h : t.d.MemOk) : (t.rawSource k x).1.d.MemOk :=
  xferOk_fetches h

theorem xferOk_encodeBlocks {tab n j raw} (h : t.d.MemOk) :
    (Xfer.encodeBlocks k x tab n j raw t).d.MemOk := by
  induction n generalizing j raw t with
  | zero => exact h
  | succ n ih =>
    refine xferOk_ite h ?_
    have hentry := xferOk_readEntry (t := { t with cache := [] }) (k := k) (x := x) (j := j) h
    generalize Xfer.readEntry { t with cache := [] } k x j = p at hentry ⊢
    obtain ⟨u, old⟩ := p
    refine xferOk_ite hentry (xferOk_ite hentry (ih ?_))
    refine xferOk_andThen (f := fun t => t.writeEntry k x j _) ?_ fun v hv => xferOk_writeEntry hv
    exact xferOk_writeBytes (t := { u with cache := [] }) hentry

theorem xferOk_tallyBlocks {tab n j off raw} (h : t.d.MemOk) :
    (Xfer.tallyBlocks k x tab n j off raw t).d.MemOk := by
  induction n generalizing j off raw t with
  | zero => exact h
  | succ n ih => exact xferOk_ite h (ih (xferOk_writeEntry h))

theorem xferOk_tally (h : t.d.MemOk) : (t.tally k x).d.MemOk := by
  unfold Xfer.tally
  have hraw := xferOk_rawSource (k := k) (x := x) h
  generalize t.rawSource k x = p at hraw ⊢
  obtain ⟨u, raw⟩ := p
  dsimp only at hraw ⊢
  refine xferOk_ite hraw (xferOk_ite hraw ?_)
  split
  · exact hraw
  · exact xferOk_tallyBlocks hraw

theorem xferOk_decodeBlocks {n j} (h : t.d.MemOk) : (Xfer.decodeBlocks k x n j t).1.d.MemOk := by
  induction n generalizing j t with
  | zero => exact h
  | succ n ih =>
    unfold Xfer.decodeBlocks
    split
    · exact h
    · have hentry := xferOk_readEntry (k := k) (x := x) (j := j) h
      generalize t.readEntry k x j = p at hentry ⊢
      obtain ⟨u, e⟩ := p
      dsimp only at hentry ⊢
      split
      · exact hentry
      · have hread (a n : Nat) :
            (Xfer.readRange { u with queued := u.queued ++ u.d.cmp.queuedGen e } k a n).1.d.MemOk :=
          xferOk_readRange (t := { u with queued := u.queued ++ u.d.cmp.queuedGen e }) hentry
        refine ih ?_
        split <;> exact hread _ _

theorem xferOk_decodeMove (h : t.d.MemOk) : (t.decodeMove k x).d.MemOk := by
  unfold Xfer.decodeMove
  have hraw := xferOk_decodeBlocks (k := k) (x := x) (n := x.nblocks) (j := 0) h
  generalize Xfer.decodeBlocks k x x.nblocks 0 t = p at hraw ⊢
  obtain ⟨u, raw⟩ := p
  exact xferOk_ite hraw (xferOk_block (t := { u with cache := _ }) hraw)

theorem xferOk_run (h : t.d.MemOk) : (t.run k x).d.MemOk := by
  unfold Xfer.run
  refine xferOk_ite (xferOk_tally h) (xferOk_ite (xferOk_decodeMove h) (xferOk_ite ?_ ?_))
  · exact xferOk_encodeBlocks (xferOk_rawSource (t := { t with queued := _ }) h)
  · exact xferOk_ite (xferOk_listBlocks h) (xferOk_block h)

end

/-- The device after the transfer of a descriptor, whether it stopped or not. -/
theorem memOk_transfer {k x queued} (h : d.MemOk) : ((Xfer.start d queued).run k x).d.MemOk :=
  xferOk_run (t := Xfer.start d queued) h

theorem memOk_copyIssue {k iss ea ct op bytes hit} (h : d.MemOk) :
    (copyIssue k iss ea ct op bytes hit d).MemOk := by
  unfold copyIssue
  split
  · exact memOk_benchFault h
  · refine memOk_ite h ?_
    split
    · exact memOk_benchFault h
    · have hrun := memOk_fresh (memOk_transfer (k := k) (x := descOf bytes) (queued := []) h)
      dsimp only
      split
      · exact memOk_benchFault hrun
      · exact memOk_modBench h fun _ hb => hb
      · exact memOk_modBench hrun fun _ hb => hb

theorem memOk_copyComplete {k idx} (h : d.MemOk) : (copyComplete d k idx).MemOk := by
  unfold copyComplete
  split
  · exact h
  · rename_i tr _
    dsimp only
    split
    · exact memOk_ite h (memOk_trace (memOk_modBench h fun _ hb => hb))
    · rename_i bytes _
      have hrun := memOk_fresh (memOk_transfer (k := k) (x := descOf bytes) (queued := tr.queued) h)
      split
      · exact h
      · exact memOk_benchFault (memOk_modBench hrun fun _ hb => hb)
      · exact memOk_ite (memOk_modBench hrun fun _ hb => hb)
          (memOk_trace (memOk_modBench hrun fun _ hb => hb))

end Sys2Proof.Machine
end

/-! ## Bundles and slots keep the stores -/

section
namespace Sys2Proof.Machine
variable {d : Dev}

theorem memOk_tellStepEnd (h : d.MemOk) : (d.tellStepEnd).MemOk := by
  unfold Dev.tellStepEnd
  split
  · exact memOk_ite (memOk_tell h) h
  · exact h

theorem memOk_tellHeld (h : d.MemOk) : (d.tellHeld).MemOk := memOk_ite (memOk_tell h) h

theorem memOk_tellActed (h : d.MemOk) : (d.tellActed).MemOk := memOk_ite (memOk_tell h) h

theorem memOk_abandonBare (h : d.MemOk) : (d.abandonBare).MemOk := by
  unfold Dev.abandonBare
  split
  · exact memOk_ite h (memOk_ite h (memOk_tell h))
  · exact h

theorem memOk_noteHalt (h : d.MemOk) : (d.noteHalt).MemOk := memOk_ite (memOk_abandonBare h) h

theorem memOk_countConv {k s n} (h : d.MemOk) : (d.countConv k s n).MemOk :=
  memOk_modBench h fun _ hb => hb

theorem memOk_atomDo {k op x xs xc xd} (h : d.MemOk) : (atomDo k op x xs xc xd d).MemOk := by
  unfold atomDo
  extract_lets c o n e₁ old sb e₂
  have h₂ : e₂.MemOk := memOk_updSb (memOk_arrive h) fun hx => Mem.wf_write _ _ hx
  exact memOk_ite (memOk_modBench h₂ fun _ hb => hb) h₂

theorem memOk_sendDo {k iss m} (h : d.MemOk) : (sendDo k iss m d).MemOk :=
  memOk_trace (memOk_modBench (memOk_emit h) fun _ hb => hb)

theorem memOk_recvDo {k iss m} (h : d.MemOk) : (recvDo k iss m d).MemOk :=
  memOk_trace (memOk_modBench h fun _ hb => hb)

theorem memOk_fenceDone {k scope} (h : d.MemOk) : (fenceDone k scope d).MemOk := by
  refine memOk_modBench h fun _ hb => ?_
  split <;> exact hb

theorem memOk_fenceSuiteStart {k} (h : d.MemOk) : (fenceSuiteStart k d).MemOk :=
  memOk_ite (memOk_modBench h fun _ hb => hb) (memOk_with (memOk_modBench h fun _ hb => hb))

theorem wf_applyStores {m : Mem} {free ws} (h : m.wf = true) :
    (applyStores m free ws).wf = true := by
  unfold applyStores
  split
  · exact h
  · exact wf_foldl h fun _ _ hm => Mem.wf_put _ hm
  · exact wf_foldl h fun _ _ hr => wf_foldl hr fun _ _ ht => wf_foldl ht fun _ _ hw =>
      wf_foldl hw fun _ _ hp => wf_ite (Mem.wf_put _ hp) hp

theorem wf_partialStores {m : Mem} {free ws} (h : m.wf = true) :
    (partialStores m free ws).wf = true :=
  wf_foldl h fun _ _ hm => wf_foldl hm fun _ _ hm' => wf_foldl hm' fun _ _ hm'' =>
    wf_ite (Mem.wf_put _ hm'') hm''

/-! ### The slots of a bundle (R81 to R103) -/

/-- What a slot does to the device beside its stores and registers keeps the stores canonical. -/
def Res.MemOk : Res → Prop
  | .ok _ _ f => ∀ d : Dev, d.MemOk → (f d).MemOk
  | .fault _ _ => True
  | .faultAfter _ _ f => ∀ d : Dev, d.MemOk → (f d).MemOk
  | .wait _ f => ∀ d : Dev, d.MemOk → (f d).MemOk

theorem resOk_regs {f} : (Res.regs f).MemOk := fun _ h => h

theorem resOk_waits {kind} : (Res.wait kind id).MemOk := fun _ h => h

theorem resOk_ite {c : Prop} [Decidable c] {r r' : Res} (h : r.MemOk) (h' : r'.MemOk) :
    (if c then r else r').MemOk := by
  split <;> assumption

/-- A check of a slot, which faults where it fails. -/
theorem resOk_check {c : Prop} [Decidable c] {code detail} {r : Res} (h : r.MemOk) :
    (if c then .fault code detail else r).MemOk :=
  resOk_ite trivial h

theorem resOk_evalMma {r idx acc z} : (evalMma r idx acc z).MemOk :=
  resOk_check <| resOk_check <| resOk_check <| resOk_check <| resOk_check resOk_regs

theorem resOk_evalLoad {isB r mem a fmt tr sa pw} : (evalLoad isB r mem a fmt tr sa pw).MemOk :=
  resOk_check <| resOk_check <| resOk_check <| resOk_check <| resOk_check <| resOk_check resOk_regs

theorem resOk_evalMsta {k r acc clr a fmt} : (evalMsta k r acc clr a fmt).MemOk :=
  resOk_check <| resOk_check <| resOk_check <| resOk_check fun _ h => memOk_countConv h

theorem resOk_arith {vd n f} : (arith vd n f).MemOk := resOk_ite resOk_regs resOk_regs

theorem resOk_evalVfma {r vd va vb} : (evalVfma r vd va vb).MemOk := resOk_check resOk_arith

theorem resOk_evalVbin {r vd va vb func bs} : (evalVbin r vd va vb func bs).MemOk :=
  resOk_check resOk_arith

theorem resOk_evalVun {r vd va func} : (evalVun r vd va func).MemOk := resOk_check resOk_arith

theorem resOk_evalVred {r vd va func half} : (evalVred r vd va func half).MemOk :=
  resOk_check (resOk_ite resOk_arith resOk_arith)

theorem resOk_evalVscan {r vd va func excl} : (evalVscan r vd va func excl).MemOk :=
  resOk_check resOk_arith

theorem resOk_evalVsegscan {r vd va vf func excl} : (evalVsegscan r vd va vf func excl).MemOk :=
  resOk_check resOk_arith

theorem resOk_evalVsetl {r src imm xs} : (evalVsetl r src imm xs).MemOk :=
  resOk_ite resOk_regs <| resOk_check <| resOk_check resOk_regs

theorem resOk_evalVld {r mem vd a fmt} : (evalVld r mem vd a fmt).MemOk :=
  resOk_ite resOk_regs <| resOk_check <| resOk_check <| resOk_check <| resOk_check resOk_regs

theorem resOk_evalVst {k r vs a fmt} : (evalVst k r vs a fmt).MemOk :=
  resOk_ite resOk_regs <| resOk_check <| resOk_check <| resOk_check <| resOk_check
    fun _ h => memOk_countConv h

theorem resOk_evalBranch {r op regs} : (evalBranch r op regs).MemOk := by
  unfold evalBranch
  split
  · exact resOk_regs
  · exact resOk_ite resOk_regs trivial

theorem resOk_evalLdx {r mem xd a size sx} : (evalLdx r mem xd a size sx).MemOk :=
  resOk_check <| resOk_check <| resOk_check resOk_regs

theorem resOk_evalStx {r xs a size} : (evalStx r xs a size).MemOk :=
  resOk_check <| resOk_check <| resOk_check fun _ h => h

theorem resOk_evalAtom {k r op a xd xs xc} : (evalAtom d k r op a xd xs xc).MemOk := by
  refine resOk_check <| resOk_check <| resOk_check ?_
  split
  · trivial
  · exact resOk_check fun _ h => memOk_atomDo h

theorem resOk_evalSend {k iss r mem q a xdest xlen} :
    (evalSend d k iss r mem q a xdest xlen).MemOk :=
  resOk_check <| resOk_check <| resOk_check <| resOk_check <| resOk_check <|
    resOk_ite resOk_waits fun _ h => memOk_sendDo h

theorem resOk_evalRecv {k iss r q a xlen xsrc} : (evalRecv d k iss r q a xlen xsrc).MemOk := by
  refine resOk_check ?_
  split
  · exact resOk_waits
  · exact resOk_ite (fun _ h => memOk_modBench h fun _ hb => hb) fun _ h => memOk_recvDo h

theorem resOk_evalFence {k widest scope} : (evalFence d k widest scope).MemOk := by
  refine resOk_ite resOk_waits ?_
  split
  · exact fun _ h => memOk_fenceDone h
  · exact resOk_ite (fun _ h => memOk_fenceDone h) resOk_waits
  · exact fun _ h => memOk_modBench h fun _ hb => hb
  · exact fun _ h => memOk_fenceSuiteStart h

theorem resOk_evalCopy {k iss r mem before a ct op} :
    (evalCopy d k iss r mem before a ct op).MemOk :=
  resOk_check <| resOk_check <| resOk_check <| resOk_ite resOk_waits fun _ h => memOk_copyIssue h

theorem resOk_evalSlot {k bd iss mem row op} : (evalSlot d k bd iss mem row op).MemOk := by
  cases op with
  | mma => exact resOk_evalMma
  | mlda => exact resOk_evalLoad
  | mldb => exact resOk_evalLoad
  | msta => exact resOk_evalMsta
  | vld => exact resOk_evalVld
  | vst => exact resOk_evalVst
  | ldx => exact resOk_evalLdx
  | stx => exact resOk_evalStx
  | copy => exact resOk_evalCopy
  | cwait => exact resOk_ite resOk_regs resOk_waits
  | fence => exact resOk_evalFence
  | atom => exact resOk_evalAtom
  | vpop =>
    unfold evalSlot
    dsimp only
    split <;> exact resOk_regs
  | vsetl => exact resOk_evalVsetl
  | vfma => exact resOk_evalVfma
  | vbin => exact resOk_evalVbin
  | vun => exact resOk_evalVun
  | vred => exact resOk_evalVred
  | vscan => exact resOk_evalVscan
  | vsegscan => exact resOk_evalVsegscan
  | send => exact resOk_evalSend
  | recv => exact resOk_evalRecv
  | br => exact resOk_evalBranch (r := (d.bench k).arch) (op := .br _) (regs := id)
  | brc => exact resOk_check resOk_evalBranch
  | brx => exact resOk_check resOk_evalBranch
  | addi => exact resOk_check resOk_regs
  | alu => exact resOk_check resOk_regs
  | seta => exact resOk_check resOk_regs
  | setn => exact resOk_check (resOk_check resOk_regs)
  | mpush | vbcast | poll | nop | movi | geta | gets | stepend | halt => exact resOk_regs

theorem firstFault_keeps {res : List (Nat × Res)} {s code detail also}
    (hres : ∀ p ∈ res, p.2.MemOk) (h : firstFault res = some (s, code, detail, also)) :
    d.MemOk → (also d).MemOk := by
  induction res with
  | nil => cases h
  | cons p t ih =>
    obtain ⟨slot, r⟩ := p
    have hr : r.MemOk := hres _ List.mem_cons_self
    have ht := ih fun q hq => hres q (List.mem_cons_of_mem _ hq)
    cases r with
    | ok | wait => exact ht h
    | fault => cases h; exact id
    | faultAfter => cases h; exact hr d

theorem firstWait_keeps {res : List (Nat × Res)} {kind begun} (hres : ∀ p ∈ res, p.2.MemOk)
    (h : firstWait res = some (kind, begun)) : d.MemOk → (begun d).MemOk := by
  induction res with
  | nil => cases h
  | cons p t ih =>
    obtain ⟨slot, r⟩ := p
    have hr : r.MemOk := hres _ List.mem_cons_self
    have ht := ih fun q hq => hres q (List.mem_cons_of_mem _ hq)
    cases r with
    | ok | fault | faultAfter => exact ht h
    | wait => cases h; exact hr d

theorem memOk_waitEnds {k bd idx} (h : d.MemOk) : (d.waitEnds k bd idx).MemOk := by
  unfold Dev.waitEnds
  dsimp only
  split
  · exact h
  · exact memOk_modBench (memOk_trace h) fun _ hb => hb

theorem memOk_waitAt {k kind bd idx} (h : d.MemOk) : (d.waitAt k kind bd idx).MemOk :=
  memOk_modBench (memOk_ite h (memOk_trace (memOk_waitEnds h))) fun _ hb => hb

theorem memOk_touchAtoms {k bd} (h : d.MemOk) : (d.touchAtoms k bd).MemOk := by
  refine memOk_foldl h fun _ _ he => ?_
  split
  · exact memOk_ite (memOk_touchSb he) he
  · exact he

theorem memOk_retireBench {k bd nextPc} (h : d.MemOk) : (d.retireBench k bd nextPc).MemOk :=
  memOk_modBench (memOk_trace (memOk_modBench h fun _ hb => hb)) fun _ hb => hb

theorem memOk_retire {k bd nextPc} (h : d.MemOk) : (d.retire k bd nextPc).MemOk :=
  memOk_ite (memOk_noteHalt (memOk_retireBench h)) (memOk_retireBench h)

theorem memOk_stepEnd {k bd} (h : d.MemOk) : (d.stepEnd k bd).MemOk := by
  unfold Dev.stepEnd
  extract_lets only e₀ e₁ e₂
  have h₀ : e₀.MemOk := memOk_waitAt h
  have h₁ : e₁.MemOk := memOk_trace h₀
  have h₂ : e₂.MemOk := memOk_ite (memOk_with h₁) h₁
  exact memOk_ite (memOk_tellStepEnd (memOk_modBench h₂ fun _ hb => hb)) h₀

/-- The device at which a repeat, or a run of repeats, goes on or stops. -/
def RepOut.dev : RepOut → Dev
  | .go d => d
  | .stop d => d

theorem repOut_stop (h : d.MemOk) : (RepOut.stop d).dev.MemOk := h

theorem memOk_lateEffects {res : List (Nat × Res)} (hres : ∀ p ∈ res, p.2.MemOk) (h : d.MemOk) :
    (res.foldl (fun d x => match x.2 with
      | .ok _ _ f => f d
      | _ => d) d).MemOk := by
  induction res generalizing d with
  | nil => exact h
  | cons p t ih =>
    obtain ⟨slot, r⟩ := p
    have hr : r.MemOk := hres _ List.mem_cons_self
    refine ih (fun q hq => hres q (List.mem_cons_of_mem _ hq)) ?_
    cases r with
    | ok => exact hr d h
    | fault | faultAfter | wait => exact h

theorem memOk_repeatOnce {k bd idx} (h : d.MemOk) : (repeatOnce d k bd idx).dev.MemOk := by
  unfold repeatOnce
  extract_lets e b iss ws sh row res
  clear_value sh
  have he : e.MemOk := memOk_touchAtoms h
  have hres : ∀ p ∈ res, p.2.MemOk := by
    intro p hp
    obtain ⟨s, -, rfl⟩ := List.mem_map.1 hp
    exact resOk_evalSlot
  split
  · rename_i hfault
    refine memOk_benchFault (memOk_waitEnds (memOk_fresh (firstFault_keeps hres hfault ?_)))
    exact memOk_modBench he fun _ hb => ⟨wf_partialStores hb.1, hb.2⟩
  · split
    · rename_i hwait
      exact memOk_waitAt (firstWait_keeps hres hwait he)
    · split
      · exact memOk_waitAt (memOk_modBench he fun _ hb => hb)
      · extract_lets e₂ e₃ b'
        have he₂ : e₂.MemOk :=
          memOk_modBench (memOk_waitEnds he) fun _ hb => ⟨wf_applyStores hb.1, hb.2⟩
        have he₃ : e₃.MemOk := memOk_lateEffects hres (memOk_fresh he₂)
        split
        · exact he₃
        · exact repOut_stop (memOk_modBench he₃ fun _ hb => hb)

theorem memOk_repeats {k bd n idx} (h : d.MemOk) : (repeats k bd n idx d).dev.MemOk := by
  induction n generalizing idx d with
  | zero => exact h
  | succ n ih =>
    have honce := memOk_repeatOnce (k := k) (bd := bd) (idx := idx) h
    unfold repeats
    generalize repeatOnce d k bd idx = out at honce ⊢
    cases out with
    | go e => exact ih honce
    | stop e => exact honce

theorem memOk_execBundle {k bd} (h : d.MemOk) : (execBundle d k bd).MemOk := by
  unfold execBundle
  have hrun := memOk_repeats (k := k) (bd := bd) (n := bd.count - (d.bench k).repIdx)
    (idx := (d.bench k).repIdx) h
  dsimp only
  generalize repeats k bd (bd.count - (d.bench k).repIdx) (d.bench k).repIdx d = out at hrun ⊢
  cases out with
  | stop e => exact hrun
  | go e => exact memOk_ite (memOk_stepEnd hrun) (memOk_retire hrun)

theorem memOk_retryWait {k w} (h : d.MemOk) : (retryWait d k w).MemOk :=
  memOk_ite (memOk_stepEnd h) (memOk_execBundle h)

theorem memOk_startBundle {k bd} (h : d.MemOk) : (startBundle d k bd).MemOk :=
  memOk_execBundle (memOk_modBench h fun _ hb => hb)

theorem memOk_bundleIssue {k} (h : d.MemOk) : (bundleIssue d k).MemOk := by
  refine memOk_ite h ?_
  dsimp only
  split
  · exact memOk_retryWait h
  · split
    · exact memOk_startBundle h
    · exact memOk_benchFault h
    · exact memOk_benchFault h

theorem memOk_slotCommand {k slot tag op} (h : d.MemOk) : (slotCommand d k slot tag op).MemOk := by
  refine memOk_ite h ?_
  dsimp only
  split
  · exact memOk_ite (memOk_retryWait h) h
  · split
    · exact memOk_startBundle h
    · exact memOk_benchFault h

end Sys2Proof.Machine
end

/-! ## Mailbox, fills, scrub, channels and fences keep the stores -/

section
namespace Sys2Proof.Machine
variable {d : Dev}

theorem memOk_putUnit {a bytes lo hi} (h : d.MemOk) : (d.putUnit a bytes lo hi).MemOk :=
  memOk_updStk (memOk_arrive h) fun hx => wfStack_accept hx

theorem memOk_readUnit {block a n} (h : d.MemOk) : (d.readUnit block a n).1.MemOk :=
  memOk_touchStk (memOk_arrive h)

theorem memOk_hostMailboxRecord {src} (h : d.MemOk) : (hostMailboxRecord d src).MemOk := by
  unfold hostMailboxRecord
  split
  · exact h
  · exact memOk_ite (memOk_arrive h) <| memOk_ite (memOk_arrive h) <|
      memOk_ite (memOk_interrupt (memOk_foldl (memOk_arrive h) fun _ _ he => memOk_putUnit he)) <|
      memOk_foldl (memOk_arrive h) fun _ _ he => memOk_putUnit he

theorem memOk_sbCount {c m at_} (h : d.MemOk) : (d.sbCount c m at_).MemOk :=
  memOk_ite h <| memOk_ite (memOk_unitDiscard (memOk_touchSb h)) <|
    memOk_updSb (memOk_touchSb h) fun hx => Mem.wf_write _ _ hx

theorem memOk_writeAow {c n v} (h : d.MemOk) : (writeAow c n v d).1.MemOk :=
  memOk_ite_fst h (memOk_ite_fst (memOk_regRefused h) (memOk_setSb h (wf_sb h)))

theorem memOk_sideboardWriteAway {src dev c} (h : d.MemOk) :
    (sideboardWriteAway d src dev c).MemOk := by
  unfold sideboardWriteAway
  split <;> exact h

theorem memOk_sideboardWriteMessage {src c} (h : d.MemOk) :
    (sideboardWriteMessage d src c).MemOk := by
  unfold sideboardWriteMessage
  split
  · exact h
  · refine memOk_ite h ?_
    extract_lets e f len hdr note data g
    have he : e.MemOk := memOk_arrive h
    have hg : g.MemOk := memOk_touchSb he
    refine memOk_ite he (memOk_ite (memOk_unitRecord he) (memOk_ite (memOk_unitRecord he) ?_))
    split
    rename_i hwrite
    have hw := memOk_of_fst hwrite (memOk_sbWrite hg)
    extract_lets r
    have hr : r.MemOk := by
      unfold r
      split
      · exact memOk_unitDiscard hw
      · exact hw
    exact memOk_ite (memOk_sbCount hr) hr

theorem memOk_performDrawerWrite {c w} (h : d.MemOk) : (d.performDrawerWrite c w).MemOk := by
  have hport := wfSb_performPort (w := w) (wf_sb (c := c) h)
  unfold Dev.performDrawerWrite
  generalize (d.sb c).performPort w = p at hport ⊢
  obtain ⟨sb, hit⟩ := p
  cases hit with
  | some => exact memOk_unitDiscard (memOk_setSb h hport)
  | none => exact memOk_setSb h hport

theorem memOk_drawerPortDrain {c} (h : d.MemOk) : (drawerPortDrain d c).MemOk := by
  refine memOk_ite h ?_
  split
  · exact h
  · exact memOk_performDrawerWrite (memOk_setSb h (wf_sb h))

theorem memOk_drainDrawerPort {c} (h : d.MemOk) : (d.drainDrawerPort c).MemOk :=
  memOk_ite h (memOk_foldl (memOk_setSb h (wf_sb h)) fun _ _ he => memOk_performDrawerWrite he)

theorem wfStack_fillWith {st : Stack} {pattern free} :
    (st.fillWith pattern free).mem.wf = true := rfl

theorem memOk_writeFillCtl {v} (h : d.MemOk) : (writeFillCtl v d).1.MemOk := by
  unfold writeFillCtl
  extract_lets _ e _ ss cs n e₁ e₂ e₃
  have he : e.MemOk := memOk_with h
  have h₁ : e₁.MemOk :=
    memOk_foldl (memOk_foldl he fun _ _ hx => memOk_arrive hx) fun _ _ hx => memOk_arrive hx
  have h₂ : e₂.MemOk :=
    memOk_foldl (memOk_fresh h₁) fun _ _ hx => memOk_setStk hx wfStack_fillWith
  have h₃ : e₃.MemOk := memOk_foldl h₂ fun _ _ hx => memOk_setSb hx rfl
  exact memOk_ite_fst he (memOk_ite_fst (memOk_unitRecord (memOk_with he)) (memOk_with h₃))

theorem memOk_fillEnd (h : d.MemOk) : (d.fillEnd).MemOk := memOk_ite h h

theorem memOk_fillComplete {u} (h : d.MemOk) : (fillComplete d u).MemOk := by
  unfold fillComplete
  split
  · exact memOk_ite h <| memOk_ite (memOk_fillEnd h) <|
      memOk_fillEnd (memOk_fresh (memOk_setStk h (Mem.wf_settle _ (wf_stk h))))
  · exact memOk_ite h <| memOk_ite (memOk_fillEnd h) <|
      memOk_fillEnd (memOk_fresh (memOk_setSb h (Mem.wf_settle _ (wf_sb h))))

theorem memOk_refreshPerform {s n busy} (h : d.MemOk) : (refreshPerform d s n busy).MemOk :=
  memOk_ite h (memOk_setStk h (wf_stk h))

theorem memOk_writeBatch {s ch} (h : d.MemOk) : (d.writeBatch s ch).MemOk :=
  memOk_ite h (memOk_performSome h)

theorem memOk_writeBatchDrain {s ch} (h : d.MemOk) : (writeBatchDrain d s ch).MemOk :=
  memOk_writeBatch h

theorem memOk_writeBatchAge {s ch} (h : d.MemOk) : (writeBatchAge d s ch).MemOk :=
  memOk_writeBatch h

theorem memOk_scrubWord {s w e} (h : d.MemOk) : (d.scrubWord s w e).MemOk :=
  memOk_updStk (memOk_stkError (memOk_touchWords h)) id

theorem memOk_scrubStack {s word now later} (h : d.MemOk) :
    (scrubStack d s word now later).MemOk := by
  unfold scrubStack
  extract_lets st total
  split
  · exact h
  · rename_i passed e _ f w g _ _
    have he : e.MemOk := memOk_foldl h fun _ _ hx => memOk_scrubWord hx
    have hf : f.MemOk := memOk_updStk he id
    exact memOk_ite hf (memOk_updStk (memOk_scrubWord hf) id)

theorem memOk_scrubSideboard {c word now later} (h : d.MemOk) :
    (scrubSideboard d c word now later).MemOk := by
  refine memOk_ite h (memOk_updSb (memOk_sbError (memOk_touchSbWords ?_)) id)
  exact memOk_updSb (memOk_foldl h fun _ _ he => memOk_touchSbWords he) id

theorem memOk_patrolScrub {u word now later} (h : d.MemOk) :
    (patrolScrub d u word now later).MemOk := by
  unfold patrolScrub
  split
  · exact memOk_scrubStack h
  · exact memOk_scrubSideboard h

theorem memOk_loseStack {s ch} (h : d.MemOk) : (d.loseStack s ch).MemOk :=
  memOk_loseCabinet (memOk_unitDiscard h)

theorem memOk_loseChannel {s ch spareBad} (h : d.MemOk) : (d.loseChannel s ch spareBad).MemOk :=
  memOk_ite (memOk_loseStack (memOk_setStk h (wf_stk h))) <|
    memOk_unitDiscard (memOk_setStk (memOk_setStk h (wf_stk h)) (wfStack_drain (wf_stk h)))

theorem memOk_channelRetrain {s ch ok within10} (h : d.MemOk) :
    (channelRetrain d s ch ok within10).MemOk := by
  unfold channelRetrain
  extract_lets st e₁ e₂
  have h₂ : e₂.MemOk := memOk_unitRecord (memOk_interrupts (memOk_setStk h (wf_stk h)))
  exact memOk_ite h <| memOk_ite (memOk_ite (memOk_loseChannel h) h) <|
    memOk_ite (memOk_loseStack h₂) h₂

theorem memOk_ackHeld {s} (h : d.MemOk) : (d.ackHeld s).MemOk :=
  memOk_ite h (memOk_mapBenches (memOk_ite (memOk_drainStk h) h) fun _ _ hb => hb)

theorem memOk_channelHoldEnd {s ch} (h : d.MemOk) : (channelHoldEnd d s ch).MemOk := by
  unfold channelHoldEnd
  dsimp only
  split
  · exact h
  · exact memOk_ackHeld <| memOk_ite (memOk_setStk h (wf_stk h)) <|
      memOk_ite (memOk_loseChannel (memOk_setStk h (wf_stk h))) <|
      memOk_unitRecord (memOk_updStk (memOk_setStk h (wf_stk h)) id)

theorem memOk_channelRepairHandover {s} (h : d.MemOk) : (channelRepairHandover d s).MemOk :=
  memOk_ite h <|
    memOk_ite (memOk_setDrw (memOk_interrupts (memOk_updStk (memOk_touchWords h) id))) <|
    memOk_interrupts (memOk_updStk (memOk_touchWords h) id)

theorem memOk_channelLost {s part} (h : d.MemOk) : (channelLost d s part).MemOk := by
  refine memOk_ite h ?_
  split
  · exact memOk_ackHeld (memOk_loseChannel h)
  · exact memOk_loseStack h
  · exact memOk_loseCabinet (memOk_unitDiscard h)

theorem memOk_drainMarker {k p} (h : d.MemOk) : (drainMarker d k p).MemOk := by
  unfold drainMarker
  split
  · exact h
  · refine memOk_ite h ?_
    split
    · exact memOk_ite (memOk_modBench h fun _ hb => hb) <|
        memOk_modBench (memOk_drainDrawerPort h) fun _ hb => hb
    · exact memOk_ite (memOk_modBench h fun _ hb => hb) <|
        memOk_ite (memOk_modBench (memOk_drainStk h) fun _ hb => hb) <|
        memOk_modBench (memOk_drainStk h) fun _ hb => hb

theorem memOk_lateMarker {k} (h : d.MemOk) : (d.lateMarker k).MemOk :=
  memOk_ite h (memOk_setBench h (memOk_bench h))

theorem memOk_fenceSuiteMarker {k} (h : d.MemOk) : (fenceSuiteMarker d k).MemOk := by
  unfold fenceSuiteMarker
  split
  · exact memOk_ite (memOk_modBench h fun _ hb => hb) (memOk_lateMarker h)
  · exact memOk_lateMarker h

theorem memOk_fenceSuiteTimeout {k} (h : d.MemOk) : (fenceSuiteTimeout d k).MemOk := by
  unfold fenceSuiteTimeout
  dsimp only
  split
  · exact memOk_ite (memOk_benchFault (memOk_modBench (memOk_waitEnds h) fun _ hb => hb)) h
  · exact h

end Sys2Proof.Machine
end

/-! ## The drawers keep the stores -/

section
namespace Sys2Proof.Machine
variable {d : Dev}

theorem memOk_drwNote {c code bank} (h : d.MemOk) : (d.drwNote c code bank).MemOk := memOk_setDrw h

theorem memOk_drwFault {c code m bank detail} (h : d.MemOk) :
    (d.drwFault c code m bank detail).MemOk := memOk_unitDiscard (memOk_drwNote h)

theorem memOk_drwRefused {c off} (h : d.MemOk) : (d.drwRefused c off).MemOk :=
  memOk_regRefused (memOk_drwNote h)

theorem memOk_readRow {c key n} (h : d.MemOk) : (d.readRow c key n).1.MemOk := memOk_touchWords h

theorem memOk_writeRow {c key data marked} (h : d.MemOk) : (d.writeRow c key data marked).MemOk :=
  memOk_setDrw (memOk_updStk (memOk_touchWords h) fun hx => Mem.wf_store _ _ _ hx)

theorem memOk_yieldBank {c n} (h : d.MemOk) : (d.yieldBank c n).MemOk :=
  memOk_ite (memOk_setDrw (memOk_setStk h (wf_stk h))) h

/-- `Dev.drwResult` is opened through `Dev.FstMemOk`, so that the kernel meets its `match` only as a
value to split on, and never evaluates what it branches on. -/
theorem memOk_drwResult {c off data marks replace m} (h : d.MemOk) :
    (d.drwResult c off data marks replace m).1.MemOk := by
  generalize hf : @Dev.drwResult = f
  delta Dev.drwResult at hf
  subst hf
  change Dev.FstMemOk _
  beta_reduce
  split
  · exact memOk_unitRecord h
  · exact memOk_setSb h (wf_sb h)

theorem memOk_firstMarked {c ranges} (h : d.MemOk) : (firstMarked d c ranges).1.MemOk := by
  induction ranges generalizing d with
  | nil => exact h
  | cons p t ih =>
    have hread := memOk_readRow (c := c) (key := p.1) (n := p.2) h
    unfold firstMarked
    generalize d.readRow c p.1 p.2 = r at hread ⊢
    obtain ⟨e, bytes, ms⟩ := r
    cases ms with
    | nil => exact ih hread
    | cons => exact hread

theorem memOk_attendPart {c t qs es} (h : d.MemOk) : (attendPart d c t qs es).1.MemOk := by
  unfold attendPart
  dsimp only
  split <;> exact memOk_firstMarked h

theorem memOk_gatherSum {c t es} (h : d.MemOk) : (gatherSum d c t es).1.MemOk := by
  refine memOk_foldl_fst h fun s e hs => ?_
  obtain ⟨d, sum⟩ := s
  cases sum with
  | error => exact hs
  | ok =>
    dsimp only
    split <;> exact memOk_readRow hs

theorem memOk_updateEntry {c t e} (h : d.MemOk) : (updateEntry d c t e).1.MemOk := by
  unfold updateEntry
  dsimp only
  split
  · exact memOk_firstMarked h
  · exact memOk_writeRow (memOk_firstMarked h)

theorem memOk_setReq {c i r} (h : d.MemOk) : (d.setReq c i r).MemOk := memOk_setDrw h

theorem memOk_drwSend {c m} (h : d.MemOk) : (d.drwSend c m).MemOk := memOk_setDrw (memOk_unitSend h)

theorem memOk_forwardBank {c i n} (h : d.MemOk) : (d.forwardBank c i n).MemOk := by
  unfold Dev.forwardBank
  split
  · exact h
  · exact memOk_voidFloor (memOk_drwSend (memOk_setReq h))

theorem memOk_forwardAll {c} (h : d.MemOk) : (d.forwardAll c).MemOk := by
  refine memOk_foldl h fun _ _ he => ?_
  split
  · exact he
  · exact memOk_ite he (memOk_foldl he fun _ _ he' => memOk_ite he' (memOk_forwardBank he'))

theorem memOk_drwSweep {c} (h : d.MemOk) : (d.drwSweep c).MemOk := memOk_setDrw h

theorem memOk_drwOpen {c i} (h : d.MemOk) : (d.drwOpen c i).MemOk := by
  unfold Dev.drwOpen
  split
  · exact h
  · refine memOk_ite h ?_
    dsimp only
    split
    · exact memOk_drwFault (memOk_setDrw h)
    · exact memOk_setReq h

theorem memOk_drwArrived {src c} (h : d.MemOk) : (d.drwArrived src c).1.MemOk := by
  unfold Dev.drwArrived
  split
  · exact h
  · exact memOk_ite_fst h (memOk_ite_fst (memOk_arrive h) (memOk_arrive h))

theorem memOk_drawerRequest {src c} (h : d.MemOk) : (drawerRequest d src c).MemOk := by
  have harrived := memOk_drwArrived (src := src) (c := c) h
  unfold drawerRequest
  generalize d.drwArrived src c = p at harrived ⊢
  obtain ⟨e, m⟩ := p
  cases m with
  | none => exact harrived
  | some m =>
    exact memOk_ite harrived <| memOk_ite harrived <| memOk_ite
      (memOk_drwFault (memOk_arrive (memOk_arrive (memOk_with harrived))))
      (memOk_forwardAll (memOk_drwOpen (memOk_setDrw
        (memOk_arrive (memOk_arrive (memOk_with harrived))))))

theorem bankOut_foldl {α : Type} {f : BankOut → α → BankOut} {l : List α} (h : d.MemOk)
    (hf : ∀ o x, o.dev.MemOk → (f o x).dev.MemOk) : (l.foldl f (BankOut.start d)).dev.MemOk :=
  foldl_inv (P := fun o : BankOut => o.dev.MemOk) hf l h

theorem bankOut_record {o : BankOut} {r : Dev × Bool} (h : r.1.MemOk) : (o.record r).dev.MemOk := h

theorem bankOut_result {o : BankOut} {r : Dev × Bool} {ok} (h : r.1.MemOk) :
    ({ o with dev := r.1, ok := ok } : BankOut).dev.MemOk := h

theorem memOk_attendBank {c t hdr m es} (h : d.MemOk) : (attendBank d c t hdr m es).dev.MemOk := by
  unfold attendBank
  dsimp only
  split
  · exact h
  · refine bankOut_foldl h fun o p ho => ?_
    split
    · exact ho
    · split
      · exact memOk_attendPart ho
      · exact bankOut_record (memOk_drwResult (memOk_attendPart ho))

theorem memOk_gatherPlain {c t hdr m es} (h : d.MemOk) :
    (gatherPlain d c t hdr m es).dev.MemOk := by
  unfold gatherPlain
  refine bankOut_foldl h fun _ _ ho => ?_
  extract_lets key
  split
  rename_i hread
  exact bankOut_result (memOk_drwResult (memOk_of_fst hread (memOk_readRow ho)))

theorem memOk_gatherBank {c t hdr m es} (h : d.MemOk) : (gatherBank d c t hdr m es).dev.MemOk := by
  unfold gatherBank
  split
  · exact memOk_gatherPlain h
  · refine bankOut_foldl h fun o p ho => ?_
    split
    · exact ho
    · dsimp only
      split
      · exact memOk_gatherSum ho
      · exact bankOut_record (memOk_drwResult (memOk_gatherSum ho))

theorem memOk_updateBank {c t es} (h : d.MemOk) : (updateBank d c t es).dev.MemOk := by
  refine memOk_foldl_fst h fun s e hs => ?_
  split
  · exact hs
  · exact memOk_updateEntry hs

theorem memOk_bankWork {c i n op} (h : d.MemOk) : (bankWork d c i n op).MemOk := by
  unfold bankWork
  split
  · exact h
  · extract_lets w hdr t
    refine memOk_ite h ?_
    split
    · exact memOk_drwFault (memOk_setDrw h)
    · rename_i es e o f _ _
      have he : e.MemOk := memOk_ite (memOk_yieldBank h) h
      have ho : o.dev.MemOk := by
        unfold o
        split
        · exact memOk_attendBank he
        · split
          · exact memOk_gatherBank he
          · exact memOk_updateBank he
      have hf : f.MemOk := memOk_setReq ho
      split
      · exact memOk_drwFault hf
      · exact memOk_drwSweep (memOk_forwardAll hf)

theorem memOk_appendToken {c t e m row u from_} (h : d.MemOk) :
    (appendToken d c t e m row u from_).MemOk :=
  memOk_ite (memOk_voidFloor (memOk_setStk h (wf_stk h))) (memOk_writeRow h)

theorem memOk_putEntry {c off fill staged step} (h : d.MemOk) :
    (d.putEntry c off fill staged step).MemOk :=
  memOk_updSb (memOk_drainDrawerPort h) fun hx => Mem.wf_store _ _ _ hx

/-- `Dev.setEntry` is opened as `Dev.drwResult` is. -/
theorem memOk_setEntry {c off fill staged step m} (h : d.MemOk) :
    (d.setEntry c off fill staged step m).1.MemOk := by
  generalize hf : @Dev.setEntry = f
  delta Dev.setEntry at hf
  subst hf
  change Dev.FstMemOk _
  beta_reduce
  split
  · exact memOk_ite (memOk_unitDiscard h) (memOk_unitRecord h)
  · exact memOk_putEntry h

theorem memOk_mirrorForward {c m} (h : d.MemOk) : (d.mirrorForward c m).1.MemOk :=
  memOk_ite_fst h (memOk_ite_fst (memOk_drwSend h) (memOk_discard (memOk_drwSend h)))

theorem memOk_closeEntry {c commit off} (h : d.MemOk) : (d.closeEntry c commit off).MemOk :=
  memOk_putEntry (memOk_drainDrawerPort h)

theorem memOk_logStage {c off step primary} (h : d.MemOk) :
    (d.logStage c off step primary).MemOk := by
  unfold Dev.logStage
  split
  · exact memOk_setDrw h
  · split
    · exact memOk_ite (memOk_closeEntry h) (memOk_setDrw h)
    · exact memOk_setDrw h

theorem memOk_append {c i} (h : d.MemOk) : (append d c i).MemOk := by
  unfold append
  split
  · exact h
  · extract_lets w hdr t
    split
    · exact h
    · refine memOk_ite h ?_
      split
      · exact h
      · extract_lets stale staged e
        have he : e.MemOk := memOk_ite (memOk_setDrw h) h
        split
        rename_i hcleared
        have hf := memOk_of_fst hcleared (memOk_ite_fst (memOk_setEntry he) he)
        split
        · exact memOk_drwFault (memOk_setDrw hf)
        · extract_lets yielded written
          have hwritten : written.MemOk :=
            have hyielded : yielded.MemOk := memOk_ite hf (memOk_yieldBank hf)
            memOk_ite hyielded
              (memOk_foldl hyielded fun _ _ hg => memOk_appendToken (memOk_appendToken hg))
          split
          rename_i hstaged
          have hg := memOk_of_fst hstaged (memOk_ite_fst (memOk_setEntry hwritten) hwritten)
          refine memOk_ite (memOk_setReq hg) ?_
          extract_lets logged
          split
          rename_i hforward
          have hsent := memOk_of_fst hforward (memOk_mirrorForward (memOk_logStage hg))
          exact memOk_drwSweep (memOk_forwardAll
            (memOk_ite (memOk_setDrw (memOk_drwSend (memOk_setReq hsent))) (memOk_setReq hsent)))

theorem memOk_drawerCompletion {c i} (h : d.MemOk) : (drawerCompletion d c i).MemOk := by
  unfold drawerCompletion
  split
  · exact h
  · exact memOk_ite h (memOk_ite (memOk_setDrw h) (memOk_drwSend (memOk_setDrw h)))

theorem memOk_fallbackAnswer {src c} (h : d.MemOk) : (fallbackAnswer d src c).MemOk := by
  have harrived := memOk_drwArrived (src := src) (c := c) h
  unfold fallbackAnswer
  generalize d.drwArrived src c = p at harrived ⊢
  obtain ⟨e, m⟩ := p
  cases m with
  | none => exact harrived
  | some m =>
    refine memOk_ite harrived ?_
    dsimp only
    split
    · exact harrived
    · split
      · exact harrived
      · exact memOk_drwSweep (memOk_forwardAll (memOk_setReq (memOk_with harrived)))

theorem memOk_mirrorAppendAnswer {src c} (h : d.MemOk) : (mirrorAppendAnswer d src c).MemOk := by
  have harrived := memOk_drwArrived (src := src) (c := c) h
  unfold mirrorAppendAnswer
  generalize d.drwArrived src c = p at harrived ⊢
  obtain ⟨e, m⟩ := p
  cases m with
  | none => exact harrived
  | some m =>
    refine memOk_ite harrived ?_
    dsimp only
    split
    · exact harrived
    · split
      · exact harrived
      · exact memOk_drwSweep (memOk_setReq (memOk_with harrived))

theorem memOk_closeMirrors {c commit n} (h : d.MemOk) : (d.closeMirrors c commit n).MemOk := by
  refine memOk_setDrw (memOk_foldl h fun _ _ he => memOk_ite he (memOk_setDrw ?_))
  exact memOk_foldl he fun _ _ hx => memOk_closeEntry hx

theorem memOk_closeStep {c commit} (h : d.MemOk) : (d.closeStep c commit).MemOk := by
  unfold Dev.closeStep
  extract_lets e₁ e₂ w e₃ e₄
  have h₁ : e₁.MemOk := memOk_foldl h fun _ _ he => memOk_closeEntry he
  have h₃ : e₃.MemOk := memOk_setDrw (memOk_closeMirrors h₁)
  have h₄ : e₄.MemOk := memOk_foldl h₃ fun _ _ he => memOk_drwOpen he
  exact memOk_forwardAll h₄

theorem memOk_drwAction {c commit} (h : d.MemOk) : (d.drwAction c commit).MemOk := by
  unfold Dev.drwAction
  split
  · exact memOk_ite h (memOk_ite (memOk_setDrw (memOk_closeMirrors h)) (memOk_closeStep h))
  · exact h

theorem memOk_loseDrawer {c n} (h : d.MemOk) : (d.loseDrawer c n).MemOk :=
  memOk_ite h <| memOk_ite (memOk_loseCabinet (memOk_unitDiscard (memOk_drwNote h))) <|
    memOk_forwardAll (memOk_setDrw (memOk_updStk (memOk_unitDiscard (memOk_drwNote h)) id))

theorem memOk_adjustCeiling {c step mw} (h : d.MemOk) : (adjustCeiling d c step mw).MemOk :=
  memOk_ite h (memOk_ite (memOk_setDrw h) (memOk_ite (memOk_setDrw h) h))

end Sys2Proof.Machine
end

/-! ## The fault log and the ports keep the stores -/

section
namespace Sys2Proof.Machine
variable {d : Dev}

theorem memOk_logTake {r} (h : d.MemOk) : (d.logTake r).1.MemOk :=
  memOk_ite_fst (memOk_telemetry h) h

theorem memOk_logSelector {a r} (h : d.MemOk) : (d.logSelector a r).MemOk :=
  memOk_ite (memOk_unitRecord h) h

theorem memOk_faultLogRecord (h : d.MemOk) : (faultLogRecord d).MemOk := by
  unfold faultLogRecord
  split
  · exact h
  · exact memOk_ite (memOk_logTake h) <| memOk_ite (memOk_logSelector (memOk_logTake h)) <|
      memOk_ite (memOk_interrupt (memOk_putUnit (memOk_logTake h))) <|
      memOk_putUnit (memOk_logTake h)

theorem memOk_logSettle (h : d.MemOk) : (d.logSettle).MemOk :=
  memOk_foldl h fun _ _ he => memOk_ite (memOk_logTake he) he

theorem memOk_writeHmbBase {v} (h : d.MemOk) : (writeHmbBase v d).1.MemOk := memOk_ite_fst h h

theorem memOk_writeHmbHead {v} (h : d.MemOk) : (writeHmbHead v d).1.MemOk := memOk_ite_fst h h

theorem memOk_writeHmbCtl {v} (h : d.MemOk) : (writeHmbCtl v d).1.MemOk := h

theorem memOk_writeFlogBase {v} (h : d.MemOk) : (writeFlogBase v d).1.MemOk := memOk_ite_fst h h

theorem memOk_writeFlogHead {v} (h : d.MemOk) : (writeFlogHead v d).1.MemOk := memOk_ite_fst h h

theorem memOk_writeFlogCtl {v} (h : d.MemOk) : (writeFlogCtl v d).1.MemOk := h

theorem memOk_modPort {p f} (h : d.MemOk) : (d.modPort p f).MemOk := memOk_setPort h

theorem memOk_portRecord {p code n} (h : d.MemOk) : (d.portRecord p code n).MemOk :=
  memOk_unitRecord h

theorem memOk_moveRoutes {p} (h : d.MemOk) : (d.moveRoutes p).MemOk := h

theorem memOk_failPort {p st} (h : d.MemOk) : (d.failPort p st).MemOk :=
  memOk_unitDiscard (memOk_moveRoutes (memOk_with (memOk_setPort h)))

theorem memOk_takeDown {p st} (h : d.MemOk) : (d.takeDown p st).MemOk :=
  memOk_ite (memOk_failPort h) (memOk_setPort h)

theorem memOk_dropLanes {p lanes} (h : d.MemOk) : (d.dropLanes p lanes).MemOk := by
  unfold Dev.dropLanes
  extract_lets x bad
  split
  · exact h
  · rename_i e left _
    have he : e.MemOk := memOk_foldl h fun _ _ hx => memOk_portRecord hx
    exact memOk_ite (memOk_failPort (memOk_setPort he)) (memOk_voidFloor (memOk_setPort he))

theorem memOk_laneDrop {p lane} (h : d.MemOk) : (laneDrop d p lane).MemOk := memOk_dropLanes h

theorem memOk_laneLockLoss {p lanes} (h : d.MemOk) : (laneLockLoss d p lanes).MemOk :=
  memOk_ite h (memOk_ite (memOk_failPort h) (memOk_dropLanes h))

theorem memOk_takeAck {p ack} (h : d.MemOk) : (d.takeAck p ack).MemOk :=
  memOk_ite (memOk_setPort h) (memOk_fresh (memOk_setPort h))

theorem memOk_nak {p ackSeq} (h : d.MemOk) : (nak d p ackSeq).MemOk :=
  memOk_ite (memOk_modPort (memOk_takeAck h)) h

theorem memOk_replayTimeout {p} (h : d.MemOk) : (replayTimeout d p).MemOk :=
  memOk_ite h (memOk_ite (memOk_failPort (memOk_setPort h)) (memOk_setPort h))

theorem memOk_protocol {p} (h : d.MemOk) : (d.protocol p).MemOk :=
  memOk_ite (memOk_failPort (memOk_setPort h)) (memOk_setPort h)

theorem memOk_countDropped {p} (h : d.MemOk) : (d.countDropped p).MemOk := memOk_modPort h

theorem memOk_tellAuth {p} (h : d.MemOk) : (d.tellAuth p).MemOk :=
  memOk_ite h (memOk_portRecord (memOk_modPort h))

theorem memOk_tellRate {p} (h : d.MemOk) : (d.tellRate p).MemOk :=
  memOk_ite h (memOk_portRecord (memOk_modPort h))

theorem memOk_rxMessage {p hd m} (h : d.MemOk) : (d.rxMessage p hd m).MemOk := by
  refine memOk_ite (memOk_protocol h) <|
    memOk_ite (memOk_countDropped h) <| memOk_ite (memOk_countDropped h) <|
    memOk_ite ?_ (memOk_ite (memOk_portRecord (memOk_countDropped h)) h)
  split
  · exact memOk_pushMsg h
  · exact memOk_portRecord (memOk_countDropped h)

theorem memOk_rxWhole {p hd ps} (h : d.MemOk) : (d.rxWhole p hd ps).MemOk :=
  memOk_ite (memOk_setPort h) (memOk_rxMessage (memOk_ite h (memOk_fresh (memOk_setPort h))))

theorem memOk_rxMsgFlit {p f} (h : d.MemOk) : (d.rxMsgFlit p f).MemOk := by
  unfold Dev.rxMsgFlit
  extract_lets x drop e y
  have he : e.MemOk := memOk_ite h <| memOk_ite (memOk_modPort (memOk_protocol h)) <|
    memOk_ite (memOk_modPort (memOk_tellAuth (memOk_countDropped h))) <|
    memOk_ite (memOk_modPort (memOk_tellRate (memOk_countDropped h))) (memOk_modPort h)
  clear_value e
  refine memOk_ite he ?_
  split
  · exact he
  · split
    · exact memOk_setPort he
    · exact memOk_ite (memOk_setPort he) (memOk_rxWhole (memOk_setPort he))

theorem memOk_onward {f} (h : d.MemOk) : (d.onward f).MemOk := by
  refine memOk_ite h ?_
  split
  · exact memOk_modPort h
  · exact h

theorem memOk_rxFlit {p f} (h : d.MemOk) : (d.rxFlit p f).MemOk :=
  memOk_ite h <| memOk_ite (memOk_rxMsgFlit h) <| memOk_ite (memOk_protocol h) <|
    memOk_ite (memOk_setPort h) <| memOk_ite (memOk_tellAuth (memOk_countDropped h)) <|
    memOk_ite (memOk_tellRate (memOk_countDropped (memOk_setPort h))) <|
    memOk_onward (memOk_setPort h)

theorem memOk_badFrame {p awaited lanes} (h : d.MemOk) : (d.badFrame p awaited lanes).MemOk := by
  refine memOk_ite h ?_
  split
  · exact memOk_dropLanes (memOk_setPort h)
  · exact memOk_setPort h

theorem memOk_takeControl {p f} (h : d.MemOk) : (d.takeControl p f).MemOk :=
  memOk_ite (memOk_modPort (memOk_takeAck (memOk_setPort h))) (memOk_takeAck (memOk_setPort h))

theorem memOk_goodFrame {p f pieces} (h : d.MemOk) : (d.goodFrame p f pieces).MemOk := by
  unfold Dev.goodFrame
  extract_lets x fseq fs e₁ e₂
  have h₁ : e₁.MemOk := memOk_modPort (memOk_takeControl h)
  have h₂ : e₂.MemOk := memOk_foldl h₁ fun _ _ he => memOk_rxFlit he
  exact memOk_ite (memOk_ite (memOk_modPort h₂) h₂) <|
    memOk_ite (memOk_ite (memOk_takeControl h) h) (memOk_ite h (memOk_protocol h))

theorem memOk_frameReceive {p f errors pieces} (h : d.MemOk) :
    (frameReceive d p f errors pieces).MemOk :=
  memOk_ite h (memOk_ite (memOk_goodFrame h) (memOk_badFrame h))

theorem memOk_rateWindowRestart {p} (h : d.MemOk) : (rateWindowRestart d p).MemOk := memOk_modPort h

theorem memOk_authFail {p} (h : d.MemOk) : (d.authFail p).MemOk :=
  memOk_portRecord (memOk_setPort h)

theorem memOk_authenticate {p q} (h : d.MemOk) : (d.authenticate p q).MemOk := by
  refine memOk_ite (memOk_setPort h) ?_
  have hfresh := memOk_fresh (memOk_fresh h)
  split
  · exact memOk_authFail hfresh
  · refine memOk_ite (memOk_authFail (memOk_setPort hfresh)) (memOk_ite ?_ ?_)
    · exact memOk_setPort (memOk_setPort (memOk_setPort hfresh))
    · exact memOk_authFail (memOk_setPort (memOk_setPort hfresh))

theorem memOk_trainPort {p q} (h : d.MemOk) : (d.trainPort p q).MemOk := by
  refine memOk_ite (memOk_setPort h) ?_
  split
  · exact memOk_portRecord (memOk_setPort h)
  · exact memOk_authenticate (memOk_setPort h)

theorem memOk_trainPcie {q} (h : d.MemOk) : (d.trainPcie q).MemOk := by
  unfold Dev.trainPcie
  split
  · exact h
  · exact memOk_foldl h fun _ _ he => memOk_modPort (memOk_takeDown he)

theorem memOk_trainEndpoint {q} (h : d.MemOk) : (d.trainEndpoint q).MemOk :=
  memOk_ite h (memOk_trainPcie h)

theorem memOk_portTrain {p q} (h : d.MemOk) : (portTrain d p q).MemOk :=
  memOk_ite h (memOk_ite (memOk_trainEndpoint h) (memOk_trainPort h))

theorem memOk_failedPortRetry {p q} (h : d.MemOk) : (failedPortRetry d p q).MemOk :=
  memOk_ite h (memOk_ite (memOk_trainEndpoint h) (memOk_trainPort h))

theorem memOk_authTimeout {p} (h : d.MemOk) : (authTimeout d p).MemOk :=
  memOk_ite h (memOk_ite (memOk_authFail h) h)

theorem memOk_authRetry {p q} (h : d.MemOk) : (authRetry d p q).MemOk :=
  memOk_ite (memOk_authenticate h) h

theorem memOk_retrainPort {p} (h : d.MemOk) : (d.retrainPort p).MemOk :=
  memOk_ite (memOk_foldl h fun _ _ he => memOk_modPort he) (memOk_modPort (memOk_takeDown h))

theorem memOk_portClr {p} (h : d.MemOk) : (portClr d p).MemOk := memOk_modPort h

theorem memOk_disablePort {p} (h : d.MemOk) : (d.disablePort p).MemOk :=
  memOk_takeDown (memOk_ite (memOk_foldl h fun _ _ he => memOk_modPort he) h)

theorem memOk_writePortCtl {p v} (h : d.MemOk) : (writePortCtl p v d).1.MemOk := by
  unfold writePortCtl
  extract_lets x was now e e₁ e₂
  have he : e.MemOk := memOk_setPort h
  have h₁ : e₁.MemOk := memOk_ite (memOk_portClr he) he
  have h₂ : e₂.MemOk := memOk_ite (memOk_disablePort h₁) (memOk_ite (memOk_modPort h₁) h₁)
  exact memOk_ite (memOk_retrainPort h₂) h₂

end Sys2Proof.Machine
end

/-! ## Bench control keeps the stores -/

section
namespace Sys2Proof.Machine
variable {d : Dev}

theorem memOk_benchHaltReq {k} (h : d.MemOk) : (benchHaltReq k d).MemOk :=
  memOk_ite h <|
    memOk_ite (memOk_noteHalt (memOk_setBench h (memOk_bench h))) (memOk_setBench h (memOk_bench h))

theorem memOk_benchResume {k} (h : d.MemOk) : (benchResume k d).MemOk :=
  memOk_ite (memOk_setBench h (memOk_bench h)) h

theorem benchOk_restore {b : Bench} (h : b.MemOk) : (b.restore).MemOk := h

theorem memOk_benchClearFault {k} (h : d.MemOk) : (benchClearFault k d).MemOk :=
  memOk_ite (memOk_tellHeld (memOk_setBench h (benchOk_restore (memOk_bench h)))) h

theorem memOk_benchInboxFlush {k} (h : d.MemOk) : (benchInboxFlush k d).MemOk :=
  memOk_ite (memOk_setBench h (benchOk_dropMsgs (memOk_bench h))) h

theorem memOk_benchClrCounts {k} (h : d.MemOk) : (benchClrCounts k d).MemOk :=
  memOk_modBench h fun _ hb => hb

theorem memOk_writeBenchCtl {k v} (h : d.MemOk) : (writeBenchCtl k v d).1.MemOk :=
  memOk_actBit (memOk_actBit (memOk_actBit (memOk_actBit (memOk_actBit h
    fun _ => memOk_benchClrCounts) fun _ => memOk_benchInboxFlush) fun _ => memOk_benchClearFault)
    fun _ => memOk_benchResume) fun _ => memOk_benchHaltReq

theorem memOk_writeInboxQ {k q v} (h : d.MemOk) : (writeInboxQ k q v d).1.MemOk := by
  unfold writeInboxQ
  extract_lets b old cap others free tooMuch busy _ b₁ b₂ e off
  have hb : b₂.MemOk :=
    benchOk_ite (benchOk_writeEpoch (memOk_bench h)) (benchOk_writeEpoch (memOk_bench h))
  have he : e.MemOk := memOk_setBench h hb
  exact memOk_ite (memOk_regRefused he) (memOk_ite (memOk_regRefused he) he)

theorem memOk_benchFaultRead {k} (h : d.MemOk) : (benchFaultRead k d).MemOk :=
  memOk_modBench h fun _ hb => hb

theorem memOk_writeBenchFault {k v} (h : d.MemOk) : (writeBenchFault k v d).1.MemOk :=
  memOk_ite (memOk_modBench h fun _ hb => hb) h

theorem memOk_matClrCounts {k} (h : d.MemOk) : (matClrCounts k d).MemOk :=
  memOk_modBench h fun _ hb => hb

theorem memOk_copyClrCounts {k} (h : d.MemOk) : (copyClrCounts k d).MemOk :=
  memOk_modBench h fun _ hb => hb

theorem memOk_shelfClrCounts {k} (h : d.MemOk) : (shelfClrCounts k d).MemOk :=
  memOk_modBench h fun _ hb => hb

theorem memOk_retryShelf {k p} (h : d.MemOk) : (retryShelf k p d).MemOk := by
  unfold retryShelf
  split
  · exact memOk_ite (memOk_execBundle h) h
  · exact h

theorem memOk_admitMpush {k} (h : d.MemOk) : (admitMpush k d).MemOk :=
  memOk_ite (memOk_retryShelf h) h

theorem memOk_vpopRows {k} (h : d.MemOk) : (vpopRows k d).MemOk := memOk_ite h (memOk_retryShelf h)

theorem memOk_shelfFlush {k} (h : d.MemOk) : (shelfFlush k d).MemOk :=
  memOk_ite (memOk_benchFault (memOk_admitMpush (memOk_setBench h (memOk_bench h)))) <|
    memOk_admitMpush (memOk_setBench h (memOk_bench h))

theorem memOk_writeShelfCtl {k v} (h : d.MemOk) : (writeShelfCtl k v d).1.MemOk := by
  unfold writeShelfCtl
  extract_lets b free e₁ e₂
  have h₁ : e₁.MemOk := memOk_ite (memOk_shelfClrCounts h) h
  have h₂ : e₂.MemOk :=
    memOk_ite h₁ (memOk_ite (memOk_modBench h₁ fun _ hb => hb) (memOk_regRefused h₁))
  exact memOk_ite (memOk_shelfFlush h₂) h₂

theorem memOk_writeShelfStatus {k v} (h : d.MemOk) : (writeShelfStatus k v d).1.MemOk :=
  memOk_ite (memOk_modBench h fun _ hb => hb) h

theorem memOk_writeTraceCtl {k v armHalf} (h : d.MemOk) : (writeTraceCtl k v armHalf d).1.MemOk :=
  memOk_modBench h fun _ hb => hb

theorem benchOk_mark {b : Bench} (h : b.MemOk) : (b.mark).MemOk := h

theorem memOk_release {k} (h : d.MemOk) : (d.release k).MemOk := by
  refine memOk_modBench ?_ fun _ hb => benchOk_mark hb
  split
  · exact memOk_setBench h (memOk_bench h)
  · exact memOk_retire (memOk_modBench (memOk_waitEnds h) fun _ hb => hb)
  · exact memOk_modBench (memOk_trace h) fun _ hb => hb
  · exact h

theorem benchOk_discardStep {b : Bench} {step} (h : b.MemOk) : (b.discardStep step).MemOk :=
  benchOk_ite h h

theorem memOk_benchStepDiscard {k} (h : d.MemOk) : (benchStepDiscard k d).MemOk := by
  refine memOk_ite (memOk_ite (memOk_trace (memOk_modBench ?_ fun _ hb => benchOk_discardStep hb))
    (memOk_modBench ?_ fun _ hb => benchOk_discardStep hb)) h
  · split
    · exact memOk_waitEnds h
    · exact h
  · split
    · exact memOk_waitEnds h
    · exact h

end Sys2Proof.Machine
end

/-! ## The sequencer keeps the stores -/

section
namespace Sys2Proof.Machine
variable {d : Dev}

theorem memOk_addRecord {hd body frees} (h : d.MemOk) : (d.addRecord hd body frees).MemOk := h

theorem memOk_notice {n code cmd arg} (h : d.MemOk) : (d.notice n code cmd arg).MemOk :=
  memOk_addRecord h

theorem memOk_unref {handle} (h : d.MemOk) : (d.unref handle).MemOk := by
  unfold Dev.unref
  split
  · exact h
  · exact memOk_ite (memOk_notice h) h

theorem memOk_setRq {i r} (h : d.MemOk) : (d.setRq i r).MemOk := h

theorem memOk_putRecord {hd body frees} (h : d.MemOk) : (d.putRecord hd body frees).MemOk :=
  memOk_foldl (memOk_addRecord h) fun _ _ he => memOk_unref (memOk_setRq he)

theorem memOk_writeRecord {r} (h : d.MemOk) : (d.writeRecord r).MemOk :=
  memOk_ite (memOk_interrupt (memOk_foldl h fun _ _ he => memOk_putUnit he)) <|
    memOk_foldl h fun _ _ he => memOk_putUnit he

theorem memOk_writeRecords {rs} (h : d.MemOk) : (d.writeRecords rs).MemOk := by
  induction rs generalizing d with
  | nil => exact h
  | cons r t ih => exact memOk_ite (ih (memOk_writeRecord h)) h

theorem memOk_flush (h : d.MemOk) : (d.flush).MemOk :=
  memOk_ite h (memOk_tellActed (memOk_writeRecords h))

theorem memOk_readIds {a n e ids} (h : d.MemOk) (hread : d.readIds a n = some (e, ids)) :
    e.MemOk := by
  unfold Dev.readIds at hread
  split at hread
  · cases hread
  · cases hread
    exact memOk_readUnit h

theorem memOk_readChunks {fs} (h : d.MemOk) : (d.readChunks fs).1.MemOk := by
  induction fs generalizing d with
  | nil => exact h
  | cons f t ih =>
    unfold Dev.readChunks
    dsimp only
    split
    · exact h
    · rename_i hids
      have he := memOk_readIds h hids
      split
      · exact he
      · split
        · rename_i hchunks
          exact memOk_of_fst hchunks (ih he)
        · rename_i hchunks
          exact memOk_of_fst hchunks (ih he)

theorem memOk_chooseStep {n k excl} (h : d.MemOk) : (d.chooseStep n k excl).1.MemOk := by
  induction k generalizing d excl with
  | zero => exact h
  | succ k ih =>
    unfold Dev.chooseStep
    split
    · exact h
    · split
      · rename_i hchunks
        exact ih (memOk_of_fst hchunks (memOk_readChunks h))
      · rename_i hchunks
        exact memOk_of_fst hchunks (memOk_readChunks h)

theorem memOk_writeSlots {table} (h : d.MemOk) : (d.writeSlots table).MemOk := by
  refine memOk_foldl h fun _ _ he => memOk_ite (memOk_updSb (memOk_arrive he) fun hx => ?_) ?_
  · exact Mem.wf_store _ _ _ hx
  · exact memOk_arrive he

theorem memOk_releaseAll (h : d.MemOk) : (d.releaseAll).MemOk :=
  memOk_foldl h fun _ _ he => memOk_release he

theorem memOk_applyRestore (h : d.MemOk) : (d.applyRestore).MemOk := memOk_ite h h

theorem memOk_sendTables {n template table} (h : d.MemOk) : (d.sendTables n template table).MemOk :=
  memOk_ite h h

theorem memOk_begin_ {n template table run} (h : d.MemOk) : (d.begin_ n template table run).MemOk :=
  memOk_releaseAll (memOk_sendTables (memOk_writeSlots h))

theorem memOk_markRetired {rs} (h : d.MemOk) : (d.markRetired rs).MemOk :=
  memOk_foldl h fun _ _ he => memOk_setRq he

theorem memOk_waitRoom {n} (h : d.MemOk) : (d.waitRoom n).MemOk := h

theorem memOk_waitCmd {n} (h : d.MemOk) : (d.waitCmd n).MemOk := h

theorem memOk_stepAdmission (h : d.MemOk) : (stepAdmission d).MemOk := by
  refine memOk_ite h ?_
  have hr : d.applyRestore.MemOk := memOk_applyRestore h
  extract_lets e n
  split
  rename_i hchoice
  have hf := memOk_of_fst hchoice (memOk_chooseStep hr)
  refine memOk_ite hr ?_
  extract_lets gone slow
  split
  · split
    · exact hr
    · exact memOk_ite hr (memOk_begin_ (memOk_markRetired hf))
  · refine memOk_ite (memOk_ite hr (memOk_begin_ (memOk_markRetired hf))) ?_
    exact memOk_ite hr (memOk_ite hr (memOk_flush (memOk_putRecord (memOk_with hf))))

theorem memOk_seatEpoch {seat q e} (h : d.MemOk) : (d.seatEpoch seat q e).MemOk :=
  memOk_ite (memOk_modBench h fun _ hb => benchOk_writeEpoch hb) h

theorem memOk_seqSend {m} (h : d.MemOk) : (d.seqSend m).MemOk := by
  refine memOk_ite h ?_
  split
  · exact memOk_emit h
  · exact memOk_unitRecord h

theorem memOk_dispatch {seat q task args} (h : d.MemOk) : (d.dispatch seat q task args).1.MemOk :=
  memOk_seqSend (memOk_seatEpoch h)

theorem memOk_sendEnds {ks} (h : d.MemOk) : (d.sendEnds ks).MemOk := by
  induction ks generalizing d with
  | nil => exact h
  | cons k t ih =>
    unfold Dev.sendEnds
    split
    · exact h
    · split
      · exact memOk_ite (ih h) (ih (memOk_with (memOk_dispatch h)))
      · exact ih h

theorem memOk_tileCheck (h : d.MemOk) : (d.tileCheck).MemOk := by
  unfold Dev.tileCheck
  split
  · exact h
  · exact memOk_ite h (memOk_sendEnds h)

theorem memOk_tileDispatch (h : d.MemOk) : (tileDispatch d).MemOk := by
  unfold tileDispatch
  split
  · exact h
  · refine memOk_ite h ?_
    split
    · exact h
    · split
      · exact h
      · exact memOk_ite (memOk_waitRoom h) (memOk_tileCheck (memOk_dispatch h))

theorem memOk_takeSeq {src p} (h : d.MemOk) : (d.takeSeq src p).1.MemOk := by
  unfold Dev.takeSeq
  split
  · exact h
  · exact memOk_ite_fst (memOk_arrive h) (memOk_arrive h)

theorem memOk_tileCompletion {src} (h : d.MemOk) : (tileCompletion d src).MemOk := by
  unfold tileCompletion
  split
  · rename_i hnone
    exact memOk_of_fst hnone (memOk_takeSeq h)
  · rename_i hsome
    have he := memOk_of_fst hsome (memOk_takeSeq h)
    dsimp only
    split
    · exact memOk_ite he he
    · split
      · exact memOk_tileCheck (memOk_with he)
      · exact memOk_ite (memOk_tileCheck (memOk_with he)) he

theorem memOk_abandonWith {code} (h : d.MemOk) : (d.abandonWith code).MemOk := by
  unfold Dev.abandonWith
  split <;> exact h

theorem memOk_badReport (h : d.MemOk) : (d.badReport).MemOk :=
  memOk_abandonWith (memOk_unitRecord h)

theorem memOk_tokenReport {src} (h : d.MemOk) : (tokenReport d src).MemOk := by
  unfold tokenReport
  split
  · rename_i hnone
    exact memOk_of_fst hnone (memOk_takeSeq h)
  · rename_i hsome
    have he := memOk_of_fst hsome (memOk_takeSeq h)
    dsimp only
    split
    · exact he
    · refine memOk_ite he ?_
      split
      · exact he
      · exact memOk_badReport he

theorem memOk_unuse {k} (h : d.MemOk) : (d.unuse k).MemOk :=
  memOk_setDom (memOk_fresh (memOk_updBench h fun hx => ⟨rfl, hx.2.1, hx.2.2⟩))

theorem memOk_dropPlan {st lose} (h : d.MemOk) : (d.dropPlan st lose).MemOk := by
  unfold Dev.dropPlan
  extract_lets cabs e₁ e₂ e₃
  have h₁ : e₁.MemOk := memOk_foldl h fun _ _ he => memOk_unuse he
  have h₂ : e₂.MemOk :=
    memOk_ite (memOk_foldl h₁ fun _ _ he => memOk_fresh (memOk_setSb he rfl)) h₁
  have h₃ : e₃.MemOk := memOk_foldl h₂ fun _ _ he => memOk_updSb (memOk_setDrw he) id
  exact memOk_with h₃

theorem memOk_retireAll (h : d.MemOk) : (d.retireAll).MemOk :=
  memOk_ite (memOk_waitCmd h) (memOk_flush (memOk_putRecord h))

theorem memOk_endUnload (h : d.MemOk) : (d.endUnload).MemOk :=
  memOk_ite h <|
    memOk_ite (memOk_dropPlan h) <| memOk_ite h <| memOk_ite (memOk_ite h (memOk_retireAll h)) <|
    memOk_dropPlan (memOk_ite h (memOk_retireAll h))

theorem memOk_sendDecision {commit} (h : d.MemOk) : (d.sendDecision commit).MemOk := by
  unfold Dev.sendDecision
  extract_lets n e ds suite seq f
  have he : e.MemOk :=
    memOk_foldl h fun _ _ hx => memOk_ite (memOk_closeMirrors hx) (memOk_setDrw hx)
  have hf : f.MemOk := memOk_ite (memOk_with he) (memOk_with he)
  exact memOk_ite hf (memOk_foldl hf fun _ _ hx => memOk_modBench hx fun _ hb => hb)

theorem memOk_freeAdapters (h : d.MemOk) : (d.freeAdapters).MemOk :=
  memOk_foldl h fun _ _ he => memOk_ite he (memOk_notice he)

theorem memOk_finishStep {run abandon} (h : d.MemOk) : (d.finishStep run abandon).MemOk :=
  memOk_endUnload <| memOk_flush <| memOk_applyRestore <| memOk_freeAdapters <|
    memOk_putRecord (memOk_sendDecision (memOk_foldl h fun _ _ he => memOk_setRq he))

theorem memOk_stepCommitDecision (h : d.MemOk) : (stepCommitDecision d).MemOk := by
  unfold stepCommitDecision
  split
  · exact h
  · refine memOk_ite h ?_
    split
    · exact memOk_finishStep h
    · exact memOk_ite h (memOk_ite (memOk_finishStep (memOk_badReport h)) (memOk_finishStep h))

theorem memOk_tellDiscard {code} (h : d.MemOk) : (d.tellDiscard code).MemOk :=
  memOk_ite h (memOk_tell h)

theorem memOk_stepDiscard (h : d.MemOk) : (stepDiscard d).MemOk := by
  unfold stepDiscard
  split
  · exact h
  · exact memOk_tellHeld (memOk_abandonWith (memOk_tellDiscard h))

theorem memOk_heedWord (h : d.MemOk) : (d.heedWord).MemOk := by
  unfold Dev.heedWord
  split
  · exact h
  · split
    · exact memOk_ite h (memOk_voidFloor (memOk_begin_ (memOk_applyRestore h)))
    · exact memOk_ite (memOk_ite (memOk_flush h) h) <|
        memOk_ite h (memOk_ite h (memOk_flush (memOk_applyRestore (memOk_sendDecision h))))

theorem memOk_heedLeader (h : d.MemOk) : (d.heedLeader).MemOk :=
  memOk_foldl h fun _ _ he => memOk_heedWord he

theorem memOk_settle (h : d.MemOk) : (d.settle).MemOk :=
  memOk_endUnload (memOk_heedLeader (memOk_flush h))

theorem memOk_drwCommit {c commit} (h : d.MemOk) : (drwCommit d c commit).MemOk :=
  memOk_settle (memOk_drwAction h)

theorem memOk_benchDiscard {k} (h : d.MemOk) : (benchDiscard k d).MemOk :=
  memOk_settle (memOk_benchStepDiscard h)

theorem memOk_stepWatchdogExpiry {task} (h : d.MemOk) : (stepWatchdogExpiry d task).MemOk := by
  unfold stepWatchdogExpiry
  split
  · exact h
  · exact memOk_ite h (memOk_with (memOk_abandonWith (memOk_unitRecord h)))
  · split
    · exact h
    · exact memOk_ite h (memOk_tileCheck (memOk_with (memOk_unitRecord h)))

theorem memOk_leaderSays {w} (h : d.MemOk) : (leaderSays d w).MemOk :=
  memOk_ite h (memOk_endUnload (memOk_heedLeader h))

theorem memOk_followerSlotTable {step template table} (h : d.MemOk) :
    (followerSlotTable d step template table).MemOk := memOk_leaderSays h

theorem memOk_followerDecision {step commit} (h : d.MemOk) :
    (followerDecision d step commit).MemOk := memOk_leaderSays h

theorem memOk_followerEnded {dev n fault floorVoid} (h : d.MemOk) :
    (d.followerEnded dev n fault floorVoid).MemOk := by
  unfold Dev.followerEnded
  split
  · exact memOk_ite h (memOk_abandonWith h)
  · exact memOk_ite h h

theorem memOk_followerVoid {n b} (h : d.MemOk) : (d.followerVoid n b).MemOk :=
  memOk_ite (memOk_voidFloor h) h

theorem memOk_followerReport {dev n tell} (h : d.MemOk) : (followerReport d dev n tell).MemOk := by
  refine memOk_ite h ?_
  split
  · exact memOk_followerEnded h
  · exact memOk_ite (memOk_abandonBare h) (memOk_abandonWith h)
  · exact memOk_followerVoid h
  · exact memOk_ite (memOk_endUnload (memOk_flush h)) h
  · exact h

theorem memOk_refuseCmd {cmd code e} (h : d.MemOk) : (d.refuseCmd cmd code e).MemOk :=
  memOk_notice h

theorem memOk_ringCommand {op} {m : CmdMeaning}
    (hm : ∀ (e : Dev) (bytes : List Byte), e.MemOk → (m.act e bytes).MemOk) (h : d.MemOk) :
    (ringCommand op m d).MemOk := by
  unfold ringCommand
  extract_lets q
  split
  · exact h
  · split
    rename_i hread
    have he := memOk_of_fst hread (memOk_readUnit h)
    refine memOk_ite h (memOk_ite h (memOk_flush (memOk_tileCheck ?_)))
    exact memOk_ite (hm _ _ (memOk_with he)) (memOk_refuseCmd (memOk_with he))

theorem memOk_submit (h : d.MemOk) : (submit d).MemOk := memOk_ringCommand (fun _ _ he => he) h

theorem memOk_ready (h : d.MemOk) : (ready d).MemOk := memOk_ringCommand (fun _ _ he => he) h

theorem memOk_reissue (h : d.MemOk) : (reissue d).MemOk := memOk_ringCommand (fun _ _ he => he) h

theorem memOk_retireNow {i status} (h : d.MemOk) : (d.retireNow i status).MemOk := memOk_putRecord h

theorem memOk_cancel (h : d.MemOk) : (cancel d).MemOk :=
  memOk_ringCommand (fun _ _ he => memOk_ite (memOk_setRq he) (memOk_retireNow he)) h

theorem memOk_deadline (h : d.MemOk) : (deadline d).MemOk :=
  memOk_ringCommand
    (fun _ _ he => memOk_ite (memOk_retireNow (memOk_setRq he)) (memOk_setRq he)) h

theorem memOk_prefixDefine (h : d.MemOk) : (prefixDefine d).MemOk :=
  memOk_ringCommand (fun _ _ he => he) h

theorem memOk_prefixRelease (h : d.MemOk) : (prefixRelease d).MemOk := by
  refine memOk_ringCommand (fun e bytes he => ?_) h
  unfold prefixReleaseMeaning
  dsimp only
  split
  · exact he
  · exact memOk_ite (memOk_notice (memOk_with he)) he

theorem memOk_adapterLoad (h : d.MemOk) : (adapterLoad d).MemOk := by
  refine memOk_ringCommand (fun e bytes he => ?_) h
  unfold adapterLoadMeaning
  dsimp only
  split
  · exact he
  · exact memOk_ite he (memOk_freeAdapters (memOk_with he))

theorem memOk_tile (h : d.MemOk) : (tile d).MemOk := memOk_ringCommand (fun _ _ he => he) h

theorem memOk_tileCancel (h : d.MemOk) : (tileCancel d).MemOk := by
  refine memOk_ringCommand (fun e bytes he => ?_) h
  unfold tileCancelMeaning
  dsimp only
  split
  · exact he
  · exact memOk_putRecord (memOk_with he)

theorem memOk_badOpcode (h : d.MemOk) : (badOpcode d).MemOk :=
  memOk_ringCommand (fun _ _ he => he) h

theorem memOk_badDoorbell (h : d.MemOk) : (d.badDoorbell).MemOk := memOk_unitRecord h

theorem memOk_writeCmdTail {v} (h : d.MemOk) : (writeCmdTail d v).MemOk :=
  memOk_ite (memOk_badDoorbell h) h

theorem memOk_writeResultHead {v} (h : d.MemOk) : (writeResultHead d v).MemOk :=
  memOk_ite (memOk_badDoorbell h) (memOk_endUnload (memOk_flush h))

theorem memOk_planStart (h : d.MemOk) : (planStart d).MemOk :=
  memOk_ite h (memOk_ite (memOk_heedLeader h) (memOk_unitRecord h))

theorem memOk_planUnload (h : d.MemOk) : (planUnload d).MemOk := by
  unfold planUnload
  split
  · exact h
  · exact h
  · exact memOk_dropPlan (memOk_unitRecord h)
  · exact memOk_dropPlan h
  · exact h
  · exact memOk_endUnload (memOk_ite (memOk_abandonBare (memOk_tileCheck h)) (memOk_tileCheck h))

theorem memOk_unloadStepTimeout (h : d.MemOk) : (unloadStepTimeout d).MemOk := by
  unfold unloadStepTimeout
  split
  · exact memOk_ite h (memOk_ite h (memOk_ite (memOk_finishStep h) (memOk_abandonBare h)))
  · exact h

end Sys2Proof.Machine
end

/-! ## Power keeps the stores -/

section
namespace Sys2Proof.Machine
variable {d : Dev}

theorem wfStack_turnOff {s : Stack} : s.turnOff.mem.wf = true := rfl

theorem wfSb_turnOff {s : Sideboard} : s.turnOff.mem.wf = true := rfl

theorem memOk_turnOffPorts {e} (h : d.MemOk) : (d.turnOffPorts e).MemOk :=
  memOk_foldl h fun _ _ he => memOk_modPort he

theorem memOk_turnOffEd0 (h : d.MemOk) : (d.turnOffEd0).MemOk := memOk_logSettle h

theorem memOk_unfill {u} (h : d.MemOk) : (d.unfill u).MemOk := by
  refine memOk_ite h ?_
  split <;> exact memOk_fillEnd h

theorem memOk_lost {id} (h : d.MemOk) : (d.lost id).MemOk := by
  refine memOk_ite ?_ <|
    memOk_ite (memOk_setCab (memOk_unfill (memOk_setDrw (memOk_setSb h wfSb_turnOff)))) <|
    memOk_ite (memOk_setDrw h) <| memOk_ite (memOk_unfill (memOk_setStk h wfStack_turnOff)) <|
    memOk_ite (memOk_turnOffPorts (memOk_turnOffEd0 h)) (memOk_ite (memOk_turnOffPorts h) h)
  split
  · exact memOk_setBench h ⟨rfl, rfl, rfl⟩
  · exact h

theorem memOk_trainStack {s} (h : d.MemOk) : (d.trainStack s).MemOk := by
  refine memOk_foldl (memOk_fresh (memOk_setStk h rfl)) fun e _ he => ?_
  have hset {x : Stack} (hx : x.mem = (e.stk s).mem) : (e.setStk s x).MemOk :=
    memOk_setStk he (hx ▸ wf_stk he)
  exact memOk_ite (memOk_ite (memOk_loseStack (hset rfl)) (hset rfl)) <| memOk_ite he <|
    memOk_ite (memOk_loseStack (hset rfl)) (memOk_unitRecord (hset rfl))

theorem memOk_gained {id bad} (h : d.MemOk) : (d.gained id bad).MemOk := by
  refine memOk_ite ?_ <| memOk_ite (memOk_fresh (memOk_setSb h rfl)) <|
    memOk_ite (memOk_trainStack (memOk_setStk h (wf_stk h))) h
  split
  · exact memOk_fresh (memOk_fresh (memOk_fresh (memOk_setBench h ⟨rfl, rfl, rfl⟩)))
  · exact h

theorem memOk_followCab {c} (h : d.MemOk) : (d.followCab c).MemOk :=
  memOk_ite h (memOk_ite (memOk_setCabSt h) (memOk_ite (memOk_setCabSt h) (memOk_setCabSt h)))

theorem memOk_place {id st bad} (h : d.MemOk) : (d.place id st bad).MemOk :=
  memOk_ite (memOk_lost (memOk_setDom h)) <|
    memOk_ite (memOk_gained (memOk_setDom h)) (memOk_setDom h)

theorem memOk_darken {c} (h : d.MemOk) : (d.darken c).MemOk :=
  memOk_ite h (memOk_foldl h fun _ _ he => memOk_ite he (memOk_place he))

theorem memOk_enter {id st bad} (h : d.MemOk) : (d.enter id st bad).MemOk :=
  memOk_ite (memOk_darken (memOk_followCab (memOk_place h))) (memOk_place h)

theorem memOk_request {id st} (h : d.MemOk) : (d.request id st).MemOk := by
  unfold Dev.request
  extract_lets noPlan e
  have he : e.MemOk := by
    unfold e
    split
    · exact memOk_arrive h
    · exact h
  split
  · exact memOk_setDom he
  · exact memOk_ite he (memOk_setDom he)

theorem memOk_domainEntryComplete {id bad} (h : d.MemOk) :
    (domainEntryComplete d id bad).MemOk := by
  unfold domainEntryComplete
  split
  · exact memOk_ite h (memOk_enter h)
  · exact h

theorem memOk_domainOnComplete {id bad} (h : d.MemOk) : (domainOnComplete d id bad).MemOk := by
  unfold domainOnComplete
  split
  · exact memOk_ite (memOk_enter h) h
  · exact h

theorem memOk_floorCheck (h : d.MemOk) : (d.floorCheck).MemOk :=
  memOk_ite (memOk_voidFloor (memOk_foldl h fun _ _ he => memOk_setDom he)) <|
    memOk_foldl h fun _ _ he => memOk_setDom he

theorem memOk_writeDomCtl {id v} (h : d.MemOk) : (writeDomCtl id v d).1.MemOk := by
  unfold writeDomCtl
  extract_lets m cap req e clear first e₁ e₂ e₃
  have hclear {x : Dev} (hx : x.MemOk) : (clear x).MemOk := memOk_ite (memOk_setDom hx) hx
  have he : e.MemOk := memOk_setDom h
  have h₁ : e₁.MemOk := memOk_ite (hclear he) he
  have h₂ : e₂.MemOk := memOk_ite h₁ (memOk_request h₁)
  have h₃ : e₃.MemOk := memOk_ite h₂ (hclear h₂)
  exact memOk_floorCheck (memOk_ite (memOk_fresh h₃) h₃)

theorem wfStack_restart {s : Stack} : s.restart.mem.wf = true := rfl

/-- With the power gone no bench is left, and every stack and sideboard starts again. -/
theorem memOk_allOff (h : d.MemOk) : d.allOff.MemOk := by
  unfold Dev.allOff
  extract_lets e
  have he : e.MemOk :=
    memOk_foldl (memOk_logSettle h) fun _ _ hx => memOk_ite hx (memOk_setCabSt hx)
  clear_value e
  obtain ⟨-, -, -, hfw⟩ := he
  refine ⟨List.forall_mem_nil _, ?_, ?_, hfw⟩
  · simp only [List.forall_mem_map]
    exact fun _ _ => wfStack_restart
  · simp only [List.forall_mem_map]
    exact fun _ _ => rfl

theorem memOk_setStage {st} (h : d.MemOk) : (d.setStage st).MemOk := memOk_ite h (memOk_telemetry h)

theorem memOk_shutdown {kind id cause} (h : d.MemOk) : (d.shutdown kind id cause).MemOk :=
  memOk_ite h (memOk_setStage (memOk_allOff (memOk_with (memOk_unitRecord h))))

theorem memOk_setRegul {id r} (h : d.MemOk) : (d.setRegul id r).MemOk := h

theorem memOk_failEdgePorts {e} (h : d.MemOk) : (d.failEdgePorts e).MemOk :=
  memOk_foldl (memOk_ite h h) fun _ _ he => memOk_ite he (memOk_failPort he)

theorem memOk_regLimit {id} (h : d.MemOk) : (d.regLimit id).MemOk :=
  memOk_ite (memOk_ite (memOk_unitRecord h) (memOk_shutdown h)) <|
    memOk_ite (memOk_loseCabinet (memOk_unitRecord h)) <|
    memOk_ite (memOk_loseCabinet (memOk_unitRecord h)) <|
    memOk_ite (memOk_loseCabinet (memOk_unitRecord h)) <|
    memOk_ite (memOk_failEdgePorts (memOk_unitRecord h)) <|
    memOk_failEdgePorts (memOk_unitRecord h)

theorem memOk_regulatorSample {id amps} (h : d.MemOk) : (regulatorSample d id amps).MemOk := by
  unfold regulatorSample
  extract_lets r runs live streak gone total e₁ e₂ left
  have h₂ : e₂.MemOk :=
    memOk_foldl (memOk_setRegul h) fun _ _ he => memOk_telemetry (memOk_unitRecord he)
  exact memOk_ite (memOk_regLimit h₂) h₂

theorem memOk_setSensor {id x} (h : d.MemOk) : (d.setSensor id x).MemOk := h

theorem memOk_follow {sensor} (h : d.MemOk) : (d.follow sensor).MemOk := by
  unfold Dev.follow
  split
  · exact memOk_setDom h
  · exact h

theorem memOk_readSensor {id raw} (h : d.MemOk) : (readSensor d id raw).MemOk := by
  unfold readSensor
  extract_lets x good unchecked med2 far streak newly suspect used lvl confirmed
    before e e₁ e₂ e₃ e₄
  have h₁ : e₁.MemOk := memOk_ite (memOk_unitRecord h) h
  have h₂ : e₂.MemOk := memOk_ite (memOk_telemetry h₁) h₁
  have h₃ : e₃.MemOk := memOk_ite (memOk_telemetry h₂) h₂
  have h₄ : e₄.MemOk := memOk_floorCheck (memOk_follow h₃)
  exact memOk_ite (memOk_shutdown h₄) h₄

theorem memOk_suspectClear {id} (h : d.MemOk) : (suspectClear id d).MemOk :=
  memOk_ite (memOk_setSensor h) h

theorem memOk_throttleLoop {id underVolt} (h : d.MemOk) : (throttleLoop d id underVolt).MemOk :=
  memOk_ite h (memOk_floorCheck (memOk_setDom h))

theorem memOk_powerCapLoop {deciAmps} (h : d.MemOk) : (powerCapLoop d deciAmps).MemOk :=
  memOk_floorCheck (memOk_fresh h)

theorem memOk_writePwrCap {v} (h : d.MemOk) : (writePwrCap v d).1.MemOk := memOk_ite_fst h h

theorem memOk_credCommit (h : d.MemOk) : (credCommit d).1.MemOk := by
  unfold credCommit
  dsimp only
  split
  · exact h
  · exact h

end Sys2Proof.Machine
end

/-! ## The suite's traffic keeps the stores -/

section
namespace Sys2Proof.Machine
variable {d : Dev}

theorem memOk_sendSuite {ms} (h : d.MemOk) : (d.sendSuite ms).MemOk := h

theorem memOk_sendDiscover {but head round} (h : d.MemOk) : (d.sendDiscover but head round).MemOk :=
  memOk_sendSuite h

theorem memOk_discover (h : d.MemOk) : (d.discover).MemOk :=
  memOk_ite h (memOk_ite h (memOk_sendDiscover h))

theorem memOk_discoveryStart (h : d.MemOk) : (discoveryStart d).MemOk := memOk_discover h

theorem memOk_namePartners {partners} (h : d.MemOk) : (d.namePartners partners).MemOk :=
  memOk_foldl h fun _ _ he => memOk_modPort he

theorem memOk_assignAll (h : d.MemOk) : d.assignAll.MemOk :=
  memOk_with (memOk_sendSuite (memOk_ite h (memOk_namePartners h)))

theorem memOk_discoveryReport {r} (h : d.MemOk) : (discoveryReport d r).MemOk :=
  memOk_ite h (memOk_ite (memOk_assignAll h) h)

theorem memOk_discoveryReportTimeout (h : d.MemOk) : (discoveryReportTimeout d).MemOk :=
  memOk_ite h (memOk_assignAll h)

theorem memOk_assignAcknowledgement {dev ok} (h : d.MemOk) :
    (assignAcknowledgement d dev ok).MemOk := memOk_ite h h

theorem memOk_discoverMessage {p head round} (h : d.MemOk) :
    (discoverMessage d p head round).MemOk :=
  memOk_ite h (memOk_ite h (memOk_ite h (memOk_ite h (memOk_sendDiscover (memOk_sendSuite h)))))

theorem memOk_assign {number routes partners} (h : d.MemOk) :
    (assign d number routes partners).MemOk :=
  memOk_ite h (memOk_ite (memOk_sendSuite h) (memOk_sendSuite (memOk_namePartners h)))

theorem memOk_restoreRoutes (h : d.MemOk) : (restoreRoutes d).MemOk :=
  memOk_ite h (memOk_applyRestore h)

theorem memOk_writeSuiteCtl {v} (h : d.MemOk) : (writeSuiteCtl v d).1.MemOk := by
  unfold writeSuiteCtl
  split
  rename_i e₁ _ hcommit
  have h₁ : e₁.MemOk := memOk_of_fst hcommit (memOk_ite_fst (memOk_credCommit h) h)
  split
  rename_i e₂ _ hdiscover
  have h₂ : e₂.MemOk := memOk_of_fst hdiscover (memOk_ite_fst (memOk_discover h₁) h₁)
  exact memOk_ite (memOk_restoreRoutes h₂) h₂

end Sys2Proof.Machine
end

/-! ## The firmware copies keep their stores -/

section
namespace Sys2Proof.Machine
variable {d : Dev}

theorem wf_eraseEnds {m : Mem} (h : m.wf = true) : (eraseEnds m).wf = true :=
  Mem.wf_write _ _ (Mem.wf_write _ _ h)

/-! ### The firmware's copies (R459 to R466) -/

/-- Both copies of the firmware that were written keep their bytes in canonical form. -/
def Fw.MemOk (f : Fw) : Prop := f.copyA.MemOk ∧ f.copyB.MemOk

theorem memOk_fw (h : d.MemOk) : d.fw.MemOk := h.2.2.2

theorem fwOk_copy {f : Fw} {b} (h : f.MemOk) : (f.copy b).MemOk := by
  obtain ⟨ha, hb⟩ := h
  unfold Fw.copy
  split
  · exact hb
  · exact ha

theorem fwOk_setCopy {f : Fw} {b im} (h : f.MemOk) (him : im.MemOk) : (f.setCopy b im).MemOk := by
  obtain ⟨ha, hb⟩ := h
  unfold Fw.setCopy
  split
  · exact ⟨ha, him⟩
  · exact ⟨him, hb⟩

theorem memOk_setFw {f} (h : d.MemOk) (hf : f.MemOk) : (d.setFw f).MemOk :=
  ⟨h.1, h.2.1, h.2.2.1, hf⟩

theorem memOk_fwRefuse {code} (h : d.MemOk) : (d.fwRefuse code).1.MemOk :=
  memOk_setFw h (memOk_fw h)

theorem wf_bytes {im : FwImage} {free} (h : im.MemOk) : (im.bytes free).1.wf = true := by
  cases im with
  | delivered => rfl
  | written m torn => exact h

theorem memOk_fwProgram {p} (h : d.MemOk) : (fwProgram d p).1.MemOk := by
  refine memOk_ite_fst (memOk_fwRefuse h) ?_
  have hbytes := wf_bytes (free := d.free) (fwOk_copy (b := !d.boot.copy) (memOk_fw h))
  have hwritten {m : Mem} {k : Nat} {vs torn} (hm : m.wf = true) :
      (FwImage.written (m.write k vs) torn).MemOk := Mem.wf_write _ _ hm
  exact memOk_setFw (memOk_fresh h)
    (fwOk_setCopy (memOk_fw h) (hwritten (wf_ite (wf_eraseEnds hbytes) hbytes)))

theorem memOk_fwFinish {p} (h : d.MemOk) : (fwFinish d p).1.MemOk := by
  refine memOk_ite_fst (memOk_fwRefuse h) (memOk_ite_fst (memOk_fwRefuse h) ?_)
  split
  · exact memOk_fwRefuse (memOk_setFw (memOk_fresh h) (memOk_fw h))
  · exact memOk_setFw (memOk_fresh h) (memOk_fw h)

theorem memOk_fwAbort {p} (h : d.MemOk) : (fwAbort d p).1.MemOk := by
  refine memOk_ite_fst (memOk_fwRefuse h) (memOk_ite_fst h ?_)
  have hbytes := wf_bytes (free := d.free) (fwOk_copy (b := !d.boot.copy) (memOk_fw h))
  exact memOk_setFw (memOk_fresh h) (fwOk_setCopy (memOk_fw h) (wf_eraseEnds hbytes))

theorem memOk_fwAdvance (h : d.MemOk) : (fwAdvance d).1.MemOk :=
  memOk_ite_fst (memOk_fwRefuse h) (memOk_ite_fst (memOk_fwRefuse h) (memOk_setFw h (memOk_fw h)))

theorem memOk_fwRevoke (h : d.MemOk) : (fwRevoke d).1.MemOk := by
  unfold fwRevoke
  extract_lets f
  split
  · exact memOk_fwRefuse h
  · split
    · exact memOk_fwRefuse h
    · exact memOk_setFw h (memOk_fw h)

theorem fwOk_blown {f : Fw} (h : f.MemOk) : f.blown.MemOk := by
  unfold Fw.blown
  split <;> exact h

theorem memOk_fuseOperationComplete (h : d.MemOk) : (fuseOperationComplete d).MemOk :=
  memOk_setFw h (fwOk_blown (memOk_fw h))

theorem memOk_setMap {m} (h : d.MemOk) : (d.setMap m).MemOk := by
  refine memOk_foldl (memOk_foldl h fun _ _ he => ?_) fun _ _ he => memOk_setStk he (wf_stk he)
  split
  · exact memOk_setCab (memOk_setCabSt (memOk_setCab (memOk_setSb (memOk_setDrw he) (wf_sb he))))
  · exact memOk_setCab (memOk_setSb (memOk_setDrw he) (wf_sb he))

theorem memOk_saveCopies {whole} (h : d.MemOk) : (d.saveCopies whole).MemOk :=
  memOk_ite h (memOk_ite (memOk_setFw h (memOk_fw h)) (memOk_ite (memOk_setFw h (memOk_fw h)) h))

theorem memOk_loadCopies (h : d.MemOk) : d.loadCopies.MemOk := by
  refine memOk_ite h (memOk_with ?_)
  cases d.fw.map.newest with
  | none => exact h
  | some g => exact memOk_setMap h

theorem memOk_cutCopies (h : d.MemOk) : (d.cutCopies).MemOk :=
  memOk_fresh (memOk_fresh (memOk_ite (memOk_saveCopies h) h))

theorem memOk_flashOperationComplete (h : d.MemOk) : (flashOperationComplete d).MemOk := by
  unfold flashOperationComplete
  dsimp only
  split
  · exact memOk_setFw h (memOk_fw h)
  · have hbytes := wf_bytes (free := d.free) (fwOk_copy (b := !d.boot.copy) (memOk_fw h))
    exact memOk_setFw (memOk_fresh h) (fwOk_setCopy (memOk_fw h) (Mem.wf_write _ _ hbytes))
  · exact h
  · exact memOk_saveCopies h

theorem fwOk_restart {f : Fw} {running powerOn luck junk} (h : f.MemOk) :
    (f.restart running powerOn luck junk).MemOk := by
  unfold Fw.restart
  extract_lets g
  have hg : g.MemOk := by
    unfold g
    split
    · refine fwOk_setCopy h ?_
      have hcopy := fwOk_copy (b := !running) h
      generalize f.copy (!running) = im at hcopy ⊢
      cases im with
      | delivered => exact hcopy
      | written m torn => exact wf_ite (Mem.wf_write _ _ hcopy) hcopy
    · exact h
    · split
      · exact h
      · exact fwOk_blown h
    · exact h
  exact hg

theorem memOk_writeFwCtl {p v} (h : d.MemOk) : (writeFwCtl p v d).1.MemOk := by
  unfold writeFwCtl
  extract_lets fw e₀ e₁ e₂ e₃ e₄
  have h₀ : e₀.MemOk := h
  have h₁ : e₁.MemOk := memOk_ite (memOk_fwAbort h₀) h₀
  have h₂ : e₂.MemOk := memOk_ite (memOk_fwAdvance h₁) h₁
  have h₃ : e₃.MemOk := memOk_ite (memOk_fwRevoke h₂) h₂
  have h₄ : e₄.MemOk := memOk_ite (memOk_fwProgram h₃) h₃
  exact memOk_ite (memOk_fwFinish h₄) h₄

end Sys2Proof.Machine
end

/-! ## Plans keep the stores -/

section
namespace Sys2Proof.Machine
variable {d : Dev}

theorem memOk_failLoad {code} (h : d.MemOk) : (d.failLoad code).MemOk :=
  memOk_unitRecord (memOk_with (memOk_dropPlan h))

theorem memOk_readPlan {a n e bytes} (h : d.MemOk) (hread : d.readPlan a n = some (e, bytes)) :
    e.MemOk := by
  unfold Dev.readPlan at hread
  split at hread
  · cases hread
  · cases hread
    exact memOk_readUnit h

theorem memOk_benchOn {k} (h : d.MemOk) : (d.benchOn k).MemOk := by
  refine memOk_setDom (memOk_ite (memOk_fresh (memOk_fresh (memOk_fresh ?_))) (memOk_arrive h))
  exact memOk_setBench (memOk_arrive h) ⟨rfl, rfl, rfl⟩

theorem wf_programMem {bytes} : (programMem bytes).wf = true := Mem.wf_write _ _ rfl

theorem memOk_placeInit {m s} (h : d.MemOk) : (d.placeInit m s).MemOk :=
  memOk_ite (memOk_updSb (memOk_arrive h) fun hx => Mem.wf_store _ _ _ hx) <|
    memOk_modBench h fun _ hb => ⟨Mem.wf_store _ _ _ hb.1, hb.2.1, hb.2.2⟩

theorem memOk_readReserve {m c prog} (h : d.MemOk) : (d.readReserve m c prog).1.MemOk :=
  memOk_touchSb (memOk_arrive h)

theorem memOk_placeBench {m e} (h : d.MemOk) : (d.placeBench m e).MemOk := by
  unfold Dev.placeBench
  split
  rename_i hread
  refine memOk_modBench (memOk_of_fst hread (memOk_readReserve (memOk_benchOn h))) fun _ hb => ?_
  exact ⟨hb.1, wf_programMem, hb.2.2⟩

theorem memOk_placeReserve {m c} (h : d.MemOk) : (d.placeReserve m c).MemOk := by
  refine memOk_updSb (memOk_arrive h) fun hx => wf_foldl hx fun _ _ he => ?_
  split
  · exact Mem.wf_store _ _ _ he
  · exact he

theorem memOk_placeRegions {img c} (h : d.MemOk) : (d.placeRegions img c).MemOk := by
  refine memOk_foldl h fun _ _ he => ?_
  split
  · exact memOk_writeAow he
  · exact he

theorem memOk_syncRow {c r} (h : d.MemOk) : (d.syncRow c r).MemOk :=
  memOk_foldl h fun _ _ he => memOk_setDom he

theorem memOk_syncDomains (h : d.MemOk) : d.syncDomains.MemOk := by
  refine memOk_foldl ?_ fun _ _ he => memOk_darken he
  refine memOk_foldl h fun _ _ he => memOk_foldl he fun _ _ hx => ?_
  dsimp only
  split
  · exact memOk_ite hx (memOk_place hx)
  · exact memOk_ite (memOk_place hx) hx

theorem memOk_idleOthers {m} (h : d.MemOk) : (d.idleOthers m).MemOk := by
  refine memOk_foldl h fun _ _ he => memOk_foldl he fun _ _ hx => ?_
  dsimp only
  split
  · exact memOk_ite hx (memOk_place (memOk_ite (memOk_modBench hx fun _ hb => hb) hx))
  · exact memOk_place hx

theorem memOk_loadImage {base} (h : d.MemOk) : (d.loadImage base).MemOk := by
  unfold Dev.loadImage
  split
  · exact memOk_failLoad h
  · rename_i hheader
    have hh := memOk_readPlan h hheader
    extract_lets plan e
    have he : e.MemOk := memOk_ite hh hh
    split
    rename_i himage
    have hf := memOk_of_fst himage (memOk_ite_fst (by
      split
      · rename_i hbody
        exact memOk_readPlan he hbody
      · exact he) he)
    split
    · exact memOk_failLoad hf
    · refine memOk_foldl ?_ fun _ _ hx => memOk_placeInit hx
      refine memOk_foldl ?_ fun _ _ hx => memOk_placeBench hx
      refine memOk_foldl ?_ fun _ _ hx => memOk_placeRegions (memOk_placeReserve hx)
      exact memOk_idleOthers hf

theorem memOk_planLoad (h : d.MemOk) : (planLoad d).MemOk := by
  unfold planLoad
  split
  · exact memOk_unitRecord (memOk_with h)
  · extract_lets base plan e
    have he : e.MemOk := memOk_syncDomains h
    split
    · exact memOk_with he
    · exact memOk_loadImage he

theorem memOk_resumeLoad (h : d.MemOk) : (d.resumeLoad).MemOk := memOk_ite h (memOk_loadImage h)

theorem benchOk_applyEntry {e} {b : Bench} (h : b.MemOk) : (applyEntry e b).MemOk := h

theorem memOk_applyDrw {m c} (h : d.MemOk) : (d.applyDrw m c).MemOk := by
  unfold Dev.applyDrw
  split
  · exact memOk_setDrw h
  · exact h

theorem memOk_planLoadComplete (h : d.MemOk) : (planLoadComplete d).MemOk := by
  refine memOk_ite h (memOk_ite (memOk_failLoad h) ?_)
  split
  · exact memOk_foldl (memOk_foldl h fun _ _ he => memOk_applyDrw he) fun _ _ he =>
      memOk_modBench he fun _ hb => benchOk_applyEntry hb
  · exact memOk_failLoad h

theorem memOk_writePlanBase {v} (h : d.MemOk) : (writePlanBase v d).1.MemOk := memOk_ite_fst h h

theorem memOk_writePlanCtl {v} (h : d.MemOk) : (writePlanCtl v d).1.MemOk :=
  memOk_actBit (memOk_actBit (memOk_actBit h fun _ => memOk_planLoad) fun _ => memOk_planUnload)
    fun _ => memOk_planStart

end Sys2Proof.Machine
end

/-! ## Self-test, bring-up, resets and the sideband keep the stores -/

section
namespace Sys2Proof.Machine
variable {d : Dev}

theorem memOk_sramSpoil {k p s} (h : d.MemOk) : (d.sramSpoil k p s).MemOk := by
  unfold Dev.sramSpoil
  split
  · exact memOk_updBench h fun hx => ⟨Mem.wf_store _ _ _ hx.1, hx.2.1, hx.2.2⟩
  · exact memOk_updBench h fun hx => ⟨hx.1, Mem.wf_store _ _ _ hx.2.1, hx.2.2⟩
  · exact memOk_setBench h (memOk_bench h)
  · split <;> exact h
  · exact memOk_setBench h (memOk_bench h)
  · exact memOk_setBench h (memOk_bench h)
  · exact memOk_setBench h (memOk_bench h)

theorem memOk_sramError {k e} (h : d.MemOk) : (d.sramError k e).MemOk := by
  unfold Dev.sramError
  split
  · exact memOk_ite (memOk_sramSpoil h) h
  · exact h

theorem memOk_journalMark {mark} (h : d.MemOk) : (d.journalMark mark).MemOk := h

theorem memOk_emptyMap (h : d.MemOk) : d.emptyMap.MemOk := by
  obtain ⟨hbench, hstk, hsb, hfw⟩ := h
  refine ⟨hbench, ?_, ?_, hfw⟩
  · simp only [Dev.emptyMap, List.forall_mem_map]
    exact hstk
  · simp only [Dev.emptyMap, List.forall_mem_map]
    exact hsb

theorem memOk_setSteer {c r f} (h : d.MemOk) : (d.setSteer c r f).MemOk := memOk_setCab h

theorem memOk_resteerRow {c r old} (h : d.MemOk) : (d.resteerRow c r old).MemOk := by
  refine memOk_ite h (memOk_foldl h fun _ _ he => ?_)
  dsimp only
  split
  · exact memOk_setDom he
  · exact he
  · exact memOk_ite he (memOk_ite (memOk_setBench he ⟨rfl, rfl, rfl⟩) (memOk_gained he))

theorem memOk_benchTest {c r col} (h : d.MemOk) : (d.benchTest c r col).MemOk := memOk_unitRecord h

theorem memOk_failUnit {u} (h : d.MemOk) : (d.failUnit u).MemOk := by
  cases u with
  | bench =>
    have htest {c r col} : (d.benchTest c r col).MemOk := memOk_benchTest h
    exact memOk_ite (memOk_syncRow (memOk_setSteer htest)) <|
      memOk_ite htest (memOk_loseCabinet (memOk_unitRecord htest))
  | drawer =>
    exact memOk_ite (memOk_unitRecord h) <|
      memOk_ite (memOk_loseCabinet (memOk_unitRecord h)) (memOk_setDrw (memOk_unitRecord h))
  | channel => exact memOk_updStk (memOk_unitRecord h) id
  | sideboard | router => exact memOk_loseCabinet (memOk_unitDiscard (memOk_unitRecord h))
  | port => exact memOk_modPort (memOk_portRecord h)

theorem memOk_selftest {fs} (h : d.MemOk) : (d.selftest fs).MemOk := by
  unfold Dev.selftest
  exact memOk_foldl (memOk_with h) fun _ _ hx => memOk_failUnit hx

theorem memOk_bootAdvance (h : d.MemOk) : (d.bootAdvance).MemOk := memOk_ite (memOk_setStage h) h

theorem benchOk_cabBenches {c} : ∀ p ∈ d.cabBenches c, p.2.MemOk := by
  unfold Dev.cabBenches
  split
  · exact List.forall_mem_nil _
  · simp only [List.forall_mem_map]
    exact fun _ _ => ⟨rfl, rfl, rfl⟩

theorem memOk_startDomains (h : d.MemOk) : d.startDomains.MemOk := by
  unfold Dev.startDomains
  extract_lets e f edges ports doms pwr g
  have he : e.MemOk := by
    obtain ⟨-, hrest⟩ := h
    refine ⟨?_, hrest⟩
    intro p hp
    obtain ⟨c, -, hc⟩ := List.mem_flatMap.1 hp
    exact benchOk_cabBenches p hc
  have hf : f.MemOk := memOk_foldl he fun _ _ hx => memOk_ite hx (memOk_setCabSt hx)
  have hg : g.MemOk := memOk_with hf
  exact memOk_foldl hg fun _ _ hx => memOk_ite hx (memOk_fresh (memOk_setSb hx rfl))

theorem memOk_trainCab {c} (h : d.MemOk) : (d.trainCab c).MemOk :=
  memOk_ite h (memOk_followCab (memOk_setCab (memOk_trainStack (memOk_trainStack h))))

theorem memOk_bringUp {up} (h : d.MemOk) : (d.bringUp up).MemOk := by
  unfold Dev.bringUp
  split
  · exact h
  · extract_lets dom e fw f
    have he : e.MemOk := memOk_setStage (memOk_setDom h)
    have hf : f.MemOk := he
    clear_value f
    split
    · exact memOk_setStage hf
    · split
      · exact memOk_setStage hf
      · rename_i start _ _
        extract_lets g g₁ suite g₃ g₄ g₅ g₆
        have hg : g.MemOk := hf
        have h₁ : g₁.MemOk := memOk_loadCopies (memOk_setStage (memOk_setStage hg))
        have h₃ : g₃.MemOk := h₁
        have h₄ : g₄.MemOk :=
          memOk_selftest (memOk_setStage (memOk_startDomains (memOk_setStage h₃)))
        have h₅ : g₅.MemOk := memOk_foldl h₄ fun _ _ hx => memOk_setStk hx (wf_stk hx)
        have h₆ : g₆.MemOk := memOk_setStage h₅
        exact memOk_bootAdvance (memOk_setStage (memOk_foldl h₆ fun _ _ hx => memOk_trainCab hx))

theorem memOk_checkerSelftestComplete {c fs} (h : d.MemOk) :
    (checkerSelftestComplete d c fs).MemOk :=
  memOk_ite h <| memOk_followCab <|
    memOk_setCab (memOk_foldl (memOk_selftest h) fun _ _ he => memOk_ite he (memOk_trainStack he))

theorem memOk_resetCopies {kind} (h : d.MemOk) : (d.resetCopies kind).MemOk :=
  memOk_ite (memOk_with (memOk_emptyMap h)) (memOk_ite (memOk_emptyMap h) h)

theorem memOk_resetTo {kind} (h : d.MemOk) : (d.resetTo kind).MemOk := by
  unfold Dev.resetTo
  extract_lets warm running e
  have he : e.MemOk := memOk_resetCopies (memOk_setStage (memOk_allOff h))
  clear_value e
  obtain ⟨hbench, hstk, hsb, hfw⟩ := he
  refine memOk_journalMark (memOk_fresh ?_)
  exact ⟨hbench, hstk, hsb, fwOk_restart hfw⟩

theorem memOk_reset_ {kind up} (h : d.MemOk) : (d.reset_ kind up).MemOk :=
  memOk_ite h (memOk_ite (memOk_bringUp h) (memOk_bringUp (memOk_resetTo h)))

theorem memOk_sensorReading {id raw up} (h : d.MemOk) : (sensorReading d id raw up).MemOk := by
  unfold sensorReading
  dsimp only
  split
  · exact memOk_ite (memOk_bringUp (memOk_resetTo (memOk_readSensor h))) (memOk_readSensor h)
  · exact memOk_readSensor h

theorem memOk_warmReset {up} (h : d.MemOk) : (warmReset d up).MemOk := memOk_reset_ h

theorem memOk_vaux33Loss (h : d.MemOk) : (vaux33Loss d).MemOk := memOk_resetTo (memOk_cutCopies h)

theorem memOk_vaux33Rise (h : d.MemOk) : (vaux33Rise d).MemOk := memOk_resetTo h

theorem memOk_vin12Loss (h : d.MemOk) : (vin12Loss d).MemOk := memOk_ite (memOk_reset_ h) h

theorem memOk_supplyValid {vin12 vaux33 up} (h : d.MemOk) : (supplyValid d vin12 vaux33 up).MemOk :=
  memOk_bringUp h

theorem memOk_resetNAssert {len} (h : d.MemOk) : (resetNAssert d len).MemOk :=
  memOk_ite (memOk_reset_ (memOk_fresh h)) (memOk_fresh h)

theorem memOk_resetNRelease {up} (h : d.MemOk) : (resetNRelease d up).MemOk := memOk_bringUp h

theorem memOk_pcieReset (h : d.MemOk) : (pcieReset d).MemOk := memOk_ite h h

theorem memOk_endpointDown (h : d.MemOk) : d.endpointDown.MemOk :=
  memOk_ite h (memOk_with (memOk_foldl h fun _ _ he => memOk_ite (memOk_modPort he) he))

theorem memOk_perstNAssert (h : d.MemOk) : (perstNAssert d).MemOk := memOk_endpointDown h

theorem memOk_perstNRelease {q} (h : d.MemOk) : (perstNRelease d q).MemOk :=
  memOk_ite (memOk_trainPcie h) h

theorem memOk_lrefclkLoss {e} (h : d.MemOk) : (lrefclkLoss d e).MemOk :=
  memOk_foldl (memOk_failEdgePorts h) fun _ _ he => memOk_modPort he

theorem memOk_prefclkLoss (h : d.MemOk) : (prefclkLoss d).MemOk := memOk_endpointDown h

theorem memOk_restartBench {k} (h : d.MemOk) : (d.restartBench k).MemOk := by
  unfold Dev.restartBench
  extract_lets b bench fresh e m
  have he : e.MemOk := memOk_setBench (memOk_fresh (memOk_fresh h)) ⟨rfl, rfl, rfl⟩
  refine memOk_ite he ?_
  split
  · exact he
  · refine memOk_modBench ?_ fun _ hb => hb
    exact memOk_foldl (memOk_placeBench he) fun _ _ hx => memOk_ite hx (memOk_placeInit hx)

theorem memOk_benchLost {k} (h : d.MemOk) : (d.benchLost k).MemOk := memOk_unitDiscard h

theorem memOk_takeSpare {k spareOk} (h : d.MemOk) : (d.takeSpare k spareOk).MemOk := by
  unfold Dev.takeSpare
  extract_lets c r failed
  split
  · exact memOk_loseCabinet h
  · split
    · exact memOk_loseCabinet (memOk_syncRow (memOk_setSteer (memOk_benchTest (memOk_with h))))
    · exact memOk_floorCheck (memOk_setDom (memOk_syncRow (memOk_restartBench
        (memOk_setSteer (memOk_with h)))))

theorem memOk_spareSwap {k spareOk} (h : d.MemOk) : (spareSwap d k spareOk).MemOk :=
  memOk_ite h (memOk_takeSpare (memOk_benchLost h))

theorem memOk_bundleWithErrors {k errs spareOk} (h : d.MemOk) :
    (bundleWithErrors d k errs spareOk).MemOk := by
  unfold bundleWithErrors
  extract_lets e
  have he : e.MemOk := memOk_foldl h fun _ _ hx => memOk_sramError hx
  exact memOk_ite h <|
    memOk_ite (memOk_takeSpare (memOk_bundleIssue (memOk_benchLost he))) (memOk_bundleIssue he)

theorem memOk_failLive {u} (h : d.MemOk) : (d.failLive u).MemOk := by
  unfold Dev.failLive
  split
  · split
    · exact memOk_spareSwap (memOk_benchTest h)
    · exact memOk_failUnit h
  · exact memOk_loseDrawer (memOk_unitRecord h)
  · exact memOk_loseChannel (memOk_unitRecord h)
  · exact memOk_failUnit h

theorem memOk_drawerLost {c n fails} (h : d.MemOk) : (drawerLost d c n fails).MemOk := by
  have hlost := memOk_loseDrawer (c := c) (n := n) h
  unfold drawerLost
  generalize d.loseDrawer c n = e at hlost ⊢
  exact memOk_ite hlost (memOk_foldl (memOk_with hlost) fun _ _ hx => memOk_failLive hx)

theorem memOk_drawerWork {c i n op f} {work : Dev} (h : d.MemOk) (h1 : work.MemOk) :
    (drawerWork d c i n op f work).MemOk := memOk_ite (memOk_drawerLost h) h1

theorem memOk_loadIr {i up} (h : d.MemOk) : (d.loadIr i up).MemOk :=
  memOk_ite (memOk_ite h (memOk_reset_ h)) (memOk_ite (memOk_bringUp h) h)

theorem memOk_samplePreload {up} (h : d.MemOk) : (samplePreload d up).MemOk :=
  memOk_loadIr (memOk_fresh (memOk_with h))

theorem memOk_loadCode {code up} (h : d.MemOk) : (loadCode d code up).MemOk :=
  memOk_ite (memOk_samplePreload h) (memOk_loadIr h)

theorem memOk_trstNAssert {up} (h : d.MemOk) : (trstNAssert d up).MemOk := memOk_loadIr h

theorem memOk_spdmSet {t c a} (h : d.MemOk) : (d.spdmSet t c a).MemOk := by
  unfold Dev.spdmSet
  split <;> exact h

theorem memOk_spdmRequest {t q} (h : d.MemOk) : (spdmRequest d t q).MemOk := by
  refine memOk_ite h (memOk_ite (memOk_spdmSet h) ?_)
  split
  · exact memOk_spdmSet h
  · exact memOk_ite (memOk_spdmSet h) (memOk_ite (memOk_spdmSet h) (memOk_spdmSet h))
  · exact memOk_ite (memOk_spdmSet h) (memOk_spdmSet h)
  · exact memOk_ite (memOk_spdmSet h) (memOk_spdmSet h)
  · exact memOk_ite (memOk_spdmSet h) (memOk_ite (memOk_spdmSet h) (memOk_spdmSet h))
  · exact memOk_ite (memOk_spdmSet h) (memOk_ite (memOk_spdmSet h) (memOk_spdmSet (memOk_fresh h)))
  · exact memOk_ite (memOk_spdmSet h) <|
      memOk_ite (memOk_spdmSet h) <| memOk_ite (memOk_spdmSet (memOk_fresh h)) <|
      memOk_ite (memOk_spdmSet (memOk_fresh h)) (memOk_spdmSet h)
  · exact memOk_spdmSet h

theorem memOk_sideAnswer {a} (h : d.MemOk) : (d.sideAnswer a).MemOk := h

theorem memOk_sideReply {base a} (h : d.MemOk) : (d.sideReply base a).MemOk :=
  memOk_ite (memOk_sideAnswer h) h

theorem memOk_entdaa {addr} (h : d.MemOk) : (entdaa d addr).MemOk :=
  memOk_ite (memOk_sideAnswer h) h

theorem memOk_setEndpointId {eid} (h : d.MemOk) : (setEndpointId d eid).MemOk :=
  memOk_ite (memOk_sideAnswer h) h

theorem memOk_getEndpointId (h : d.MemOk) : (getEndpointId d).MemOk := memOk_sideReply h

theorem memOk_getMessageTypeSupport (h : d.MemOk) : (getMessageTypeSupport d).MemOk :=
  memOk_sideReply h

theorem memOk_getMctpVersionSupport {type} (h : d.MemOk) : (getMctpVersionSupport d type).MemOk :=
  memOk_sideReply h

theorem memOk_gettid (h : d.MemOk) : (gettid d).MemOk := memOk_sideReply h

theorem memOk_getpldmtypes (h : d.MemOk) : (getpldmtypes d).MemOk := memOk_sideReply h

theorem memOk_getpldmcommands {t} (h : d.MemOk) : (getpldmcommands d t).MemOk := memOk_sideReply h

theorem memOk_getpldmversion {t} (h : d.MemOk) : (getpldmversion d t).MemOk := memOk_sideReply h

theorem memOk_getsensorreading {id} (h : d.MemOk) : (getsensorreading d id).MemOk :=
  memOk_sideReply h

theorem memOk_getstatesensorreadings {id} (h : d.MemOk) : (getstatesensorreadings d id).MemOk :=
  memOk_sideReply h

theorem memOk_getpdr {handle} (h : d.MemOk) : (getpdr d handle).MemOk := memOk_sideReply h

theorem memOk_getpdrrepositoryinfo (h : d.MemOk) : (getpdrrepositoryinfo d).MemOk :=
  memOk_sideReply h

theorem memOk_pollforplatformeventmessage (h : d.MemOk) :
    (pollforplatformeventmessage d).MemOk := by
  refine memOk_ite h ?_
  split <;> exact memOk_sideAnswer h

theorem memOk_eventmessagebuffersize {size} (h : d.MemOk) : (eventmessagebuffersize d size).MemOk :=
  memOk_ite (memOk_sideAnswer h) h

theorem memOk_obsPresent (h : d.MemOk) : (d.obsPresent).MemOk := memOk_fresh h

theorem memOk_obsDiffers (h : d.MemOk) : (d.obsDiffers).MemOk :=
  memOk_ite (memOk_fresh h) (memOk_obsPresent h)

theorem memOk_obsAckRise (h : d.MemOk) : (obsAckRise d).MemOk := h

theorem memOk_obsAckFall (h : d.MemOk) : (obsAckFall d).MemOk :=
  memOk_ite h (memOk_ite (memOk_obsPresent h) (memOk_ite (memOk_obsDiffers h) h))

theorem memOk_obsSampleOnChange (h : d.MemOk) : (obsSampleOnChange d).MemOk :=
  memOk_ite h (memOk_ite (memOk_obsDiffers h) h)

theorem memOk_writeObsCtl {v} (h : d.MemOk) : (writeObsCtl v d).1.MemOk :=
  memOk_ite h (memOk_ite (memOk_obsPresent h) h)

end Sys2Proof.Machine
end

/-! ## The registers and the host bridge keep the stores -/

section
namespace Sys2Proof.Machine
variable {d : Dev}

theorem memOk_regTouch {r} (h : d.MemOk) : (d.regTouch r).MemOk := by
  unfold Dev.regTouch
  split
  · exact memOk_ite (memOk_benchFaultRead h) h
  · exact memOk_ite (memOk_setDrw h) h
  · exact h

theorem memOk_writeIlv {s i v} (h : d.MemOk) : (writeIlv s i v d).1.MemOk :=
  memOk_ite_fst (memOk_regRefused h) (memOk_setStk h (wf_stk h))

theorem memOk_writeClassCtl {s v} (h : d.MemOk) : (writeClassCtl s v d).1.MemOk :=
  memOk_ite_fst (memOk_regRefused h) (memOk_setStk h (wf_stk h))

theorem memOk_writeScrubCtl {s v} (h : d.MemOk) : (writeScrubCtl s v d).1.MemOk :=
  memOk_setStk h (wfStack_ite (wf_stk h) (wf_stk h))

theorem memOk_drwRegRefused {c o} (h : d.MemOk) : (d.drwRegRefused c o).MemOk := memOk_drwRefused h

theorem memOk_writeDrwMode {c v} (h : d.MemOk) : (writeDrwMode c v d).1.MemOk :=
  memOk_ite_fst (memOk_drwRegRefused h) (memOk_setDrw h)

theorem memOk_writeFallback {c v} (h : d.MemOk) : (writeFallback c v d).1.MemOk :=
  memOk_ite_fst (memOk_drwRegRefused h) (memOk_setDrw h)

theorem memOk_writeMirror {c v} (h : d.MemOk) : (writeMirror c v d).1.MemOk :=
  memOk_ite_fst (memOk_drwRegRefused h) (memOk_setDrw h)

theorem memOk_drwClr {c} (h : d.MemOk) : (drwClr c d).MemOk := memOk_setDrw h

theorem memOk_writeSteer {c v} (h : d.MemOk) : (writeSteer c v d).1.MemOk :=
  memOk_ite_fst (memOk_foldl (memOk_setCab h) fun _ _ he => memOk_resteerRow he) h

theorem memOk_writeSeqBase {result v} (h : d.MemOk) : (writeSeqBase result v d).1.MemOk :=
  memOk_ite_fst (memOk_regRefused h) (memOk_ite_fst h h)

theorem memOk_writeSeqCtl {v} (h : d.MemOk) : (writeSeqCtl v d).1.MemOk := h

theorem memOk_edRead {a n} (h : d.MemOk) : (d.edRead a n).1.MemOk := by
  unfold Dev.edRead
  split
  · dsimp only
    split
    · exact h
    · exact memOk_touchStk (memOk_arrive h)
  · dsimp only
    split
    · exact h
    · exact memOk_touchSb (memOk_arrive h)
  · exact h

theorem memOk_cmpRefused {code} (h : d.MemOk) : (d.cmpRefused code).MemOk := memOk_regRefused h

theorem memOk_cmpLoadNow (h : d.MemOk) : (cmpLoadNow d).1.MemOk := by
  refine memOk_ite_fst (memOk_cmpRefused h) ?_
  split
  · rename_i hread
    exact memOk_cmpRefused (memOk_of_fst hread (memOk_edRead h))
  · rename_i hread
    have he := memOk_of_fst hread (memOk_edRead h)
    refine memOk_ite_fst h ?_
    dsimp only
    split
    · exact memOk_cmpRefused he
    · refine memOk_ite_fst (memOk_cmpRefused he) ?_
      split
      · exact memOk_cmpRefused he
      · exact he

theorem memOk_writeCmpCtl {v} (h : d.MemOk) : (writeCmpCtl v d).1.MemOk :=
  memOk_ite (memOk_cmpLoadNow h) h

theorem memOk_resumeCmp (h : d.MemOk) : (d.resumeCmp).MemOk := memOk_ite (memOk_cmpLoadNow h) h

theorem memOk_clearBelow {id} (h : d.MemOk) : (clearBelow id d).MemOk := memOk_setDom h

theorem memOk_regEffect {path r v up} (h : d.MemOk) : (d.regEffect path r v up).1.MemOk := by
  cases r with
  | resetCtl => exact memOk_ite (memOk_warmReset h) h
  | repairCtl => exact memOk_ite_fst h h
  | faultSummary => exact memOk_ite h h
  | planBase => exact memOk_writePlanBase h
  | planCtl => exact memOk_writePlanCtl h
  | fillCtl => exact memOk_writeFillCtl h
  | cmdBase | resultBase => exact memOk_writeSeqBase h
  | seqCtl => exact memOk_writeSeqCtl h
  | flogBase => exact memOk_writeFlogBase h
  | flogCtl => exact memOk_writeFlogCtl h
  | flogHead => exact memOk_writeFlogHead h
  | hmbBase => exact memOk_writeHmbBase h
  | hmbCtl => exact memOk_writeHmbCtl h
  | hmbHead => exact memOk_writeHmbHead h
  | cmpCtl => exact memOk_writeCmpCtl h
  | suiteCtl => exact memOk_bootAdvance (memOk_writeSuiteCtl h)
  | obsCtl => exact memOk_writeObsCtl h
  | fwCtl => exact memOk_writeFwCtl h
  | pwrCap => exact memOk_writePwrCap h
  | domCtl => exact memOk_writeDomCtl h
  | domStatus => exact memOk_ite (memOk_clearBelow h) h
  | snsStatus => exact memOk_ite (memOk_suspectClear h) h
  | portCtl => exact memOk_writePortCtl h
  | classCtl => exact memOk_writeClassCtl h
  | scrubCtl => exact memOk_writeScrubCtl h
  | ilv => exact memOk_writeIlv h
  | rowSteer => exact memOk_writeSteer h
  | aow => exact memOk_writeAow h
  | drwMode => exact memOk_writeDrwMode h
  | drwCtl => exact memOk_ite (memOk_drwClr h) h
  | drwFallback => exact memOk_writeFallback h
  | drwLastFault => exact memOk_ite (memOk_setDrw h) h
  | drwMirror => exact memOk_writeMirror h
  | benchCtl => exact memOk_heedLeader (memOk_writeBenchCtl h)
  | benchFault => exact memOk_writeBenchFault h
  | inboxQ => exact memOk_writeInboxQ h
  | matCtl => exact memOk_ite (memOk_matClrCounts h) h
  | shelfCtl => exact memOk_writeShelfCtl h
  | shelfStatus => exact memOk_writeShelfStatus h
  | copyCtl => exact memOk_ite (memOk_copyClrCounts h) h
  | traceCtl => exact memOk_writeTraceCtl h
  | _ => exact h

theorem memOk_journalWrite {path applied wide off old new} (h : d.MemOk) :
    (d.journalWrite path applied wide off old new).MemOk := h

theorem memOk_regArrive {path r} (h : d.MemOk) : (d.regArrive path r).MemOk := by
  unfold Dev.regArrive
  dsimp only
  split
  · exact h
  · exact memOk_arrive h
  · exact memOk_ite h (memOk_arrive h)

theorem memOk_regPiece {path r off sh n x up} (h : d.MemOk) :
    (d.regPiece path r off sh n x up).MemOk := by
  unfold Dev.regPiece
  extract_lets e m sel w old v live entry
  have he : e.MemOk := memOk_regArrive h
  have hentry {x : Dev} {applied new} (hx : x.MemOk) : (entry x applied new).MemOk :=
    memOk_ite hx (memOk_journalWrite hx)
  exact memOk_ite (hentry he) <| memOk_ite (memOk_regEffect (hentry he)) <|
    hentry (memOk_regEffect he)

theorem memOk_regWriteUp {path off wide v up} (h : d.MemOk) :
    (d.regWriteUp path off wide v up).MemOk := by
  refine memOk_ite h (memOk_ite (memOk_journalWrite h) (memOk_ite ?_ ?_))
  · split
    · exact memOk_regPiece h
    · exact memOk_journalWrite h
  · split
    · refine memOk_ite (memOk_regPiece h) ?_
      split
      · exact memOk_regPiece (memOk_regPiece h)
      · exact memOk_regPiece h
    · split
      · exact memOk_regPiece h
      · exact memOk_journalWrite h

theorem memOk_regWrite {path off wide v} (h : d.MemOk) : (d.regWrite path off wide v).MemOk :=
  memOk_regWriteUp h

theorem memOk_regRead32 {path off} (h : d.MemOk) : (d.regRead32 path off).1.MemOk := by
  unfold Dev.regRead32
  split
  · exact memOk_regTouch (memOk_regArrive h)
  · exact h

theorem memOk_regRead {path off wide} (h : d.MemOk) : (d.regRead path off wide).1.MemOk := by
  refine memOk_ite_fst h (memOk_ite_fst (memOk_regRead32 h) ?_)
  split
  · exact memOk_ite_fst (memOk_regTouch (memOk_regArrive h)) (memOk_regRead32 (memOk_regRead32 h))
  · exact memOk_regRead32 h

theorem memOk_hostRefused {code addr} (h : d.MemOk) : (d.hostRefused code addr).MemOk :=
  memOk_with (memOk_unitRecord h)

theorem memOk_complete {c} (h : d.MemOk) : (d.complete c).MemOk := h

theorem memOk_readRefused {code addr} (h : d.MemOk) : (d.readRefused code addr).MemOk :=
  memOk_complete (memOk_hostRefused h)

theorem wf_regionMem {b : Bench} {r} (h : b.MemOk) : (b.regionMem r).wf = true :=
  wf_ite h.1 (wf_ite h.2.1 h.2.2)

theorem benchOk_setRegion {b : Bench} {r} {m : Mem} (h : b.MemOk) (h1 : m.wf = true) :
    (b.setRegion r m).MemOk :=
  benchOk_ite ⟨h1, h.2.1, h.2.2⟩ (benchOk_ite ⟨h.1, h1, h.2.2⟩ ⟨h.1, h.2.1, h1⟩)

theorem memOk_hostFetch {addr n} (h : d.MemOk) : (d.hostFetch addr n).1.MemOk := by
  unfold Dev.hostFetch
  split
  · dsimp only
    split
    · exact h
    · exact memOk_touchStk (memOk_arrive h)
  · dsimp only
    split
    · exact h
    · exact memOk_touchSb (memOk_arrive h)
  · dsimp only
    split
    · exact h
    · exact memOk_arrive h
  · exact memOk_ite_fst (memOk_regRead h) h
  · exact h

theorem memOk_hostStore {addr data poisoned} (h : d.MemOk) :
    (d.hostStore addr data poisoned).1.MemOk := by
  unfold Dev.hostStore
  split
  · dsimp only
    split
    · exact h
    · exact memOk_updStk (memOk_arrive h) fun hx => wfStack_accept hx
  · dsimp only
    split
    · exact h
    · exact memOk_sbWrite (memOk_touchSb (memOk_arrive h))
  · dsimp only
    split
    · exact h
    · exact memOk_modBench (memOk_arrive h) fun _ hb => benchOk_setRegion hb (Mem.wf_store _ _ _
        (wf_regionMem hb))
  · exact memOk_ite_fst (memOk_regWrite h) h
  · exact h

theorem memOk_readNow {w off len log2} (h : d.MemOk) : (d.readNow w off len log2).MemOk := by
  unfold Dev.readNow
  split
  · exact memOk_ite (memOk_complete (memOk_regRead h)) (memOk_readRefused h)
  · refine memOk_ite (memOk_readRefused h) ?_
    split
    · exact memOk_readRefused h
    · split
      · exact memOk_readRefused h
      · exact h
      · split
        · rename_i hfetch
          exact memOk_readRefused (memOk_of_fst hfetch (memOk_hostFetch h))
        · rename_i hfetch
          exact memOk_complete (memOk_of_fst hfetch (memOk_hostFetch h))
  · exact memOk_ite (memOk_complete h) (memOk_readRefused h)
  · split
    · rename_i hfetch
      exact memOk_sendSuite (memOk_of_fst hfetch (memOk_hostFetch h))
    · rename_i hfetch
      exact memOk_sendSuite (memOk_of_fst hfetch (memOk_hostFetch h))

theorem memOk_writeNow {w off data poisoned log2} (h : d.MemOk) :
    (d.writeNow w off data poisoned log2).MemOk := by
  unfold Dev.writeNow
  dsimp only
  split
  · exact memOk_ite (memOk_regWrite h) (memOk_hostRefused h)
  · refine memOk_ite (memOk_hostRefused h) ?_
    split
    · exact memOk_hostRefused h
    · split
      · exact memOk_hostRefused h
      · exact h
      · split
        · rename_i hstore
          exact memOk_hostRefused (memOk_of_fst hstore (memOk_hostStore h))
        · rename_i hstore
          exact memOk_of_fst hstore (memOk_hostStore h)
  · exact memOk_hostRefused h
  · split
    · rename_i hstore
      exact memOk_sendSuite (memOk_of_fst hstore (memOk_hostStore h))
    · rename_i hstore
      exact memOk_of_fst hstore (memOk_hostStore h)

theorem memOk_performStks {p} (h : d.MemOk) : (d.performStks p).MemOk :=
  memOk_foldl h fun _ _ he => memOk_ite (memOk_drainStk he) he

theorem memOk_performHost (h : d.MemOk) : (d.performHost).MemOk := memOk_performStks h

theorem memOk_performAll (h : d.MemOk) : (d.performAll).MemOk :=
  memOk_foldl (memOk_performStks h) fun _ _ he => memOk_ite he (memOk_drainDrawerPort he)

theorem memOk_doorbellHere {result v} (h : d.MemOk) : (d.doorbellHere result v).MemOk :=
  memOk_ite (memOk_writeResultHead h) (memOk_writeCmdTail h)

theorem memOk_bellNow {dev result v} (h : d.MemOk) : (d.bellNow dev result v).MemOk := by
  unfold Dev.bellNow
  split
  · exact memOk_hostRefused h
  · exact memOk_doorbellHere h
  · exact h

theorem memOk_hostPrep {a} (h : d.MemOk) : (d.hostPrep a).MemOk := by
  unfold Dev.hostPrep
  split
  · exact memOk_ite (memOk_performHost h) h
  · exact memOk_performHost h
  · exact memOk_ite (memOk_performHost h) h
  · exact memOk_performAll h
  · exact memOk_performAll h
  · exact h
  · exact h
  · exact h
  · exact h

theorem memOk_hostNow {a} (h : d.MemOk) : (d.hostNow a).MemOk := by
  unfold Dev.hostNow
  split
  · exact memOk_readNow h
  · exact memOk_writeNow h
  · exact memOk_regWriteUp h
  · exact memOk_complete (memOk_regRead h)
  · exact memOk_readNow h
  · exact memOk_bellNow h
  · exact memOk_sendSuite h
  · exact memOk_fenceSuiteMarker h
  · exact memOk_sendSuite h

theorem memOk_hostWait {a} (h : d.MemOk) : (d.hostWait a).1.MemOk := by
  unfold Dev.hostWait
  split
  · exact memOk_sendSuite h
  · split
    · exact memOk_sendSuite h
    · exact h
  · exact h

theorem memOk_serve {as} (h : d.MemOk) : (d.serve as).MemOk := by
  induction as generalizing d with
  | nil => exact h
  | cons a t ih =>
    have hprep : (d.hostPrep a).MemOk := memOk_hostPrep h
    exact memOk_ite (memOk_with (memOk_hostWait hprep)) (ih (memOk_hostNow hprep))

theorem memOk_hostArrives {a} (h : d.MemOk) : (d.hostArrives a).MemOk :=
  memOk_ite (memOk_serve h) (memOk_serve h)

theorem memOk_resumeHost (h : d.MemOk) : (d.resumeHost).MemOk := memOk_ite h (memOk_serve h)

theorem memOk_resumeReads (h : d.MemOk) : (d.resumeReads).MemOk :=
  memOk_resumeHost (memOk_resumeLoad (memOk_resumeCmp h))

theorem memOk_windowDrop {p} (h : d.MemOk) : (d.windowDrop p).MemOk :=
  memOk_portRecord (memOk_countDropped h)

/-- The device that the checks of an arriving flit leave, whether they pass it or not. -/
def classHDev : Except Dev Dev → Dev
  | .ok d => d
  | .error d => d

theorem classHDev_ite {c : Prop} [Decidable c] {r r' : Except Dev Dev} (h : (classHDev r).MemOk)
    (h' : (classHDev r').MemOk) : (classHDev (if c then r else r')).MemOk := by
  split <;> assumption

theorem memOk_classH {v n bad request} (h : d.MemOk) :
    (classHDev (d.classH v n bad request)).MemOk := by
  unfold Dev.classH
  extract_lets p x
  refine classHDev_ite h (classHDev_ite (memOk_protocol h) ?_)
  refine classHDev_ite (memOk_tellAuth (memOk_countDropped h)) ?_
  refine classHDev_ite (memOk_tellRate (memOk_countDropped h)) ?_
  have hcredit {y} : (d.setPort p y).MemOk := memOk_setPort h
  exact classHDev_ite (memOk_protocol hcredit) (classHDev_ite (memOk_countDropped hcredit)
    (classHDev_ite (memOk_windowDrop hcredit) hcredit))

theorem memOk_viaLink {v n request f} (h : d.MemOk) (hf : ∀ e : Dev, e.MemOk → (f e).MemOk) :
    (d.viaLink v n request f).MemOk := by
  have hclass := memOk_classH (v := v) (n := n) (bad := false) (request := request) h
  unfold Dev.viaLink
  generalize d.classH v n false request = r at hclass ⊢
  cases r with
  | error e => exact hclass
  | ok e => exact hf e hclass

theorem memOk_linkArrives {v a n write acc} (h : d.MemOk) :
    (d.linkArrives v a n write acc).MemOk := by
  unfold Dev.linkArrives
  extract_lets bad
  have hclass := memOk_classH (v := v) (n := hostFlits (if write then n else 0)) (bad := bad)
    (request := true) h
  generalize d.classH v _ bad true = r at hclass ⊢
  cases r with
  | error e => exact hclass
  | ok e => exact memOk_ite (memOk_sendSuite (memOk_windowDrop hclass)) (memOk_hostArrives hclass)

theorem memOk_hostRead {w off len} (h : d.MemOk) : (hostRead d w off len).MemOk := by
  unfold hostRead
  split
  · exact memOk_linkArrives h
  · exact memOk_ite (memOk_hostArrives h) h
  · exact memOk_ite (memOk_hostArrives h) h

theorem memOk_doorbell {dev via result v} (h : d.MemOk) : (doorbell d dev via result v).MemOk := by
  cases via with
  | none => exact memOk_ite (memOk_hostArrives h) h
  | some w => exact memOk_viaLink h fun _ he => memOk_ite (memOk_hostArrives he) he

theorem memOk_hostWrite {w off data poisoned} (h : d.MemOk) :
    (hostWrite d w off data poisoned).MemOk := by
  unfold hostWrite
  split
  · exact memOk_linkArrives h
  · exact memOk_ite h (memOk_ite (memOk_doorbell h) (memOk_hostArrives h))

theorem memOk_suiteMarker {m} (h : d.MemOk) : (suiteMarker d m).MemOk := by
  unfold suiteMarker
  split
  · exact memOk_ite (memOk_hostArrives h) h
  · exact memOk_viaLink h fun _ he => memOk_ite he (memOk_hostArrives he)
  · exact memOk_viaLink h fun _ he => memOk_ite (memOk_hostArrives he) he
  · exact memOk_viaLink h fun _ he => memOk_ite he (memOk_hostArrives he)
  · exact memOk_viaLink h fun _ he => memOk_ite (memOk_resumeHost (memOk_with he)) he

theorem memOk_interruptRequest {vector v} (h : d.MemOk) : (interruptRequest d vector v).MemOk :=
  memOk_viaLink h fun _ he => memOk_ite he he

theorem memOk_hostReadTimeout {idx} (h : d.MemOk) : (hostReadTimeout d idx).MemOk :=
  memOk_ite (memOk_complete h) h

theorem memOk_hostAnswer {a ok data poisoned} (h : d.MemOk) :
    (hostAnswer d a ok data poisoned).MemOk := by
  unfold hostAnswer
  split
  · split
    · exact memOk_ite h (memOk_hostRefused h)
    · exact h
  · split
    · exact memOk_ite (memOk_complete h) (memOk_readRefused h)
    · exact memOk_ite h h

theorem memOk_hostReadCompletion {a v ok data poisoned} (h : d.MemOk) :
    (hostReadCompletion d a v ok data poisoned).MemOk :=
  memOk_viaLink h fun _ he => memOk_hostAnswer he

theorem memOk_w2Resize {w} (h : d.MemOk) : (w2Resize d w).MemOk := by
  refine memOk_ite h ?_
  split
  · exact memOk_ite h h
  · exact h

theorem memOk_regReadCommand {off wide} (h : d.MemOk) : (regReadCommand d off wide).MemOk :=
  memOk_ite h (memOk_ite (memOk_sideAnswer h) (memOk_sideAnswer (memOk_regRead h)))

theorem memOk_regWriteCommand {off wide v} (h : d.MemOk) : (regWriteCommand d off wide v).MemOk :=
  memOk_ite h (memOk_ite (memOk_sideAnswer h) (memOk_regReadCommand (memOk_regWrite h)))

theorem memOk_writeRegUp {path off wide v up} (h : d.MemOk) :
    (writeRegUp d path off wide v up).MemOk := memOk_ite (memOk_hostArrives h) (memOk_regWriteUp h)

theorem memOk_writeReg {path off wide v} (h : d.MemOk) : (writeReg d path off wide v).MemOk :=
  memOk_writeRegUp h

theorem memOk_readReg32 {path off} (h : d.MemOk) : (readReg32 d path off).MemOk := by
  refine memOk_ite h ?_
  split
  · exact memOk_hostArrives h
  · exact memOk_sideAnswer (memOk_regRead h)
  · exact memOk_regRead h

theorem memOk_registerWrite {path off wide v} (h : d.MemOk) :
    (registerWrite d path off wide v).MemOk :=
  memOk_ite (memOk_writeReg h) (memOk_ite (memOk_hostArrives h) h)

end Sys2Proof.Machine
end

/-! ## O3: every command keeps the stores -/

section
namespace Sys2Proof.Machine
variable {d : Dev}

/-- A command that leaves a device with canonical stores goes on in such a state. -/
theorem done_memOk {s : State} {e : Dev} (he : e.MemOk) : ∀ t, done s e = .next t → t.MemOk := by
  intro t ht
  cases ht
  exact he

/-- Every command keeps the addressed stores of the device canonical. -/
theorem exec_memOk {s : State} (c : Sys2Proof.Instr) (h : s.MemOk) :
    ∀ t, exec c s = .next t → t.MemOk := by
  cases c with
  | bundleIssue => exact done_memOk (memOk_bundleWithErrors h)
  | mma | mpush | msta | mlda | mldb | vld | vst | ldx | stx | move | copyGather | scatter | tally |
    cwait | fence | atom | vpop | vsetl | vfma | vbin | vun | vred | vscan | vsegscan | vbcast |
    send | recv | poll | nop | movi | addi | alu | br | brc | brx | seta | geta | setn | gets |
    stepend | halt => exact done_memOk (memOk_slotCommand h)
  | copyComplete => exact done_memOk (memOk_copyComplete h)
  | mpushBackpressureAdmit => exact done_memOk (memOk_admitMpush h)
  | vpopRowsArrive => exact done_memOk (memOk_vpopRows h)
  | messageArrival => exact done_memOk (memOk_messageArrival h)
  | destFencedReturn => exact done_memOk (memOk_settle (memOk_destFencedReturn h))
  | hostMailboxRecord => exact done_memOk (memOk_hostMailboxRecord h)
  | sideboardWriteMessage src dev =>
    refine done_memOk (memOk_settle ?_)
    cases dev with
    | none => exact memOk_sideboardWriteMessage h
    | some n => exact memOk_sideboardWriteAway h
  | drawerRequest => exact done_memOk (memOk_drawerRequest h)
  | attend | gather | update => exact done_memOk (memOk_drawerWork h (memOk_bankWork h))
  | append => exact done_memOk (memOk_drawerWork h (memOk_append h))
  | drawerCompletion => exact done_memOk (memOk_drawerCompletion h)
  | fallbackAnswer => exact done_memOk (memOk_fallbackAnswer h)
  | mirrorAppendAnswer => exact done_memOk (memOk_mirrorAppendAnswer h)
  | commit | abandon => exact done_memOk (memOk_drwCommit h)
  | activityCeilingAdjust => exact done_memOk (memOk_adjustCeiling h)
  | drawerLost => exact done_memOk (memOk_drawerLost h)
  | refreshPerform => exact done_memOk (memOk_refreshPerform h)
  | writeBatchDrain => exact done_memOk (memOk_writeBatchDrain h)
  | writeBatchAge => exact done_memOk (memOk_writeBatchAge h)
  | patrolScrub => exact done_memOk (memOk_patrolScrub h)
  | channelRetrain => exact done_memOk (memOk_resumeReads (memOk_channelRetrain h))
  | channelHoldEnd => exact done_memOk (memOk_resumeReads (memOk_channelHoldEnd h))
  | channelRepairHandover => exact done_memOk (memOk_channelRepairHandover h)
  | channelLost => exact done_memOk (memOk_resumeReads (memOk_channelLost h))
  | drawerPortDrain => exact done_memOk (memOk_drawerPortDrain h)
  | drainMarker => exact done_memOk (memOk_drainMarker h)
  | fenceSuiteMarker => exact done_memOk (memOk_suiteMarker h)
  | spareSwap => exact done_memOk (memOk_spareSwap h)
  | fillStart | stkIlvWrite | stkClassCtlWrite | sbAowWrite | drwModeWrite | drwMirrorWrite |
    drwFallbackWrite | devPlanBaseWrite | load | unload | start | haltReq | resume | clearFault |
    inboxFlush | benchClrCounts | inboxQWrite | rowSteerWrite | matClrCounts | flush |
    shelfModeWrite | shelfClrCounts | copyClrCounts | drwClrCounts | hmbBaseWrite | hmbHeadWrite |
    hmbClrCounts | seqBaseWrite | seqClrCounts | flogBaseWrite | flogHeadWrite | flogClrCounts |
    cmpLoad | cmpClrCounts | scrubClrCounts | portClrCounts | pwrClrCounts | sensorSuspectClear |
    domainReqOn | domainReqRetention | domainReqOff | retrain | portEnableWrite | credCommit |
    discover | restoreRoutes | program | finish | abort | revoke | advanceSvn | resetMap |
    trigArm => exact done_memOk (memOk_writeReg h)
  | fillComplete => exact done_memOk (memOk_fillComplete h)
  | unloadStepTimeout => exact done_memOk (memOk_unloadStepTimeout h)
  | benchFaultRead => exact done_memOk (memOk_readReg32 h)
  | registerWrite => exact done_memOk (memOk_registerWrite h)
  | domainEntryComplete => exact done_memOk (memOk_domainEntryComplete h)
  | domainOnComplete => exact done_memOk (memOk_domainOnComplete h)
  | regulatorSample => exact done_memOk (memOk_regulatorSample h)
  | sensorReading => exact done_memOk (memOk_sensorReading h)
  | throttleLoop => exact done_memOk (memOk_throttleLoop h)
  | powerCapLoop => exact done_memOk (memOk_powerCapLoop h)
  | cmdTailDoorbell | resultHeadDoorbell => exact done_memOk (memOk_doorbell h)
  | submit => exact done_memOk (memOk_submit h)
  | ready => exact done_memOk (memOk_ready h)
  | reissue => exact done_memOk (memOk_reissue h)
  | cancel => exact done_memOk (memOk_cancel h)
  | deadline => exact done_memOk (memOk_deadline h)
  | prefixDefine => exact done_memOk (memOk_prefixDefine h)
  | prefixRelease => exact done_memOk (memOk_prefixRelease h)
  | adapterLoad => exact done_memOk (memOk_adapterLoad h)
  | tile => exact done_memOk (memOk_tile h)
  | tileCancel => exact done_memOk (memOk_tileCancel h)
  | badOpcode => exact done_memOk (memOk_badOpcode h)
  | stepAdmission => exact done_memOk (memOk_stepAdmission h)
  | tileDispatch => exact done_memOk (memOk_tileDispatch h)
  | tileCompletion => exact done_memOk (memOk_tileCompletion h)
  | tokenReport => exact done_memOk (memOk_tokenReport h)
  | stepCommitDecision => exact done_memOk (memOk_stepCommitDecision h)
  | stepDiscard => exact done_memOk (memOk_stepDiscard h)
  | benchStepDiscard => exact done_memOk (memOk_benchDiscard h)
  | followerSlotTable => exact done_memOk (memOk_followerSlotTable h)
  | followerReport => exact done_memOk (memOk_followerReport h)
  | followerDecision => exact done_memOk (memOk_followerDecision h)
  | stepWatchdogExpiry => exact done_memOk (memOk_stepWatchdogExpiry h)
  | faultLogRecord => exact done_memOk (memOk_faultLogRecord h)
  | frameReceive => exact done_memOk (memOk_frameReceive h)
  | nak => exact done_memOk (memOk_nak h)
  | laneDrop => exact done_memOk (memOk_laneDrop h)
  | laneLockLoss => exact done_memOk (memOk_laneLockLoss h)
  | replayTimeout => exact done_memOk (memOk_replayTimeout h)
  | portTrain => exact done_memOk (memOk_portTrain h)
  | failedPortRetry => exact done_memOk (memOk_failedPortRetry h)
  | authTimeout => exact done_memOk (memOk_authTimeout h)
  | authRetry => exact done_memOk (memOk_authRetry h)
  | rateWindowRestart => exact done_memOk (memOk_rateWindowRestart h)
  | discoveryStart => exact done_memOk (memOk_bootAdvance (memOk_discoveryStart h))
  | discoverMessage => exact done_memOk (memOk_discoverMessage h)
  | discoveryReport => exact done_memOk (memOk_bootAdvance (memOk_discoveryReport h))
  | discoveryReportTimeout => exact done_memOk (memOk_bootAdvance (memOk_discoveryReportTimeout h))
  | assign => exact done_memOk (memOk_assign h)
  | hostRead => exact done_memOk (memOk_hostRead h)
  | hostWrite => exact done_memOk (memOk_hostWrite h)
  | hostReadTimeout => exact done_memOk (memOk_hostReadTimeout h)
  | interruptRequest => exact done_memOk (memOk_interruptRequest h)
  | pcieReset => exact done_memOk (memOk_pcieReset h)
  | perstNAssert => exact done_memOk (memOk_perstNAssert h)
  | w2Resize => exact done_memOk (memOk_w2Resize h)
  | vaux33Rise => exact done_memOk (memOk_vaux33Rise h)
  | vaux33Loss => exact done_memOk (memOk_vaux33Loss h)
  | vin12Loss => exact done_memOk (memOk_vin12Loss h)
  | supplyValid => exact done_memOk (memOk_supplyValid h)
  | resetNAssert => exact done_memOk (memOk_resetNAssert h)
  | warm => exact done_memOk (memOk_writeRegUp h)
  | lrefclkLoss => exact done_memOk (memOk_lrefclkLoss h)
  | prefclkLoss => exact done_memOk (memOk_prefclkLoss h)
  | obsAckRise => exact done_memOk (memOk_obsAckRise h)
  | obsAckFall => exact done_memOk (memOk_obsAckFall h)
  | extest | idcode | clamp | highz | extestPulse | extestTrain => exact done_memOk (memOk_loadIr h)
  | samplePreload => exact done_memOk (memOk_samplePreload h)
  | bypass => exact done_memOk (memOk_loadCode h)
  | trstNAssert => exact done_memOk (memOk_trstNAssert h)
  | entdaa => exact done_memOk (memOk_entdaa h)
  | regRead => exact done_memOk (memOk_regReadCommand h)
  | regWrite => exact done_memOk (memOk_regWriteCommand h)
  | setEndpointId => exact done_memOk (memOk_setEndpointId h)
  | getEndpointId => exact done_memOk (memOk_getEndpointId h)
  | getMessageTypeSupport => exact done_memOk (memOk_getMessageTypeSupport h)
  | getMctpVersionSupport => exact done_memOk (memOk_getMctpVersionSupport h)
  | gettid => exact done_memOk (memOk_gettid h)
  | getpldmtypes => exact done_memOk (memOk_getpldmtypes h)
  | getpldmcommands => exact done_memOk (memOk_getpldmcommands h)
  | getpldmversion => exact done_memOk (memOk_getpldmversion h)
  | getsensorreading => exact done_memOk (memOk_getsensorreading h)
  | getstatesensorreadings => exact done_memOk (memOk_getstatesensorreadings h)
  | getpdr => exact done_memOk (memOk_getpdr h)
  | getpdrrepositoryinfo => exact done_memOk (memOk_getpdrrepositoryinfo h)
  | pollforplatformeventmessage => exact done_memOk (memOk_pollforplatformeventmessage h)
  | eventmessagebuffersize => exact done_memOk (memOk_eventmessagebuffersize h)
  | spdmRequest => exact done_memOk (memOk_spdmRequest h)
  | planLoadComplete => exact done_memOk (memOk_planLoadComplete h)
  | checkerSelftestComplete => exact done_memOk (memOk_checkerSelftestComplete h)
  | fenceSuiteTimeout => exact done_memOk (memOk_fenceSuiteTimeout h)
  | hostReadCompletion => exact done_memOk (memOk_hostReadCompletion h)
  | assignAcknowledgement => exact done_memOk (memOk_bootAdvance (memOk_assignAcknowledgement h))
  | resetNRelease => exact done_memOk (memOk_resetNRelease h)
  | perstNRelease => exact done_memOk (memOk_perstNRelease h)
  | fuseOperationComplete => exact done_memOk (memOk_fuseOperationComplete h)
  | flashOperationComplete => exact done_memOk (memOk_flashOperationComplete h)
  | obsSampleOnChange => exact done_memOk (memOk_obsSampleOnChange h)

/-- Settles O3: a step runs the command at the queue's front, and each command keeps the stores. -/
theorem memoryStaysCanonical : Obligations.MemoryStaysCanonical := by
  unfold Obligations.MemoryStaysCanonical
  intro s t h hstep
  unfold Steps step at hstep
  split at hstep
  · cases hstep
    exact h
  · rename_i c rest _
    exact exec_memOk (s := { s with pending := rest }) c h t hstep

end Sys2Proof.Machine
end
